-- ==== Sys2Proof/Word.lean ====
section
/-! DEFINITION. The word and index types of the part and its plainest bit arithmetic. -/

namespace Sys2Proof

/-- One byte of any memory of the part (R8). -/
abbrev Byte := BitVec 8

/-- One 32-bit register, scalar register or FP32 bit pattern (R9, R129). -/
abbrev Word := BitVec 32

/-- Logical station index die * 256 + segment * 32 + slot (R21). -/
abbrev Stn := Fin 1024

/-- Compute die 0 to 3 (R13). -/
abbrev Die := Fin 4

/-- Package-wide segment or stack index, die * 8 + segment (R13). -/
abbrev Seg := Fin 32

/-- Clock region die * 2 + half (R36). -/
abbrev Region := Fin 8

/-- Pycia port PY[0] to PY[15] (R300). -/
abbrev PyPort := Fin 16

/-- Ethernet port ETH[0], ETH[1] (R330). -/
abbrev EthPort := Fin 2

/-- Firmware processor FP[0] Liaison, FP[1] Sundial, FP[2] Steward, FP[3] Keeper (R343). -/
abbrev Proc := Fin 4

/-- The three instruction streams of a station (R159). -/
inductive Strm where
  | F | B | U
  deriving DecidableEq, Repr

/-- The code of a stream in SCHK, the ownership map and fault registers: 1 F, 2 B, 3 U (R155, R165). -/
def Strm.code : Strm → Nat
  | .F => 1
  | .B => 2
  | .U => 3

/-- The number of a stream in bit masks and memories: 0 F, 1 B, 2 U (R173, R33). -/
def Strm.idx : Strm → Nat
  | .F => 0
  | .B => 1
  | .U => 2

/-- The six slots of a Woku word, in header order (R155, R156). -/
inductive Slot where
  | m | v | g | l | x | c
  deriving DecidableEq, Repr

/-- The number of a slot: 0 M, 1 V, 2 G, 3 L, 4 X, 5 C (R156, Table 6-12). -/
def Slot.idx : Slot → Nat
  | .m => 0
  | .v => 1
  | .g => 2
  | .l => 3
  | .x => 4
  | .c => 5

/-- Bits [hi:lo] of a natural number read as a word, as a number. -/
def bitsOf (n hi lo : Nat) : Nat := (n >>> lo) % 2 ^ (hi + 1 - lo)

/-- Bit `i` of a natural number read as a word. -/
def bitOf (n i : Nat) : Bool := n.testBit i

/-- 1 for true, 0 for false. -/
def b2n (b : Bool) : Nat := if b then 1 else 0

/-- The number of a list of little-endian bytes (R8). -/
def leNat : List Byte → Nat
  | [] => 0
  | b :: bs => b.toNat + 256 * leNat bs

/-- The `n` little-endian bytes of a number (R8). -/
def leBytes : Nat → Nat → List Byte
  | 0, _ => []
  | n + 1, v => BitVec.ofNat 8 v :: leBytes n (v / 256)

/-- A number saturated at `2 ^ w - 1`, as the part's saturating counters hold it. -/
def satTo (w n : Nat) : Nat := if n < 2 ^ w then n else 2 ^ w - 1

/-- The value of the low `w` bits of `n` as a two's-complement number. -/
def signedOf (w n : Nat) : Int :=
  let m := n % 2 ^ w
  if m < 2 ^ (w - 1) then (m : Int) else (m : Int) - (2 ^ w : Nat)

end Sys2Proof
end

