-- ==== Sys2Proof/Syntax.lean ====
section
/-! DEFINITION. The commands of the part, one constructor per row of the opcode table, and their operands. -/

namespace Sys2Proof

/-- What the ECC of the memories read by a step found (R130, R253, R256, R279).
`bad mem addr`: uncorrectable, `mem` and `addr` as STN_MEM_ERR.MEM and ADDR hold them (Table 9-2). -/
inductive Ecc where
  | clean
  | corrected
  | bad (mem : BitVec 3) (addr : BitVec 16)
  deriving DecidableEq, Repr

/-- What a transfer of a stack meets: what ECC finds in its data, and how often its link transfer fails parity (R278, R279). -/
structure XferEnd where
  ecc   : Ecc
  fails : Nat
  deriving DecidableEq, Repr

/-- A transfer between Prism and a stack channel that meets something: its direction and its region 0x0 offset (R278, R279). -/
structure XferAt extends XferEnd where
  write : Bool
  addr  : Nat
  deriving DecidableEq, Repr

/-- One slot of a Woku word as its sequencer issues it: the station, the stream, the word's header (Table 6-1), the 32 bits of
every slot of the word in header order (R156), and what ECC found. -/
structure Issue where
  stn   : Stn
  strm  : Strm
  hdr   : BitVec 16
  slots : List Word
  ecc   : Ecc
  deriving DecidableEq, Repr

/-- The slots present in a word, in header order (Table 6-1). -/
def hdrSlots (h : BitVec 16) : List Slot :=
  [Slot.m, .v, .g, .l, .x, .c].filter (fun sl => bitOf h.toNat (15 - sl.idx))

/-- The slots of the word with their bits. -/
def Issue.words (i : Issue) : List (Slot × Nat) := (hdrSlots i.hdr).zip (i.slots.map BitVec.toNat)

/-- The bits of a slot of the word, if the word has it. -/
def Issue.raw (i : Issue) (sl : Slot) : Option Nat := (i.words.find? (fun p => p.1 == sl)).map (·.2)

/-- MLD operands (Table 2-3). -/
structure MldOp where
  src  : BitVec 4
  dst  : BitVec 8
  len  : BitVec 8
  kind : Bool
  fmt  : BitVec 4
  deriving DecidableEq, Repr

/-- MMA operands (Table 2-4). -/
structure MmaOp where
  group : BitVec 2
  latch : Bool
  kbase : BitVec 11
  rows  : BitVec 4
  fmtS  : BitVec 4
  fmtW  : BitVec 4
  deriving DecidableEq, Repr

/-- MDRN operands (Table 2-8). -/
structure MdrnOp where
  group : BitVec 2
  dk    : Bool
  dst   : BitVec 8
  fuse  : BitVec 2
  ts    : BitVec 5
  clr   : Bool
  deriving DecidableEq, Repr

/-- Operands of every V op but VCVT (Table 5-2). -/
structure VOp where
  dst : BitVec 5
  sa  : BitVec 5
  sb  : BitVec 5
  sta : BitVec 2
  stb : BitVec 2
  msk : BitVec 2
  x   : BitVec 6
  deriving DecidableEq, Repr

/-- VCVT operands (Table 5-6). -/
structure VcvtOp where
  dst : BitVec 5
  sa  : BitVec 5
  sb  : BitVec 5
  ds  : BitVec 5
  cd  : BitVec 4
  tbl : Bool
  msk : BitVec 2
  deriving DecidableEq, Repr

/-- GINJ operands (Table 4-6); `loc` is LOCAL. -/
structure GinjOp where
  sk    : BitVec 2
  src   : BitVec 4
  ssc   : BitVec 4
  tr    : BitVec 4
  fmt   : BitVec 4
  tap   : Bool
  latch : Bool
  loc   : Bool
  inc   : Bool
  deriving DecidableEq, Repr

/-- GTAP operands (Table 4-7). -/
structure GtapOp where
  latch : Bool
  chk   : Bool
  tag   : BitVec 16
  deriving DecidableEq, Repr

/-- GEJ operands (Table 4-7). -/
structure GejOp where
  latch : Bool
  chk   : Bool
  tap   : Bool
  tag   : BitVec 16
  deriving DecidableEq, Repr

/-- GPASS operands (Table 4-7). -/
structure GpassOp where
  dr  : BitVec 4
  sr  : BitVec 4
  inc : Bool
  chk : Bool
  tag : BitVec 16
  deriving DecidableEq, Repr

/-- LLD and LST operands (Tables 7-6, 7-7). -/
structure LOp where
  sp   : BitVec 2
  t    : BitVec 5
  tb   : BitVec 5
  row  : BitVec 4
  ar   : BitVec 4
  inc  : Bool
  nacc : Bool
  deriving DecidableEq, Repr

/-- LSTASH and LUNST operands (Table 7-6). -/
structure StashOp where
  t   : BitVec 5
  row : BitVec 4
  se  : BitVec 4
  deriving DecidableEq, Repr

/-- XFETCH (forms 0b00 and 0b10) and XPUT operands (R197, R198); `bypass` is form 0b10. -/
structure XOp where
  bypass : Bool
  tag    : BitVec 6
  ap     : BitVec 3
  la     : BitVec 4
  len    : BitVec 6
  inc    : Bool
  deriving DecidableEq, Repr

/-- XFETCH feed form operands (R198): `queue` is TAG[1:0], `absent` is TAG[2]. -/
structure FeedOp where
  queue  : BitVec 2
  absent : Bool
  la     : BitVec 4
  inc    : Bool
  deriving DecidableEq, Repr

/-- XRED operands (R199). -/
structure XredOp where
  dt  : BitVec 2
  tag : BitVec 6
  rd  : BitVec 4
  la  : BitVec 4
  len : BitVec 6
  deriving DecidableEq, Repr

/-- XNORM operands (R200). -/
structure XnormOp where
  tag : BitVec 6
  rd  : BitVec 4
  sd  : BitVec 4
  deriving DecidableEq, Repr

/-- REPEAT operands (Table 6-8). -/
structure RepeatOp where
  kr  : BitVec 3
  len : BitVec 12
  cnt : BitVec 13
  deriving DecidableEq, Repr

/-- PHASE operands (R207, Table 7-10); `mark` is MK and `fin` is END. -/
structure PhaseOp where
  le   : Bool
  mark : Bool
  fin  : Bool
  ltag : BitVec 12
  pid  : BitVec 12
  deriving DecidableEq, Repr

/-- Who issues a register access (R9). -/
inductive Requester where
  | host
  | fabric (src : BitVec 16)
  | smbus
  | debug
  | fp (p : Proc)
  deriving DecidableEq, Repr

/-- A crossing FIFO of a die: the two seams and the arriving bridge (Table 8-12). -/
inductive Fifo where
  | s01 | s10 | br
  deriving DecidableEq, Repr

/-- A unit that carries a state epoch (Table 15-6): a station or a page group stack * 128 + g. -/
inductive EpochUnit where
  | station (i : Stn)
  | pageGroup (g : Fin 4096)
  deriving DecidableEq, Repr

/-- A READ, WRITE or MC_WRITE message as it arrives (Table 11-8). `via` is the Pycia port it came in on,
none for a message of this module. `ecc` and `fails` are what the target's memory and channel do on it (R257, R278). -/
structure ReqMsg where
  via   : Option PyPort
  src   : BitVec 16
  dst   : BitVec 16
  agent : BitVec 12
  gen   : BitVec 4
  tag   : BitVec 6
  addr  : BitVec 64
  len   : Nat
  data  : List Byte
  mseq  : BitVec 32
  ecc   : Ecc
  fails : Nat
  deriving DecidableEq, Repr

/-- A READ_RSP, WRITE_ACK or MC_ACK message as it arrives (Tables 11-8, 11-10). -/
structure RspMsg where
  src    : BitVec 16
  agent  : BitVec 12
  gen    : BitVec 4
  tag    : BitVec 6
  status : BitVec 4
  addr   : BitVec 64
  data   : List Byte
  mseq   : BitVec 32
  fails  : Nat
  deriving DecidableEq, Repr

/-- What identifies one reduction (Table 11-25 and RFLAGS of Table 11-8). -/
structure RedParams where
  key    : BitVec 32
  base   : BitVec 16
  count  : BitVec 16
  stride : BitVec 16
  maxOp  : Bool
  tree   : Bool
  dt     : BitVec 2
  len    : Nat
  deriving DecidableEq, Repr

/-- A RED_UP or RED_DOWN message (R325, R326): `rank` is the sender's, `own` says an operand of this module,
`mism` a mismatch status; `gen` the tag generation of an own operand (R318). -/
structure RedMsg where
  par   : RedParams
  rank  : Nat
  level : Nat
  own   : Bool
  mism  : Bool
  agent : BitVec 12
  gen   : BitVec 4
  tag   : BitVec 6
  data  : List Byte
  deriving DecidableEq, Repr

/-- A received Pycia link unit: 64 flit bytes and the 8-byte trailer (R306). -/
structure LinkUnit where
  flit    : List Byte
  trailer : BitVec 64
  deriving DecidableEq, Repr

/-- A link unit that a Pycia port receives, and what it finds with it (R302, R307, R328): the symbols that FEC corrected and the
uncorrectable codewords since the last unit, and, for a link-control unit that imposes a lane map, the physical lane of each logical lane (8
lanes, or 4 at half width). -/
structure LinkRx where
  unit   : LinkUnit
  corr   : Nat
  uncorr : Nat
  lanes  : Option (List (Fin 9))
  deriving DecidableEq, Repr

/-- A transfer of a station's fetch engine or stash, and what it meets (R202, R257, R262, R278). -/
structure StnXfer extends XferEnd where
  stn : Stn
  deriving DecidableEq, Repr

/-- The end of a stash transfer: besides what its own copy meets, the stack transfers made on its way (R262, R278, R400). -/
structure StashEnd extends StnXfer where
  xs : List XferAt
  deriving DecidableEq, Repr

/-- A word of a ROM routine: its stream, what ECC finds in the station memories that the routine reads, and the stack transfers of the
routine that meet something (R172, R256, R278). -/
structure RomWord where
  strm : Strm
  ecc  : Ecc
  xs   : List XferAt
  deriving DecidableEq, Repr

/-- A tick of a region: what the stack transfers of its trace record meet (R183, R278). -/
structure RegionTick where
  region : Region
  xs     : List XferAt
  deriving DecidableEq, Repr

/-- A channel test that has covered its range or ends by STOP, after so many lines of 256 bytes: the transfers of the run, by direction
and offset, and how often each failed parity (R281). -/
structure TgDone where
  ch    : Fin 128
  upto  : Nat
  fails : List (Bool × Nat × Nat)
  deriving DecidableEq, Repr

/-- A page copied ahead of a write, how many pages of the reserve have been written to NAND since the last copy, and what its transfers
meet (R278, R279, R400). -/
structure PageCopy where
  page  : Nat
  freed : Nat
  xs   : List XferAt
  deriving DecidableEq, Repr

/-- The end of a snapshot's copy: whether all was programmed and read back, and what its transfers meet (R278, R279, R404). -/
structure SnapEnd where
  ok : Bool
  xs : List XferAt
  deriving DecidableEq, Repr

/-- The end of a restore: the pages that failed to decode, and what its transfers meet (R278, R405, R407). -/
structure RestoreEnd where
  failed : List Nat
  xs     : List XferAt
  deriving DecidableEq, Repr

/-- Whose request FETCH_TIMEOUT ends (R319): a station's op, a landing-cache fill, which its line names, or another agent's request. -/
inductive TimedOut where
  | stn (i : Stn)
  | fill (die : Die) (line : Nat)
  | agent (a : BitVec 12) (gen : BitVec 4) (wr : Bool)
  deriving DecidableEq, Repr

/-- What a PHASE marker carries beside its PID: its schedule tick and the die's reference-time counter on that tick, in 10 ns (R365). -/
structure MarkAt where
  tick : Nat
  time : Nat
  deriving DecidableEq, Repr

/-- The answer to a piece of an RDMA operation: the PSN of the operation's first packet, the piece, its status (R338, Table 11-10). -/
structure PieceEnd where
  psn    : BitVec 24
  piece  : Nat
  status : BitVec 4
  deriving DecidableEq, Repr

/-- What a received Ethernet frame carries (R330, R331, R333). -/
inductive EthPayload where
  | roce (qpn : BitVec 24) (icrcOk supported : Bool) (ce : Bool)
  | arp | nd | icmp | fragment | ipOptions | other
  deriving DecidableEq, Repr

/-- A received Ethernet frame: its length in bytes, its FCS check, the symbols that FEC corrected and the uncorrectable codewords since
the last frame (R330), and what it carries. -/
structure EthFrame where
  bytes   : Nat
  fcsOk   : Bool
  corr    : Nat
  uncorr  : Nat
  payload : EthPayload
  deriving DecidableEq, Repr

/-- A TCS command message as Liaison receives it: the port, the header fields of Table 13-4, the length of
the SEND, and whether a reserved payload byte is not 0 (R355). -/
structure TcsHdr where
  port    : EthPort
  vmaj    : BitVec 8
  vmin    : BitVec 8
  typ     : BitVec 8
  fp      : BitVec 8
  len     : BitVec 16
  seq     : BitVec 32
  rcnt    : BitVec 16
  session : BitVec 32
  sendLen : Nat
  rsvBad  : Bool
  deriving DecidableEq, Repr

/-- Declarations of a binary (Table 8-5): latency profile, segment mask, ring mode (true package), seam ratio
coded as RING_SEAM_STATUS.RATIO, and whether it issues package-scope EPOCHs (R226). -/
structure BinDecl where
  profile  : BitVec 2
  segMask  : BitVec 32
  package  : Bool
  seam     : BitVec 2
  pkgEpoch : Bool
  deriving DecidableEq, Repr

/-- A bank descriptor of BIN_LOAD (Table 13-6): a run of stations, a stream, a bank, and the region 0x0 offset
and length of the image. -/
structure BankDesc where
  first  : Nat
  count  : Nat
  strm   : Strm
  bank   : Bool
  source : Nat
  length : Nat
  deriving DecidableEq, Repr

/-- Scope of STN_START and STN_STOP: a mask of dies; the package is all four (Table 13-6). -/
abbrev DieMask := BitVec 4

/-- A staged variant (R359): index, power profile, width-class signature, row count, declared ticks, energy
estimate, declarations, banks and the ownership maps of the image. -/
structure VariantDecl where
  index    : BitVec 6
  prof     : BitVec 2
  classSig : BitVec 32
  rows     : Nat
  ticks    : Nat
  energy   : Nat
  group    : Nat
  decl     : BinDecl
  banks    : List BankDesc
  maps     : List (Nat × Word)
  deriving DecidableEq, Repr

/-- The idle states (Table 14-15). -/
inductive Idle where
  | twilight | night | midnight
  deriving DecidableEq, Repr

/-- A slave's reply on the AVSBus (R382). -/
structure AvsReply where
  acked : Bool
  crcOk : Bool
  vdone : Bool
  data  : BitVec 16
  deriving DecidableEq, Repr

/-- The input power as measured, in watts: its mean over the last 1 ms, and over 1 s (Tables 16-4, 16-5). -/
structure Watts where
  fast : Nat
  slow : Nat
  deriving DecidableEq, Repr

/-- What the master adds to a block write on the SMBus: its byte count, and whether its PEC byte, if it clocks one, is right (R421). -/
structure SmbEnd where
  count : Nat
  pecOk : Bool
  deriving DecidableEq, Repr

/-- Why the input stage opened (R414). -/
inductive InputTrip where
  | under | over | power
  deriving DecidableEq, Repr

/-- Why a processor restarts by itself (R354): an exception or a memory error. -/
inductive RestartCause where
  | exception | memory
  deriving DecidableEq, Repr

/-- A unit kind of an error report (Table 15-2, UNIT[15:12]), given as its number 1 to 11 and its index. -/
structure UnitRef where
  kind  : BitVec 4
  index : BitVec 12
  deriving DecidableEq, Repr

/-- The commands, one constructor per row of the opcode table. -/
inductive Instr where
  -- M slot
  | mld (i : Issue) (o : MldOp)
  | mma (i : Issue) (o : MmaOp)
  | mdrn (i : Issue) (o : MdrnOp)
  | mclr (i : Issue) (mask : BitVec 4)
  -- V slot
  | vadd (i : Issue) (o : VOp)
  | vmul (i : Issue) (o : VOp)
  | vfma (i : Issue) (o : VOp)
  | vmax (i : Issue) (o : VOp)
  | vexp (i : Issue) (o : VOp)
  | vrsq (i : Issue) (o : VOp)
  | vcmp (i : Issue) (o : VOp)
  | vsel (i : Issue) (o : VOp)
  | vcmpr (i : Issue) (o : VOp)
  | vexpd (i : Issue) (o : VOp)
  | vredRow (i : Issue) (o : VOp)
  | vredCol (i : Issue) (o : VOp)
  | vnrm2 (i : Issue) (o : VOp)
  | vcvt (i : Issue) (o : VcvtOp)
  -- G slot
  | ginj (i : Issue) (o : GinjOp)
  | gtap (i : Issue) (o : GtapOp)
  | gej (i : Issue) (o : GejOp)
  | gpass (i : Issue) (o : GpassOp)
  -- L slot
  | lld (i : Issue) (o : LOp)
  | lst (i : Issue) (o : LOp)
  | lstash (i : Issue) (o : StashOp)
  | stashFullStop (stn : Stn)
  | lunst (i : Issue) (o : StashOp)
  -- X slot
  | xfetch (i : Issue) (o : XOp)
  | xfetchFeed (i : Issue) (o : FeedOp)
  | xput (i : Issue) (o : XOp)
  | xcancel (i : Issue) (grp : BitVec 3)
  | xred (i : Issue) (o : XredOp)
  | xnorm (i : Issue) (o : XnormOp)
  -- C slot
  | epoch (i : Issue) (pkg : Bool) (eid : BitVec 16)
  | rept (i : Issue) (o : RepeatOp)
  | call (i : Issue) (id : BitVec 10)
  | ret (i : Issue)
  | phase (i : Issue) (o : PhaseOp)
  | waitev (i : Issue) (ev : BitVec 6)
  | waitevResume (stn : Stn) (strm : Strm)
  | swapbank (i : Issue) (sm : BitVec 3) (map : Bool) (entry : BitVec 15)
  | waitWord (i : Issue)
  | breakHit (i : Issue) (ahead : Nat)
  -- ROM routines
  | tilesZero (stn : Stn) (strm : Strm)
  | lensSelect (stn : Stn) (w : RomWord)
  | lensClear (stn : Stn) (w : RomWord)
  | tieSumTile (stn : Stn) (w : RomWord)
  -- ring
  | feedPointInjection (seg : Seg) (q : Fin 4)
  | feedDescriptorRead (seg : Seg) (q : Fin 4) (ecc : Ecc)
  | feedQueueFill (seg : Seg) (q : Fin 4) (ecc : Ecc) (fails : Nat)
  | seamCrossing (die : Die) (up : Bool) (err : Bool)
  | bridgeDelivery (die : Die) (fails : Nat)
  | fifoDriftRequest (die : Die) (f : Fifo) (up : Bool)
  | crossingPoison (die : Die) (f : Fifo)
  -- Shutter
  | clockStretch (r : Region)
  | freeze (die : Die)
  | resumeAnnounce (die : Die)
  | resume (die : Die)
  | faultFlit (die : Die)
  -- epochs, Lens, stash, fetch engine
  | epochBoundary (stn : Stn)
  | epochUnitDecision (die : Die)
  | lensPostMerge (die : Die) (xs : List XferAt)
  | stashTransferDone (x : StashEnd)
  | xQueueSend (x : StnXfer)
  | xResponse (stn : Stn) (m : RspMsg)
  | xnormResult (stn : Stn) (tag : BitVec 6) (gen : BitVec 4) (total : BitVec 64)
  | fetchTimeout (who : TimedOut) (tag : BitVec 6)
  -- register accesses
  | registerWrite (who : Requester) (off : Nat) (width : Nat) (val : Word)
  | pairLoRead (who : Requester) (off : Nat)
  | pairHiRead (who : Requester) (off : Nat)
  | arrayCntClr (who : Requester) (stn : Stn) (val : Word)
  | bridgeCntClr (who : Requester) (die : Die) (val : Word)
  | shtCntClr (who : Requester) (die : Die) (val : Word)
  | fwHoldSet (who : Requester) (die : Die) (val : Word)
  | fwHoldRelease (who : Requester) (die : Die) (val : Word)
  | spareSubstitution (who : Requester) (seg : Seg) (val : Word)
  | fmtTableWrite (who : Requester) (die : Die) (tag : BitVec 12) (val : Word)
  | stateEpochWrite (who : Requester) (u : EpochUnit) (val : Word)
  | dbgStepFree (who : Requester) (die : Die) (val : Word)
  | dbgStepTicks (who : Requester) (die : Die) (val : Word)
  | traceDropClr (who : Requester) (die : Die) (val : Word)
  | lcInv (who : Requester) (die : Die) (val : Word)
  | lcCntClr (who : Requester) (die : Die) (val : Word)
  | msCntClr (who : Requester) (stack : Seg) (val : Word)
  | tgStart (who : Requester) (ch : Fin 128) (val : Word)
  | tgStop (who : Requester) (ch : Fin 128) (val : Word)
  | tgRunDone (r : TgDone)
  | patrolScrub (ch : Fin 128) (corrected : Nat)
  -- Pycia ports
  | portEnable (who : Requester) (p : PyPort) (val : Word)
  | portDisable (who : Requester) (p : PyPort) (val : Word)
  | portRetrain (who : Requester) (p : PyPort) (val : Word)
  | pyCntClr (who : Requester) (p : PyPort) (val : Word)
  | pyErrCountClr (who : Requester) (val : Word)
  | trainComplete (p : PyPort) (locked : BitVec 9)
  | trainTimeout (p : PyPort)
  | alignComplete (p : PyPort)
  | alignTimeout (p : PyPort)
  | probeExchange (p : PyPort) (modId : BitVec 16) (port : BitVec 4) (role : BitVec 4)
  | laneLoss (p : PyPort) (lane : Fin 9)
  | laneFecLimit (p : PyPort) (lane : Fin 9)
  | retrainDone (p : PyPort) (third : Bool) (ack : BitVec 12)
  | linkUnitRx (p : PyPort) (e : LinkRx)
  | nakRx (p : PyPort) (seq : BitVec 12)
  | nakRepeat (p : PyPort)
  | flitSend (p : PyPort)
  -- Pycia messages
  | read (m : ReqMsg)
  | write (m : ReqMsg)
  | readRsp (m : RspMsg)
  | writeAck (m : RspMsg)
  | mcastSend (group : BitVec 8)
  | mcWrite (m : ReqMsg)
  | mcAck (group : BitVec 8) (member : BitVec 6) (mseq : BitVec 32) (status : BitVec 4)
  | mcastHoldRetry (group : BitVec 8) (member : BitVec 6)
  | mcastLagExpiry (group : BitVec 8) (member : BitVec 6)
  | mcastTimeout (group : BitVec 8) (mseq : BitVec 32)
  | redUp (m : RedMsg)
  | redDown (m : RedMsg)
  | ctrl (src : BitVec 16) (fp : Proc) (data : List Byte)
  -- Ethernet
  | ethFrameRx (p : EthPort) (f : EthFrame)
  | pfcRelease (p : EthPort) (drained : Nat)
  | pauseFrameRx (p : EthPort) (prio : BitVec 3) (hold : Bool)
  | arpRequest (p : EthPort) (target : BitVec 32)
  | neighborSolicitation (p : EthPort) (target : BitVec 128)
  | icmpEcho (p : EthPort) (v6 : Bool) (len : Nat)
  | rdmaWrite (p : EthPort) (qpn : BitVec 24) (rkey : Word) (va : BitVec 64) (data : List Byte) (psn : BitVec 24)
  | rdmaReadRequest (p : EthPort) (qpn : BitVec 24) (rkey : Word) (va : BitVec 64) (len : Nat) (psn : BitVec 24)
  | rdmaPieceDone (p : EthPort) (qpn : BitVec 24) (x : PieceEnd) (data : List Byte)
  | mailboxSendRx (p : EthPort) (len : Nat)
  | mailboxRnrRetry (p : EthPort) (acked : Nat)
  | cmReq (p : EthPort) (qpn : BitVec 24) (dest : BitVec 24) (psn : BitVec 24) (pmtu : BitVec 3) (reads : Nat)
  | cmRtu (p : EthPort) (qpn : BitVec 24)
  | cmDreq (p : EthPort) (qpn : BitVec 24)
  | cnpRx (p : EthPort) (qpn : BitVec 24)
  | cnpRateRecovery (p : EthPort) (qpn : BitVec 24)
  | ethLinkDown (p : EthPort)
  | ethLinkUp (p : EthPort)
  | ethPortEnable (who : Requester) (p : EthPort) (val : Word)
  | ethPortDisable (who : Requester) (p : EthPort) (val : Word)
  | ethCntClr (who : Requester) (p : EthPort) (val : Word)
  | wakeOnLan (p : EthPort) (payload : List Byte)
  -- Tharax Command Set
  | query (h : TcsHdr)
  | heartbeat (h : TcsHdr)
  | reclaim (h : TcsHdr) (session : Word) (next : List Word) (resume : Bool) (flush : Bool)
  | mkeySet (h : TcsHdr) (port : EthPort) (entry : BitVec 6) (keyTag : BitVec 24) (rd : Bool) (wr : Bool) (base : BitVec 64) (limit : BitVec 64)
  | imageCommit (h : TcsHdr) (proc : Proc) (off : BitVec 34) (len : Nat)
  | binLoad (h : TcsHdr) (d : BinDecl) (banks : List BankDesc)
  | stnStart (h : TcsHdr) (dies : DieMask)
  | stnStop (h : TcsHdr) (dies : DieMask)
  | variantStage (h : TcsHdr) (v : VariantDecl)
  | classSwitch (h : TcsHdr) (v : BitVec 6) (pairs : List (BitVec 12 × Word))
  | eventRead (h : TcsHdr) (first : Nat) (count : Nat)
  | hostlossSet (h : TcsHdr) (timeout : Nat) (snap : Bool)
  | profileSet (h : TcsHdr) (prof : BitVec 2)
  | budgetSet (h : TcsHdr) (cap : Nat) (allowance : Nat) (interval : Nat) (margin : Nat)
  | policySet (h : TcsHdr) (mode : BitVec 8) (v : BitVec 8)
  | stepHint (h : TcsHdr) (rows : Nat)
  | gatherSet (h : TcsHdr) (hold : Nat)
  | workQueue (h : TcsHdr) (item : Nat) (group : Nat) (steps : Nat) (prio : Nat) (defer : Bool)
  | groupSet (h : TcsHdr) (id : Nat) (members : List (BitVec 14)) (lead : BitVec 14)
  | idleEnter (h : TcsHdr) (st : Idle) (wake : BitVec 5) (asserted : BitVec 5)
  | ledgerRead (h : TcsHdr) (first : Nat) (count : Nat)
  | ledgerStream (h : TcsHdr) (addr : BitVec 64) (logCount : Nat) (enable : Bool)
  | moduleIdSet (h : TcsHdr) (id : BitVec 16)
  | portSet (h : TcsHdr) (mask : BitVec 16) (en : Bool) (role : BitVec 4) (half : Bool) (spare : Bool)
  | routeSet (h : TcsHdr) (first : Nat) (entries : List Word)
  | remapSet (h : TcsHdr) (own : BitVec 14) (pairs : List (BitVec 16 × BitVec 14))
  | mcastSet (h : TcsHdr) (group : BitVec 8) (members : List (BitVec 16))
  | snapTake (h : TcsHdr) (slot : BitVec 8)
  | snapRestore (h : TcsHdr) (slot : BitVec 8)
  | snapList (h : TcsHdr)
  | errRead (h : TcsHdr) (first : Word) (count : Nat)
  | retireSet (h : TcsHdr) (stack : Seg) (pages : List (BitVec 13))
  | flashHealth (h : TcsHdr)
  -- firmware events
  | activityDone (seq : BitVec 32) (fp : Proc) (status : BitVec 16)
  | watchdogExpiry (p : Proc)
  | processorRestart (p : Proc) (cause : RestartCause)
  | fwRestart (who : Requester) (val : Word)
  | restartComplete (p : Proc)
  | hostLossTimeout
  | hostLossPark
  | stepStartMarker
  | snapEveryArm
  | variantCopyDone
  | classSwitchSubmit
  | groupEnergyReport (member : BitVec 14) (step : Nat) (energy : Nat)
  | groupChoice (step : Nat) (v : BitVec 6)
  | ledgerMarker (die : Die) (pid : BitVec 12) (fin : Bool) (at_ : MarkAt)
  | energySample (energy : Nat)
  | budgetIntervalStart
  -- power and clocks
  | profileArm (who : Requester) (val : Word)
  | regionStopDone
  | zenithRecordWrite (who : Requester) (val : Word)
  | avsWrite (who : Requester) (val : Word) (r : AvsReply)
  | avsRead (who : Requester) (val : Word) (r : AvsReply)
  | avsStatusPoll (r : AvsReply)
  | avsVdoneTimeout
  | thermalReading (temps : List Nat)
  | thermalTrip (r : Region)
  | moduleSensorRead (outlet : BitVec 8) (vreg : BitVec 8) (nand : BitVec 8) (board : BitVec 8)
  | refLoss
  | refRestored
  | pllLock
  | stacksOutOfRetention (die : Die)
  | regionPowerUp (r : Region)
  | wakePin
  | wakeTimer
  | pyciaWake
  | idleHint (who : Requester) (val : Word)
  | inputPowerUp
  | pwrOkRise
  | pwrOkFall
  | resetAssert
  | resetRelease (prof : BitVec 2) (smb : BitVec 3)
  | inputStageTrip (cause : InputTrip)
  -- errors and snapshots
  | errorReport (cls : BitVec 4) (sev : BitVec 2) (u : UnitRef) (capOff : Nat) (cap1 : Word)
  | cePoll (u : UnitRef) (count : Nat)
  | stationFailed (stn : Stn)
  | copyAheadOfWrite (die : Die) (page : Nat) (scheduled : Bool)
  | copyAheadRelease (die : Die) (c : PageCopy)
  | snapshotComplete (r : SnapEnd)
  | buddyPageRx (src : BitVec 16) (addr : BitVec 64) (data : List Byte)
  | buddyAck
  | buddyTimeout
  | restoreComplete (r : RestoreEnd) (refused : Bool)
  | buddyStamp (src : BitVec 16) (g : Fin 4096)
  | retentionScan (rewritten : List Nat) (corrected : Nat) (failed : List (Nat × Nat))
  | readDisturbRefresh
  | nandProgramFail
  -- SMBus
  | smbAddr (wr : Option Word) (x : SmbEnd)
  | smbData (wr : Option Word) (x : SmbEnd)
  | smbDataInc (wr : Option Word) (x : SmbEnd)
  | smbStatus
  | smbusAlertResponse
  -- JTAG
  | jtagExtest (outputs : BitVec 64)
  | jtagIdcode
  | jtagSamplePreload (load : BitVec 64)
  | jtagClamp
  | jtagHighz
  | jtagDebug (wr : Bool) (off : BitVec 24) (data : Word)
  | jtagBypass
  -- attestation
  | attestGo (who : Requester) (val : Word)
  | attestDone
  -- time and whole-package events
  | tick (r : RegionTick)
  | packageFault (link : BitVec 12)
  | inputAlert (millivolts : Nat) (watts : Watts)
  deriving DecidableEq, Repr

end Sys2Proof
end

