-- ==== Sys2Proof/Decode.lean ====
section
/-! DEFINITION. The command a table word spells, and the encoding check of the 32-bit slots of a Woku word (Tables 7-1 to 7-10). -/

namespace Sys2Proof

/-- The command that a table word spells: the opcode table gives no row any bits, so no word spells one. -/
def decodeTableWord (_nbits _w : Nat) : Option Instr := none

/-- Bits [hi:lo] of a slot are 0. -/
def zeroAt (raw hi lo : Nat) : Bool := decide (bitsOf raw hi lo = 0)

/-- An M slot without a non-zero reserved bit (Table 7-3, R184). -/
def slotOkM (raw : Nat) : Bool :=
  match bitsOf raw 31 30 with
  | 0 => zeroAt raw 4 0
  | 1 => zeroAt raw 3 0
  | 2 => zeroAt raw 10 0 && (bitOf raw 27 || zeroAt raw 26 24)
  | _ => zeroAt raw 25 0

/-- A V slot without a reserved opcode, value of X or bit (Tables 5-2, 5-3, 7-4, R135, R187). -/
def slotOkV (raw : Nat) : Bool :=
  let noB := zeroAt raw 16 12 && zeroAt raw 9 8
  match bitsOf raw 31 27 with
  | 1 | 4 => zeroAt raw 5 1
  | 2 | 8 => zeroAt raw 5 0
  | 3 | 13 => true
  | 5 | 6 => zeroAt raw 5 1 && noB
  | 7 => zeroAt raw 5 3 && zeroAt raw 26 24
  | 9 | 10 => zeroAt raw 5 4 && noB && zeroAt raw 11 10
  | 11 | 12 => zeroAt raw 5 2 && noB
  | 14 => zeroAt raw 5 2 && zeroAt raw 26 22 && (bitOf raw 0 || noB)
  | _ => false

/-- A G slot without a non-zero reserved bit (Table 7-5). -/
def slotOkG (raw : Nat) : Bool :=
  match bitsOf raw 31 30 with
  | 0 => zeroAt raw 7 0
  | 1 => zeroAt raw 27 16
  | 2 => zeroAt raw 19 16
  | _ => zeroAt raw 26 16

/-- An L slot without a non-zero reserved bit (Table 7-6, R190). -/
def slotOkL (raw : Nat) : Bool :=
  if bitsOf raw 31 30 < 2 then
    zeroAt raw 7 0 &&
      (match bitsOf raw 29 28 with
       | 2 => zeroAt raw 8 8
       | 3 => zeroAt raw 27 27 && zeroAt raw 22 14
       | _ => zeroAt raw 22 18 && zeroAt raw 8 8)
  else zeroAt raw 16 0

/-- An X slot without a reserved opcode or bit (Table 7-8, R198, R199). -/
def slotOkX (raw : Nat) : Bool :=
  match bitsOf raw 31 29 with
  | 1 =>
    zeroAt raw 6 0 &&
      (match bitsOf raw 28 27 with
       | 3 => false
       | 1 => zeroAt raw 26 24 && zeroAt raw 20 18 && zeroAt raw 13 8
       | _ => true)
  | 2 => zeroAt raw 6 0 && zeroAt raw 28 27
  | 3 => zeroAt raw 25 0
  | 4 => zeroAt raw 6 0 && decide (bitsOf raw 28 27 ≠ 3)
  | 5 => zeroAt raw 28 27 && zeroAt raw 12 0
  | _ => false

/-- Whether WAITEV names an event of Table 7-11. -/
def evOk (ev : Nat) : Bool := decide (ev ≤ 8) || decide (ev = 16)

/-- A C slot without a reserved opcode or bit (Table 7-10). -/
def slotOkC (raw : Nat) : Bool :=
  match bitsOf raw 31 29 with
  | 1 => zeroAt raw 27 16
  | 2 => zeroAt raw 0 0
  | 3 => zeroAt raw 28 10
  | 4 => zeroAt raw 28 0
  | 5 => zeroAt raw 13 12
  | 6 => zeroAt raw 22 0 && evOk (bitsOf raw 28 23)
  | 7 => zeroAt raw 9 0
  | _ => false

/-- The encoding check of a slot (R161, R178, R184). -/
def slotOk (sl : Slot) (raw : Nat) : Bool :=
  match sl with
  | .m => slotOkM raw
  | .v => slotOkV raw
  | .g => slotOkG raw
  | .l => slotOkL raw
  | .x => slotOkX raw
  | .c => slotOkC raw

/-! ### The op that a slot's bits spell (Tables 7-3 to 7-10) -/

/-- Field [hi:lo] of a slot as a bit vector. -/
def slotFld (w raw hi lo : Nat) : BitVec w := BitVec.ofNat w (bitsOf raw hi lo)

/-- The M-slot op that bits spell (Table 7-3, R186). -/
def decodeM (i : Issue) (raw : Nat) : Instr :=
  match bitsOf raw 31 30 with
  | 0 => .mld i ⟨slotFld 4 raw 8 5, slotFld 8 raw 16 9, slotFld 8 raw 24 17, bitOf raw 25, slotFld 4 raw 29 26⟩
  | 1 => .mma i ⟨slotFld 2 raw 29 28, bitOf raw 27, slotFld 11 raw 26 16, slotFld 4 raw 15 12, slotFld 4 raw 11 8, slotFld 4 raw 7 4⟩
  | 2 => .mdrn i ⟨slotFld 2 raw 29 28, bitOf raw 27, slotFld 8 raw 26 19, slotFld 2 raw 18 17, slotFld 5 raw 16 12, bitOf raw 11⟩
  | _ => .mclr i (slotFld 4 raw 29 26)

/-- The fields of the standard form of a V op (R187). -/
def decodeVOp (raw : Nat) : VOp :=
  ⟨slotFld 5 raw 26 22, slotFld 5 raw 21 17, slotFld 5 raw 16 12, slotFld 2 raw 11 10, slotFld 2 raw 9 8, slotFld 2 raw 7 6, slotFld 6 raw 5 0⟩

/-- The V-slot op that bits spell (R187, Table 7-4). -/
def decodeV (i : Issue) (raw : Nat) : Option Instr :=
  let o := decodeVOp raw
  match bitsOf raw 31 27 with
  | 0x01 => some (.vadd i o)
  | 0x02 => some (.vmul i o)
  | 0x03 => some (.vfma i o)
  | 0x04 => some (.vmax i o)
  | 0x05 => some (.vexp i o)
  | 0x06 => some (.vrsq i o)
  | 0x07 => some (.vcmp i o)
  | 0x08 => some (.vsel i o)
  | 0x09 => some (.vcmpr i o)
  | 0x0A => some (.vexpd i o)
  | 0x0B => some (.vredRow i o)
  | 0x0C => some (.vredCol i o)
  | 0x0D => some (.vcvt i ⟨o.dst, o.sa, o.sb, slotFld 5 raw 11 7, slotFld 4 raw 6 3, bitOf raw 2, slotFld 2 raw 1 0⟩)
  | 0x0E => some (.vnrm2 i o)
  | _ => none

/-- The G-slot op that bits spell (Table 7-5, R188). -/
def decodeG (i : Issue) (raw : Nat) : Instr :=
  match bitsOf raw 31 30 with
  | 0 => .ginj i ⟨slotFld 2 raw 29 28, slotFld 4 raw 27 24, slotFld 4 raw 23 20, slotFld 4 raw 19 16, slotFld 4 raw 15 12, bitOf raw 11,
      bitOf raw 10, bitOf raw 9, bitOf raw 8⟩
  | 1 => .gtap i ⟨bitOf raw 29, bitOf raw 28, slotFld 16 raw 15 0⟩
  | 2 => .gpass i ⟨slotFld 4 raw 29 26, slotFld 4 raw 25 22, bitOf raw 21, bitOf raw 20, slotFld 16 raw 15 0⟩
  | _ => .gej i ⟨bitOf raw 29, bitOf raw 28, bitOf raw 27, slotFld 16 raw 15 0⟩

/-- The L-slot op that bits spell (Table 7-6, R189). -/
def decodeL (i : Issue) (raw : Nat) : Instr :=
  let o : LOp := ⟨slotFld 2 raw 29 28, slotFld 5 raw 27 23, slotFld 5 raw 22 18, slotFld 4 raw 17 14, slotFld 4 raw 13 10, bitOf raw 9, bitOf raw 8⟩
  let e : StashOp := ⟨slotFld 5 raw 29 25, slotFld 4 raw 24 21, slotFld 4 raw 20 17⟩
  match bitsOf raw 31 30 with
  | 0 => .lld i o
  | 1 => .lst i o
  | 2 => .lstash i e
  | _ => .lunst i e

/-- The X-slot op that bits spell (Table 7-8, R196 to R200). -/
def decodeX (i : Issue) (raw : Nat) : Option Instr :=
  let o : XOp := ⟨decide (bitsOf raw 28 27 = 2), slotFld 6 raw 26 21, slotFld 3 raw 20 18, slotFld 4 raw 17 14, slotFld 6 raw 13 8, bitOf raw 7⟩
  match bitsOf raw 31 29 with
  | 1 => if bitsOf raw 28 27 = 1 then some (.xfetchFeed i ⟨slotFld 2 raw 22 21, bitOf raw 23, slotFld 4 raw 17 14, bitOf raw 7⟩)
         else some (.xfetch i o)
  | 2 => some (.xput i o)
  | 3 => some (.xcancel i (slotFld 3 raw 28 26))
  | 4 => some (.xred i ⟨slotFld 2 raw 28 27, slotFld 6 raw 26 21, slotFld 4 raw 20 17, slotFld 4 raw 16 13, slotFld 6 raw 12 7⟩)
  | 5 => some (.xnorm i ⟨slotFld 6 raw 26 21, slotFld 4 raw 20 17, slotFld 4 raw 16 13⟩)
  | _ => none

/-- The C-slot op that bits spell (Table 7-10, R205). -/
def decodeC (i : Issue) (raw : Nat) : Option Instr :=
  match bitsOf raw 31 29 with
  | 1 => some (.epoch i (bitOf raw 28) (slotFld 16 raw 15 0))
  | 2 => some (.rept i ⟨slotFld 3 raw 28 26, slotFld 12 raw 25 14, slotFld 13 raw 13 1⟩)
  | 3 => some (.call i (slotFld 10 raw 9 0))
  | 4 => some (.ret i)
  | 5 => some (.phase i ⟨bitOf raw 28, bitOf raw 27, bitOf raw 26, slotFld 12 raw 25 14, slotFld 12 raw 11 0⟩)
  | 6 => some (.waitev i (slotFld 6 raw 28 23))
  | 7 => some (.swapbank i (slotFld 3 raw 28 26) (bitOf raw 25) (slotFld 15 raw 24 10))
  | _ => none

/-- The command that the bits of a slot spell; none for a reserved opcode (Table 7-1). Whether the bits pass the encoding check is
`slotOk` (R161, R184). -/
def slotCommand (i : Issue) (sl : Slot) (raw : Nat) : Option Instr :=
  match sl with
  | .m => some (decodeM i raw)
  | .v => decodeV i raw
  | .g => some (decodeG i raw)
  | .l => some (decodeL i raw)
  | .x => decodeX i raw
  | .c => decodeC i raw

/-- The command that slot `sl` of the word of an issue spells. -/
def Issue.command (i : Issue) (sl : Slot) : Option Instr := (i.raw sl).bind (slotCommand i sl)

/-- Every slot of the word is there and passes the encoding check (R161). -/
def Issue.encOk (i : Issue) : Bool :=
  decide (i.slots.length = (hdrSlots i.hdr).length) && i.words.all (fun p => slotOk p.1 p.2)

/-- The routine ID of the word's CALL, if its C slot is one (Table 7-10). -/
def Issue.callId (i : Issue) : Option Nat :=
  match i.raw .c with
  | some raw => if bitsOf raw 31 29 = 3 then some (bitsOf raw 9 0) else none
  | none => none

end Sys2Proof
end

