-- ==== Sys2Proof/Config.lean ====
section
/-! DEFINITION. Free values and functions that the spec names but does not compute: no body, nothing is known of them. -/

namespace Sys2Proof

/-- Byte `addr` of the memory whose contents became undefined at event `k` (log entry 5). -/
opaque Config.freeByte : Nat → Nat → Byte

/-- The `k`-th value that the spec leaves open (log entry 8). -/
opaque Config.freeWord : Nat → Word

/-- SHAKE256 of a message, 64 bytes (R346, R428), as FIPS 202 defines it. -/
opaque Config.shake256 : List Byte → List Byte

/-- The ML-DSA-65 signature by the part's identity key, 3,309 bytes (R428). -/
opaque Config.sign : List Byte → List Byte

/-- Whether the signature of a service image of processor `p` verifies (R346). -/
opaque Config.imageOk : Fin 4 → List Byte → Bool

/-- FUSE_DIGEST of the part whose serial number is `n`: 64 bytes over a fuse map whose layout the spec does not give (R428). -/
opaque Config.fuseDigest : Nat → List Byte

/-- PRBS31 word of a channel test at a channel-local address; the spec does not give how the address seeds it (R281). -/
opaque Config.prbs : Nat → Nat

/-- The `k`-th value, of any width, that a boundary scan captures from the pins (R424, log entry 8). -/
opaque Config.freeNat : Nat → Nat

/-- Item `k` of the tables in the body of a service image, where they hold it: the spec does not lay the tables out (R344).
Liaison 0: HOST_LOSS_TIMEOUT; Sundial 1 to 4: cap, allowance, interval, margin, 5 and 6: policy mode and variant; Steward 7: mask of
the ports of its topology table; Keeper 8: SNAP_CTRL, its snapshot policy, 9 and 10: blocks of the NAND store and spare blocks, its flash
parameters. -/
opaque Config.imgItem : List Byte → Nat → Option Nat

/-- Whether a processor knows a table type of a service image (Table 13-3). -/
opaque Config.tableKnown : Fin 4 → Nat → Bool

/-- Whether a variant's width-class signature matches a list of FMT_TABLE entries (R361). -/
opaque Config.classMatch : Word → List (BitVec 12 × Word) → Bool

/-- What the spec does not say of the NAND store of this part: its blocks, factory bad blocks and spare blocks where Keeper's image gives none,
and the channel that a report names (Table 15-15, R405, log entry 31). -/
opaque Config.nand : Nat → Nat

/-- The 64 bytes of a link-control unit of a kind with a value, whose layout the spec does not give (R302, R305, R307, log entry 25). -/
opaque Config.ctlFlit : Nat → Nat → List Byte

/-- The payload of a firmware CTRL message, which its processors define (Table 11-9, log entry 25). -/
opaque Config.ctrlBytes : Nat → List Nat → List Byte

/-- What a processor reads in the payload of a CTRL message: its kind and its numbers (log entry 25). -/
opaque Config.ctrlRead : List Byte → Option (Nat × List Nat)

/-- How many bytes of its banks an abandoned load has written, by the number of its command and the restart count of Liaison: the spec
does not say (R353, log entry 64). -/
opaque Config.loadPart : Nat → Nat → Nat

/-- Which error status reports a timeout of a fill or of a request of the firmware: the spec names none (R319, log entry 25). -/
opaque Config.timeoutStatus : Nat

/-- What stands in ROM for tick `k` of a routine's duration, by its ID: whether a word issues there, its header and its halfword offset.
The spec gives a routine's duration and slots, not its words (R172, log entry 71). -/
opaque Config.romWord : Nat → Nat → Bool × BitVec 16 × Nat

/-- Where in a buddy's inbound area Mirror writes a page, as a region 0x0 offset (R401 gives no place; log entry 48). -/
opaque Config.inboundAt : Nat → Nat

end Sys2Proof
end

