-- ==== Sys2Proof/Machine/Regs.lean ====
section
/-! DEFINITION. The register map of 17_register_summary.md with the field types and Reset values of each chapter's tables. -/

namespace Sys2Proof.Machine

/-- The power domains a register answers in (Tables 1-8, 17-1). -/
inductive Domain where
  | alwaysOn | firmware | io | region | stacks
  deriving DecidableEq, Repr

/-- What an index of a register names (R432): nothing tied to a die, a station, a die, a segment or a stack,
the unit being the index divided by `per`. -/
inductive Scope where
  | one
  | station (per : Nat)
  | die (per : Nat)
  | seg
  | stack (per : Nat)
  deriving DecidableEq, Repr

/-- One row of Tables 17-2 to 17-6 with the masks of its field types (Table 0-5) and its Reset value. -/
structure RegInfo where
  off   : Nat
  count : Nat
  pair  : Bool
  scope : Scope
  dom   : Domain
  rw    : Nat
  rwe   : Nat
  w1c   : Nat
  wo    : Nat
  reset : Nat
  deriving DecidableEq, Repr

/-- Every register of the part (R431 to R433); a pair is one name. -/
inductive Reg where
  | idPartInfo | idRomVersion | idSerial | idAttest | idNonce | idMinSvn | idKeyDigest | idImgKeyDigest
  | idReport | idCert | pwrState | pwrProfile | pwrCtrl | pwrAvsCmd | pwrAvsResult | pwrZenithClkv
  | pwrZenithCfg | pwrIdleHint | pwrWakeEn | pwrWakeTimer | pwrWakeLast | pwrAlertStatus | pwrAlertEn
  | pwrInput | pwrInputStatus | pwrModuleTemp | pwrRetain | clkStatus | clkRegionStatus | govLimits | govVf
  | govStatus | fwStatus | fwRestart | fwNextVariant | fwVariantStatus | mbxCtrl | mbxStatus | mbxSession
  | mbxNextSeq | snapCtrl | snapStatus | snapBuddy | snapInbound | snapReserve | snapMask | snapReloc
  | ethPortCtrl | ethPortStatus | ethErr | ethErrCount | ethMac | ethIpv4Addr | ethIpv6Addr | ethRxFrames
  | ethTxFrames | ethRxBytes | ethFecCorr | ethMkeyCtrl | ethMkeyBase | ethMkeyLimit | ethQpStatus
  | pyModuleId | pySelfLogical | pyTimeout | pyMcastCtrl | pyMcastFail | pyMcastFailMap | pyErr | pyErrCount
  | pyRedStatus | pyPortCtrl | pyPortStatus | pyLaneMap | pyNeighbor | pyPortErrs | pyFecCorr | pyTxFlits
  | pyRxFlits | pyRoute | pyRemap | pyMcastMember | shtCtrl | shtStatus | shtCause | shtCount | shtTicks
  | shtFault | shtEpoch | shtFifo | ringMode | ringSeamStatus | ringBridge | ringErr | ringInjCount
  | ringTapCount | segPresent | segFeedCtrl | segFeedStatus | segSpare | segFeedInjCount | stnArrayCtrl
  | stnArrayFault | stnSeqStatus | stnPcF | stnPcB | stnPcU | stnImemCtrl | stnSeqFault | stnSeqFaultPc
  | stnLxFault | stnMemErr | stnStashWin | stnStashMark | stnStashSpill | stnStashStatus | stnStateEpoch
  | stnMmaCount | stnRowTicks | stnDieEpoch | stnOwnMap | vecFlagSum | vecFlags | vecFault | lensBase
  | lensStatus | lensLogCfg | lensLogHead | lensCtrl | fmtPolicy | fmtCand | fmtTable | dbgStep | dbgTraceCfg
  | dbgTraceHead | dbgTraceDrop | dbgBrkF | dbgBrkB | dbgBrkU | dbgCntF | dbgCntB | dbgCntU | prismRgnBase
  | prismRgnShape | prismRgnScale | prismRgnTwin | prismRetire | msCtrl | msErr | msErrCount | msLcCtrl
  | msLcHits | msLcMiss | msTgCtrl | msTgStatus | msTgErrs | msPgEpoch
  deriving DecidableEq, Repr

/-- Offset, instances, scope, domain, field masks RW, RWE, W1C, WO and Reset value of a register. -/
def Reg.info : Reg → RegInfo
  | .idPartInfo => ⟨0x0, 1, false, .one, .alwaysOn, 0x0, 0x0, 0x0, 0x0, 0x0⟩
  | .idRomVersion => ⟨0x4, 1, false, .one, .alwaysOn, 0x0, 0x0, 0x0, 0x0, 0x0⟩
  | .idSerial => ⟨0x8, 1, true, .one, .alwaysOn, 0x0, 0x0, 0x0, 0x0, 0x0⟩
  | .idAttest => ⟨0x10, 1, false, .one, .alwaysOn, 0x0, 0x0, 0x20000000, 0x80000000, 0x0⟩
  | .idNonce => ⟨0x20, 8, false, .one, .alwaysOn, 0xFFFFFFFF, 0x0, 0x0, 0x0, 0x0⟩
  | .idMinSvn => ⟨0x40, 4, false, .one, .alwaysOn, 0x0, 0x0, 0x0, 0x0, 0x0⟩
  | .idKeyDigest => ⟨0x80, 16, false, .one, .alwaysOn, 0x0, 0x0, 0x0, 0x0, 0x0⟩
  | .idImgKeyDigest => ⟨0xC0, 16, false, .one, .alwaysOn, 0x0, 0x0, 0x0, 0x0, 0x0⟩
  | .idReport => ⟨0x1000, 1024, false, .one, .alwaysOn, 0x0, 0x0, 0x0, 0x0, 0x0⟩
  | .idCert => ⟨0x4000, 4096, false, .one, .alwaysOn, 0x0, 0x0, 0x0, 0x0, 0x0⟩
  | .pwrState => ⟨0x100000, 1, false, .one, .alwaysOn, 0x0, 0x0, 0x0, 0x0, 0x0⟩
  | .pwrProfile => ⟨0x100004, 1, false, .one, .alwaysOn, 0x80030000, 0x0, 0x40000000, 0x0, 0x0⟩
  | .pwrCtrl => ⟨0x100008, 1, false, .one, .alwaysOn, 0x80000000, 0x0, 0x0, 0x0, 0x0⟩
  | .pwrAvsCmd => ⟨0x10000C, 1, false, .one, .alwaysOn, 0x0, 0x0, 0x0, 0xCFF0FFFF, 0x0⟩
  | .pwrAvsResult => ⟨0x100010, 1, false, .one, .alwaysOn, 0x0, 0x0, 0x0, 0x0, 0x0⟩
  | .pwrZenithClkv => ⟨0x100014, 1, false, .one, .alwaysOn, 0xFFFFFFFF, 0x0, 0x0, 0x0, 0x0⟩
  | .pwrZenithCfg => ⟨0x100018, 1, false, .one, .alwaysOn, 0xFFFFFFFF, 0x0, 0x0, 0x0, 0x0⟩
  | .pwrIdleHint => ⟨0x10001C, 1, false, .one, .alwaysOn, 0xFFF, 0x0, 0x80000000, 0x0, 0x0⟩
  | .pwrWakeEn => ⟨0x100020, 1, false, .one, .alwaysOn, 0x8000001F, 0x0, 0x0, 0x0, 0x17⟩
  | .pwrWakeTimer => ⟨0x100024, 1, false, .one, .alwaysOn, 0xFFFFFFFF, 0x0, 0x0, 0x0, 0x0⟩
  | .pwrWakeLast => ⟨0x100028, 1, false, .one, .alwaysOn, 0x0, 0x0, 0x80000000, 0x0, 0x0⟩
  | .pwrAlertStatus => ⟨0x10002C, 1, false, .one, .alwaysOn, 0x0, 0x0, 0x7F, 0x0, 0x0⟩
  | .pwrAlertEn => ⟨0x100030, 1, false, .one, .alwaysOn, 0x7F, 0x0, 0x0, 0x0, 0x7F⟩
  | .pwrInput => ⟨0x100034, 1, false, .one, .alwaysOn, 0x0, 0x0, 0x0, 0x0, 0x0⟩
  | .pwrInputStatus => ⟨0x100038, 1, false, .one, .alwaysOn, 0x0, 0x0, 0x1, 0x0, 0x0⟩
  | .pwrModuleTemp => ⟨0x10003C, 1, false, .one, .alwaysOn, 0x0, 0x0, 0x0, 0x0, 0x0⟩
  | .pwrRetain => ⟨0x100080, 32, false, .one, .alwaysOn, 0xFFFFFFFF, 0x0, 0x0, 0x0, 0x0⟩
  | .clkStatus => ⟨0x200000, 1, false, .one, .alwaysOn, 0x0, 0x0, 0x40000000, 0x0, 0x10000000⟩
  | .clkRegionStatus => ⟨0x200020, 8, false, .one, .alwaysOn, 0x0, 0x0, 0x0, 0x0, 0x0⟩
  | .govLimits => ⟨0x300000, 1, false, .one, .alwaysOn, 0x0, 0x0, 0x0, 0x0, 0x0⟩
  | .govVf => ⟨0x300004, 1, false, .one, .alwaysOn, 0x0, 0x0, 0x0, 0x0, 0x0⟩
  | .govStatus => ⟨0x300008, 1, false, .one, .alwaysOn, 0x0, 0x0, 0x60000000, 0x0, 0x0⟩
  | .fwStatus => ⟨0x400000, 4, false, .one, .firmware, 0x0, 0x0, 0x0, 0x0, 0x0⟩
  | .fwRestart => ⟨0x400010, 1, false, .one, .firmware, 0x0, 0x0, 0x0, 0xF, 0x0⟩
  | .fwNextVariant => ⟨0x400014, 1, false, .one, .firmware, 0x8000003F, 0x0, 0x0, 0x0, 0x0⟩
  | .fwVariantStatus => ⟨0x400018, 1, false, .one, .firmware, 0x0, 0x0, 0x0, 0x0, 0x0⟩
  | .mbxCtrl => ⟨0x500000, 1, false, .one, .firmware, 0x1FFFF, 0x0, 0x0, 0x0, 0x12C⟩
  | .mbxStatus => ⟨0x500004, 1, false, .one, .firmware, 0x0, 0x0, 0x0, 0x0, 0x0⟩
  | .mbxSession => ⟨0x500008, 1, false, .one, .firmware, 0x0, 0x0, 0x0, 0x0, 0x0⟩
  | .mbxNextSeq => ⟨0x500010, 4, false, .one, .firmware, 0x0, 0x0, 0x0, 0x0, 0x1⟩
  | .snapCtrl => ⟨0x600000, 1, false, .one, .io, 0xC000FFFF, 0x0, 0x0, 0x0, 0x0⟩
  | .snapStatus => ⟨0x600004, 1, false, .one, .io, 0x0, 0x0, 0x0, 0x0, 0x0⟩
  | .snapBuddy => ⟨0x600008, 1, false, .one, .io, 0xCFFFFFFF, 0x0, 0x0, 0x0, 0x0⟩
  | .snapInbound => ⟨0x60000C, 1, false, .one, .io, 0x8001FFFF, 0x0, 0x0, 0x0, 0x0⟩
  | .snapReserve => ⟨0x600010, 4, false, .one, .io, 0x800FFCFF, 0x0, 0x0, 0x0, 0x0⟩
  | .snapMask => ⟨0x600200, 128, false, .one, .io, 0xFFFFFFFF, 0x0, 0x0, 0x0, 0x0⟩
  | .snapReloc => ⟨0x604000, 4096, false, .one, .io, 0x83FFFFFF, 0x0, 0x0, 0x0, 0x0⟩
  | .ethPortCtrl => ⟨0x700000, 2, false, .one, .io, 0xB807000F, 0x0, 0x0, 0x40000000, 0x20030005⟩
  | .ethPortStatus => ⟨0x700008, 2, false, .one, .io, 0x0, 0x0, 0x0, 0x0, 0x0⟩
  | .ethErr => ⟨0x700010, 2, false, .one, .io, 0x0, 0x0, 0x80000000, 0x0, 0x0⟩
  | .ethErrCount => ⟨0x700018, 2, false, .one, .io, 0x0, 0x0, 0x0, 0x0, 0x0⟩
  | .ethMac => ⟨0x700020, 2, true, .one, .io, 0x0, 0x0, 0x0, 0x0, 0x0⟩
  | .ethIpv4Addr => ⟨0x700030, 2, false, .one, .io, 0xFFFFFFFF, 0x0, 0x0, 0x0, 0x0⟩
  | .ethIpv6Addr => ⟨0x700040, 8, false, .one, .io, 0xFFFFFFFF, 0x0, 0x0, 0x0, 0x0⟩
  | .ethRxFrames => ⟨0x700100, 2, true, .one, .io, 0x0, 0x0, 0x0, 0x0, 0x0⟩
  | .ethTxFrames => ⟨0x700110, 2, true, .one, .io, 0x0, 0x0, 0x0, 0x0, 0x0⟩
  | .ethRxBytes => ⟨0x700120, 2, true, .one, .io, 0x0, 0x0, 0x0, 0x0, 0x0⟩
  | .ethFecCorr => ⟨0x700130, 2, true, .one, .io, 0x0, 0x0, 0x0, 0x0, 0x0⟩
  | .ethMkeyCtrl => ⟨0x701000, 128, false, .one, .io, 0xE0FFFFFF, 0x0, 0x0, 0x0, 0x0⟩
  | .ethMkeyBase => ⟨0x701200, 128, true, .one, .io, 0xFFFFFFFF, 0x0, 0x0, 0x0, 0x0⟩
  | .ethMkeyLimit => ⟨0x701600, 128, true, .one, .io, 0xFFFFFFFF, 0x0, 0x0, 0x0, 0x0⟩
  | .ethQpStatus => ⟨0x702000, 130, false, .one, .io, 0x0, 0x0, 0x0, 0x0, 0x0⟩
  | .pyModuleId => ⟨0x800000, 1, false, .one, .io, 0x8000FFFF, 0x0, 0x0, 0x0, 0xFFFF⟩
  | .pySelfLogical => ⟨0x800004, 1, false, .one, .io, 0x80003FFF, 0x0, 0x0, 0x0, 0x0⟩
  | .pyTimeout => ⟨0x800008, 1, false, .one, .io, 0xFFFF, 0x0, 0x0, 0x0, 0x3E8⟩
  | .pyMcastCtrl => ⟨0x80000C, 1, false, .one, .io, 0xFFFFFFFF, 0x0, 0x0, 0x0, 0x3E80020⟩
  | .pyMcastFail => ⟨0x800010, 1, false, .one, .io, 0x0, 0x0, 0x80000000, 0x0, 0x0⟩
  | .pyMcastFailMap => ⟨0x800018, 1, true, .one, .io, 0x0, 0x0, 0x0, 0x0, 0x0⟩
  | .pyErr => ⟨0x800020, 1, false, .one, .io, 0x0, 0x0, 0x80000000, 0x0, 0x0⟩
  | .pyErrCount => ⟨0x800024, 1, false, .one, .io, 0x0, 0x0, 0x0, 0x0, 0x0⟩
  | .pyRedStatus => ⟨0x800028, 1, false, .one, .io, 0x0, 0x0, 0x0, 0x0, 0x0⟩
  | .pyPortCtrl => ⟨0x800100, 16, false, .one, .io, 0x980F0000, 0x0, 0x0, 0x60000000, 0x18000000⟩
  | .pyPortStatus => ⟨0x800140, 16, false, .one, .io, 0x0, 0x0, 0x0, 0x0, 0x0⟩
  | .pyLaneMap => ⟨0x800180, 16, false, .one, .io, 0x0, 0x0, 0x0, 0x0, 0x76543210⟩
  | .pyNeighbor => ⟨0x8001C0, 16, false, .one, .io, 0x0, 0x0, 0x0, 0x0, 0xFFFF⟩
  | .pyPortErrs => ⟨0x800200, 16, false, .one, .io, 0x0, 0x0, 0x0, 0x0, 0x0⟩
  | .pyFecCorr => ⟨0x800400, 16, true, .one, .io, 0x0, 0x0, 0x0, 0x0, 0x0⟩
  | .pyTxFlits => ⟨0x800480, 16, true, .one, .io, 0x0, 0x0, 0x0, 0x0, 0x0⟩
  | .pyRxFlits => ⟨0x800500, 16, true, .one, .io, 0x0, 0x0, 0x0, 0x0, 0x0⟩
  | .pyRoute => ⟨0x810000, 16384, false, .one, .io, 0x800000FF, 0x0, 0x0, 0x0, 0x0⟩
  | .pyRemap => ⟨0x820000, 16384, false, .one, .io, 0x80003FFF, 0x0, 0x0, 0x0, 0x0⟩
  | .pyMcastMember => ⟨0x830000, 16320, false, .one, .io, 0x8000FFFF, 0x0, 0x0, 0x0, 0x0⟩
  | .shtCtrl => ⟨0x900000, 4, false, .die 1, .region, 0x53FF, 0x0, 0x0, 0x2000, 0x100⟩
  | .shtStatus => ⟨0x900010, 4, false, .die 1, .region, 0x0, 0x0, 0x0, 0x0, 0x0⟩
  | .shtCause => ⟨0x900020, 4, false, .die 1, .region, 0x0, 0x0, 0x1FFF, 0x0, 0x0⟩
  | .shtCount => ⟨0x900030, 4, false, .die 1, .region, 0x0, 0x0, 0x0, 0x0, 0x0⟩
  | .shtTicks => ⟨0x900040, 4, true, .die 1, .region, 0x0, 0x0, 0x0, 0x0, 0x0⟩
  | .shtFault => ⟨0x900060, 4, false, .die 1, .region, 0x0, 0x0, 0x80000000, 0x0, 0x0⟩
  | .shtEpoch => ⟨0x900070, 4, false, .die 1, .region, 0x0, 0x0, 0x80000000, 0x0, 0x0⟩
  | .shtFifo => ⟨0x900080, 4, false, .die 1, .region, 0x0, 0x0, 0x0, 0x0, 0x444⟩
  | .ringMode => ⟨0xA00000, 1, false, .one, .region, 0x0, 0x0, 0x0, 0x0, 0x1100⟩
  | .ringSeamStatus => ⟨0xA00010, 4, false, .die 1, .region, 0x0, 0x0, 0x0, 0x0, 0x0⟩
  | .ringBridge => ⟨0xA00020, 4, false, .die 1, .region, 0x1, 0x0, 0x0, 0x2, 0x1⟩
  | .ringErr => ⟨0xA00030, 4, false, .die 1, .region, 0x0, 0x0, 0x80000000, 0x0, 0x0⟩
  | .ringInjCount => ⟨0xA02000, 1024, true, .station 1, .region, 0x0, 0x0, 0x0, 0x0, 0x0⟩
  | .ringTapCount => ⟨0xA04000, 1024, true, .station 1, .region, 0x0, 0x0, 0x0, 0x0, 0x0⟩
  | .segPresent => ⟨0xB00000, 1, false, .one, .region, 0x0, 0x0, 0x0, 0x0, 0x0⟩
  | .segFeedCtrl => ⟨0xB00080, 32, false, .seg, .region, 0x0, 0x3FF, 0x0, 0x0, 0x180⟩
  | .segFeedStatus => ⟨0xB00100, 32, false, .seg, .region, 0x0, 0x0, 0x0, 0x0, 0x0⟩
  | .segSpare => ⟨0xB00180, 32, false, .seg, .region, 0x0, 0x3F, 0x0, 0x0, 0x20⟩
  | .segFeedInjCount => ⟨0xB00200, 32, true, .seg, .region, 0x0, 0x0, 0x0, 0x0, 0x0⟩
  | .stnArrayCtrl => ⟨0xC00000, 1024, false, .station 1, .region, 0x4, 0x1, 0x0, 0x2, 0x4⟩
  | .stnArrayFault => ⟨0xC01000, 1024, false, .station 1, .region, 0x0, 0x0, 0x80000000, 0x0, 0x0⟩
  | .stnSeqStatus => ⟨0xC02000, 1024, false, .station 1, .region, 0x0, 0x0, 0x0, 0x0, 0x0⟩
  | .stnPcF => ⟨0xC03000, 1024, false, .station 1, .region, 0x0, 0x0, 0x0, 0x0, 0x0⟩
  | .stnPcB => ⟨0xC04000, 1024, false, .station 1, .region, 0x0, 0x0, 0x0, 0x0, 0x0⟩
  | .stnPcU => ⟨0xC05000, 1024, false, .station 1, .region, 0x0, 0x0, 0x0, 0x0, 0x0⟩
  | .stnImemCtrl => ⟨0xC06000, 1024, false, .station 1, .region, 0x0, 0x0, 0x0, 0x0, 0x0⟩
  | .stnSeqFault => ⟨0xC07000, 1024, false, .station 1, .region, 0x0, 0x0, 0x80000000, 0x0, 0x0⟩
  | .stnSeqFaultPc => ⟨0xC08000, 1024, false, .station 1, .region, 0x0, 0x0, 0x0, 0x0, 0x0⟩
  | .stnLxFault => ⟨0xC09000, 1024, false, .station 1, .region, 0x0, 0x0, 0x80000000, 0x0, 0x0⟩
  | .stnMemErr => ⟨0xC0A000, 1024, false, .station 1, .region, 0x0, 0x0, 0x80000000, 0x0, 0x0⟩
  | .stnStashWin => ⟨0xC0B000, 1024, false, .station 1, .region, 0x0, 0x3FFFF, 0x0, 0x0, 0x0⟩
  | .stnStashMark => ⟨0xC0C000, 1024, false, .station 1, .region, 0x0, 0x8003FFFF, 0x0, 0x0, 0x0⟩
  | .stnStashSpill => ⟨0xC0D000, 1024, false, .station 1, .region, 0x0, 0xFFFFFFFF, 0x0, 0x0, 0x0⟩
  | .stnStashStatus => ⟨0xC0E000, 1024, false, .station 1, .region, 0x0, 0x0, 0x0, 0x0, 0x0⟩
  | .stnStateEpoch => ⟨0xC0F000, 1024, false, .station 1, .region, 0xFFFF, 0x0, 0x0, 0x0, 0x1⟩
  | .stnMmaCount => ⟨0xC10000, 1024, true, .station 1, .region, 0x0, 0x0, 0x0, 0x0, 0x0⟩
  | .stnRowTicks => ⟨0xC12000, 1024, true, .station 1, .region, 0x0, 0x0, 0x0, 0x0, 0x0⟩
  | .stnDieEpoch => ⟨0xC14000, 4, false, .die 1, .region, 0xFFFF, 0x0, 0x0, 0x0, 0x1⟩
  | .stnOwnMap => ⟨0xC20000, 40960, false, .station 40, .region, 0xFFFFFFFF, 0x0, 0x0, 0x0, 0x0⟩
  | .vecFlagSum => ⟨0xD00000, 4, false, .die 1, .region, 0x0, 0x0, 0x0, 0x0, 0x0⟩
  | .vecFlags => ⟨0xD01000, 1024, false, .station 1, .region, 0x0, 0x0, 0x1F1F1F, 0x0, 0x0⟩
  | .vecFault => ⟨0xD02000, 1024, false, .station 1, .region, 0x0, 0x0, 0x80000000, 0x0, 0x0⟩
  | .lensBase => ⟨0xE00000, 4, false, .die 1, .region, 0x0, 0xFFF, 0x0, 0x0, 0x0⟩
  | .lensStatus => ⟨0xE00010, 4, false, .die 1, .region, 0x0, 0x0, 0x30000, 0x0, 0x0⟩
  | .lensLogCfg => ⟨0xE00020, 4, false, .die 1, .region, 0x0, 0x7FFFF, 0x0, 0x0, 0x0⟩
  | .lensLogHead => ⟨0xE00030, 4, false, .die 1, .region, 0x0, 0xFFFFFF, 0x0, 0x0, 0x0⟩
  | .lensCtrl => ⟨0xE01000, 1024, false, .station 1, .region, 0x0, 0x7, 0x0, 0x0, 0x7⟩
  | .fmtPolicy => ⟨0xF00000, 4, false, .die 1, .region, 0x80FF0FFF, 0x0, 0x0, 0x0, 0x80000140⟩
  | .fmtCand => ⟨0xF00010, 4, false, .die 1, .region, 0xFFFFFFF, 0x0, 0x0, 0x0, 0xA216543⟩
  | .fmtTable => ⟨0xF10000, 16384, false, .die 4096, .region, 0x0, 0xFFFF038F, 0x0, 0x0, 0x1⟩
  | .dbgStep => ⟨0x1200000, 4, false, .die 1, .region, 0x0, 0x0, 0x0, 0xC3FFFFFF, 0x0⟩
  | .dbgTraceCfg => ⟨0x1200010, 4, false, .die 1, .region, 0x80000000, 0x7FFFF, 0x0, 0x0, 0x0⟩
  | .dbgTraceHead => ⟨0x1200020, 4, false, .die 1, .region, 0x0, 0xFFFFFF, 0x80000000, 0x0, 0x0⟩
  | .dbgTraceDrop => ⟨0x1200030, 4, false, .die 1, .region, 0x0, 0x0, 0x0, 0x0, 0x0⟩
  | .dbgBrkF => ⟨0x1201000, 1024, false, .station 1, .region, 0x1FFFFF, 0x0, 0x80000000, 0x0, 0x0⟩
  | .dbgBrkB => ⟨0x1202000, 1024, false, .station 1, .region, 0x1FFFFF, 0x0, 0x80000000, 0x0, 0x0⟩
  | .dbgBrkU => ⟨0x1203000, 1024, false, .station 1, .region, 0x1FFFFF, 0x0, 0x80000000, 0x0, 0x0⟩
  | .dbgCntF => ⟨0x1204000, 1024, false, .station 1, .region, 0xFFFFFFFF, 0x0, 0x0, 0x0, 0x0⟩
  | .dbgCntB => ⟨0x1205000, 1024, false, .station 1, .region, 0xFFFFFFFF, 0x0, 0x0, 0x0, 0x0⟩
  | .dbgCntU => ⟨0x1206000, 1024, false, .station 1, .region, 0xFFFFFFFF, 0x0, 0x0, 0x0, 0x0⟩
  | .prismRgnBase => ⟨0x1000000, 512, false, .stack 16, .stacks, 0x8001FFFF, 0x0, 0x0, 0x0, 0x0⟩
  | .prismRgnShape => ⟨0x1000800, 512, false, .stack 16, .stacks, 0xFFFFFFFC, 0x0, 0x0, 0x0, 0x0⟩
  | .prismRgnScale => ⟨0x1001000, 512, false, .stack 16, .stacks, 0x7FFFFF, 0x0, 0x0, 0x0, 0x0⟩
  | .prismRgnTwin => ⟨0x1001800, 512, false, .stack 16, .stacks, 0x1FFFF, 0x0, 0x0, 0x0, 0x0⟩
  | .prismRetire => ⟨0x1002000, 1024, false, .stack 32, .stacks, 0x80001FFF, 0x0, 0x0, 0x0, 0x0⟩
  | .msCtrl => ⟨0x1100000, 32, false, .stack 1, .stacks, 0x7, 0x0, 0x0, 0x8, 0x5⟩
  | .msErr => ⟨0x1100080, 32, false, .stack 1, .stacks, 0x0, 0x0, 0x80000000, 0x0, 0x0⟩
  | .msErrCount => ⟨0x1100100, 32, false, .stack 1, .stacks, 0x0, 0x0, 0x0, 0x0, 0x0⟩
  | .msLcCtrl => ⟨0x1100180, 4, false, .die 1, .stacks, 0x1, 0x0, 0x0, 0x6, 0x0⟩
  | .msLcHits => ⟨0x1100190, 4, true, .die 1, .stacks, 0x0, 0x0, 0x0, 0x0, 0x0⟩
  | .msLcMiss => ⟨0x11001B0, 4, true, .die 1, .stacks, 0x0, 0x0, 0x0, 0x0, 0x0⟩
  | .msTgCtrl => ⟨0x1100200, 128, false, .stack 4, .stacks, 0x3EFFFFFF, 0x0, 0x0, 0xC0000000, 0x807000⟩
  | .msTgStatus => ⟨0x1100400, 128, false, .stack 4, .stacks, 0x0, 0x0, 0x40000000, 0x0, 0x0⟩
  | .msTgErrs => ⟨0x1100600, 128, false, .stack 4, .stacks, 0x0, 0x0, 0x0, 0x0, 0x0⟩
  | .msPgEpoch => ⟨0x1110000, 4096, false, .stack 128, .stacks, 0xFFFF, 0x0, 0x0, 0x0, 0x1⟩

/-- Registers of the map, part 1. -/
def Reg.all1 : List Reg :=
  [.idPartInfo, .idRomVersion, .idSerial, .idAttest, .idNonce, .idMinSvn,
   .idKeyDigest, .idImgKeyDigest, .idReport, .idCert, .pwrState, .pwrProfile,
   .pwrCtrl, .pwrAvsCmd, .pwrAvsResult, .pwrZenithClkv, .pwrZenithCfg, .pwrIdleHint,
   .pwrWakeEn, .pwrWakeTimer, .pwrWakeLast, .pwrAlertStatus, .pwrAlertEn, .pwrInput,
   .pwrInputStatus, .pwrModuleTemp, .pwrRetain, .clkStatus, .clkRegionStatus, .govLimits,
   .govVf, .govStatus, .fwStatus, .fwRestart, .fwNextVariant, .fwVariantStatus]

/-- Registers of the map, part 2. -/
def Reg.all2 : List Reg :=
  [.mbxCtrl, .mbxStatus, .mbxSession, .mbxNextSeq, .snapCtrl, .snapStatus,
   .snapBuddy, .snapInbound, .snapReserve, .snapMask, .snapReloc, .ethPortCtrl,
   .ethPortStatus, .ethErr, .ethErrCount, .ethMac, .ethIpv4Addr, .ethIpv6Addr,
   .ethRxFrames, .ethTxFrames, .ethRxBytes, .ethFecCorr, .ethMkeyCtrl, .ethMkeyBase,
   .ethMkeyLimit, .ethQpStatus, .pyModuleId, .pySelfLogical, .pyTimeout, .pyMcastCtrl,
   .pyMcastFail, .pyMcastFailMap, .pyErr, .pyErrCount, .pyRedStatus, .pyPortCtrl]

/-- Registers of the map, part 3. -/
def Reg.all3 : List Reg :=
  [.pyPortStatus, .pyLaneMap, .pyNeighbor, .pyPortErrs, .pyFecCorr, .pyTxFlits,
   .pyRxFlits, .pyRoute, .pyRemap, .pyMcastMember, .shtCtrl, .shtStatus,
   .shtCause, .shtCount, .shtTicks, .shtFault, .shtEpoch, .shtFifo,
   .ringMode, .ringSeamStatus, .ringBridge, .ringErr, .ringInjCount, .ringTapCount,
   .segPresent, .segFeedCtrl, .segFeedStatus, .segSpare, .segFeedInjCount, .stnArrayCtrl,
   .stnArrayFault, .stnSeqStatus, .stnPcF, .stnPcB, .stnPcU, .stnImemCtrl]

/-- Registers of the map, part 4. -/
def Reg.all4 : List Reg :=
  [.stnSeqFault, .stnSeqFaultPc, .stnLxFault, .stnMemErr, .stnStashWin, .stnStashMark,
   .stnStashSpill, .stnStashStatus, .stnStateEpoch, .stnMmaCount, .stnRowTicks, .stnDieEpoch,
   .stnOwnMap, .vecFlagSum, .vecFlags, .vecFault, .lensBase, .lensStatus,
   .lensLogCfg, .lensLogHead, .lensCtrl, .fmtPolicy, .fmtCand, .fmtTable,
   .dbgStep, .dbgTraceCfg, .dbgTraceHead, .dbgTraceDrop, .dbgBrkF, .dbgBrkB,
   .dbgBrkU, .dbgCntF, .dbgCntB, .dbgCntU, .prismRgnBase, .prismRgnShape]

/-- Registers of the map, part 5. -/
def Reg.all5 : List Reg :=
  [.prismRgnScale, .prismRgnTwin, .prismRetire, .msCtrl, .msErr, .msErrCount,
   .msLcCtrl, .msLcHits, .msLcMiss, .msTgCtrl, .msTgStatus, .msTgErrs,
   .msPgEpoch]

/-- Every register of the map. -/
def Reg.all : List Reg :=
  Reg.all1 ++ Reg.all2 ++ Reg.all3 ++ Reg.all4 ++ Reg.all5

/-- The CSR offset of instance `i` (of its low half for a pair) (R432). -/
def Reg.at (r : Reg) (i : Nat) : Nat := r.info.off + (if r.info.pair then 8 else 4) * i

/-- The bytes of CSR space a register occupies. -/
def RegInfo.size (g : RegInfo) : Nat := (if g.pair then 8 else 4) * g.count

/-- The register, its index and whether its upper half lies at a CSR offset (R432, R433). -/
def Reg.findIn : List Reg → Nat → Option (Reg × Nat × Bool)
  | [], _ => none
  | r :: rs, o =>
    if r.info.off ≤ o ∧ o < r.info.off + r.info.size then
      (if r.info.pair then some (r, (o - r.info.off) / 8, decide ((o - r.info.off) % 8 = 4))
       else some (r, (o - r.info.off) / 4, false))
    else Reg.findIn rs o

/-- The register at a CSR offset, none where no register lies (R433). -/
def Reg.find (o : Nat) : Option (Reg × Nat × Bool) :=
  if o % 4 = 0 then Reg.findIn Reg.all o else none

/-- The Reset value of the word at a CSR offset, fused and strapped fields as 0 (R12) but for SPARE_POS, fused at 32 (R20). -/
def Reg.resetAt (o : Nat) : Word :=
  match Reg.find o with
  | some (r, _, _) => BitVec.ofNat 32 r.info.reset
  | none => 0

end Sys2Proof.Machine
end

