-- ==== Sys2Proof/Machine/Tbl.lean ====
section
/-! DEFINITION. Sparse tables in one canonical form: the register file, memories, stations and every other indexed store. -/

namespace Sys2Proof.Machine

/-- A sparse table: entries (key, value) with keys strictly rising and no entry equal to what an unlisted key reads as. -/
abbrev Tbl (α : Type) := List (Nat × α)

/-- The value at key `n`; `d` gives what an unlisted key reads as. -/
def Tbl.get {α : Type} (d : Nat → α) : Tbl α → Nat → α
  | [], n => d n
  | (k, v) :: t, n => if k = n then v else Tbl.get d t n

/-- Insert or replace the entry of key `n`, in key order. -/
def Tbl.ins {α : Type} : Tbl α → Nat → α → Tbl α
  | [], n, v => [(n, v)]
  | (k, w) :: t, n, v =>
    if k = n then (n, v) :: t
    else if n < k then (n, v) :: (k, w) :: t
    else (k, w) :: Tbl.ins t n v

/-- Remove the entry of key `n`. -/
def Tbl.del {α : Type} : Tbl α → Nat → Tbl α
  | [], _ => []
  | (k, w) :: t, n => if k = n then Tbl.del t n else (k, w) :: Tbl.del t n

/-- Write `v` at key `n`, keeping the canonical form: writing the unlisted value removes the entry. -/
def Tbl.put {α : Type} [DecidableEq α] (d : Nat → α) (t : Tbl α) (n : Nat) (v : α) : Tbl α :=
  if v = d n then Tbl.del t n else Tbl.ins t n v

/-- Write a list of values at consecutive keys from `n`. -/
def Tbl.puts {α : Type} [DecidableEq α] (d : Nat → α) : Tbl α → Nat → List α → Tbl α
  | t, _, [] => t
  | t, n, v :: vs => Tbl.puts d (Tbl.put d t n v) (n + 1) vs

/-- The `len` values at consecutive keys from `n`. -/
def Tbl.gets {α : Type} (d : Nat → α) (t : Tbl α) : Nat → Nat → List α
  | _, 0 => []
  | n, len + 1 => Tbl.get d t n :: Tbl.gets d t (n + 1) len

/-- Keys strictly rise from `lo` on, and no entry is what its key reads as unlisted. -/
def Tbl.wfFrom {α : Type} [DecidableEq α] (d : Nat → α) : Nat → Tbl α → Bool
  | _, [] => true
  | lo, (k, v) :: t => decide (lo ≤ k) && decide (v ≠ d k) && Tbl.wfFrom d (k + 1) t

/-- The canonical form of a table. -/
def Tbl.wf {α : Type} [DecidableEq α] (d : Nat → α) (t : Tbl α) : Bool := Tbl.wfFrom d 0 t

end Sys2Proof.Machine
end

