-- ==== Sys2Proof/Machine/State.lean ====
section
/-! DEFINITION. The state of the part as plain data, its stops, and the state right after reset. -/

namespace Sys2Proof.Machine

/-- A ring word (Table 4-1); reserved bits are 0. -/
structure RingWord where
  data   : BitVec 1024
  scale  : BitVec 64
  tag    : BitVec 16
  parity : BitVec 8
  valid  : Bool
  cls    : BitVec 2
  poison : Bool
  deriving DecidableEq, Repr

/-- The empty slot: every bit 0 (R98). -/
def RingWord.empty : RingWord := ⟨0, 0, 0, 0, false, 0, false⟩

/-- A byte memory: the bytes written, and what an unlisted byte reads as: 0 after power-on (log entry 5),
or, for contents the spec calls undefined, the free bytes numbered `k` of Config. -/
structure Memory where
  bg    : Option Nat
  cells : Tbl Byte
  deriving DecidableEq, Repr

def Memory.zero : Memory := ⟨none, []⟩

/-- A tile register or accumulation group: 1,024 words, element (i, j) at 64 * i + j (R126, R53). -/
abbrev Tile := List Word

def Tile.zero : Tile := List.replicate 1024 0

/-- One block register: the exact sum in units of 2^-300 and what special products it has met (R73, R75). -/
structure Blk where
  sum  : Int
  nan  : Bool
  pinf : Bool
  ninf : Bool
  deriving DecidableEq, Repr

def Blk.zero : Blk := ⟨0, false, false, false⟩

/-- One level of the repeat stack (Table 6-3): body start, length in words, words of this iteration done,
iterations left, loop counter. -/
structure RepLvl where
  start : Nat
  len   : Nat
  pos   : Nat
  left  : Nat
  kr    : Nat
  deriving DecidableEq, Repr

/-- One level of the return stack (Table 6-3): return address, its repeat depth, whether the caller was in a routine. -/
structure RetLvl where
  pc    : Nat
  depth : Nat
  deriving DecidableEq, Repr

/-- A WAITEV in progress (R163, R208): event, tick of issue, tick on whose end it occurred. -/
structure WaitSt where
  ev   : BitVec 6
  at_  : Nat
  seen : Option Nat
  deriving DecidableEq, Repr

/-- The word a stream issued last: tick, header, whether it passed its checks, slots acted on so far,
its halfword offset, and whether it lies in a routine. -/
structure WordSt where
  tick : Nat
  hdr  : BitVec 16
  ok   : Bool
  done : List Slot
  pc   : Nat
  rtn  : Bool
  deriving DecidableEq, Repr

/-- A ROM routine that a stream runs (R172): its ID, the tick of its CALL, S0 and S1 as they stand on its first tick, and the tick of
the word of it that issued last. -/
structure RomSt where
  id  : Nat
  at_ : Nat
  s0  : Word
  s1  : Word
  done : Option Nat
  deriving DecidableEq, Repr

/-- State of one stream (Table 6-3). `next` is the first tick on which it may issue its next word, `rom` the ROM routine it runs, `skip` the
tick of a break that has hit and whose word is still to issue (R180, R182). The stacks are lists without a bound: routine RAM rewritten after
its check can call and repeat deeper than the 4 and 8 levels of R159, where the spec says nothing (DESIGN CHOICE, log entry 72). -/
structure StreamSt where
  pc      : Nat
  bank    : Bool
  reps    : List RepLvl
  rets    : List RetLvl
  k       : Tbl (BitVec 16)
  s       : Tbl Word
  nacc    : BitVec 48
  ltag    : BitVec 12
  lens    : Bool
  swap    : Option Nat
  wait    : Option WaitSt
  next    : Nat
  skip    : Option Nat
  word    : Option WordSt
  rom     : Option RomSt
  deriving DecidableEq, Repr

def StreamSt.reset : StreamSt :=
  { pc := 0, bank := false, reps := [], rets := [], k := [], s := [], nacc := 0, ltag := 0, lens := false,
    swap := none, wait := none, next := 0, skip := none, word := none, rom := none }

/-- Run state of a station (Table 6-4); quarantine is read from the state epochs (R124). -/
inductive Run where
  | stopped | running | brk
  deriving DecidableEq, Repr

/-- Windows of one accumulation group (Table 2-6): chain owner, tick of its last MMA, class of an open block and,
once its ending MMA has issued, the tick of its fold. -/
structure Grp where
  owner   : Option Strm
  last    : Nat
  cls     : Option Nat
  till    : Option Nat
  deriving DecidableEq, Repr

def Grp.free : Grp := ⟨none, 0, none, none⟩

/-- Where the word of an op stood, for STN_SEQ_FAULT (R179). -/
structure OpPlace where
  tick : Nat
  pc   : Nat
  bank : Bool
  rtn  : Bool
  strm : Strm
  deriving DecidableEq, Repr

/-- A GINJ between its issue and its ring-side tick (R110, R115): for SK 0 the word read at issue. -/
structure GPend where
  due   : Nat
  op    : GinjOp
  word  : Option RingWord
  place : OpPlace
  deriving DecidableEq, Repr

/-- The collector's side of an op in flight (R85, R207): stream, layer tag and Lens enable as they stood on its issue tick. -/
structure LensSrc where
  strm : Strm
  tag  : BitVec 12
  on   : Bool
  deriving DecidableEq, Repr

/-- A write on its way to the registers and memories of a station: elements or bytes of a tile register, bits of a mask register, a scalar
register, NACC, row sums that are added into NACC, sticky flags, drained values or conversion counts for the collector, station-store bytes,
gradient-buffer entries or bytes, a stash row, a stash entry that comes back to its window slot, bytes of the stationary input buffer
(elements, or scales), a tap latch, and what a PHASE sets. -/
inductive Wr where
  | els (n : Nat) (vs : List (Nat × Word))
  | bytes (n : Nat) (vs : List (Nat × Byte))
  | mask (n : Nat) (vs : List (Nat × Bool))
  | sreg (m : Strm) (n : Nat) (v : Word)
  | nacc (m : Strm) (v : BitVec 48)
  | naccAdd (m : Strm) (clr : Bool) (rows : List Nat)
  | flags (m : Strm) (code : Nat)
  | drained (l : LensSrc) (vals : List Nat)
  | counts (l : LensSrc) (u o : Nat)
  | store (a : Nat) (bs : List Byte)
  | grad (vs : List (Nat × Nat))
  | gradBytes (a : Nat) (bs : List Byte)
  | stash (n row : Nat) (bs : List Byte)
  | back (n a : Nat) (bs : List Byte)
  | lane (scale : Bool) (a : Nat) (bs : List Byte)
  | tap (l : Nat) (w : RingWord)
  | phase (m : Strm) (tag : BitVec 12) (lens : Bool)
  deriving DecidableEq, Repr

/-- The order in which the writes of one tick are applied, lowest first: the later one stands (R113, R127, R129, R191, R197, R200, R252,
R254; where these rules leave two kinds unordered, log entry 2). -/
inductive Pri where
  | norm | xInc | gInc | lPort | ring | v | drain | lInc | lReg | landing | phase
  deriving DecidableEq, Repr

def Pri.rank : Pri → Nat
  | .norm => 0
  | .xInc => 1
  | .gInc => 2
  | .lPort => 3
  | .ring => 4
  | .v => 5
  | .drain => 6
  | .lInc => 7
  | .lReg => 8
  | .landing => 9
  | .phase => 10

/-- A write that lands at the end of schedule tick `due` of its station. -/
structure Late where
  due : Nat
  pri : Pri
  wr  : Wr
  deriving DecidableEq, Repr

/-- What a V op in flight computes from its sources (Tables 5-1 and 5-3). -/
inductive VKind where
  | add (sub : Bool) | mul | fma (neg : Bool) | max (mn : Bool) | exp (b2 : Bool) | rsq (rcp : Bool) | sel
  | cmp (pred : Nat)
  | compress | expand
  | redRow (rop : Nat) | redCol (rop : Nat) | nrm2 (pair clr : Bool)
  | narrow | widen | scale
  deriving DecidableEq, Repr

/-- A V op between its issue tick `t` and its last write (R131, R132): its kind, destination, sources with their stride modes, mask
register, position register, descriptor and format-table entry as read on `t`, the profile column it follows, and the source lanes
and mask bits that its passes have read, in the order read. -/
structure VFlight where
  t    : Nat
  kind : VKind
  dst  : Nat
  ds   : Nat
  sa   : Nat
  sb   : Nat
  sc   : Nat
  sta  : Nat
  stb  : Nat
  msk  : Nat
  so   : Nat
  tbl  : Bool
  scal : Nat
  fmte : Nat
  p1   : Bool
  src  : LensSrc
  a    : List Word
  b    : List Word
  c    : List Word
  m    : List Bool
  deriving DecidableEq, Repr

/-- A drain between its issue tick `t` and its last write (Table 2-10): the group's values, the fused operation, destination, profile
column, and the rows of TS and the gradient-buffer entries that it has read, in order. -/
structure DFlight where
  t    : Nat
  vals : Tile
  grad : Bool
  dst  : Nat
  fuse : Nat
  ts   : Nat
  p1   : Bool
  src  : LensSrc
  tsv  : List Word
  ent  : List Nat
  deriving DecidableEq, Repr

/-- An MLD between its issue tick `t` and its last chunk (R46): source address, operands' destination, length, kind, and whether it
expands MXFP6. -/
structure MFlight where
  t    : Nat
  a    : Nat
  dst  : Nat
  len  : Nat
  scale : Bool
  six  : Bool
  p1   : Bool
  deriving DecidableEq, Repr

/-- The ops of the X queue (R202). -/
inductive XKind where
  | fetch | put | feed | red | norm
  deriving DecidableEq, Repr

/-- One X op with the operands captured at issue (R197 to R200); `la` is the address of its operand in the store, or the key of an XNORM that
has been sent; `wait` are the ticks until its request may leave (R202). -/
structure XEntry where
  kind   : XKind
  bypass : Bool
  absent : Bool
  tag    : Nat
  addr   : BitVec 64
  la     : Nat
  len    : Nat
  rd     : Nat
  sd     : Nat
  dt     : BitVec 2
  nacc   : BitVec 48
  data   : Option (List Byte)
  place  : OpPlace
  wait   : Nat
  deriving DecidableEq, Repr

/-- One fetch tag (R197, R318): generation, and the op sent on it, if any, with its cancellation (R201). -/
structure TagSt where
  gen    : BitVec 4
  op     : Option XEntry
  cancel : Bool
  deriving DecidableEq, Repr

def TagSt.free : TagSt := ⟨0, none, false⟩

/-- States of a stash entry (Table 9-3); `buffered out` is on its way out, else back; a `returning` entry is still spilled, and the last
bytes of its copy are in its window slot at the end of the tick under way (R252, R262). -/
inductive StashAt where
  | resident | spilling | spilled | returning | buffered (out : Bool) | dropped
  deriving DecidableEq, Repr

/-- A live stash entry: number, state, rows written and rows read since its allocation (R258 to R260). -/
structure StashEnt where
  n     : Nat
  at_   : StashAt
  wrote : BitVec 16
  readB : BitVec 16
  deriving DecidableEq, Repr

/-- A stash transfer: the entry, its direction and the spill ticks left (R262). -/
structure StashXfer where
  n    : Nat
  back : Bool
  left : Nat
  deriving DecidableEq, Repr

/-- A live Lens record (R86, Table 3-6). -/
structure LensRec where
  count  : Nat
  zero   : Nat
  nonfin : Nat
  amax   : Word
  uflow  : Nat
  oflow  : Nat
  hist   : Tbl Nat
  deriving DecidableEq, Repr

def LensRec.empty : LensRec := ⟨0, 0, 0, 0, 0, 0, []⟩

/-- A live record of a layer tag that its stream has left while values of earlier ops were on their way (R207). -/
structure LensOld where
  strm : Strm
  tag  : BitVec 12
  rcd  : LensRec
  deriving DecidableEq, Repr

/-- An epoch boundary that a station has marked (R206, R212): tick, package scope, EID, stream, tick of its EPOCH. -/
structure Boundary where
  tick : Nat
  pkg  : Bool
  eid  : BitVec 16
  strm : Strm
  at_  : Nat
  deriving DecidableEq, Repr

/-- A station (R15). `unst` are the LUNST ops held for a spilled entry (R195); `late`, `vq`, `dq` and `mq` the writes and the ops in
flight; `settleAt` the ticks for which the settle mode has asked for a freeze (R62),
`lastEpoch` the tick of its last EPOCH (R216). -/
structure Station where
  run      : Run
  f        : StreamSt
  b        : StreamSt
  u        : StreamSt
  tiles    : Tbl Tile
  masks    : Tbl (BitVec 1024)
  acc      : Tbl Tile
  blk      : Tbl (List Blk)
  cscale   : Tbl Byte
  grp      : Tbl Grp
  drain    : Option (Nat × Nat)
  portBusy : Nat
  vBusy    : Nat
  latch    : Tbl RingWord
  sib      : Memory
  sibScale : Memory
  store    : Memory
  grad     : Memory
  imem     : Memory
  ready    : BitVec 6
  ownSet   : Bool
  ownPend  : Bool
  ginj     : List GPend
  stopAt   : Option Nat
  stash    : List StashEnt
  xfer     : Option StashXfer
  buf      : Tbl Byte
  dropped  : Nat
  unst     : List (Nat × StashOp × OpPlace)
  xq       : List XEntry
  tags     : Tbl TagSt
  bounds   : List Boundary
  passed   : Nat
  rwe      : Tbl Word
  lensF    : LensRec
  lensB    : LensRec
  lensU    : LensRec
  step     : Option Nat
  late     : List Late
  vq       : List VFlight
  dq       : List DFlight
  mq       : List MFlight
  lensOld  : List LensOld
  settleAt : List Nat
  lastEpoch : Option Nat
  deriving DecidableEq, Repr

/-- A station after RESET_L (R130, R164; what the spec leaves open by log entries 4 and 5). -/
def Station.reset : Station :=
  { run := .stopped, f := .reset, b := .reset, u := .reset, tiles := [], masks := [], acc := [],
    blk := [], cscale := [], grp := [], drain := none, portBusy := 0, vBusy := 0, latch := [], sib := .zero,
    sibScale := .zero, store := .zero, grad := .zero, imem := .zero, ready := 0, ownSet := false, ownPend := false,
    ginj := [], stopAt := none, stash := [], xfer := none, buf := [], dropped := 0, unst := [], xq := [], tags := [],
    bounds := [], passed := 0, rwe := [], lensF := .empty, lensB := .empty, lensU := .empty, step := none,
    late := [], vq := [], dq := [], mq := [], lensOld := [], settleAt := [], lastEpoch := none }

/-- A feed descriptor in a descriptor queue (Table 9-12, R274): the posting station, stream and its bank, the
station-store address, whether Prism has read it, its fields, how many of its words have been fetched and used, and whether an
injection tick of it has passed without an injection (R106). -/
structure Desc where
  stn    : Nat
  place  : OpPlace
  la     : Nat
  isRead : Bool
  origin : Nat
  k0     : Nat
  j0     : Nat
  nk     : Nat
  ncb    : Nat
  cstep  : Nat
  tag0   : Nat
  col    : Bool
  inj    : Bool
  tagInc : Bool
  twin   : Bool
  period : Nat
  start  : Nat
  fetched : Nat
  used    : Nat
  missed  : Bool
  deriving DecidableEq, Repr

/-- A feed queue with its descriptor queue, and the reference count on which its feed point acted last (R105, R106, R274). -/
structure FeedQ where
  words : List RingWord
  descs : List Desc
  acted : Option Nat
  deriving DecidableEq, Repr

def FeedQ.empty : FeedQ := ⟨[], [], none⟩

/-- A shutter request that is held: its bit of Table 8-2 and the unit that holds it. -/
structure ShutReq where
  bit : Nat
  src : Nat
  deriving DecidableEq, Repr

/-- A fault flit on its way to a die (R25, R26, R229): the ticks left until it acts there, the fault code, the die and unit it comes from,
the reference count there. -/
structure FaultFlit where
  left : Nat
  code : Nat
  die  : Nat
  unit : Bool
  stn  : Nat
  tick : Nat
  deriving DecidableEq, Repr

/-- An EPOCH flit at the epoch unit (R213). -/
structure EpochFlit where
  stn  : Nat
  strm : Strm
  tick : Nat
  pkg  : Bool
  eid  : BitVec 16
  early : Bool
  deriving DecidableEq, Repr

/-- A held RWE write to a per-die register and the boundary it joins (R215). -/
structure DieRwe where
  off : Nat
  val : Word
  bnd : Nat
  deriving DecidableEq, Repr

/-- A Lens post on its way to the table (R87). -/
structure LensPost where
  tag  : BitVec 12
  strm : Strm
  rcd  : LensRec
  deriving DecidableEq, Repr

/-- A landing-cache line (R276): set, way, line address bits [63:8], bytes. -/
structure LcLine where
  home : Nat
  set  : Nat
  way  : Nat
  line : Nat
  data : List Byte
  deriving DecidableEq, Repr

/-- A reader waiting on a fill: station, tag, and the byte range of its read. -/
structure LcWait where
  stn  : Nat
  tag  : Nat
  addr : BitVec 64
  len  : Nat
  la   : Nat
  deriving DecidableEq, Repr

/-- A landing-cache fill in flight; `stale` after an invalidation (R277). -/
structure LcFill where
  line  : Nat
  waits : List LcWait
  stale : Bool
  deriving DecidableEq, Repr

/-- A trace record (Table 6-16). -/
structure TraceRec where
  tick  : Nat
  stn   : Nat
  strm  : Strm
  rtn   : Bool
  bank  : Bool
  pc    : Nat
  hdr   : BitVec 16
  fault : Bool
  deriving DecidableEq, Repr

/-- State of one compute die. `target` is the reference count of an announced freeze and `timed` those of the requests of R225 with their bit
(13 for the freeze that ends a step of DBG_STEP, held with bit 9); `joined` the bits that have joined the coming freeze; `counted` is false
in the freeze before a start boundary (R210); `hold` says stations are loaded and held; `recentre` counts the frozen ticks left to a
recentring (Table 8-2); `resumeIn` the ticks left to an announced resume; `pkgN` counts the package-scope boundaries that the whole die has
passed since its start boundary; `traceIn` the trace records that have not merged into the buffer yet (R183). -/
structure DieSt where
  reqs     : List ShutReq
  target   : Option Nat
  timed    : List (Nat × Nat)
  joined   : Nat
  frozen   : Bool
  counted  : Bool
  resumeIn : Option Nat
  recentre : Option Nat
  hold     : Bool
  flits    : List FaultFlit
  epochs   : List EpochFlit
  rwe      : List DieRwe
  posts    : List LensPost
  traceIn  : List TraceRec
  trace    : List TraceRec
  lines    : List LcLine
  ways     : Tbl Nat
  fills    : List LcFill
  rram     : Memory
  pkgN     : Nat
  deriving DecidableEq, Repr

def DieSt.reset : DieSt :=
  { reqs := [], target := none, timed := [], joined := 0, frozen := false, counted := true, resumeIn := none,
    recentre := none, hold := false, flits := [], epochs := [], rwe := [], posts := [], traceIn := [], trace := [],
    lines := [], ways := [], fills := [], rram := .zero, pkgN := 0 }

/-- A message in an output queue of a port: virtual channel, the dateline class and the ring dimension in which it came in, the input
port it came in on (16 + agent for the module's own agents), whether its flits still hold places in the receive buffer there, whether
its header has left, and the flits still to send, header first (R308 to R310, R313). -/
structure QMsg where
  vc    : Nat
  cls   : Bool
  dim   : Nat
  src   : Nat
  owed  : Bool
  begun : Bool
  flits : List (List Byte)
  deriving DecidableEq, Repr

/-- Link-level state of a Pycia port (R302, R307 to R309): sequence numbers, replay buffer, units to send again, NAKs met and the SEQ they
name, units being discarded, output queue, credits in use, to return, and withheld by a reduce engine (R327), rotating pointers (the second
by channel), lanes that have failed, and the flits of the message arriving on each channel. -/
structure PyPortSt where
  txSeq   : BitVec 12
  rxSeq   : BitVec 12
  lastAck : BitVec 12
  replay  : List (BitVec 12 × LinkUnit)
  again   : List (BitVec 12 × LinkUnit)
  naks    : Nat
  nakSeq  : BitVec 12
  skip    : Bool
  outq    : List QMsg
  used    : Tbl Nat
  toRet   : Tbl Nat
  held    : Tbl Nat
  ptr     : Nat
  ptr2    : Tbl Nat
  dead    : List Nat
  rx      : Tbl (List (List Byte))
  deriving DecidableEq, Repr

def PyPortSt.reset : PyPortSt :=
  { txSeq := 0, rxSeq := 0, lastAck := 4095, replay := [], again := [], naks := 0, nakSeq := 0, skip := false,
    outq := [], used := [], toRet := [], held := [], ptr := 0, ptr2 := [], dead := [], rx := [] }

/-- A multicast message kept until every member has acknowledged it, with whether it has left, and the members it is out to,
that have acknowledged it, with OK, and that hold it (R321 to R324). -/
structure McMsg where
  mseq : BitVec 32
  agent : Nat
  gen  : BitVec 4
  tag  : Nat
  addr : BitVec 64
  data : List Byte
  left : Bool
  sent : BitVec 64
  ackd : BitVec 64
  good : BitVec 64
  held : BitVec 64
  deriving DecidableEq, Repr

/-- A multicast group at its issuing unit: next MSEQ, messages in flight, members off the common path (R323). -/
structure McGroup where
  next : BitVec 32
  msgs : List McMsg
  off  : BitVec 64
  deriving DecidableEq, Repr

def McGroup.reset : McGroup := ⟨0, [], 0⟩

/-- A key held by a reduce engine (R326, R327): its own operand and the partials that have arrived. -/
structure RedKey where
  par   : RedParams
  own   : Option (List Byte)
  agent : Nat
  tag   : Nat
  gen   : BitVec 4
  parts : List (Nat × List Byte)
  sentUp : Bool
  mism  : Bool
  deriving DecidableEq, Repr

/-- An RDMA operation in progress: the PSN of its first packet, its virtual address and length, the pieces answered so far with their
status and data, and how many of its packets have been acknowledged or sent as read responses (R338). -/
structure RdmaOp where
  write : Bool
  psn   : BitVec 24
  va    : Nat
  len   : Nat
  got   : List (Nat × Nat × List Byte)
  sent  : Nat
  deriving DecidableEq, Repr

/-- State of one QP that no register holds (R333 to R335): operations, response rate in Mb/s, the reference time of its last CNP, the PSN
it expects next, the handshake in progress, whether it has answered a gap in the PSNs with a NAK and still waits for the one it expects. -/
structure QpSt where
  ops  : List RdmaOp
  rate : Nat
  cnp  : Option Nat
  peer : BitVec 24
  psn  : BitVec 24
  rtu  : Bool
  gap  : Bool
  deriving DecidableEq, Repr

/-- Line rate in Mb/s (R330). -/
def QpSt.reset : QpSt := ⟨[], 400000, none, 0, 0, false, false⟩

/-- A completion kept in the journal (R350): its SEQ, opcode, restart count, status, session, step and payload. -/
structure Done where
  seq  : Word
  opc  : Nat
  rcnt : Nat
  stat : Nat
  sess : Word
  step : Nat
  load : List Nat
  deriving DecidableEq, Repr

/-- An event kept by Liaison (R348, Table 13-8): its number, code, processor, restart count, session, step and payload. -/
structure EventRec where
  num  : Nat
  code : Nat
  fp   : Nat
  rcnt : Nat
  sess : Word
  step : Nat
  load : List Nat
  deriving DecidableEq, Repr

/-- A command that waits (R354): for what, the port in whose receive entry it still stands, if any, and the command. -/
structure Waiting where
  key   : Nat
  entry : Option EthPort
  cmd   : Instr
  deriving DecidableEq, Repr

/-- A phase-ledger entry (Table 13-9); `seen` once read or streamed. -/
structure Ledger where
  pid    : BitVec 12
  starts : BitVec 4
  ends   : BitVec 4
  isOpen : Bool
  ovfl   : Bool
  tick0  : Nat
  tick1  : Nat
  ref0   : Nat
  dur    : Nat
  energy : Nat
  seen   : Bool
  deriving DecidableEq, Repr

/-- A work item (R363). -/
structure WorkItem where
  item   : Nat
  group  : Nat
  steps  : Nat
  prio   : Nat
  defer  : Bool
  deriving DecidableEq, Repr

/-- A service image in force: SVN, BODY_DIGEST and body, from which a processor's tables are read (R344, R347, R428). -/
structure Image where
  svn    : Nat
  digest : List Byte
  body   : List Byte
  deriving DecidableEq, Repr

/-- What a snapshot slot holds (Table 15-7, R402): header fields (`prov` bytes 32 to 319), pages of region 0x0 with their poison
flag, in ascending order, the pages with a codeword that fails to decode (R405), the stores and gradient buffers of a full snapshot with
their poison flag, and the register record. -/
structure Slot_ where
  magic  : Nat
  format : Nat
  state  : Nat
  flags  : Nat
  seq    : Nat
  step   : Nat
  refT   : Nat
  sess   : Word
  phys   : Nat
  logic  : Nat
  prov   : List Byte
  pages  : List (Nat × List Byte × Bool)
  lost   : List Nat
  stns   : List (Nat × Memory × Memory × Bool)
  regs   : List (Nat × Word)
  deriving DecidableEq, Repr

def Slot_.never : Slot_ := ⟨0, 0, 0, 0, 0, 0, 0, 0, 0, 0, [], [], [], [], []⟩

/-- An erase block of the NAND store: program/erase cycles, codewords read since its last erase, whether it holds data, and whether it is
grown-bad (R405, R406). -/
structure NandBlk where
  cycles : Nat
  reads  : Nat
  full   : Bool
  bad    : Bool
  deriving DecidableEq, Repr

def NandBlk.new : NandBlk := ⟨0, 0, false, false⟩

/-- Keeper's state of the NAND store (R405, R406, Table 15-15): its blocks, the blocks of each slot, the bytes of slot data written and of
blocks programmed, the blocks that the retention scan rewrote and those refreshed, the codewords corrected and failed, the reference
time of the last scan, and whether the store is read-only and its endurance has been reported. -/
structure NandSt where
  blocks  : Tbl NandBlk
  owned   : Tbl (List Nat)
  written : Nat
  progd   : Nat
  scanned : Nat
  fresh   : Nat
  fixed   : Nat
  failed  : Nat
  scanAt  : Int
  ro      : Bool
  warned  : Bool
  params  : Option (Nat × Nat)
  deriving DecidableEq, Repr

/-- A store that has never been written (log entry 31). -/
def NandSt.new : NandSt := ⟨[], [], 0, 0, 0, 0, 0, 0, 0, false, false, none⟩

/-- An error report (Table 15-2); `src` is the CSR offset of the capture register that Keeper reads for it, 0 for none. -/
structure Report where
  num  : Nat
  cls  : Nat
  sev  : Nat
  unit : UnitRef
  cap0 : Word
  cap1 : Word
  time : Nat
  step : Nat
  src  : Nat
  deriving DecidableEq, Repr

/-- What an AVSBus transaction is for (R376, R381, R383, R384): a write of PWR_AVS_CMD, the voltages of a switch before or after its
change of frequency, or a reference loss. -/
inductive AvsFor where
  | command | raise | lower | loss
  deriving DecidableEq, Repr

/-- An AVSBus transaction (R382, R383): `acked` once the slave has acknowledged a voltage write as acted on. -/
structure AvsTx where
  write : Bool
  sel   : Nat
  typ   : Nat
  mv    : Nat
  tries : Nat
  acked : Bool
  what  : AvsFor
  deriving DecidableEq, Repr

/-- The loaded binary (R241, R242): its declarations and the banks written. -/
structure Binary where
  decl  : BinDecl
  banks : List BankDesc
  deriving DecidableEq, Repr

/-- Fused values (R2, R6, R23, R122, R426, R427, Table 12-6, Tables 14-12, 14-13). -/
structure Fuses where
  part      : BitVec 16
  stepping  : BitVec 8
  segs      : BitVec 32
  spareOk   : BitVec 32
  serial    : BitVec 64
  minSvn    : Tbl Word
  keyDigest : Tbl Word
  imgDigest : Tbl Word
  cert      : Tbl Word
  mac       : Tbl Nat
  deriving DecidableEq, Repr

/-- Pins and the input stage (R413 to R417): levels of the inputs, open-drain outputs asserted. -/
structure Pins where
  resetL  : Bool
  pwrOk   : Bool
  tripL   : Bool
  wakeL   : Bool
  aux     : Bool
  input   : Bool
  deriving DecidableEq, Repr

/-- What the part sends or answers, newest first in `State.out` (MODEL's own record of its outputs). -/
inductive Out where
  | reg (who : Requester) (off : Nat) (status : Nat) (val : Word)
  | rsp (dst : BitVec 16) (agent : BitVec 12) (gen : BitVec 4) (tag : BitVec 6) (wr : Bool) (status : Nat) (data : List Byte)
  | req (agent : BitVec 12) (gen : BitVec 4) (tag : BitVec 6) (addr : BitVec 64) (len : Nat) (data : List Byte)
  | unit (p : PyPort) (u : LinkUnit)
  | steward (val : Word)
  | linkCtl (p : PyPort) (kind : Nat) (val : Nat) (u : LinkUnit)
  | mcWrite (dst : BitVec 16) (group : Nat) (mseq : BitVec 32) (addr : BitVec 64) (data : List Byte)
  | mcAck (dst : BitVec 16) (mseq : BitVec 32) (status : Nat)
  | redUp (rank : Nat) (m : RedMsg)
  | redDown (rank : Nat) (m : RedMsg)
  | message (p : PyPort) (flits : List (List Byte))
  | ctrl (dst : BitVec 16) (what : Nat) (vals : List Nat)
  | forFw (fp : Proc) (src : BitVec 16) (data : List Byte)
  | completion (port : EthPort) (fp : Nat) (opc : Nat) (seq : Word) (rcnt : Nat) (status : Nat) (session : Word) (step : Nat) (load : List Nat)
  | event (port : EthPort) (e : EventRec)
  | ethNak (p : EthPort) (qpn : BitVec 24) (kind : Nat)
  | ethAck (p : EthPort) (qpn : BitVec 24) (psn : BitVec 24)
  | ethData (p : EthPort) (qpn : BitVec 24) (data : List Byte)
  | ethPause (p : EthPort) (on : Bool)
  | ethCnp (p : EthPort) (qpn : BitVec 24)
  | ethReply (p : EthPort) (kind : Nat) (len : Nat)
  | rnrNak (p : EthPort)
  | cm (p : EthPort) (kind : Nat) (qpn : BitVec 24)
  | avs (sel : Nat) (typ : Nat) (write : Bool) (mv : Nat)
  | smb (val : List Byte) (pec : Byte)
  | jtag (val : Nat)
  | pin (name : Nat) (on : Bool)
  | marker (die : Nat) (pid : BitVec 12) (fin : Bool) (tick : Nat)
  deriving DecidableEq, Repr

/-- State of one Ethernet port (R332, R336): bytes in the receive buffer, free receive entries of the mailbox QP, SENDs that the host
has answered with RNR NAK, and the packets that wait while the switch holds the port, oldest first. -/
structure EthSt where
  fill    : Nat
  entries : Nat
  sends   : List Out
  waiting : List Out
  deriving DecidableEq, Repr

def EthSt.reset : EthSt := ⟨0, 256, [], []⟩

/-- An access of region 0x0 that Prism holds: what it is, how many Lens posts of its die are still to merge before it (R87), and the
message (R317, R400). -/
inductive HeldKind where
  | write | mcWrite | read
  deriving DecidableEq, Repr

structure Held where
  kind  : HeldKind
  posts : Nat
  msg   : ReqMsg
  deriving DecidableEq, Repr

/-- Everything the firmware processors keep outside registers (13, 15). `held` are commands that wait for a processor, or for the part to be
up (key 4); `tasks` the activities that Liaison carries out, by the SEQ of their command, `late` those a restart has abandoned (R353);
`copying` the variant under copy and `current` the one in the inactive banks (R360); `stepE` the energy of the step, once its ledger entry
has closed (R362); `profWant` a profile whose voltage Sundial raises first (R376). `reserve` are the pages of each die that stand in its
copy-ahead reserve (R400). `parkAt` is the step whose end is the boundary on which a budget group parks (R356). `restDue` says that a restore
after a spare substitution waits for the whole module to stop (R123). `memErrs` is Keeper's record of the positions of stations with an
uncorrectable memory error and its reference time, below 0 for one of an earlier start (R396). `raised` are the error reports that units have
raised and Keeper has not taken yet: class of Table 15-1, unit, CSR offset of the capture register (R279, R393); `steward` those of the
fabric, as PY_ERR captured them, that wait for Steward (R328). -/
structure FwSt where
  journal  : Tbl (List Done)
  images   : Tbl (Option Image)
  held     : List Waiting
  events   : List EventRec
  evNext   : Nat
  lastPort : EthPort
  queued   : List Out
  stepCnt  : Nat
  closing  : Bool
  variants : List VariantDecl
  energies : List (Nat × Nat)
  current  : Nat
  choices  : List (Nat × Nat)
  classSw  : Option (Nat × List (BitVec 12 × Word))
  policy   : Nat × Nat
  budget   : Nat × Nat × Nat × Nat
  allow    : Nat
  starved  : Bool
  rows     : Nat
  gather   : Nat
  work     : List WorkItem
  item     : Option WorkItem
  group    : Option (Nat × List (BitVec 14) × BitVec 14)
  reported : List (Nat × Nat × Nat)
  ledger   : List Ledger
  stream   : Option (BitVec 64 × Nat × Nat)
  closed   : Nat
  refTime  : Nat
  binary   : Option Binary
  parkDue  : Bool
  parkAt   : Nat
  reports  : List Report
  saved    : List Report
  repNext  : Nat
  errQ     : List Report
  slots    : Tbl Slot_
  snapSlot : Nat
  reserve  : Tbl Nat
  uncopied : List (Nat × Nat)
  heldWr   : List Held
  heldBit  : List (Nat × Nat)
  buddyOut : Nat
  restSlot : Nat
  buddyWait : List Nat
  snapCmd  : Option Nat
  restCmd  : Option Nat
  tasks    : List (Nat × Instr)
  late     : List Nat
  copying  : Option Nat
  stepE    : Option Nat
  intStart : Nat
  profWant : Option Nat
  ceSeen   : Tbl (Nat × Nat)
  buddySlot : Option Nat
  subst    : List Nat
  restDue  : Bool
  spares   : List (Nat × Nat)
  retired  : List (Nat × Nat × Nat)
  memErrs  : List (Nat × Int)
  raised   : List (Nat × UnitRef × Nat)
  steward  : List Word
  flash    : Tbl Nat
  nand     : NandSt
  deriving DecidableEq, Repr

/-- The firmware domain after RESET_L: ROM state, E = 1, no journal (R347, R352, R297). -/
def FwSt.reset : FwSt :=
  { journal := [], images := [], held := [], events := [], evNext := 1, lastPort := 0, queued := [], stepCnt := 0,
    closing := false, variants := [], energies := [], current := 0, choices := [], classSw := none, policy := (0, 0),
    budget := (0, 0, 0, 0), allow := 0, starved := false, rows := 0, gather := 20, work := [], item := none,
    group := none, reported := [], ledger := [], stream := none, closed := 0, refTime := 0, binary := none,
    parkDue := false, parkAt := 0, reports := [], saved := [], repNext := 1, errQ := [], slots := [], snapSlot := 0, reserve := [], uncopied := [],
    heldWr := [], heldBit := [], buddyOut := 0, restSlot := 0,
    buddyWait := [], snapCmd := none, restCmd := none, tasks := [], late := [], copying := none, stepE := none, intStart := 0,
    profWant := none, ceSeen := [], buddySlot := none, subst := [], restDue := false, spares := [], retired := [],
    memErrs := [], raised := [], steward := [], flash := [], nand := .new }

/-- Power unit, governor and clock state that no register holds (14). `on` are the powered domains of Table 1-8: bit r region r, 8 + d the
stacks of die d, 12 firmware, 13 I/O. `prof` is the profile whose settings the regions have, `latch` the wake sources that the wake logic
holds asserted (R390). -/
structure PwrSt where
  prof    : BitVec 2
  smb     : BitVec 3
  rails   : Tbl Nat
  avs     : Option AvsTx
  avsWait : List AvsTx
  legacy  : List AvsTx
  hot     : BitVec 4
  trigger : Bool
  on      : BitVec 14
  lostRef : Bool
  latch   : BitVec 5
  deriving DecidableEq, Repr

/-- JTAG port state (R423 to R425): instruction code, boundary register, debug register result. -/
structure JtagSt where
  ir    : BitVec 8
  bsr   : BitVec 64
  pinsX : Bool
  done  : Bool
  err   : Bool
  off   : BitVec 24
  data  : Word
  deriving DecidableEq, Repr

/-- Faults that stop the model: none. Every error of the part is a register capture, a response or a
completion status, after which the part goes on (R228, R311, R355). -/
inductive Fault where
  deriving DecidableEq, Repr

/-- Refusals. `notModelled` is raised by no meaning; it names a command of the table without one (safe). -/
inductive Refusal where
  | notModelled (mnemonic : String)
  deriving DecidableEq, Repr

/-- The state of the part. `tgStops` are the channels whose test has been told to stop (R281). -/
structure State where
  regs     : Tbl Word
  stations : Tbl Station
  dies     : Tbl DieSt
  refc     : Tbl Nat
  ring     : Tbl RingWord
  ringIn   : Tbl (List RingWord)
  seam     : Tbl (List RingWord)
  bridge   : Tbl (List RingWord)
  feeds    : Tbl FeedQ
  injected : Tbl Nat
  tgStops  : List Nat
  stackMem : Memory
  pkgRing  : Bool
  ratio    : BitVec 2
  ports    : Tbl PyPortSt
  mcast    : Tbl McGroup
  mcSlots  : Nat
  redKeys  : List RedKey
  redWait  : List RedMsg
  norm     : List (Nat × Nat × BitVec 48)
  qps      : Tbl QpSt
  eth      : Tbl EthSt
  fw       : FwSt
  pwr      : PwrSt
  pins     : Pins
  jtag     : JtagSt
  smbAddr  : Word
  smbStat  : Byte
  attest   : Option (List Byte × List Byte)
  caps     : List (Requester × Nat × Word)
  fuses    : Fuses
  pending  : List Instr
  out      : List Out
  free     : Nat
  deriving DecidableEq, Repr

/-- The fused part of the model's reset state: a TX1024M at stepping B0, every spare good (log entry 3). -/
def Fuses.reset : Fuses :=
  { part := 0x0A01#16, stepping := 0x01#8, segs := 0xFFFFFFFF#32, spareOk := 0xFFFFFFFF#32, serial := 0, minSvn := [],
    keyDigest := [], imgDigest := [], cert := [], mac := [] }

/-- Right after RESET_L is released: every register at its Reset value, straps 0, processors in ROM state, no
region and no stack powered yet (R12, R347, R371, R392). -/
def State.reset : State :=
  { regs := [], stations := [], dies := [], refc := [], ring := [], ringIn := [], seam := [], bridge := [],
    feeds := [], injected := [], tgStops := [], stackMem := .zero, pkgRing := false, ratio := 0, ports := [], mcast := [], mcSlots := 0,
    redKeys := [], redWait := [], norm := [], qps := [], eth := [], fw := .reset,
    pwr := { prof := 0, smb := 0, rails := [], avs := none, avsWait := [], legacy := [], hot := 0, trigger := false,
             on := 0x3000#14, lostRef := false, latch := 0 },
    pins := { resetL := true, pwrOk := true, tripL := false, wakeL := true, aux := true, input := true },
    jtag := { ir := 0x01#8, bsr := 0, pinsX := false, done := false, err := false, off := 0, data := 0 },
    smbAddr := 0, smbStat := 0, attest := none, caps := [], fuses := .reset, pending := [], out := [], free := 0 }

end Sys2Proof.Machine
end

