-- ==== Sys2Proof/Machine/Mem.lean ====
section
/-! DEFINITION. Byte memories: reading, writing and clearing them. -/

namespace Sys2Proof.Machine

/-- What a byte that nothing has written reads as: 0 after power-on, a free byte after contents were lost (log entry 5). -/
def bgByte : Option Nat → Nat → Byte
  | none, _ => 0
  | some k, a => Config.freeByte k a

/-- One byte of a memory. -/
def Memory.rd (m : Memory) (a : Nat) : Byte := Tbl.get (bgByte m.bg) m.cells a

/-- Write one byte, keeping the canonical form. -/
def Memory.wr (m : Memory) (a : Nat) (v : Byte) : Memory := { m with cells := Tbl.put (bgByte m.bg) m.cells a v }

/-- `n` bytes from address `a`. -/
def Memory.rdN (m : Memory) (a : Nat) : Nat → List Byte
  | 0 => []
  | n + 1 => m.rd a :: m.rdN (a + 1) n

/-- Write bytes from address `a` on. -/
def Memory.wrN (m : Memory) (a : Nat) : List Byte → Memory
  | [] => m
  | b :: bs => (m.wr a b).wrN (a + 1) bs

/-- Bytes from address `a` on, addresses wrapping at `sz` (R190, R197). -/
def Memory.rdW (m : Memory) (sz a : Nat) : Nat → List Byte
  | 0 => []
  | n + 1 => m.rd (a % sz) :: m.rdW sz (a + 1) n

/-- Write bytes from address `a` on, addresses wrapping at `sz` (R190, R197). -/
def Memory.wrW (m : Memory) (sz a : Nat) : List Byte → Memory
  | [] => m
  | b :: bs => (m.wr (a % sz) b).wrW sz (a + 1) bs

/-- The little-endian number of `n` bytes (R8). -/
def Memory.rdLE (m : Memory) (a n : Nat) : Nat := leNat (m.rdN a n)

/-- Store a number as `n` little-endian bytes (R8). -/
def Memory.wrLE (m : Memory) (a n v : Nat) : Memory := m.wrN a (leBytes n v)

/-- The canonical form of a memory. -/
def Memory.wf (m : Memory) : Bool := Tbl.wf (bgByte m.bg) m.cells

/-- A memory whose contents the spec calls undefined from event `k` on. -/
def Memory.lost (k : Nat) : Memory := ⟨some k, []⟩

end Sys2Proof.Machine
end

