-- ==== Sys2Proof/Machine/Ops.lean ====
section
/-! DEFINITION. Named operations over the state: registers, stations, dies, time, shutter requests, faults. -/

namespace Sys2Proof.Machine

/-! ### Queue, outputs, parts of the state -/

def State.withPending (s : State) (q : List Instr) : State := { s with pending := q }

/-- Send or answer something: outputs are kept newest first. -/
def State.emit (s : State) (o : Out) : State := { s with out := o :: s.out }

/-- Apply a change only where a condition holds. -/
def State.onlyIf (s : State) (c : Bool) (f : State → State) : State := if c then f s else s

/-- Take a fresh number of the free-value counter (log entry 7). -/
def State.fresh (s : State) : State := { s with free := s.free + 1 }

def State.station (s : State) (i : Nat) : Station := Tbl.get (fun _ => Station.reset) s.stations i

def State.setStation (s : State) (i : Nat) (x : Station) : State :=
  { s with stations := Tbl.put (fun _ => Station.reset) s.stations i x }

def State.modStation (s : State) (i : Nat) (f : Station → Station) : State := s.setStation i (f (s.station i))

def State.die (s : State) (d : Nat) : DieSt := Tbl.get (fun _ => DieSt.reset) s.dies d

def State.setDie (s : State) (d : Nat) (x : DieSt) : State := { s with dies := Tbl.put (fun _ => DieSt.reset) s.dies d x }

def State.modDie (s : State) (d : Nat) (f : DieSt → DieSt) : State := s.setDie d (f (s.die d))

def Station.stream (x : Station) : Strm → StreamSt
  | .F => x.f
  | .B => x.b
  | .U => x.u

def Station.setStream (x : Station) (m : Strm) (y : StreamSt) : Station :=
  match m with
  | .F => { x with f := y }
  | .B => { x with b := y }
  | .U => { x with u := y }

def Station.modStream (x : Station) (m : Strm) (f : StreamSt → StreamSt) : Station := x.setStream m (f (x.stream m))

def State.stream (s : State) (i : Nat) (m : Strm) : StreamSt := (s.station i).stream m

def State.modStream (s : State) (i : Nat) (m : Strm) (f : StreamSt → StreamSt) : State :=
  s.modStation i (fun x => x.modStream m f)

def State.fwUpd (s : State) (f : FwSt → FwSt) : State := { s with fw := f s.fw }

def State.pwrUpd (s : State) (f : PwrSt → PwrSt) : State := { s with pwr := f s.pwr }

/-! ### The register file (R9, R432): plain reads and updates by the units themselves -/

/-- The word held at CSR offset `o` of register `r`. -/
def State.regAt (s : State) (r : Reg) (o : Nat) : Nat :=
  (Tbl.get (fun _ => BitVec.ofNat 32 r.info.reset) s.regs o).toNat

def State.setRegAt (s : State) (r : Reg) (o v : Nat) : State :=
  { s with regs := Tbl.put (fun _ => BitVec.ofNat 32 r.info.reset) s.regs o (BitVec.ofNat 32 v) }

/-- The word held by instance `i` of a register (the low half of a pair). -/
def State.reg (s : State) (r : Reg) (i : Nat) : Nat := s.regAt r (r.at i)

def State.setReg (s : State) (r : Reg) (i v : Nat) : State := s.setRegAt r (r.at i) v

/-- Bits [hi:lo] of a register. -/
def State.fld (s : State) (r : Reg) (i hi lo : Nat) : Nat := bitsOf (s.reg r i) hi lo

/-- Bit `b` of a register. -/
def State.bit (s : State) (r : Reg) (i b : Nat) : Bool := bitOf (s.reg r i) b

/-- Bits [hi:lo] of `n` replaced by `v`. -/
def setBits (n hi lo v : Nat) : Nat :=
  n - bitsOf n hi lo * 2 ^ lo + v % 2 ^ (hi + 1 - lo) * 2 ^ lo

def State.setFld (s : State) (r : Reg) (i hi lo v : Nat) : State := s.setReg r i (setBits (s.reg r i) hi lo v)

/-- The 64-bit value of a register pair (R9). -/
def State.pair (s : State) (r : Reg) (i : Nat) : Nat := s.regAt r (r.at i) + 2 ^ 32 * s.regAt r (r.at i + 4)

def State.setPair (s : State) (r : Reg) (i v : Nat) : State :=
  (s.setRegAt r (r.at i) (v % 2 ^ 32)).setRegAt r (r.at i + 4) (v / 2 ^ 32 % 2 ^ 32)

/-- Count on a 64-bit counter that wraps at 2^64 (R65, R116, R246). -/
def State.addPair (s : State) (r : Reg) (i n : Nat) : State := s.setPair r i ((s.pair r i + n) % 2 ^ 64)

/-- Count on bits [hi:lo] of a register, saturating. -/
def State.countFld (s : State) (r : Reg) (i hi lo n : Nat) : State :=
  s.setFld r i hi lo (satTo (hi + 1 - lo) (s.fld r i hi lo + n))

/-- The class of Table 15-1 and the kind of unit of Table 15-2 under which the unit of a capture register reports. -/
def Reg.errClass : Reg → Option (Nat × Nat)
  | .stnArrayFault | .stnSeqFault | .vecFault | .stnLxFault | .stnMemErr => some (1, 1)
  | .shtFault => some (1, 2)
  | .ringErr => some (2, 2)
  | .msErr => some (3, 3)
  | .pyErr => some (5, 4)
  | .ethErr => some (6, 5)
  | _ => none

/-- A report of a class and a unit, with the CSR offset of its capture register, waits for Keeper where the firmware domain is powered
(R381, R382, R393, R419). -/
def State.raiseAs (s : State) (cls kind i off : Nat) : State :=
  if bitOf s.pwr.on.toNat 12 then
    s.fwUpd (fun f => { f with raised := f.raised ++ [(cls, ⟨BitVec.ofNat 4 kind, BitVec.ofNat 12 i⟩, off)] })
  else s

/-- A unit raises an error report to Keeper (R279, R393, ERROR_REPORT). -/
def State.raise (s : State) (r : Reg) (i : Nat) : State :=
  match r.errClass with
  | some (cls, kind) => s.raiseAs cls kind i (r.at i)
  | none => s

/-- The class of Table 15-1 of any register that it names. -/
def Reg.classOf (r : Reg) : Option Nat :=
  match r with
  | .ringBridge => some 2
  | .clkStatus => some 7
  | .pwrAvsResult | .govStatus | .pwrProfile | .pwrAlertStatus => some 8
  | .fwStatus => some 9
  | .snapStatus => some 11
  | _ => r.errClass.map (·.1)

/-- Capture into a register whose bit 31 is VALID: the first only (R179, R204, R247); the capture raises a report (R393). -/
def State.capture (s : State) (r : Reg) (i v : Nat) : State :=
  if s.bit r i 31 then s else (s.setReg r i (2 ^ 31 + v % 2 ^ 31)).raise r i

/-! ### Places (R13, R20 to R23, R36, R103) -/

def dieOf (stn : Nat) : Nat := stn / 256
def segOf (stn : Nat) : Nat := stn / 32
def halfOf (stn : Nat) : Nat := stn / 32 % 8 / 4
def regionOf (stn : Nat) : Nat := dieOf stn * 2 + halfOf stn

/-- Whether SEG[n] is in service (R23). -/
def State.present (s : State) (seg : Nat) : Bool := bitOf s.fuses.segs.toNat seg

/-- The spare position of a segment (R20, R122). -/
def State.sparePos (s : State) (seg : Nat) : Nat := s.fld .segSpare seg 5 0

/-- The ring position within its segment of a station (R20). -/
def State.posOf (s : State) (stn : Nat) : Nat :=
  let k := stn % 32
  if k < s.sparePos (segOf stn) then k else k + 1

/-- The lag of position `pos` of package-wide segment `seg` (R103). At a 2:1 seam the ring distance is counted in the region's own ticks, so
that fast local tick 2n meets slow local tick n at the seam between segments 3 and 4 (R117, log entry 11). -/
def State.lagAt (s : State) (seg pos : Nat) : Nat :=
  if seg % 8 < 4 ∨ s.ratio = 0 then
    (if s.pkgRing then 280 * (seg / 8) else 0) + 33 * (seg % 8) + pos + (if 4 ≤ seg % 8 then 4 else 0)
  else (if s.ratio = 1#2 then 70 else 268) + 33 * (seg % 8 - 4) + pos

def State.lag (s : State) (stn : Nat) : Nat := s.lagAt (segOf stn) (s.posOf stn)

def State.ref (s : State) (r : Nat) : Nat := Tbl.get (fun _ => 0) s.refc r

/-- The schedule tick of a station, none before its reference count has reached its lag (R209, R210). -/
def State.tickOf (s : State) (stn : Nat) : Option Nat :=
  let r := s.ref (regionOf stn)
  if s.lag stn ≤ r then some (r - s.lag stn) else none

/-- The schedule tick of a station as registers report it. -/
def State.tick0 (s : State) (stn : Nat) : Nat := (s.tickOf stn).getD 0

/-- A station whose state epoch differs from its die's (R124). -/
def State.quarantined (s : State) (stn : Nat) : Bool :=
  decide (s.fld .stnStateEpoch stn 15 0 ≠ s.fld .stnDieEpoch (dieOf stn) 15 0)

/-- A station that runs: started, in service and not quarantined (Table 6-4). A frozen station is running (R250). -/
def State.running (s : State) (stn : Nat) : Bool :=
  decide ((s.station stn).run = .running) && s.present (segOf stn) && !s.quarantined stn

/-- The region has a clock: it is powered, its multiplier is not 0, and Twilight does not gate it (R36, R37, R371, Table 14-6). -/
def State.ticking (s : State) (r : Nat) : Bool :=
  bitOf s.pwr.on.toNat r && decide (s.fld .clkRegionStatus r 31 26 ≠ 0) && decide (s.fld .pwrState 0 31 30 ≠ 1)

/-- The half that runs at half the clock of the other (R117, Table 4-11). -/
def State.slowHalf (s : State) (r : Nat) : Bool := (decide (s.ratio = 1#2) && decide (r % 2 = 1)) || (decide (s.ratio = 2#2) && decide (r % 2 = 0))

/-- The reference count of a region in ticks of the faster half: the measure in which the halves of a die freeze together (R221, log
entry 11). -/
def State.tickLen (s : State) (r : Nat) : Nat := if s.slowHalf r then 2 else 1
def State.timeOf (s : State) (r : Nat) : Nat := s.tickLen r * s.ref r

/-- The region on whose ticks the control net and the shutter controller of a die count: half 0, or half 1 while half 0 has no clock
(R25, R223, log entry 11). -/
def State.netRegion (s : State) (d : Nat) : Nat := if s.ticking (2 * d) || !s.ticking (2 * d + 1) then 2 * d else 2 * d + 1
def State.dieTime (s : State) (d : Nat) : Nat := s.timeOf (s.netRegion d)

/-- The stations that have left their reset state, by index. -/
def State.used (s : State) : List Nat := s.stations.map (·.1)

/-- Whether any station of a die runs. -/
def State.dieRunning (s : State) (d : Nat) : Bool := s.used.any (fun i => dieOf i == d && s.running i)

/-- A participating station of its die (R212). -/
def State.participates (s : State) (stn : Nat) : Bool := bitOf (s.reg .shtCtrl (dieOf stn)) (stn / 32 % 8)

/-- The participating stations of a die that run. -/
def State.party (s : State) (d : Nat) : List Nat :=
  s.used.filter (fun i => dieOf i == d && s.running i && s.participates i)

/-- The active latency profile of a die is profile 1 (R239). -/
def State.profile1 (s : State) (d : Nat) : Bool := decide (s.fld .shtCtrl d 9 8 = 1)

/-! ### RWE views (R10, R215) -/

/-- The value of a per-die register (at offset `o` of register `r`, on die `d`) that a station uses: the last held write
of a boundary it has passed, else the register. -/
def State.regFor (s : State) (r : Reg) (o d stn : Nat) : Nat :=
  let hs := (s.die d).rwe.filter (fun h => h.off == o && decide (h.bnd ≤ (s.station stn).passed))
  match hs.getLast? with
  | some h => h.val.toNat
  | none => s.regAt r o

/-! ### The Shutter (R220 to R231) -/

/-- The dies of a shutter requested on die `d` (R226). -/
def State.scope (s : State) (d : Nat) : List Nat := if s.bit .shtCtrl d 12 then [0, 1, 2, 3] else [d]

/-- Freeze horizon and resume lead of die `d`'s scope (R221, R223). -/
def State.horizon (s : State) (d : Nat) : Nat := if s.bit .shtCtrl d 12 then 64 else 32

/-- The request bits held on a die (Table 8-7 PENDING). -/
def State.pendBits (s : State) (d : Nat) : Nat := (s.die d).reqs.foldl (fun n q => n ||| 2 ^ q.bit) 0

/-- Whether any die of the scope of `d` holds a request. -/
def State.scopePending (s : State) (d : Nat) : Bool := (s.scope d).any (fun x => !(s.die x).reqs.isEmpty)

/-- A die stands in a fault stop: frozen, a fault pending in its scope, and no resume announced, which a fault too late to withdraw it lets
come (R229 to R231). -/
def State.faultStop (s : State) (d : Nat) : Bool :=
  (s.die d).frozen && (s.die d).resumeIn.isNone && (s.scope d).any (fun x => bitOf (s.pendBits x) 12)

/-- Set SHT_CAUSE bits of a die (R227, R245). -/
def State.cause (s : State) (d mask : Nat) : State := s.setReg .shtCause d (s.reg .shtCause d ||| mask % 2 ^ 13)

/-- One die of the scope of a request of kind `bit` whose freeze falls at time `c` (R221, R224). -/
def State.joinFreeze (s : State) (d c bit : Nat) : State :=
  let x := s.die d
  if x.frozen && x.resumeIn.isNone then s.cause d (2 ^ bit)
  else s.setDie d { x with joined := x.joined ||| 2 ^ bit,
                           target := if x.target.isNone && (x.frozen || x.timed.isEmpty)
                                     then some c else x.target }

/-- A shutter request of kind `bit` by unit `src` of die `d`, held until released (R220). -/
def State.shutReq (s : State) (d bit src : Nat) : State :=
  if (s.die d).reqs.contains ⟨bit, src⟩ then s
  else
    let c := s.dieTime d + s.tickLen (s.netRegion d) * s.horizon d
    (s.scope d).foldl (fun t x => t.joinFreeze x c bit)
      (s.modDie d (fun x => { x with reqs := x.reqs ++ [⟨bit, src⟩] }))

/-- Release a shutter request (Table 8-2). -/
def State.shutRel (s : State) (d bit src : Nat) : State :=
  s.modDie d (fun x => { x with reqs := x.reqs.filter (fun q => q ≠ ⟨bit, src⟩) })

/-- A request for a freeze of some dies at time `tgt` (R225): held by its own freeze, not by an earlier one (log entry 12). -/
def State.timedOn (s : State) (dies : List Nat) (bit tgt : Nat) : State :=
  dies.foldl (fun t x => t.modDie x (fun y => { y with timed := y.timed ++ [(bit, tgt)] })) s

/-- Such a request in the scope of a die. -/
def State.timedReq (s : State) (d bit tgt : Nat) : State := s.timedOn (s.scope d) bit tgt

/-- A freeze of a die falls at time `c`, or has been due since an earlier one (R221, R225). -/
def DieSt.dueAt (x : DieSt) (c : Nat) : Bool :=
  !x.frozen && ((match x.target with | some t => decide (t ≤ c) | none => false) || x.timed.any (fun p => decide (p.2 ≤ c)))

/-- The schedule of a region stands still: its die is frozen, or the region has reached the tick of its freeze (R221). -/
def State.halted (s : State) (r : Nat) : Bool := (s.die (r / 2)).frozen || (s.die (r / 2)).dueAt (s.timeOf r)

/-- Every region of a die that ticks has reached the tick of a freeze of the die (R221). -/
def State.dieDue (s : State) (d : Nat) : Bool :=
  let x := s.die d
  !x.frozen && (x.target.isSome || !x.timed.isEmpty) && [2 * d, 2 * d + 1].all (fun r => !s.ticking r || x.dueAt (s.timeOf r))

/-- The freeze of a die may fall: with it every die of its scope that a request of the scope stops (R221, R226). -/
def State.freezeDue (s : State) (d : Nat) : Bool :=
  s.dieDue d && (s.scope d).all (fun x => (s.die x).frozen || (s.die x).target.isNone || s.dieDue x)

/-! ### Faults (R228, R229) -/

/-- Send a fault flit for code `code` of Table 8-10 (0 for a memory error, which leaves SHT_FAULT alone), raised by a unit
or by station `stn` of die `d`, and hold the request with bit 12. -/
def State.sendFault (s : State) (d code : Nat) (unit : Bool) (stn : Nat) : State :=
  let c := s.ref (s.netRegion d)
  let s1 := (s.scope d).foldl (fun t x =>
    t.modDie x (fun y => { y with flits := y.flits ++ [⟨if x = d then 24 else 48, code, d, unit, stn % 256, c⟩] })) s
  s1.shutReq d 12 0

/-- Stop a station: what its sequencers have armed is cleared (R167, R173). -/
def Station.stop (x : Station) (r : Run) : Station :=
  { x with run := r, ownPend := false, stopAt := none, f := { x.f with swap := none }, b := { x.b with swap := none },
           u := { x.u with swap := none } }

def State.stopStation (s : State) (stn : Nat) (r : Run) : State := s.modStation stn (·.stop r)

/-- A station stops issuing on schedule tick `t`; an earlier stop stands. -/
def State.stopOn (s : State) (stn t : Nat) : State :=
  s.modStation stn (fun x => { x with stopAt := match x.stopAt with | some u => some (min u t) | none => some t })

/-- A fault of a station: it stops issuing on the next tick and sends its fault flit (R228). -/
def State.stationFault (s : State) (stn code : Nat) : State :=
  (s.stopOn stn (s.tick0 stn + 1)).sendFault (dieOf stn) code false stn

/-- Bit 0 of byte 11 of a trace record of the word at a place is set (Table 6-16). -/
def TraceRec.faulted (r : TraceRec) (stn : Nat) (p : OpPlace) : TraceRec :=
  if r.stn = stn ∧ r.strm = p.strm ∧ r.tick = p.tick then { r with fault := true } else r

/-- A word that faulted has the bit set in its trace record, if the record is still on its die (Table 6-16). -/
def State.traceFault (s : State) (stn : Nat) (p : OpPlace) : State :=
  s.modDie (dieOf stn) (fun x =>
    { x with traceIn := x.traceIn.map (·.faulted stn p), trace := x.trace.map (·.faulted stn p) })

/-- Capture a fault in STN_SEQ_FAULT and STN_SEQ_FAULT_PC (R179). `slot` as in Table 6-12. -/
def State.captureSeq (s : State) (stn code cause slot : Nat) (p : OpPlace) : State :=
  if s.bit .stnSeqFault stn 31 then s
  else
    ((s.setReg .stnSeqFault stn (2 ^ 31 + b2n p.bank * 2 ^ 30 + p.strm.code * 2 ^ 28 + code * 2 ^ 24 + cause * 2 ^ 20
      + slot * 2 ^ 17 + b2n p.rtn * 2 ^ 16 + p.tick % 2 ^ 16)).setReg .stnSeqFaultPc stn (p.pc % 2 ^ 18)).raise .stnSeqFault stn

/-- A fault captured in STN_SEQ_FAULT that stops the station (R179, R228). -/
def State.seqFault (s : State) (stn code cause slot : Nat) (p : OpPlace) : State :=
  ((s.captureSeq stn code cause slot p).traceFault stn p).stationFault stn code

/-- A fault of an L-slot or X-slot op in STN_LX_FAULT (R204). -/
def State.captureLx (s : State) (stn code : Nat) (m : Strm) (tag tick : Nat) : State :=
  s.capture .stnLxFault stn (code * 2 ^ 24 + m.code * 2 ^ 22 + tag % 64 * 2 ^ 16 + tick % 2 ^ 16)

/-- Record a ring error of die `d` in RING_ERR (Table 4-14). -/
def State.ringError (s : State) (d kind seg pos : Nat) : State :=
  s.capture .ringErr d (kind * 2 ^ 28 + seg % 8 * 2 ^ 22 + pos * 2 ^ 16 + s.ref (s.netRegion d) % 2 ^ 16)

/-- A ring error of a crossing whose FIFO has run empty or full: a clock fault, of class 7 (R236, Table 15-1). -/
def State.clockError (s : State) (d kind seg : Nat) : State :=
  if s.bit .ringErr d 31 then s
  else (s.setReg .ringErr d (2 ^ 31 + kind * 2 ^ 28 + seg % 8 * 2 ^ 22 + s.ref (s.netRegion d) % 2 ^ 16)).raiseAs 7 2 d (Reg.at .ringErr d)

end Sys2Proof.Machine
end

