-- ==== Sys2Proof/Machine/Eth.lean ====
section
/-! DEFINITION. Ethernet ports: frames, pauses, queue pairs, addresses (R330 to R342). -/

namespace Sys2Proof.Machine

/-! ### Queue pairs (R334, Table 12-8) -/

/-- The number of a QP of a port: 0 for the mailbox QP, 1 to 64 for the bulk QPs. -/
def qpNum (qpn : Nat) : Option Nat :=
  if qpn = 0x10 then some 0 else if 0x100 ≤ qpn ∧ qpn ≤ 0x13F then some (qpn - 0xFF) else none

def qpKey (p n : Nat) : Nat := 65 * p + n

def State.qp (s : State) (k : Nat) : QpSt := Tbl.get (fun _ => QpSt.reset) s.qps k

def State.setQp (s : State) (k : Nat) (x : QpSt) : State := { s with qps := Tbl.put (fun _ => QpSt.reset) s.qps k x }

def State.qpState (s : State) (k : Nat) : Nat := s.fld .ethQpStatus k 31 30

def State.ethSt (s : State) (p : Nat) : EthSt := Tbl.get (fun _ => EthSt.reset) s.eth p

def State.setEth (s : State) (p : Nat) (x : EthSt) : State := { s with eth := Tbl.put (fun _ => EthSt.reset) s.eth p x }

/-- A packet that a QP of a port sends: `n` its number, 0 the mailbox QP (R336). -/
def Out.ofQp (n : Nat) : Out → Bool
  | .ethNak _ q _ | .ethAck _ q _ | .ethData _ q _ | .ethCnp _ q => decide (qpNum q.toNat = some n)
  | .completion .. | .event _ _ | .rnrNak _ => decide (n = 0)
  | _ => false

/-- What a QP still had to send is gone; the mailbox QP has its receive entries posted, and no SEND to repeat (R334, R336). -/
def State.qpSilent (s : State) (k : Nat) : State :=
  let x := s.ethSt (k / 65)
  s.setEth (k / 65) { x with waiting := x.waiting.filter (fun o => !o.ofQp (k % 65))
                             entries := if k % 65 = 0 then 256 else x.entries
                             sends := if k % 65 = 0 then [] else x.sends }

/-- A QP enters Error: its operations end. What it has sent before stays in its place before the NAK (R339). -/
def State.qpEnd (s : State) (k : Nat) : State :=
  (s.setFld .ethQpStatus k 31 30 2).setQp k { s.qp k with ops := [], rtu := false }

/-- A QP enters Error, and sends nothing more (R334, R341). -/
def State.qpError (s : State) (k : Nat) : State := (s.qpSilent k).qpEnd k

/-- A QP returns to Reset (Table 12-8). -/
def State.qpReset (s : State) (k : Nat) : State := ((s.qpSilent k).setReg .ethQpStatus k 0).setQp k QpSt.reset

/-! ### Sending (R332) -/

/-- The port sends one frame. -/
def State.ethTx (s : State) (p : EthPort) (o : Out) : State := (s.emit o).addPair .ethTxFrames p 1

/-- RoCEv2 traffic leaves, or waits while the switch holds its priority (R332). -/
def State.roceTx (s : State) (p : EthPort) (o : Out) : State :=
  let x := s.ethSt p
  if s.bit .ethPortStatus p 28 then s.setEth p { x with waiting := x.waiting ++ [o] } else s.ethTx p o

/-- The switch releases the port: what waited leaves in order. -/
def State.roceFlush (s : State) (p : EthPort) : State :=
  (s.ethSt p).waiting.foldl (fun t o => t.ethTx p o) (s.setEth p { s.ethSt p with waiting := [] })

/-- A message of the firmware leaves as a SEND on the mailbox QP of its port, which is kept until the host has acknowledged it (R336). A QP
that is not connected sends nothing (R334, Table 12-8). -/
def State.mailTx (s : State) (p : EthPort) (o : Out) : State :=
  if s.qpState (qpKey p 0) = 1 then
    (s.setEth p { s.ethSt p with sends := (s.ethSt p).sends ++ [o] }).roceTx p o
  else s

/-- Capture in ETH_ERR (Table 12-9). -/
def State.ethErrCap (s : State) (p kind nak qpn : Nat) : State := s.capture .ethErr p (kind * 2 ^ 28 + nak * 2 ^ 24 + qpn % 2 ^ 24)

/-- A QP that receives a packet it does not support: Error, with a NAK Invalid Request (R334). -/
def State.qpUnsupported (s : State) (p : EthPort) (k qpn : Nat) : State :=
  ((s.qpError k).ethErrCap p 3 0 qpn).roceTx p (.ethNak p (BitVec.ofNat 24 qpn) 3)

/-- A NAK that ends an operation and puts the QP in Error (R337, R339). -/
def State.qpNak (s : State) (p : EthPort) (k qpn nak : Nat) : State :=
  ((s.qpError k).ethErrCap p 2 nak qpn).roceTx p (.ethNak p (BitVec.ofNat 24 qpn) nak)

/-- A connected QP of a number. -/
def State.qpLive (s : State) (p qpn : Nat) : Option Nat :=
  match qpNum qpn with
  | some n => if s.qpState (qpKey p n) = 1 then some (qpKey p n) else none
  | none => none

/-! ### Frames (R331 to R333, R335) -/

/-- The port is enabled and its link is up. -/
def State.ethUp (s : State) (p : Nat) : Bool := s.bit .ethPortCtrl p 31 && s.bit .ethPortStatus p 31

/-- Bytes of a receive buffer and its pause marks (R332). -/
def ethBuf : Nat := 2 ^ 21
def pauseHigh : Nat := 1536 * 1024
def pauseLow : Nat := 1024 * 1024

/-- CNP_SEND: a packet marked Congestion Experienced is answered, at most once in 50 µs (R335). -/
def State.cnpSend (s : State) (p : EthPort) (k qpn : Nat) : State :=
  let x := s.qp k
  if (match x.cnp with | some t => decide (s.fw.refTime < t + 5000) | none => false) then s
  else (s.setQp k { x with cnp := some s.fw.refTime }).roceTx p (.ethCnp p (BitVec.ofNat 24 qpn))

/-- A RoCEv2 packet enters the receive buffer, is checked, and reaches its QP (R332 to R335). -/
def State.roceIn (s : State) (p : EthPort) (bytes qpn : Nat) (icrcOk supported ce : Bool) : State :=
  let x := s.ethSt p
  if ethBuf < x.fill + bytes then s.countFld .ethErrCount p 7 0 1
  else if !icrcOk then s.countFld .ethErrCount p 15 8 1
  else
    let s1 := s.setEth p { x with fill := x.fill + bytes }
    let s2 := if s.bit .ethPortCtrl p 29 && decide (pauseHigh < x.fill + bytes) && !s.bit .ethPortStatus p 29 then
        (s1.setFld .ethPortStatus p 29 29 1).ethTx p (.ethPause p true)
      else s1
    match s.qpLive p qpn with
    | none => s2
    | some k =>
      let s3 := if ce then s2.cnpSend p k qpn else s2
      if supported then s3 else s3.qpUnsupported p k qpn

/-- ETH_FRAME_RX (R330, R331, log entry 27). -/
def State.frameIn (s : State) (p : EthPort) (f : EthFrame) : State :=
  if !s.ethUp p then s
  else
    let s0 := (s.addPair .ethFecCorr p f.corr).countFld .ethErrCount p 23 16 f.uncorr
    let s1 := (s0.addPair .ethRxFrames p 1).addPair .ethRxBytes p f.bytes
    if !f.fcsOk then s1.countFld .ethErrCount p 31 24 1
    else if f.bytes < 64 ∨ 9216 < f.bytes then s1
    else
      match f.payload with
      | .other => s0
      | .roce qpn icrcOk supported ce => s1.roceIn p f.bytes qpn.toNat icrcOk supported ce
      | .arp | .nd | .icmp | .fragment | .ipOptions => s1

def execEthFrameRx (p : EthPort) (f : EthFrame) (s : State) : Host.Outcome State Fault Refusal := .next (s.frameIn p f)

/-- PFC_RELEASE: the buffer drains, and below 1,024 KiB the pause is released (R332). -/
def State.pfcRelease (s : State) (p : EthPort) (n : Nat) : State :=
  let x := s.ethSt p
  let s1 := s.setEth p { x with fill := x.fill - n }
  if decide (x.fill - n < pauseLow) && s.bit .ethPortStatus p 29 then
    (s1.setFld .ethPortStatus p 29 29 0).ethTx p (.ethPause p false)
  else s1

def execPfcRelease (p : EthPort) (drained : Nat) (s : State) : Host.Outcome State Fault Refusal := .next (s.pfcRelease p drained)

/-- PAUSE_FRAME_RX: the port honours pauses for its priority (R332). -/
def State.pauseIn (s : State) (p : EthPort) (prio : Nat) (hold : Bool) : State :=
  if s.ethUp p && decide (prio = s.fld .ethPortCtrl p 18 16) then
    (if hold then s.setFld .ethPortStatus p 28 28 1 else (s.setFld .ethPortStatus p 28 28 0).roceFlush p)
  else s

def execPauseFrameRx (p : EthPort) (prio : BitVec 3) (hold : Bool) (s : State) : Host.Outcome State Fault Refusal :=
  .next (s.pauseIn p prio.toNat hold)

/-! ### The port's own addresses (R331, R340) -/

/-- MAC address of a port, 48 bits. -/
def State.mac (s : State) (p : Nat) : Nat := Tbl.get (fun _ => 0) s.fuses.mac p % 2 ^ 48

/-- The link-local address with the modified EUI-64 interface identifier (R340). -/
def State.linkLocal (s : State) (p : Nat) : Nat :=
  let m := s.mac p
  0xFE80 * 2 ^ 112 + (m / 2 ^ 24 ^^^ 0x020000) * 2 ^ 40 + 0xFFFE * 2 ^ 24 + m % 2 ^ 24

/-- The global IPv6 address, 0 where none is set (Table 12-6). -/
def State.ipv6 (s : State) (p : Nat) : Nat :=
  (List.range 4).foldl (fun n w => n + s.reg .ethIpv6Addr (4 * p + w) * 2 ^ (32 * w)) 0

/-- ARP_REQUEST for the port's own IPv4 address. -/
def execArpRequest (p : EthPort) (target : BitVec 32) (s : State) : Host.Outcome State Fault Refusal :=
  .next (if s.ethUp p && decide (target.toNat ≠ 0) && decide (target.toNat = s.reg .ethIpv4Addr p) then s.ethTx p (.ethReply p 0 0) else s)

/-- NEIGHBOR_SOLICITATION for one of the port's own IPv6 addresses. -/
def execNeighborSolicitation (p : EthPort) (target : BitVec 128) (s : State) : Host.Outcome State Fault Refusal :=
  .next (if s.ethUp p && (decide (target.toNat = s.linkLocal p) || (decide (target.toNat ≠ 0) && decide (target.toNat = s.ipv6 p)))
    then s.ethTx p (.ethReply p 1 0) else s)

/-- ICMP_ECHO of up to 1,500 bytes. -/
def execIcmpEcho (p : EthPort) (v6 : Bool) (len : Nat) (s : State) : Host.Outcome State Fault Refusal :=
  .next (if s.ethUp p && decide (len ≤ 1500) then s.ethTx p (.ethReply p (if v6 then 3 else 2) len) else s)

/-! ### The mailbox QP (R336) -/

/-- MAILBOX_SEND_RX: one receive entry is taken, or the SEND is answered with an RNR NAK; a longer SEND than 4,096 bytes is not
supported. -/
def State.mailboxIn (s : State) (p : EthPort) (len : Nat) : State :=
  match s.qpLive p 0x10 with
  | none => s
  | some k =>
    let x := s.ethSt p
    if 4096 < len then s.qpUnsupported p k 0x10
    else if x.entries = 0 then s.roceTx p (.rnrNak p)
    else s.setEth p { x with entries := x.entries - 1 }

def execMailboxSendRx (p : EthPort) (len : Nat) (s : State) : Host.Outcome State Fault Refusal := .next (s.mailboxIn p len)

/-- MAILBOX_RNR_RETRY: 1.28 ms after an RNR NAK of the host, which had acknowledged the oldest `acked` SENDs, those left leave again in their
order, while the QP is connected. -/
def State.rnrRetry (s : State) (p : EthPort) (acked : Nat) : State :=
  match s.qpLive p 0x10 with
  | none => s
  | some _ =>
    let left := (s.ethSt p).sends.drop acked
    left.foldl (fun t o => t.roceTx p o) (s.setEth p { s.ethSt p with sends := left })

def execMailboxRnrRetry (p : EthPort) (acked : Nat) (s : State) : Host.Outcome State Fault Refusal := .next (s.rnrRetry p acked)

/-! ### Connections (R333, R334) -/

/-- CM_REQ: accepted for a QP in Reset, with the path MTU limited to PMTU, or rejected. -/
def State.cmReq (s : State) (p : EthPort) (qpn dest psn : BitVec 24) (pmtu reads : Nat) : State :=
  let no := (s.ethErrCap p 4 0 qpn.toNat).roceTx p (.cm p 1 qpn)
  if !s.ethUp p then s else
  match qpNum qpn.toNat with
  | none => no
  | some n =>
    let k := qpKey p n
    if s.qpState k ≠ 0 ∨ pmtu < 3 ∨ 16 < reads then no
    else
      ((s.setReg .ethQpStatus k (min pmtu (s.fld .ethPortCtrl p 3 0) * 2 ^ 27 + dest.toNat)).setQp k
        { QpSt.reset with peer := dest, psn := psn, rtu := true }).roceTx p (.cm p 0 qpn)

def execCmReq (p : EthPort) (qpn dest psn : BitVec 24) (pmtu : BitVec 3) (reads : Nat) (s : State) : Host.Outcome State Fault Refusal :=
  .next (s.cmReq p qpn dest psn pmtu.toNat reads)

/-- CM_RTU: the handshake completes and the QP is connected. -/
def State.cmRtu (s : State) (p : EthPort) (qpn : Nat) : State :=
  match qpNum qpn with
  | none => s
  | some n =>
    let k := qpKey p n
    if s.ethUp p && (s.qp k).rtu then (s.setFld .ethQpStatus k 31 30 1).setQp k { s.qp k with rtu := false } else s

def execCmRtu (p : EthPort) (qpn : BitVec 24) (s : State) : Host.Outcome State Fault Refusal := .next (s.cmRtu p qpn.toNat)

/-- CM_DREQ: the QP returns to Reset. -/
def State.cmDreq (s : State) (p : EthPort) (qpn : BitVec 24) : State :=
  match qpNum qpn.toNat with
  | none => s
  | some n => if s.ethUp p then (s.qpReset (qpKey p n)).roceTx p (.cm p 2 qpn) else s

def execCmDreq (p : EthPort) (qpn : BitVec 24) (s : State) : Host.Outcome State Fault Refusal := .next (s.cmDreq p qpn)

/-! ### Congestion (R335) -/

/-- CNP_RX: a QP that sends read responses halves its rate, down to 1 Gb/s. -/
def State.cnpIn (s : State) (p : EthPort) (qpn : Nat) : State :=
  match s.qpLive p qpn with
  | none => s
  | some k =>
    let x := s.qp k
    if x.ops.any (fun o => !o.write) then s.setQp k { x with rate := max 1000 (x.rate / 2) } else s

def execCnpRx (p : EthPort) (qpn : BitVec 24) (s : State) : Host.Outcome State Fault Refusal := .next (s.cnpIn p qpn.toNat)

/-- CNP_RATE_RECOVERY: 20 Gb/s more, up to line rate. -/
def State.cnpUp (s : State) (p : EthPort) (qpn : Nat) : State :=
  match s.qpLive p qpn with
  | none => s
  | some k => s.setQp k { s.qp k with rate := min 400000 ((s.qp k).rate + 20000) }

def execCnpRateRecovery (p : EthPort) (qpn : BitVec 24) (s : State) : Host.Outcome State Fault Refusal := .next (s.cnpUp p qpn.toNat)

/-! ### Link and port (R330, R334, R341) -/

/-- ETH_LINK_DOWN: every QP of the port enters Error at once (R341). -/
def State.ethDown (s : State) (p : EthPort) : State :=
  if s.bit .ethPortStatus p 31 then
    let s1 := ((s.setFld .ethPortStatus p 31 28 0).countFld .ethPortStatus p 15 0 1).ethErrCap p 1 0 0
    (List.range 65).foldl (fun t n => t.qpError (qpKey p n)) s1
  else s

def execEthLinkDown (p : EthPort) (s : State) : Host.Outcome State Fault Refusal := .next (s.ethDown p)

/-- ETH_LINK_UP: the PCS of an enabled port aligns. -/
def execEthLinkUp (p : EthPort) (s : State) : Host.Outcome State Fault Refusal :=
  .next (if s.bit .ethPortCtrl p 31 then s.setFld .ethPortStatus p 31 30 3 else s)

/-- EN is written 0: the port is off and its QPs return to Reset (Table 12-8). -/
def State.ethDisable (s : State) (p : Nat) : State :=
  (List.range 65).foldl (fun t n => t.qpReset (qpKey p n)) (s.setFld .ethPortStatus p 31 28 0)

/-- The counters of a port become 0 (Table 12-4). -/
def State.ethClear (s : State) (p : Nat) : State :=
  ((((s.setReg .ethErrCount p 0).setPair .ethRxFrames p 0).setPair .ethTxFrames p 0).setPair .ethRxBytes p 0).setPair .ethFecCorr p 0

/-- Some QP of a port is not in Reset (R340). -/
def State.qpsBusy (s : State) (p : Nat) : Bool := (List.range 65).any (fun n => decide (s.qpState (qpKey p n) ≠ 0))

/-- Some QP of a port has an RDMA operation in progress (Table 12-7). -/
def State.rdmaBusy (s : State) (p : Nat) : Bool := (List.range 65).any (fun n => !(s.qp (qpKey p n)).ops.isEmpty)

end Sys2Proof.Machine
end

