-- ==== Sys2Proof/Machine/Firm.lean ====
section
/-! DEFINITION. What the firmware processors send: events, completions, reports; processor states (R343 to R356, R393, R394). -/

namespace Sys2Proof.Machine

/-! ### Processor states (R347, R354, R367) -/

/-- `FW_STATUS.STATE` of a processor. -/
def State.fpState (s : State) (p : Nat) : Nat := s.fld .fwStatus p 31 30

/-- A processor that runs no image: still booting, or in ROM state (R347). -/
def State.inRom (s : State) (p : Nat) : Bool := decide (s.fpState p ≤ 1)

/-- A processor that is restarting (R354). -/
def State.restarting (s : State) (p : Nat) : Bool := decide (s.fpState p = 3)

/-- The image in force of a processor. -/
def State.image (s : State) (p : Nat) : Option Image := Tbl.get (fun _ => none) s.fw.images p

/-! ### Messages to the host (R348, R356) -/

/-- Whether a message to the host is an event. -/
def Out.isEvent : Out → Bool
  | .event _ _ => true
  | _ => false

/-- A completion or event leaves on its port (R336). -/
def State.mail (s : State) (o : Out) : State :=
  match o with
  | .completion p .. | .event p _ => s.mailTx p o
  | _ => s.emit o

/-- Send a message to the host; a part parked for a lost host queues it, up to 4,096 in all, counting the events it drops (R356). -/
def State.toHost (s : State) (o : Out) : State :=
  if s.bit .mbxStatus 0 31 && s.bit .mbxStatus 0 30 then
    (if s.fw.queued.length < 4096 then s.fwUpd (fun f => { f with queued := f.queued ++ [o] })
     else if o.isEvent then s.countFld .mbxStatus 0 27 16 1 else s)
  else s.mail o

/-- The processor that sends an event (Table 13-1, Table 13-8): of an activity, the one that carried out the command. -/
def eventFp (code : Nat) (load : List Nat) : Nat :=
  match code with
  | 0x8001 => 0
  | 0x8002 => load.getD 1 0
  | 0x8003 => 3
  | _ => 1

/-- An event as its message has it, with the current restart count, session and step count (Table 13-4). -/
def State.eventOf (s : State) (code : Nat) (load : List Nat) : EventRec :=
  let p := eventFp code load
  ⟨s.fw.evNext, code, p, s.fld .fwStatus p 15 0, BitVec.ofNat 32 (s.reg .mbxSession 0), s.fw.stepCnt % 2 ^ 32, load⟩

/-- An event with its payload words (Table 13-8): numbered from 1, the last 4,096 kept, sent on the port of the last command. -/
def State.event (s : State) (code : Nat) (load : List Nat) : State :=
  let e := s.eventOf code load
  (s.fwUpd (fun f => { f with evNext := e.num + 1, events := (f.events ++ [e]).drop (f.events.length + 1 - 4096) })).toHost
    (.event s.fw.lastPort e)

/-- ACTIVITY_DONE of a command (R353): its number, its processor, the final status, and what the status names. -/
def State.activityDone (s : State) (seq : Word) (fp status : Nat) (more : List Nat) : State :=
  s.event 0x8002 ([seq.toNat, fp, status] ++ more)

/-! ### Error reports (R393, R394, R354) -/

/-- The 32 bytes of a report as words (Table 15-2). -/
def Report.words (r : Report) : List Nat :=
  [r.num, r.cls + r.sev * 2 ^ 8 + (r.unit.kind.toNat * 2 ^ 12 + r.unit.index.toNat) * 2 ^ 16, r.cap0.toNat, r.cap1.toNat,
   r.time % 2 ^ 32, r.time / 2 ^ 32, r.step, 0]

/-- Keeper reads the capture register of a report, with STN_SEQ_FAULT_PC beside STN_SEQ_FAULT (R393). -/
def State.capRead (s : State) (r : Report) : Report :=
  if r.src = 0 then r
  else
    match Reg.find r.src with
    | some (g, i, _) =>
      { r with cap0 := BitVec.ofNat 32 (s.regAt g r.src)
               cap1 := if g = .stnSeqFault then BitVec.ofNat 32 (s.reg .stnSeqFaultPc i) else r.cap1 }
    | none => r

/-- Keeper clears the `VALID` bit of a capture register once the record is made (R393). -/
def State.capClear (s : State) (o : Nat) : State :=
  match Reg.find o with
  | some (g, _, _) => if o ≠ 0 ∧ bitOf g.info.w1c 31 = true then s.setRegAt g o (s.regAt g o % 2 ^ 31) else s
  | none => s

/-- Keeper records a report, sends it, and persists it where work stopped or state was lost (R394). -/
def State.record (s : State) (r : Report) : State :=
  let q : Report := { s.capRead r with num := s.fw.repNext }
  ((s.fwUpd (fun f => { f with
    repNext := f.repNext + 1
    reports := (f.reports ++ [q]).drop (f.reports.length + 1 - 4096)
    saved := if 2 ≤ r.sev then (f.saved ++ [q]).drop (f.saved.length + 1 - 256) else f.saved })).capClear r.src).event 0x8003 q.words

/-- A report reaches Keeper, or waits in the hardware queue of 256 while Keeper restarts, and is counted lost beyond (R354). -/
def State.reportIn (s : State) (r : Report) : State :=
  if s.restarting 3 then
    (if s.fw.errQ.length < 256 then s.fwUpd (fun f => { f with errQ := f.errQ ++ [r] }) else s.countFld .fwStatus 3 23 16 1)
  else s.record r

/-- A report with its two words. -/
def State.report (s : State) (cls sev : Nat) (u : UnitRef) (cap0 cap1 : Nat) : State :=
  s.reportIn ⟨0, cls, sev, u, BitVec.ofNat 32 cap0, BitVec.ofNat 32 cap1, s.fw.refTime, s.fw.stepCnt, 0⟩

/-- The reports that waited for Keeper are recorded (R354). -/
def State.flushReports (s : State) : State :=
  s.fw.errQ.foldl (fun t r => t.record r) (s.fwUpd (fun f => { f with errQ := [] }))

/-! ### Alerts (R419) -/

/-- ALERT_L is asserted (R419). -/
def State.alertOn (s : State) : Bool := decide (s.reg .pwrAlertStatus 0 &&& s.reg .pwrAlertEn 0 ≠ 0)

/-- Set a bit of PWR_ALERT_STATUS, which Keeper reports as class 0x8 (R419); the change of ALERT_L goes out (Table 16-4). -/
def State.alert (s : State) (bit : Nat) : State :=
  let t := (s.setReg .pwrAlertStatus 0 (s.reg .pwrAlertStatus 0 ||| 2 ^ bit)).raiseAs 8 6 3 (Reg.at .pwrAlertStatus 0)
  if t.alertOn && !s.alertOn then t.emit (.pin 6 true) else t

end Sys2Proof.Machine
end

