-- ==== Sys2Proof/Machine/Num.lean ====
section
/-! DEFINITION. Numeric formats and exact arithmetic with one rounding (03_formats_and_lens.md). -/

namespace Sys2Proof.Machine

/-- An exact value: NaN, an infinity, or (-1)^neg * m * 2^e. -/
inductive FV where
  | nan
  | inf (neg : Bool)
  | fin (neg : Bool) (m : Nat) (e : Int)
  deriving DecidableEq, Repr

/-- Which special encodings a floating-point format has (Table 3-2). -/
inductive Specials where
  | ieee | e4m3 | none
  deriving DecidableEq, Repr

/-- A floating-point format: exponent and fraction bits, bias, special encodings (R67, Table 3-2). -/
structure Fmt where
  eb   : Nat
  mb   : Nat
  bias : Int
  sp   : Specials
  deriving DecidableEq, Repr

def fp32 : Fmt := ⟨8, 23, 127, .ieee⟩
def bf16 : Fmt := ⟨8, 7, 127, .ieee⟩
def fp16 : Fmt := ⟨5, 10, 15, .ieee⟩
def e4m3 : Fmt := ⟨4, 3, 7, .e4m3⟩
def e5m2 : Fmt := ⟨5, 2, 15, .ieee⟩
def e2m3 : Fmt := ⟨2, 3, 1, .none⟩
def e3m2 : Fmt := ⟨3, 2, 3, .none⟩
def e2m1 : Fmt := ⟨2, 1, 1, .none⟩
def w48 : Fmt := ⟨10, 37, 511, .ieee⟩
def fp64 : Fmt := ⟨11, 52, 1023, .ieee⟩

/-- The sign bit's weight in an encoding. -/
def Fmt.signBit (f : Fmt) : Nat := 2 ^ (f.eb + f.mb)

/-- The magnitude code of the largest finite value (Table 3-2). -/
def Fmt.maxCode (f : Fmt) : Nat :=
  match f.sp with
  | .ieee => (2 ^ f.eb - 1) * 2 ^ f.mb - 1
  | .e4m3 => 2 ^ (f.eb + f.mb) - 2
  | .none => 2 ^ (f.eb + f.mb) - 1

/-- The magnitude code of infinity in a format that has one. -/
def Fmt.infCode (f : Fmt) : Nat := (2 ^ f.eb - 1) * 2 ^ f.mb

/-- The canonical NaN (Table 3-2). -/
def Fmt.nanBits (f : Fmt) : Nat :=
  match f.sp with
  | .ieee => f.infCode + 2 ^ (f.mb - 1)
  | _ => 2 ^ (f.eb + f.mb) - 1

/-- The value of an encoding (R67). -/
def Fmt.decode (f : Fmt) (bits : Nat) : FV :=
  let neg := bits.testBit (f.eb + f.mb)
  let e := (bits >>> f.mb) % 2 ^ f.eb
  let m := bits % 2 ^ f.mb
  if f.sp = .ieee ∧ e = 2 ^ f.eb - 1 then (if m = 0 then .inf neg else .nan)
  else if f.sp = .e4m3 ∧ e = 2 ^ f.eb - 1 ∧ m = 2 ^ f.mb - 1 then .nan
  else if e = 0 then .fin neg m (1 - f.bias - f.mb)
  else .fin neg (2 ^ f.mb + m) ((e : Int) - f.bias - f.mb)

/-- The magnitude of m * 2^e (plus something below it when `sticky`), rounded to nearest with ties to even,
as an unbounded magnitude code of the format, and whether rounding changed it (R67, R74). -/
def Fmt.roundMag (f : Fmt) (m : Nat) (e : Int) (sticky : Bool) : Nat × Bool :=
  if m = 0 then (0, sticky) else
    let qmin : Int := 1 - f.bias - f.mb
    let q : Int := max ((Nat.log2 m : Int) + e - f.mb) qmin
    let sh : Int := q - e
    if sh ≤ 0 then ((q - qmin).toNat * 2 ^ f.mb + m * 2 ^ (-sh).toNat, sticky)
    else
      let k := sh.toNat
      let n := m / 2 ^ k
      let r := m % 2 ^ k
      let half := 2 ^ (k - 1)
      let up := decide (half < r) || (decide (r = half) && (sticky || decide (n % 2 = 1)))
      ((q - qmin).toNat * 2 ^ f.mb + n + b2n up, decide (r ≠ 0) || sticky)

/-- An encoding with the sign applied. -/
def Fmt.withSign (f : Fmt) (neg : Bool) (code : Nat) : Nat := b2n neg * f.signBit + code

/-- A value rounded to an IEEE-style format: an out-of-range finite value becomes an infinity of its sign,
NaN the canonical NaN (R74, R77, R138). -/
def Fmt.encode (f : Fmt) : FV → Nat
  | .nan => f.nanBits
  | .inf neg => f.withSign neg f.infCode
  | .fin neg m e =>
    let c := (f.roundMag m e false).1
    f.withSign neg (if f.maxCode < c then f.infCode else c)

/-- m * 2^e as a signed integer in units of 2^u, for u ≤ e. -/
def fxAt (u : Int) (neg : Bool) (m : Nat) (e : Int) : Int :=
  let v : Int := (m : Int) * 2 ^ (e - u).toNat
  if neg then -v else v

/-- A signed integer in units of 2^u as a value; `negZero` gives the sign of a zero. -/
def ofFx (u : Int) (v : Int) (negZero : Bool) : FV :=
  if v = 0 then .fin negZero 0 u else .fin (decide (v < 0)) v.natAbs u

/-- The negation of a value. -/
def FV.neg : FV → FV
  | .nan => .nan
  | .inf s => .inf (!s)
  | .fin s m e => .fin (!s) m e

/-- The magnitude of a value. -/
def FV.abs : FV → FV
  | .nan => .nan
  | .inf _ => .inf false
  | .fin _ m e => .fin false m e

/-- The exact sum: an exact zero sum is +0 unless both operands are -0 (R77, R138). -/
def FV.add : FV → FV → FV
  | .nan, _ => .nan
  | _, .nan => .nan
  | .inf a, .inf b => if a = b then .inf a else .nan
  | .inf a, .fin _ _ _ => .inf a
  | .fin _ _ _, .inf b => .inf b
  | .fin a m e, .fin b n g =>
    let u := min e g
    ofFx u (fxAt u a m e + fxAt u b n g) (a && b && decide (m = 0) && decide (n = 0))

/-- The exact product (R138). -/
def FV.mul : FV → FV → FV
  | .nan, _ => .nan
  | _, .nan => .nan
  | .inf a, .inf b => .inf (a != b)
  | .inf a, .fin b n _ => if n = 0 then .nan else .inf (a != b)
  | .fin a m _, .inf b => if m = 0 then .nan else .inf (a != b)
  | .fin a m e, .fin b n g => .fin (a != b) (m * n) (e + g)

def FV.isNan : FV → Bool
  | .nan => true
  | _ => false

def FV.isFin : FV → Bool
  | .fin _ _ _ => true
  | _ => false

def FV.isZero : FV → Bool
  | .fin _ m _ => decide (m = 0)
  | _ => false

/-- The exact order of two values that are not NaN; +0 equals -0 (Table 5-5). -/
def FV.lt : FV → FV → Bool
  | .nan, _ => false
  | _, .nan => false
  | .inf a, .inf b => a && !b
  | .inf a, .fin _ _ _ => a
  | .fin _ _ _, .inf b => !b
  | .fin a m e, .fin b n g => let u := min e g; decide (fxAt u a m e < fxAt u b n g)

/-- Equality of two values that are not NaN; +0 equals -0 (Table 5-5). -/
def FV.eqv : FV → FV → Bool
  | .nan, _ => false
  | _, .nan => false
  | .inf a, .inf b => decide (a = b)
  | .inf _, .fin _ _ _ => false
  | .fin _ _ _, .inf _ => false
  | .fin a m e, .fin b n g => let u := min e g; decide (fxAt u a m e = fxAt u b n g)

/-- floor(log2 |v|) of a finite non-zero value. -/
def FV.floorLog2 : FV → Int
  | .fin _ m e => (Nat.log2 m : Int) + e
  | _ => 0

/-- Multiply by 2^k exactly. -/
def FV.scale (k : Int) : FV → FV
  | .fin s m e => .fin s m (e + k)
  | v => v

/-- The integer square root, bit by bit from bit `k`. -/
def isqrtFrom : Nat → Nat → Nat → Nat
  | 0, n, r => if (r + 1) * (r + 1) ≤ n then r + 1 else r
  | k + 1, n, r =>
    let c := r + 2 ^ (k + 1)
    isqrtFrom k n (if c * c ≤ n then c else r)

/-- The integer square root. -/
def isqrt (n : Nat) : Nat := isqrtFrom (Nat.log2 n / 2 + 1) n 0

/-- Fraction bits of the fixed-point evaluation of VEXP. -/
def expBits : Nat := 224

/-- ln 2 in units of 2^-expBits: the sum of 1 / (n * 2^n). -/
def ln2Sum : Nat → Nat → Nat
  | 0, acc => acc
  | n + 1, acc => ln2Sum n (acc + 2 ^ expBits / ((n + 1) * 2 ^ (n + 1)))

def ln2Fx : Nat := ln2Sum (expBits + 8) 0

/-- e^r for r in units of 2^-expBits, 0 ≤ r < 1, by Horner's form of the series with `n` terms left. -/
def expSeries : Nat → Nat → Nat → Nat
  | 0, _, acc => acc
  | n + 1, r, acc => expSeries n r (2 ^ expBits + r * acc / (2 ^ expBits * (n + 1)))

/-- e^a (or 2^a) as a value with enough bits for one rounding to FP32 (R139).
The third component says that something below the value was dropped. -/
def expVal (b2 : Bool) (neg : Bool) (m : Nat) (e : Int) : FV × Bool :=
  if m = 0 then (.fin false 1 0, false)
  else if 8 ≤ (Nat.log2 m : Int) + e then
    (if neg then (.fin false 1 (-400), true) else (.fin false 1 400, true))
  else
    let x : Int := fxAt (-(expBits : Int)) neg m e
    let one : Int := 2 ^ expBits
    if b2 then
      let k := x / one
      let r := (x % one).toNat
      if r = 0 then (.fin false 1 k, false)
      else (.fin false (expSeries 64 (r * ln2Fx / 2 ^ expBits) (2 ^ expBits)) (k - expBits), true)
    else
      let k := x / (ln2Fx : Int)
      let r := (x % (ln2Fx : Int)).toNat
      (.fin false (expSeries 64 r (2 ^ expBits)) (k - expBits), true)

end Sys2Proof.Machine
end

