-- ==== Sys2Proof/Machine/Formats.lean ====
section
/-! DEFINITION. Format codes, their classes, and the values of array elements (Tables 3-1, 3-2, 2-1). -/

namespace Sys2Proof.Machine

/-- Width class of an array format code: 0 16-bit, 1 8-bit, 2 4-bit (Table 3-1); none for any other code. -/
def wclass (c : Nat) : Option Nat :=
  if c = 1 ∨ c = 2 then some 0
  else if 3 ≤ c ∧ c ≤ 9 then some 1
  else if c = 10 then some 2
  else none

/-- Whether a format code carries MX block scales (Table 3-1). -/
def isMx (c : Nat) : Bool := decide (5 ≤ c ∧ c ≤ 10)

/-- Whether a format code is MXFP6 (Table 3-1). -/
def isFp6 (c : Nat) : Bool := decide (c = 8 ∨ c = 9)

/-- k values per MMA of a width class (Table 2-1). -/
def kcOf (cls : Nat) : Nat := 2 ^ cls

/-- Bits of an element at the array (Table 3-1). -/
def elemBits (cls : Nat) : Nat := 16 / 2 ^ cls

/-- Units in a block of 32 elements (R49). -/
def blockUnits (cls : Nat) : Nat := 32 / 2 ^ cls

/-- The floating-point element format of a code (Tables 3-1, 3-2); MXINT8 (0x7) is not one. -/
def fmtOf (c : Nat) : Fmt :=
  match c with
  | 0 => fp32
  | 1 => bf16
  | 2 => fp16
  | 3 | 5 => e4m3
  | 4 | 6 => e5m2
  | 8 => e2m3
  | 9 => e3m2
  | _ => e2m1

/-- The value of an array element (R67, R68); the array ignores bits [7:6] of an MXFP6 container (R69). -/
def elemVal (c bits : Nat) : FV :=
  if c = 7 then
    let n := signedOf 8 bits
    .fin (decide (n < 0)) n.natAbs (-6)
  else if isFp6 c then (fmtOf c).decode (bits % 64)
  else (fmtOf c).decode bits

/-- The `kc` elements of a 16-bit unit (Table 4-2, R44). -/
def unitElems (cls unit : Nat) : List Nat :=
  (List.range (kcOf cls)).map (fun r => bitsOf unit (elemBits cls * r + elemBits cls - 1) (elemBits cls * r))

/-- emax of a format for block scales and the selection routine (R80, R96). -/
def emaxOf (c : Nat) : Int :=
  match c with
  | 1 => 127
  | 2 => 15
  | 3 | 5 => 8
  | 4 | 6 => 15
  | 7 => 0
  | 8 => 2
  | 9 => 4
  | _ => 2

/-- Exponent of the smallest subnormal of a non-MX candidate (R96). -/
def eminOf (c : Nat) : Int :=
  match c with
  | 1 => -133
  | 2 => -24
  | 3 => -9
  | _ => -16

/-- Canonical FP32 NaN (Table 3-2). -/
def nan32 : Nat := 0x7FC00000

/-- The FP32 value of a word. -/
def v32 (w : Word) : FV := fp32.decode w.toNat

/-- The W48 value of 48 bits. -/
def v48 (w : Nat) : FV := w48.decode w

/-- FP32 RNE of a value, without flags. -/
def to32 (v : FV) : Word := BitVec.ofNat 32 (fp32.encode v)

/-- W48 addition (R77). -/
def addW48 (w : Nat) (x : FV) : Nat := w48.encode (FV.add (v48 w) x)

/-- The pair form of a W48 load: hi and lo of Table 3-4. -/
def pair48 (w : Nat) : Word × Word :=
  let hi := to32 (v48 w)
  match v32 hi with
  | .fin _ _ _ => (hi, to32 (FV.add (v48 w) (FV.neg (v32 hi))))
  | _ => (hi, 0)

/-- Scale of an E8M0 code as an exponent; a code 0xFF is NaN and read apart (R70). -/
def scaleExp (code : Nat) : Int := (code : Int) - 127

/-- An 8-bit signed field (Table 3-10). -/
def sgn8 (n : Nat) : Int := signedOf 8 n

/-- A number clamped to an interval. -/
def clampI (lo hi v : Int) : Int := max lo (min hi v)

/-- A signed value as an 8-bit field. -/
def enc8 (v : Int) : Nat := (v % 256).toNat

/-- 16 packed 6-bit elements from 12 bytes, or more by the same packing (R69). -/
def unpack6 (bytes : List Byte) (n : Nat) : List Byte :=
  let v := leNat bytes
  (List.range n).map (fun i => BitVec.ofNat 8 (bitsOf v (6 * i + 5) (6 * i)))

/-- Pack elements of `w` bits into a little-endian number, the first lowest (R69). -/
def packBits (w : Nat) : List Nat → Nat
  | [] => 0
  | e :: es => e % 2 ^ w + 2 ^ w * packBits w es

end Sys2Proof.Machine
end

