-- ==== Sys2Proof/Machine/Seq.lean ====
section
/-! DEFINITION. The sequencer: word checks, sequencing through loops and routines, breaks and trace (06_woku_words_and_streams.md). -/

namespace Sys2Proof.Machine

/-- Length of a word in halfwords (R156). -/
def hdrLen (h : BitVec 16) : Nat := 1 + 2 * (hdrSlots h).length

def hdrSchk (h : BitVec 16) : Nat := bitsOf h.toNat 9 8

def hdrTag (h : BitVec 16) : Nat := bitsOf h.toNat 7 0

/-- Entry of the active ownership map for resource `r` on a schedule tick (R165, R166). -/
def State.owner (s : State) (stn r tick : Nat) : Nat :=
  let f := tick % 64
  bitsOf (s.reg .stnOwnMap (40 * stn + 20 * b2n (s.station stn).ownSet + 4 * r + f / 16)) (2 * (f % 16) + 1) (2 * (f % 16))

/-- The first present slot whose resource the active map does not give to the stream (R161, R179). -/
def State.unowned (s : State) (stn : Nat) (m : Strm) (h : BitVec 16) (tick : Nat) : Option Slot :=
  (hdrSlots h).find? (fun sl => sl ≠ .c && decide (s.owner stn sl.idx tick ≠ m.code))

def brkReg : Strm → Reg
  | .F => .dbgBrkF
  | .B => .dbgBrkB
  | .U => .dbgBrkU

def cntReg : Strm → Reg
  | .F => .dbgCntF
  | .B => .dbgCntB
  | .U => .dbgCntU

/-- The tag test of breaks and trace (R180, R183). -/
def State.tagTest (s : State) (stn : Nat) (m : Strm) (h : BitVec 16) : Bool :=
  let b := s.reg (brkReg m) stn
  !(hdrSlots h).isEmpty && decide (hdrTag h &&& bitsOf b 15 8 = bitsOf b 7 0 &&& bitsOf b 15 8)

/-- Whether a break hits at a word about to issue (R180). -/
def State.brkHits (s : State) (stn : Nat) (m : Strm) (h : BitVec 16) : Bool :=
  let b := s.reg (brkReg m) stn
  (bitOf b 17 && s.tagTest stn m h) || (bitOf b 18 && decide (s.reg (cntReg m) stn = 0))

/-- `n` words of the innermost open loop are done, above the `base` levels open at the call (R168 to R170):
the loops still open, the next halfword offset and the loop counters. -/
def loopStep (base : Nat) : List RepLvl → Nat → Nat → Tbl (BitVec 16) → List RepLvl × Nat × Tbl (BitVec 16)
  | [], _, pc, k => ([], pc, k)
  | l :: ls, n, pc, k =>
    if ls.length < base then (l :: ls, pc, k)
    else if l.pos + n < l.len then ({ l with pos := l.pos + n } :: ls, pc, k)
    else if 0 < l.left then
      ({ l with pos := 0, left := l.left - 1 } :: ls, l.start,
        Tbl.put (fun _ => 0) k l.kr (Tbl.get (fun _ => 0) k l.kr + 1))
    else loopStep base ls l.len pc k

/-- The stream is executing a routine (R164). -/
def StreamSt.inRtn (y : StreamSt) : Bool := !y.rets.isEmpty || y.rom.isSome

/-- The word of tick `t` is the one whose break has hit already and which is to issue now (R180, R182). -/
def StreamSt.skips (y : StreamSt) (t : Nat) : Bool :=
  match y.skip with
  | some k => decide (k ≤ t)
  | none => false

/-- Move a stream past the word it issues on schedule tick `t` (R156, R160, R168). -/
def StreamSt.advance (y : StreamSt) (h : BitVec 16) (t : Nat) (ok : Bool) : StreamSt :=
  let n := y.pc + hdrLen h
  let pc := if y.rets.isEmpty then n % 32768 else n
  let r := loopStep (match y.rets with | [] => 0 | l :: _ => l.depth) y.reps 1 pc y.k
  { y with reps := r.1, pc := r.2.1, k := r.2.2, skip := if y.skips t then none else y.skip,
           next := t + 1 + (if (hdrSlots h).isEmpty then hdrTag h else 0),
           word := some ⟨t, h, ok, [], y.pc, y.inRtn⟩ }

/-- Where the word of a stream stands (R179). -/
def StreamSt.place (y : StreamSt) (m : Strm) (t : Nat) : OpPlace := ⟨t, y.pc, y.bank, y.inRtn, m⟩

/-- Record a word for the die's trace, which merges the records of its stations at one a tick (R183): those of a tick beyond the one merged
wait without bound in front of the buffer, and none is dropped there (DESIGN CHOICE, log entry 72). -/
def State.traceWord (s : State) (stn : Nat) (h : BitVec 16) (p : OpPlace) (fault : Bool) : State :=
  let d := dieOf stn
  if s.bit (brkReg p.strm) stn 16 && s.tagTest stn p.strm h && s.bit .dbgTraceCfg d 31 then
    s.modDie d (fun x => { x with traceIn := x.traceIn ++ [⟨p.tick, stn, p.strm, p.rtn, p.bank, p.pc, h, fault⟩] })
  else s

/-- Count an issued word on the break counter, which stops at 0 (R180). -/
def State.brkCount (s : State) (stn : Nat) (m : Strm) : State :=
  if s.bit (brkReg m) stn 18 then s.setReg (cntReg m) stn (s.reg (cntReg m) stn - 1) else s

/-- HIT is set (R180). -/
def State.setHit (s : State) (stn : Nat) (m : Strm) : State := s.setReg (brkReg m) stn (s.reg (brkReg m) stn ||| 2 ^ 31)

/-- Count a corrected error of a station memory (R253). -/
def State.memCorrected (s : State) (stn : Nat) : State := s.countFld .stnMemErr stn 23 16 1

/-- Capture an uncorrectable error of a station memory (Table 9-2). -/
def State.captureMem (s : State) (stn mem addr : Nat) (landing : Bool) : State :=
  if s.bit .stnMemErr stn 31 then s
  else (s.setReg .stnMemErr stn (2 ^ 31 + mem * 2 ^ 28 + b2n landing * 2 ^ 27 + s.fld .stnMemErr stn 23 16 * 2 ^ 16
    + addr % 2 ^ 16)).raise .stnMemErr stn

/-- An uncorrectable error on a scheduled port stops the station (R256). -/
def State.memFault (s : State) (stn mem addr : Nat) : State := (s.captureMem stn mem addr false).stationFault stn 0

/-- The stream may issue a word on schedule tick `t`: it is in no WAITEV and no ROM routine and free on this tick (R160, R163, R170). -/
def State.ready (s : State) (stn : Nat) (m : Strm) (t : Nat) : Bool :=
  let y := s.stream stn m
  y.wait.isNone && y.rom.isNone && decide (y.next ≤ t)

/-- The schedule tick on which a station may act: it runs and its region's schedule does not stand still. -/
def State.liveTick (s : State) (stn : Nat) : Option Nat :=
  if s.running stn && !s.halted (regionOf stn) then s.tickOf stn else none

/-- The epoch boundary of a station that falls on this tick or has fallen (R212, R214). -/
def Station.boundaryDue (x : Station) (t : Nat) : Bool :=
  match x.bounds with
  | b :: _ => decide (b.tick ≤ t)
  | [] => false

/-- The schedule tick on which a station's sequencers may issue: what its boundary tick changes comes first (R173, R214). -/
def State.issueTick (s : State) (stn : Nat) : Option Nat :=
  match s.liveTick stn with
  | some t => if (s.station stn).boundaryDue t then none else some t
  | none => none

/-! ### Routines (R171, R240, Table 6-9) -/

/-- A routine table entry, as its 64 bits (Table 6-9). -/
structure Rtn where
  valid   : Bool
  profile : Nat
  streams : Nat
  slots   : Nat
  kmask   : Nat
  rdepth  : Nat
  cdepth  : Nat
  entry   : Nat
  dur     : Nat
  deriving DecidableEq, Repr

def rtnOf (n : Nat) : Rtn :=
  ⟨bitOf n 63, bitsOf n 62 61, bitsOf n 60 58, bitsOf n 57 53, bitsOf n 52 45, bitsOf n 44 41, bitsOf n 40 39, bitsOf n 38 21, bitsOf n 20 0⟩

/-- The ROM entries of Table 6-10; every other ROM ID is reserved and holds no valid entry. -/
def romRtn (id : Nat) : Rtn :=
  match id with
  | 0x001 => ⟨true, 3, 7, 8, 0xC0, 2, 0, 0, 136⟩
  | 0x020 => ⟨true, 3, 7, 11, 0xC0, 2, 0, 0, 16384⟩
  | 0x021 => ⟨true, 3, 7, 1, 0xC0, 2, 0, 0, 2048⟩
  | 0x030 => ⟨true, 3, 4, 10, 0xC0, 2, 0, 0, 1088⟩
  | _ => ⟨false, 0, 0, 0, 0, 0, 0, 0, 0⟩

/-- The header of a word of a ROM routine: no slots but the routine's and C, which the last word has; in SCHK the routine's one stream or
0b00 (R170, R172, Table 6-10). -/
def romHdr (r : Rtn) (h : BitVec 16) (last : Bool) : BitVec 16 :=
  let own := if r.streams = 4 ∧ bitsOf h.toNat 9 8 = Strm.U.code then 0x300 else 0
  (h &&& BitVec.ofNat 16 (r.slots * 2 ^ 11 + 0x4FF + own)) ||| (if last then 0x400#16 else 0#16)

/-- The word of a ROM routine on tick `k` of its duration, if one issues there: its header and halfword offset. Its first word issues on the
first tick, its last on the last (R170, R172, log entry 71). -/
def romWordAt (id k : Nat) : Option (BitVec 16 × Nat) :=
  let r := romRtn id
  let w := Config.romWord id k
  let last := decide (k + 1 = r.dur)
  if k < r.dur ∧ (w.1 || decide (k = 0) || last) = true then some (romHdr r w.2.1 last, w.2.2) else none

/-- The word of its ROM routine that a stream has to issue on tick `u`. -/
def StreamSt.romWord (y : StreamSt) (u : Nat) : Option (BitVec 16 × Nat) :=
  match y.rom with
  | some r => if r.at_ < u ∧ r.done ≠ some u then romWordAt r.id (u - (r.at_ + 1)) else none
  | none => none

/-- The entry of a routine ID on a die (R171). -/
def State.rtn (s : State) (d id : Nat) : Rtn := if id < 256 then romRtn id else rtnOf ((s.die d).rram.rdLE (8 * (id - 256)) 8)

/-- The entry is valid and covers the latency profile; a routine-RAM entry covers it only alone (Table 6-9, R240). -/
def Rtn.covers (r : Rtn) (rom : Bool) (prof : Nat) : Bool := r.valid && (if rom then r.profile.testBit (prof - 1) else decide (r.profile = prof))

def State.callOk (s : State) (d id : Nat) : Bool := (s.rtn d id).covers (decide (id < 256)) (s.fld .shtCtrl d 9 8)

/-! ### The checks of a word (R161, R240) -/

/-- The fault code, the cause and the captured slot with which a word fails its checks: SLOT_CONFLICT by SCHK, encoding and ownership,
then LATENCY_PROFILE where its CALL reaches no routine of the active profile (R161, R179, R240). -/
def State.wordFails (s : State) (i : Issue) (t : Nat) : Option (Nat × Nat × Nat) :=
  if hdrSchk i.hdr ≠ 0 ∧ hdrSchk i.hdr ≠ i.strm.code then some (4, 2, 6)
  else if !i.encOk then some (4, 12, 6)
  else match s.unowned i.stn i.strm i.hdr t with
    | some sl => some (4, 1, sl.idx)
    | none =>
      match i.callId with
      | some id => if s.callOk (dieOf i.stn) id then none else some (9, 10, 5)
      | none => none

/-- Suppress the word of a stream whole: it faults, the stream does not move past it, and the station stops (R161, R228, R240). -/
def State.suppress (s : State) (i : Issue) (t code cause slot : Nat) : State :=
  let p := (s.stream i.stn i.strm).place i.strm t
  ((s.modStream i.stn i.strm (fun z => { z with next := t + 1, word := some ⟨t, i.hdr, false, [], z.pc, z.inRtn⟩ })).traceWord
    i.stn i.hdr p true).seqFault i.stn code cause slot p

/-- Issue a new word of a stream on schedule tick `t`: its checks, then the stream moves past it; a word that fails is
suppressed whole (R158, R161). -/
def State.newWord (s : State) (i : Issue) (t : Nat) : State :=
  match s.wordFails i t with
  | some (code, cause, slot) => s.suppress i t code cause slot
  | none =>
    ((s.modStream i.stn i.strm (fun z => z.advance i.hdr t true)).traceWord i.stn i.hdr ((s.stream i.stn i.strm).place i.strm t)
      false).brkCount i.stn i.strm

/-- The word of tick `t` is the one of this command, and it may issue its slot. -/
def StreamSt.sameWord (y : StreamSt) (h : BitVec 16) (t : Nat) : Bool :=
  match y.word with
  | some w => decide (w.tick = t) && decide (w.hdr = h)
  | none => false

/-- The word of the command is new on this tick and may issue. -/
def State.wordOpens (s : State) (i : Issue) (t : Nat) : Bool :=
  let y := s.stream i.stn i.strm
  !y.sameWord i.hdr t && s.ready i.stn i.strm t && (!s.brkHits i.stn i.strm i.hdr || y.skips t)

/-- The state in which the word of the command has issued (log entry 1): issued already on this tick, or new. -/
def State.openWord (s : State) (i : Issue) (t : Nat) : State :=
  if s.wordOpens i t then s.newWord i t else s

/-- The slot's op may act: its word issued on this tick, passed its checks, and has not issued this slot yet. -/
def State.slotOpen (s : State) (i : Issue) (sl : Slot) (t : Nat) : Option OpPlace :=
  let y := s.stream i.stn i.strm
  match y.word with
  | some w => if w.tick = t ∧ w.hdr = i.hdr ∧ w.ok = true ∧ sl ∈ hdrSlots w.hdr ∧ sl ∉ w.done
              then some ⟨t, w.pc, y.bank, w.rtn, i.strm⟩ else none
  | none => none

def StreamSt.markSlot (y : StreamSt) (sl : Slot) : StreamSt :=
  { y with word := match y.word with | some w => some { w with done := w.done ++ [sl] } | none => none }

/-- What the ECC of the memories read by an op brings about before it acts (R253, R256). -/
def State.withEcc (s : State) (stn : Nat) (e : Ecc) (eff : State → State) : State :=
  match e with
  | .clean => eff s
  | .corrected => eff (s.memCorrected stn)
  | .bad mem addr => s.memFault stn mem.toNat addr.toNat

/-- Issue one slot of a word: the checks of the word, then the op, which acts only where all passed (R160, R161). -/
def State.issue (s : State) (i : Issue) (sl : Slot) (eff : OpPlace → State → State) : State :=
  match s.issueTick i.stn with
  | none => s
  | some t =>
    if sl ∈ hdrSlots i.hdr then
      let s1 := s.openWord i t
      match s1.slotOpen i sl t with
      | none => s1
      | some p => (s1.modStream i.stn i.strm (·.markSlot sl)).withEcc i.stn i.ecc (eff p)
    else s

end Sys2Proof.Machine
end

