-- ==== Sys2Proof/Machine/Flags.lean ====
section
/-! DEFINITION. Exception flags of the vector engine and of fused drains, and the rounding that raises them (R138, R151). -/

namespace Sys2Proof.Machine

/-- The five sticky flags (R151). -/
structure Flg where
  inv : Bool
  dz  : Bool
  ovf : Bool
  unf : Bool
  cpx : Bool
  deriving DecidableEq, Repr

def Flg.none : Flg := ⟨false, false, false, false, false⟩

def Flg.or (a b : Flg) : Flg := ⟨a.inv || b.inv, a.dz || b.dz, a.ovf || b.ovf, a.unf || b.unf, a.cpx || b.cpx⟩

/-- The flags as bits in the order of Table 5-9. -/
def Flg.code (f : Flg) : Nat := b2n f.inv + 2 * b2n f.dz + 4 * b2n f.ovf + 8 * b2n f.unf + 16 * b2n f.cpx

/-- A result with the flags it raises. -/
abbrev Res := Nat × Flg

/-- Round an exact value (with something below it when `sticky`) to a format: OVF where a finite value becomes an
infinity, UNF where a non-zero value below the smallest normal changes (R151). -/
def Fmt.rnd (f : Fmt) (v : FV) (sticky : Bool) : Res :=
  match v with
  | .fin neg m e =>
    let r := f.roundMag m e sticky
    let ovf := decide (f.maxCode < r.1)
    let tiny := decide (m ≠ 0) && decide (FV.floorLog2 v < 1 - f.bias)
    (f.withSign neg (if f.maxCode < r.1 then f.infCode else r.1), { Flg.none with ovf := ovf, unf := tiny && r.2 })
  | _ => (f.encode v, Flg.none)

/-- The result of an arithmetic operation in a format: INV where a NaN arises from operands none of which is NaN (R138, R151). -/
def Fmt.arith (f : Fmt) (opNan : Bool) (v : FV) : Res :=
  if v.isNan then (f.nanBits, { Flg.none with inv := !opNan }) else f.rnd v false

/-- FP32 addition and multiplication as VADD and VMUL perform them (Table 5-5). -/
def add32 (a b : Nat) : Res :=
  let x := fp32.decode a
  let y := fp32.decode b
  fp32.arith (x.isNan || y.isNan) (FV.add x y)

def mul32 (a b : Nat) : Res :=
  let x := fp32.decode a
  let y := fp32.decode b
  fp32.arith (x.isNan || y.isNan) (FV.mul x y)

/-- The OR of the flags of a list of results. -/
def orFlags (rs : List Res) : Flg := rs.foldl (fun f r => f.or r.2) Flg.none

/-- W48 addition with its flags (R77, R151). -/
def addW48Res (a b : Res) : Res :=
  let x := v48 a.1
  let y := v48 b.1
  let r := w48.arith (x.isNan || y.isNan) (FV.add x y)
  (r.1, (a.2.or b.2).or r.2)

/-- Bit position of a stream's flags in VEC_FLAGS (Table 5-9). -/
def flagBase : Strm → Nat
  | .F => 0
  | .B => 8
  | .U => 16

/-- Set sticky flags of a stream, given as the bits of Table 5-9 (R151, R152). -/
def State.setFlags (s : State) (stn : Nat) (m : Strm) (code : Nat) : State :=
  s.setReg .vecFlags stn (s.reg .vecFlags stn ||| code * 2 ^ flagBase m)

end Sys2Proof.Machine
end

