-- ==== Sys2Proof/Machine/Operands.lean ====
section
/-! DEFINITION. Operand forms: scalar registers, NACC, tile and mask registers, stride modes, station memories. -/

namespace Sys2Proof.Machine

/-! ### Scalar registers and NACC (R129) -/

def StreamSt.sreg (y : StreamSt) (n : Nat) : Word := Tbl.get (fun _ => 0) y.s n

def StreamSt.setSreg (y : StreamSt) (n : Nat) (v : Word) : StreamSt := { y with s := Tbl.put (fun _ => 0) y.s n v }

def State.sreg (s : State) (stn : Nat) (m : Strm) (n : Nat) : Nat := ((s.stream stn m).sreg n).toNat

/-- The value of an INC update (R113, R191, R197): the register plus `k`, modulo 2^32. -/
def State.incVal (s : State) (stn : Nat) (m : Strm) (n k : Nat) : Word := BitVec.ofNat 32 (s.sreg stn m n + k)

/-! ### Tile registers (R126) -/

/-- A tile register from its elements in row-major order. -/
def tileOf (f : Nat → Word) : Tile := (List.range 1024).map f

/-- Element k = 64 * i + j. -/
def Tile.el (t : Tile) (k : Nat) : Word := t.getD k 0

def Station.tile (x : Station) (n : Nat) : Tile := Tbl.get (fun _ => Tile.zero) x.tiles n

def Station.setTile (x : Station) (n : Nat) (t : Tile) : Station :=
  { x with tiles := Tbl.put (fun _ => Tile.zero) x.tiles n t }

/-- The bytes of a tile register: byte 256i + 4j + b is byte b of element (i, j) (R126). -/
def Tile.byte (t : Tile) (a : Nat) : Byte := BitVec.ofNat 8 (bitsOf (t.el (a / 4)).toNat (8 * (a % 4) + 7) (8 * (a % 4)))

def Tile.bytes (t : Tile) (a n : Nat) : List Byte := (List.range n).map (fun i => t.byte (a + i))

/-- Elements written at their positions. -/
def Tile.setEls (t : Tile) (vs : List (Nat × Word)) : Tile := vs.foldl (fun u p => u.set p.1 p.2) t

/-- One byte of a tile register written. -/
def Tile.setByte (t : Tile) (a : Nat) (b : Byte) : Tile :=
  t.set (a / 4) (BitVec.ofNat 32 (leNat ((List.range 4).map (fun k => if 4 * (a / 4) + k = a then b else t.byte (4 * (a / 4) + k)))))

/-- Bytes written at their places. -/
def Tile.setBytes (t : Tile) (vs : List (Nat × Byte)) : Tile := vs.foldl (fun u p => u.setByte p.1 p.2) t

/-- The words of a run of bytes. -/
def wordsOf : Nat → List Byte → List Word
  | 0, _ => []
  | n + 1, bs => BitVec.ofNat 32 (leNat (bs.take 4)) :: wordsOf n (bs.drop 4)

/-- Row `i` as elements with their positions (R126). -/
def rowEls (i : Nat) (ws : List Word) : List (Nat × Word) := (List.range 64).map (fun j => (64 * i + j, ws.getD j 0))

/-! ### Mask registers (R128) -/

/-- Bit 64i + j of a mask register: VM0 reads as all ones. -/
def Station.mask (x : Station) (n k : Nat) : Bool :=
  if n = 0 then true else (Tbl.get (fun _ => (0 : BitVec 1024)) x.masks n).getLsbD k

/-- One bit of a mask register's value replaced. -/
def maskBit (v : BitVec 1024) (k : Nat) (b : Bool) : BitVec 1024 :=
  if b then v ||| BitVec.ofNat 1024 (2 ^ k) else v &&& ~~~ BitVec.ofNat 1024 (2 ^ k)

/-- Write bits of a mask register; a write to VM0 is discarded. -/
def Station.setMask (x : Station) (n : Nat) (vs : List (Nat × Bool)) : Station :=
  if n = 0 then x
  else
    let v := vs.foldl (fun v p => maskBit v p.1 p.2) (Tbl.get (fun _ => (0 : BitVec 1024)) x.masks n)
    { x with masks := Tbl.put (fun _ => 0) x.masks n v }

/-! ### Stride modes (R136) -/

/-- The element position that lane `k` reads under a stride mode. -/
def strideAt (mode k : Nat) : Nat :=
  match mode with
  | 0 => k
  | 1 => k % 64
  | 2 => k / 64 * 64
  | _ => 0

/-! ### Accumulation groups, latches and the stationary input buffer (R42, R44, R53) -/

def Station.group (x : Station) (g : Nat) : Tile := Tbl.get (fun _ => Tile.zero) x.acc g

def Station.setGroup (x : Station) (g : Nat) (t : Tile) : Station := { x with acc := Tbl.put (fun _ => Tile.zero) x.acc g t }

def blkZeros : List Blk := List.replicate 1024 Blk.zero

def Station.blks (x : Station) (g : Nat) : List Blk := Tbl.get (fun _ => blkZeros) x.blk g

def Station.setBlks (x : Station) (g : Nat) (b : List Blk) : Station := { x with blk := Tbl.put (fun _ => blkZeros) x.blk g b }

/-- Column-scale latch of a group (R50). -/
def Station.colScale (x : Station) (g j : Nat) : Nat := (Tbl.get (fun _ => (0 : Byte)) x.cscale (64 * g + j)).toNat

def Station.setColScale (x : Station) (g j v : Nat) : Station :=
  { x with cscale := Tbl.put (fun _ => (0 : Byte)) x.cscale (64 * g + j) (BitVec.ofNat 8 v) }

def Station.win (x : Station) (g : Nat) : Grp := Tbl.get (fun _ => Grp.free) x.grp g

def Station.setWin (x : Station) (g : Nat) (w : Grp) : Station := { x with grp := Tbl.put (fun _ => Grp.free) x.grp g w }

/-- Tap latch L0 or L1 (R42). -/
def Station.tap (x : Station) (l : Nat) : RingWord := Tbl.get (fun _ => RingWord.empty) x.latch l

def Station.setTap (x : Station) (l : Nat) (w : RingWord) : Station :=
  { x with latch := Tbl.put (fun _ => RingWord.empty) x.latch l w }

/-- Unit `kb` of lane `i` (R48). -/
def Station.laneUnit (x : Station) (i kb : Nat) : Nat := x.sib.rdLE (4096 * i + 2 * kb) 2

/-- Scale byte `b` of lane `i` (R44). -/
def Station.laneScale (x : Station) (i b : Nat) : Nat := (x.sibScale.rd (256 * i + b)).toNat

/-! ### Station store and gradient buffer (R69, R190, R251) -/

/-- Size of a station store (R33). -/
def storeSize : Nat := 2097152

/-- Size of a gradient buffer (R33). -/
def gradSize : Nat := 0x180000

def Station.rdStore (x : Station) (a n : Nat) : List Byte := x.store.rdW storeSize a n

def Station.wrStore (x : Station) (a : Nat) (bs : List Byte) : Station := { x with store := x.store.wrW storeSize a bs }

/-- Gradient-buffer entry `n` (R69). -/
def Station.entry (x : Station) (n : Nat) : Nat := x.grad.rdLE (6 * n) 6

def Station.setEntry (x : Station) (n v : Nat) : Station := { x with grad := x.grad.wrLE (6 * n) 6 v }

/-! ### Format table and Lens (R86, R92) -/

/-- The FMT_TABLE entry of a tag in force at a station (R92, R215). -/
def State.fmtEntry (s : State) (stn tag : Nat) : Nat :=
  s.regFor .fmtTable (Reg.at .fmtTable (4096 * dieOf stn + tag)) (dieOf stn) stn

def Station.lensOf (x : Station) : Strm → LensRec
  | .F => x.lensF
  | .B => x.lensB
  | .U => x.lensU

def Station.setLens (x : Station) (m : Strm) (r : LensRec) : Station :=
  match m with
  | .F => { x with lensF := r }
  | .B => { x with lensB := r }
  | .U => { x with lensU := r }

/-- Whether Lens records values of a stream (R85). -/
def State.lensOn (s : State) (stn : Nat) (m : Strm) : Bool :=
  (s.stream stn m).lens && s.bit .lensCtrl stn m.idx

/-- The histogram bin of a non-zero finite value against a reference exponent (R86). -/
def lensBin (r e : Int) : Nat := (clampI 0 31 (r - e)).toNat

/-- A live record takes one drained FP32 value (R86). Its counters saturate without setting LENS_STATUS.SAT, which is set at a merge:
Table 3-9 says "a Lens counter has saturated" and R87 names a merge only (DESIGN CHOICE, log entry 72). -/
def LensRec.take (l : LensRec) (r : Int) (bits : Nat) : LensRec :=
  let v := fp32.decode bits
  let l := { l with count := satTo 32 (l.count + 1) }
  match v with
  | .fin _ m _ =>
    if m = 0 then { l with zero := satTo 32 (l.zero + 1) }
    else
      let b := lensBin r v.floorLog2
      { l with amax := BitVec.ofNat 32 (max l.amax.toNat (bits % 2 ^ 31)),
               hist := Tbl.put (fun _ => 0) l.hist b (satTo 32 (Tbl.get (fun _ => 0) l.hist b + 1)) }
  | _ => { l with nonfin := satTo 32 (l.nonfin + 1) }

/-- A live record takes the counts of a narrowing VCVT (R82, R85). -/
def LensRec.count2 (l : LensRec) (u o : Nat) : LensRec :=
  { l with uflow := satTo 32 (l.uflow + u), oflow := satTo 32 (l.oflow + o) }

/-- The collector's side of an op that issues now (R85, R207). -/
def State.lensSrc (s : State) (stn : Nat) (m : Strm) : LensSrc := ⟨m, (s.stream stn m).ltag, (s.stream stn m).lens⟩

/-- A record of the collector takes something: the live record, or the one of the layer tag that the stream has left (R207). -/
def Station.lensAdd (x : Station) (l : LensSrc) (f : LensRec → LensRec) : Station :=
  if (x.stream l.strm).ltag = l.tag then x.setLens l.strm (f (x.lensOf l.strm))
  else { x with lensOld := x.lensOld.map (fun o => if o.strm = l.strm ∧ o.tag = l.tag then { o with rcd := f o.rcd } else o) }

/-- The collector takes what an op reports, where Lens records its stream (R85, R89). -/
def State.lensTake (s : State) (stn : Nat) (l : LensSrc) (f : LensRec → LensRec) : State :=
  if l.on && s.bit .lensCtrl stn l.strm.idx then s.modStation stn (fun x => x.lensAdd l f) else s

end Sys2Proof.Machine
end

