-- ==== Sys2Proof/Machine/Land.lean ====
section
/-! DEFINITION. Writes in flight: what each does to its station when it lands, and when it lands (R127, R129, R132, R192, R207, R252,
R254). -/

namespace Sys2Proof.Machine

/-! ### The stash window (R193, R258, R259, Tables 9-4, 9-6) -/

/-- Window of a station (Table 9-4): entries E and start byte. -/
def State.winEntries (s : State) (stn : Nat) : Nat := s.fld .stnStashWin stn 17 9
def State.winAddr (s : State) (stn n : Nat) : Nat := 4096 * (s.fld .stnStashWin stn 8 0 + n % s.winEntries stn)

def StashEnt.inWin (e : StashEnt) : Bool := decide (e.at_ = .resident) || decide (e.at_ = .spilling) || decide (e.at_ = .returning)
/-- The entry is spilled: its only copy that can be read is in the spill region (Table 9-3). -/
def StashEnt.isOut (e : StashEnt) : Bool := decide (e.at_ = .spilled) || decide (e.at_ = .returning)
def StashEnt.inBuf (e : StashEnt) : Bool := decide (e.at_ = .buffered true) || decide (e.at_ = .buffered false)

/-- A live entry (R258). -/
def Station.ent (x : Station) (n : Nat) : Option StashEnt := x.stash.find? (fun e => e.n = n)

def Station.setEnt (x : Station) (n : Nat) (f : StashEnt → StashEnt) : Station :=
  { x with stash := x.stash.map (fun e => if e.n = n then f e else e) }

/-- Write a row of an entry where the entry holds it (R193, R259). -/
def State.entWrite (s : State) (stn n row : Nat) (bs : List Byte) : State :=
  match (s.station stn).ent n with
  | some e =>
    let note := fun (y : StashEnt) => { y with wrote := y.wrote ||| BitVec.ofNat 16 (2 ^ row) }
    match e.at_ with
    | .resident => s.modStation stn (fun x => (x.wrStore (s.winAddr stn n + 256 * row) bs).setEnt n note)
    | .buffered _ => s.modStation stn (fun x =>
        { x with buf := Tbl.puts (fun _ => (0 : Byte)) x.buf (256 * row) bs }.setEnt n note)
    | _ => s
  | none => s

/-! ### Posts of the collector (R87, R207) -/

/-- A record leaves for the Lens table of the station's die; an empty one too (R87, R214). -/
def State.postRec (s : State) (stn : Nat) (m : Strm) (tag : BitVec 12) (r : LensRec) : State :=
  s.modDie (dieOf stn) (fun d => { d with posts := d.posts ++ [⟨tag, m, r⟩] })

/-- Post the live record of a stream under its tag, and clear it (R87). -/
def State.lensPost (s : State) (stn : Nat) (m : Strm) : State :=
  (s.modStation stn (fun x => x.setLens m LensRec.empty)).postRec stn m (s.stream stn m).ltag ((s.station stn).lensOf m)

/-- A V op reports counts to the collector (R82, R85). -/
def VFlight.reports (f : VFlight) : Bool := decide (f.kind = .narrow) || decide (f.kind = .scale)

/-- Values of ops that issued under a tag are still on their way to the collector (R207). -/
def Station.owesLens (x : Station) (m : Strm) (tag : BitVec 12) : Bool :=
  x.vq.any (fun f => f.reports && decide (f.src.strm = m) && decide (f.src.tag = tag))
    || x.dq.any (fun f => decide (f.src.strm = m) && decide (f.src.tag = tag))

/-- The live record of the tag that a stream leaves: kept while values of earlier ops are on their way, else posted (R207). -/
def State.leaveTag (s : State) (stn : Nat) (m : Strm) : State :=
  let x := s.station stn
  let tag := (x.stream m).ltag
  if x.owesLens m tag && !x.lensOld.any (fun o => decide (o.strm = m) && decide (o.tag = tag)) then
    s.modStation stn (fun y => { y.setLens m LensRec.empty with lensOld := y.lensOld ++ [⟨m, tag, y.lensOf m⟩] })
  else s.lensPost stn m

/-- What a PHASE sets, from the end of its tick on (R207). -/
def State.setPhase (s : State) (stn : Nat) (m : Strm) (tag : BitVec 12) (lens : Bool) : State :=
  let s1 := if (s.stream stn m).ltag ≠ tag then s.leaveTag stn m else s
  s1.modStream stn m (fun y => { y with ltag := tag, lens := lens })

/-- The records of left tags whose last values have come are posted (R207). -/
def State.postOld (s : State) (stn : Nat) : State :=
  let x := s.station stn
  let go := x.lensOld.filter (fun o => !x.owesLens o.strm o.tag)
  go.foldl (fun t o => t.postRec stn o.strm o.tag o.rcd)
    (s.modStation stn (fun y => { y with lensOld := y.lensOld.filter (fun o => x.owesLens o.strm o.tag) }))

/-! ### Landing -/

/-- VNRM2 adds its row sums into NACC in row order, and the additions raise flags (R143, R151). -/
def naccSum (clr : Bool) (nacc : Nat) (rows : List Nat) : Res :=
  rows.foldl (fun r v => addW48Res r (v, Flg.none)) ((if clr then 0 else nacc), Flg.none)

/-- A write lands. -/
def State.land (s : State) (stn : Nat) : Wr → State
  | .els n vs => s.modStation stn (fun x => x.setTile n ((x.tile n).setEls vs))
  | .bytes n vs => s.modStation stn (fun x => x.setTile n ((x.tile n).setBytes vs))
  | .mask n vs => s.modStation stn (fun x => x.setMask n vs)
  | .sreg m n v => s.modStream stn m (·.setSreg n v)
  | .nacc m v => s.modStream stn m (fun y => { y with nacc := v })
  | .naccAdd m clr rows =>
    let r := naccSum clr (s.stream stn m).nacc.toNat rows
    (s.modStream stn m (fun y => { y with nacc := BitVec.ofNat 48 r.1 })).setFlags stn m r.2.code
  | .flags m code => s.setFlags stn m code
  | .drained l vals =>
    let r := sgn8 (bitsOf (s.fmtEntry stn l.tag.toNat) 31 24)
    s.lensTake stn l (fun q => vals.foldl (fun w v => w.take r v) q)
  | .counts l u o => s.lensTake stn l (fun q => q.count2 u o)
  | .store a bs => s.modStation stn (fun x => x.wrStore a bs)
  | .grad vs => s.modStation stn (fun x => vs.foldl (fun y p => y.setEntry p.1 p.2) x)
  | .gradBytes a bs => s.modStation stn (fun x => { x with grad := x.grad.wrN a bs })
  | .stash n row bs => s.entWrite stn n row bs
  | .back n a bs => s.modStation stn (fun x => (x.wrStore a bs).setEnt n (fun e => { e with at_ := .resident }))
  | .lane scale a bs => s.modStation stn (fun x =>
      if scale then { x with sibScale := x.sibScale.wrN a bs } else { x with sib := x.sib.wrN a bs })
  | .tap l w => s.modStation stn (fun x => x.setTap l w)
  | .phase m tag lens => s.setPhase stn m tag lens

/-- Insert a write into a list in the order in which the writes of a tick are applied, after those of its own kind: of two V ops whose
writes reach one row on one tick, which R127 leaves unordered, the write of the op that issued later stands (DESIGN CHOICE, log entry 2). -/
def insPri (w : Late) : List Late → List Late
  | [] => [w]
  | v :: vs => if w.pri.rank < v.pri.rank then w :: v :: vs else v :: insPri w vs

/-- The writes of a tick in the order in which they are applied (R127, R129, R252, R254). -/
def sortPri (ws : List Late) : List Late := ws.foldl (fun a w => insPri w a) []

/-- The total of an XNORM gives way to a VNRM2 of its stream that writes NACC on the same tick, and adds to the NACC of the tick before
(R127, R200). -/
def Late.givesWay (w : Late) (ws : List Late) : Bool :=
  match w.pri, w.wr with
  | .norm, .nacc m _ => ws.any (fun v => match v.wr with | .naccAdd n _ _ => decide (n = m) | _ => false)
  | _, _ => false

/-- Writes of one tick land. -/
def State.landAll (s : State) (stn : Nat) (ws : List Late) : State :=
  (sortPri (ws.filter (fun w => !w.givesWay ws))).foldl (fun t w => t.land stn w.wr) s

/-- A write that lands at the end of schedule tick `due`. -/
def State.later (s : State) (stn due : Nat) (pri : Pri) (w : Wr) : State :=
  s.modStation stn (fun x => { x with late := x.late ++ [⟨due, pri, w⟩] })

/-- The schedule tick of a station that is under way, if its clock runs and its die is not frozen: what arrives now lands at its end. -/
def State.openTick (s : State) (stn : Nat) : Option Nat :=
  if s.ticking (regionOf stn) && !s.halted (regionOf stn) then s.tickOf stn else none

/-- A write that arrives by no schedule lands with the writes of the tick under way, at once where none is (R222, R252, R254). -/
def State.arrive (s : State) (stn : Nat) (pri : Pri) (w : Wr) : State :=
  match s.openTick stn with
  | some u => s.later stn u pri w
  | none => s.land stn w

end Sys2Proof.Machine
end

