-- ==== Sys2Proof/Machine/Stack.lean ====
section
/-! DEFINITION. Memory stacks and Prism: mapping, blocked regions, twins, retirement, transfers (R263 to R280). -/

namespace Sys2Proof.Machine

/-- Bytes of a stack's logical address space (R263). -/
def stackSize : Nat := 2 ^ 29

/-- Where a byte of channel `c` of stack `n` is kept: channel-local address `x` (R265, R281). -/
def chanKey (n c x : Nat) : Nat := n * 2 ^ 30 + c * 2 ^ 28 + x

/-- The linear mapping (R265). -/
def linKey (n a : Nat) : Nat := chanKey n (bitsOf a 9 8) (a / 1024 * 256 + a % 256)

/-- One region-table entry of a stack, with its fields (R267). -/
structure Rgn where
  base  : Nat
  nbr   : Nat
  nbc   : Nat
  fmt   : Nat
  saxis : Bool
  twin  : Bool
  sbase : Nat
  tbase : Nat
  deriving DecidableEq, Repr

/-- Bytes of a block (R267). -/
def blkBytes (fmt : Nat) : Nat :=
  match fmt with
  | 1 | 2 => 8192
  | 8 | 9 => 3072
  | 10 => 2048
  | _ => 4096

/-- Stored bits of an element (R268). -/
def memBits (fmt : Nat) : Nat := blkBytes fmt * 8 / 4096

def Rgn.size (r : Rgn) : Nat := r.nbr * r.nbc * blkBytes r.fmt

/-- The region that four words of the table describe. -/
def rgnOf (base shape scale twin : Nat) : Rgn :=
  { base := base % 2 ^ 17 * 4096, nbr := bitsOf shape 31 20 + 1, nbc := bitsOf shape 19 8 + 1, fmt := bitsOf shape 7 4,
    saxis := bitOf shape 3, twin := bitOf shape 2, sbase := scale % 2 ^ 23 * 64, tbase := twin % 2 ^ 17 * 4096 }

/-- Entry `i` of the region table of stack `n`, if enabled. -/
def State.rgn (s : State) (n i : Nat) : Option Rgn :=
  let k := 16 * n + i
  if s.bit .prismRgnBase k 31 then
    some (rgnOf (s.reg .prismRgnBase k) (s.reg .prismRgnShape k) (s.reg .prismRgnScale k) (s.reg .prismRgnTwin k))
  else none

/-- The enabled regions of a stack. -/
def State.rgns (s : State) (n : Nat) : List Rgn := (List.range 16).filterMap (s.rgn n)

/-- Whether a logical address lies in a region. -/
def Rgn.has (r : Rgn) (a : Nat) : Bool := decide (r.base ≤ a ∧ a < r.base + r.size)

/-- The blocked mapping of an address of a region (R268). -/
def Rgn.key (r : Rgn) (n a : Nat) : Nat :=
  let o := a - r.base
  let blk := blkBytes r.fmt
  let b := o / blk
  let sub := o % blk / (blk / 4)
  chanKey n ((sub + b / r.nbc + b % r.nbc) % 4) (r.base / 4 + b * (blk / 4) + o % (blk / 4))

/-- The spare page that a retired page of stack `n` is mapped to (R280). -/
def State.spareOf (s : State) (n page : Nat) : Option Nat :=
  if s.bit .msCtrl n 1 then
    (List.range 32).find? (fun i => s.bit .prismRetire (32 * n + i) 31 && decide (s.fld .prismRetire (32 * n + i) 12 0 = page))
  else none

/-- The twin of a region: the blocked layout of the transposed matrix, whose own twin is the region (R271). -/
def Rgn.other (g : Rgn) : Rgn := { g with base := g.tbase, nbr := g.nbc, nbc := g.nbr, tbase := g.base }

/-- The logical address of element (r, c) of a region, its bit within the byte given apart (R268). -/
def Rgn.bitAddr (g : Rgn) (r c : Nat) : Nat :=
  let blk := blkBytes g.fmt
  8 * (g.base + (r / 64 * g.nbc + c / 64) * blk + r % 64 / 16 * (blk / 4)) + (r % 16 * 64 + c % 64) * memBits g.fmt

/-- The address in a twin of the byte that a region holds at `a` (R271). -/
def Rgn.twinAddr (g : Rgn) (a : Nat) : Nat :=
  let w := memBits g.fmt / 8
  let blk := blkBytes g.fmt
  let o := a - g.base
  let b := o / blk
  let e := o % (blk / 4) / w
  let r := b / g.nbc * 64 + o % blk / (blk / 4) * 16 + e / 64
  let c := b % g.nbc * 64 + e % 64
  g.other.bitAddr c r / 8 + o % w

/-- The address whose byte is kept for logical address `a`: a twin never differs from its region, so a byte of a twin is the byte of
the region that it copies, stored once (R271, log entry 13). -/
def State.homeAddr (s : State) (n a : Nat) : Nat :=
  match (s.rgns n).find? (fun g => g.twin && g.other.has a) with
  | some g => g.other.twinAddr a
  | none => a

/-- The channel key of a logical address that is the home of its byte (R265, R268, R280). -/
def State.homeKey (s : State) (n a : Nat) : Nat :=
  match s.spareOf n (a / 65536) with
  | some i => linKey n (stackSize + 65536 * i + a % 65536)
  | none =>
    match (s.rgns n).find? (·.has a) with
    | some r => r.key n a
    | none => linKey n a

/-- Where Prism keeps logical byte `a` of stack `n` (R265, R268, R271, R280). -/
def State.stackKey (s : State) (n a : Nat) : Nat := s.homeKey n (s.homeAddr n a)

/-- Where Prism keeps byte `a` of stack `n` in the linear mapping, which scale planes use, on the spare page where its page is retired
(R270, R280). -/
def State.planeKey (s : State) (n a : Nat) : Nat :=
  match s.spareOf n (a / 65536) with
  | some i => linKey n (stackSize + 65536 * i + a % 65536)
  | none => linKey n a

def State.stackRd (s : State) (n a : Nat) : Byte := s.stackMem.rd (s.stackKey n a)

def State.stackRdN (s : State) (n a len : Nat) : List Byte := (List.range len).map (fun i => s.stackRd n (a + i))

/-- Write one byte of a stack; a write into a region with a twin, or into the twin, reaches both (R269, R271). -/
def State.stackWr (s : State) (n a : Nat) (v : Byte) : State := { s with stackMem := s.stackMem.wr (s.stackKey n a) v }

def State.stackWrN (s : State) (n a : Nat) : List Byte → State
  | [] => s
  | b :: bs => (s.stackWr n a b).stackWrN n (a + 1) bs

/-- A page group that is quarantined: its state epoch differs from its die's (R264, R397). -/
def State.pgQuarantined (s : State) (g : Nat) : Bool :=
  decide (s.fld .msPgEpoch g 15 0 ≠ s.fld .stnDieEpoch (g / 1024) 15 0)

/-- Some page group that a range of region 0x0 touches is quarantined (R264). -/
def State.staleRange (s : State) (off len : Nat) : Bool :=
  (List.range ((off + len - 1) / 2 ^ 22 - off / 2 ^ 22 + 1)).any (fun k => s.pgQuarantined (off / 2 ^ 22 + k))

/-! ### Errors of stack accesses (R278, R279) -/

/-- Record an uncorrectable event of a stack, with its channel and page: the first is captured, each is counted and raises a report to
Keeper (R278, R279, Table 9-16). -/
def State.msErrorAt (s : State) (n kind ch page : Nat) : State :=
  (if s.bit .msErr n 31 then s.raise .msErr n
   else s.capture .msErr n (kind * 2 ^ 28 + ch % 4 * 2 ^ 26 + page % 8192 * 2 ^ 13)).countFld .msErrCount n 7 0 1

/-- An uncorrectable event at logical address `a`: the channel is the one that Prism keeps it in. -/
def State.msError (s : State) (n kind a : Nat) : State := s.msErrorAt n kind (s.stackKey n a / 2 ^ 28) (a / 65536)

/-- Repeats of a transfer that fails its parity check `fails` times, and whether it went through (R278). -/
def State.retries (s : State) (n fails : Nat) : Nat := if s.bit .msCtrl n 0 then min fails 4 else 0

def State.xferOk (s : State) (n fails : Nat) : Bool := decide (fails ≤ (if s.bit .msCtrl n 0 then 4 else 0))

/-- Count a transfer of stack `n` at address `a` and record what failed (R278, R279). `kind` is 0x2 for a read, 0x3 for a write. -/
def State.xfer (s : State) (n a kind fails : Nat) (e : Ecc) : State :=
  let s1 := s.countFld .msErrCount n 15 8 (s.retries n fails)
  if !s.xferOk n fails then s1.msError n kind a
  else
    match e with
    | .clean => s1
    | .corrected => s1.countFld .msErrCount n 31 16 1
    | .bad _ _ => s1.msError n 1 a

/-- Whether read data arrive usable (R278, R279). -/
def State.readOk (s : State) (n fails : Nat) (e : Ecc) : Bool :=
  s.xferOk n fails && (match e with | .bad _ _ => false | _ => true)

/-- A transfer in a direction lies in a run of region 0x0 bytes. -/
def xferIn (x : XferAt) (wr : Bool) (off len : Nat) : Bool :=
  decide (x.write = wr) && decide (off ≤ x.addr) && decide (x.addr < off + len)

/-- What the transfers of a run of region 0x0 bytes meet is counted and recorded (R278, R279). -/
def State.xfers (s : State) (xs : List XferAt) (wr : Bool) (off len : Nat) : State :=
  (xs.filter (xferIn · wr off len)).foldl (fun t x =>
    t.xfer (x.addr / stackSize) (x.addr % stackSize) (if wr then 3 else 2) x.fails (if wr then .clean else x.ecc)) s

/-- A read of region 0x0 bytes arrives usable (R278, R279). -/
def State.readsOk (s : State) (xs : List XferAt) (off len : Nat) : Bool :=
  (xs.filter (xferIn · false off len)).all (fun x => s.readOk (x.addr / stackSize) x.fails x.ecc)

/-- The 64-byte lines of region 0x0 whose write fails: it is not applied (R278). -/
def State.lostLines (s : State) (xs : List XferAt) (off len : Nat) : List Nat :=
  ((xs.filter (xferIn · true off len)).filter (fun x => !s.xferOk (x.addr / stackSize) x.fails)).map (fun x => x.addr / 64)

/-! ### Copy-ahead-of-write (R399, R400) -/

/-- A page (stack * 8192 + page) of the snapshot in progress is not copied yet. `uncopied` lists page groups with the mask of
their uncopied pages. -/
def State.isUncopied (s : State) (p : Nat) : Bool := s.fw.uncopied.any (fun q => decide (q.1 = p / 64) && q.2.testBit (p % 64))

/-- Take a page out of the uncopied ones. -/
def dropUncopied (p : Nat) (l : List (Nat × Nat)) : List (Nat × Nat) :=
  l.filterMap (fun q =>
    if q.1 = p / 64 ∧ q.2.testBit (p % 64) then (if q.2 = 2 ^ (p % 64) then none else some (q.1, q.2 - 2 ^ (p % 64))) else some q)

/-- Buddy copies are enabled (R401). -/
def State.buddyOn (s : State) : Bool := s.bit .snapCtrl 0 30 && s.bit .snapBuddy 0 31

/-- A page enters a slot in its place: the pages stand in ascending address order (R402). -/
def insPage (p : Nat) (bytes : List Byte) (bad : Bool) : List (Nat × List Byte × Bool) → List (Nat × List Byte × Bool)
  | [] => [(p, bytes, bad)]
  | q :: qs => if p < q.1 then (p, bytes, bad) :: q :: qs else q :: insPage p bytes bad qs

/-- Mirror copies a page into the slot in use, and it waits to go to the buddy too. The page is marked where it is quarantined, or where its
data do not arrive usable (R278, R279, R398, R401, R402). -/
def State.copyPage (s : State) (p : Nat) (xs : List XferAt) : State :=
  let s := s.xfers xs false (65536 * p) 65536
  let bytes := s.stackRdN (p / 8192) (p % 8192 * 65536) 65536
  let x := Tbl.get (fun _ => Slot_.never) s.fw.slots s.fw.snapSlot
  let bad := s.pgQuarantined (p / 64) || !s.readsOk xs (65536 * p) 65536
  s.fwUpd (fun f => { f with
    uncopied := dropUncopied p f.uncopied
    buddyWait := if s.buddyOn then f.buddyWait ++ [p] else f.buddyWait
    slots := Tbl.put (fun _ => Slot_.never) f.slots s.fw.snapSlot { x with pages := insPage p bytes bad x.pages } })

/-- The pages that a run of bytes of a stack touches. -/
def pagesOf (n a len : Nat) : List Nat := (List.range ((a + len - 1) / 65536 - a / 65536 + 1)).map (fun k => n * 8192 + a / 65536 + k)

/-- The other address of a stack at which a byte of a region with a twin, or of the twin, is read too (R271). -/
def State.twinOf (s : State) (n a : Nat) : Option Nat :=
  match (s.rgns n).find? (fun g => g.twin && (g.has a || g.other.has a)) with
  | some g => some (if g.has a then g.twinAddr a else g.other.twinAddr a)
  | none => none

/-- The pages whose bytes a write of a run of bytes changes: those it touches, and those of the twin (R271, R400). -/
def State.changedPages (s : State) (n a len : Nat) : List Nat :=
  if (s.rgns n).any (fun g => g.twin) then
    (pagesOf n a len ++ (List.range len).filterMap (fun i => (s.twinOf n (a + i)).map (fun b => n * 8192 + b / 65536))).eraseDups
  else pagesOf n a len

/-- Pages of the copy-ahead reserve of a die (Table 15-12); 0 where none is defined. -/
def State.reserveSize (s : State) (d : Nat) : Nat := if s.bit .snapReserve d 31 then 64 * s.fld .snapReserve d 7 0 else 0

/-- Pages of a die that stand in its reserve. -/
def State.reserved (s : State) (d : Nat) : Nat := Tbl.get (fun _ => 0) s.fw.reserve d

/-- A page copied ahead takes the next page of the reserve of its die, where there is room; its bytes are written there (R400). -/
def State.reservePut (s : State) (p : Nat) : State :=
  let d := p / 65536
  let k := s.reserved d
  if k < s.reserveSize d then
    (s.stackWrN (8 * d + s.fld .snapReserve d 19 17) ((64 * s.fld .snapReserve d 16 10 + k) % 8192 * 65536)
      (s.stackRdN (p / 8192) (p % 8192 * 65536) 65536)).fwUpd (fun f => { f with reserve := Tbl.put (fun _ => 0) f.reserve d (k + 1) })
  else s

/-- A write from a scheduled path finds its pages copied ahead: it is counted, and its shutter request comes and goes (R400, log
entry 30). -/
def State.copyFirst (s : State) (n a len : Nat) (xs : List XferAt) : State :=
  ((s.changedPages n a len).filter s.isUncopied).foldl (fun t p =>
    (((((t.reservePut p).copyPage p xs).countFld .snapStatus 0 15 0 1).shutReq (n / 8) 6 p).shutRel (n / 8) 6 p)) s

/-- Write a run of bytes but for those of lost 64-byte lines, `off` being the region 0x0 offset of the first (R278). -/
def State.stackWrBut (s : State) (lost : List Nat) (off : Nat) : List Byte → State
  | [] => s
  | b :: bs =>
    (if lost.contains (off / 64) then s else s.stackWr (off / stackSize) (off % stackSize) b).stackWrBut lost (off + 1) bs

/-- A write that Prism makes for the part itself on a scheduled path: behind the copy of its pages, as far as its transfers go through
(R278, R400). -/
def State.stackPut (s : State) (n a : Nat) (bs : List Byte) (xs : List XferAt) : State :=
  let off := n * stackSize + a
  ((s.copyFirst n a bs.length xs).xfers xs true off bs.length).stackWrBut (s.lostLines xs off bs.length) off bs

/-! ### Elements and scales of a region (R268, R270) -/

/-- Element (r, c) of a region as bits (R268). -/
def State.rgnElem (s : State) (n : Nat) (g : Rgn) (r c : Nat) : Nat :=
  let p := g.bitAddr r c
  leNat (s.stackRdN n (p / 8) 2) / 2 ^ (p % 8) % 2 ^ memBits g.fmt

/-- The address of the scale code of a block of an MX region (R270): index `q` of the k axis at position `x` of the other axis. -/
def Rgn.scaleAddr (g : Rgn) (q x : Nat) : Nat :=
  let cols := 64 * g.nbc
  g.sbase + (if g.saxis then x * (cols / 32) + q else q * cols + x)

/-- A byte of a scale plane (R270). -/
def State.planeRd (s : State) (n a : Nat) : Nat := (s.stackMem.rd (s.planeKey n a)).toNat

end Sys2Proof.Machine
end

