-- ==== Sys2Proof/Machine/LSlot.lean ====
section
/-! DEFINITION. L-slot ops and the activation stash (R189 to R195, R258 to R262). -/

namespace Sys2Proof.Machine

/-! ### LLD and LST (R190 to R192) -/

/-- The bytes that `INC` adds to the address register (Table 7-7). -/
def lStep (o : LOp) : Nat :=
  match o.sp.toNat with
  | 0 => 256
  | 3 => if o.nacc then 8 else 4
  | _ => 64

/-- The station-store address of a row, or of a scalar, that an address register names (Table 7-7). -/
def rowAddr (a : Nat) : Nat := bitsOf a 20 8 * 256
def scalarAddr (o : LOp) (a : Nat) : Nat := if o.nacc then bitsOf a 20 3 * 8 else bitsOf a 20 2 * 4

/-- The first gradient-buffer entry that an address register names (Table 7-7). -/
def entryAddr (a : Nat) : Nat := bitsOf a 17 6 * 64

/-- The `INC` update of an L-slot op, at the end of its tick, before the write of its own load, which stands instead (R191). -/
def State.lInc (s : State) (i : Issue) (o : LOp) (t : Nat) : State :=
  if o.inc then s.later i.stn t .lInc (.sreg i.strm o.ar.toNat (s.incVal i.stn i.strm o.ar.toNat (lStep o))) else s

/-- Ticks from the issue of an LLD or LUNST to its write, and of an LST or LSTASH to its write of memory (R192). -/
def State.lLoadAt (s : State) (stn : Nat) : Nat := if s.profile1 (dieOf stn) then 3 else 2
def State.lStoreAt (s : State) (stn : Nat) : Nat := if s.profile1 (dieOf stn) then 1 else 0

/-- What an LLD whose address register holds `a` loads: its memory read now, and the writes that follow (Table 7-7, R192). -/
def Station.lload (x : Station) (m : Strm) (o : LOp) (a : Nat) : List (Pri × Wr) :=
  let t := o.t.toNat
  let row := o.row.toNat
  match o.sp.toNat with
  | 0 => [(.lPort, .els t (rowEls row (wordsOf 64 (x.rdStore (rowAddr a) 256))))]
  | 1 => [(.lPort, .els t (rowEls row ((List.range 64).map (fun j => to32 (v48 (x.entry (entryAddr a + j)))))))]
  | 2 =>
    [(.lPort, .els t (rowEls row ((List.range 64).map (fun j => (pair48 (x.entry (entryAddr a + j))).1)))),
     (.lPort, .els o.tb.toNat (rowEls row ((List.range 64).map (fun j => (pair48 (x.entry (entryAddr a + j))).2))))]
  | _ =>
    if o.nacc then [(.lReg, .nacc m (BitVec.ofNat 48 (leNat (x.rdStore (scalarAddr o a) 6))))]
    else [(.lReg, .sreg m (t % 16) (BitVec.ofNat 32 (leNat (x.rdStore (scalarAddr o a) 4))))]

/-- Writes that all land at the end of one schedule tick. -/
def State.laters (s : State) (stn due : Nat) (ws : List (Pri × Wr)) : State := ws.foldl (fun t w => t.later stn due w.1 w.2) s

def lldEff (i : Issue) (o : LOp) (p : OpPlace) (s : State) : State :=
  (s.lInc i o p.tick).laters i.stn (p.tick + s.lLoadAt i.stn) ((s.station i.stn).lload i.strm o (s.sreg i.stn i.strm o.ar.toNat))

/-- LLD. -/
def execLld (i : Issue) (o : LOp) (s : State) : Host.Outcome State Fault Refusal := .next (s.issue i .l (lldEff i o))

/-- The entries that an LST writes from a tile row (Table 7-7): exact conversion, or one rounding of hi + lo. -/
def Station.lstEntry (x : Station) (o : LOp) (j : Nat) : Nat :=
  let k := 64 * o.row.toNat + j
  let hi := v32 ((x.tile o.t.toNat).el k)
  if o.sp = 2 then w48.encode (FV.add hi (v32 ((x.tile o.tb.toNat).el k))) else w48.encode hi

/-- What an LST whose address register holds `a` stores: its row or scalar read now (Table 7-7, R192). -/
def Station.lstore (x : Station) (m : Strm) (o : LOp) (a : Nat) : Wr :=
  match o.sp.toNat with
  | 0 => .store (rowAddr a) ((x.tile o.t.toNat).bytes (256 * o.row.toNat) 256)
  | 1 | 2 => .grad ((List.range 64).map (fun j => (entryAddr a + j, x.lstEntry o j)))
  | _ =>
    let y := x.stream m
    .store (scalarAddr o a) (if o.nacc then leBytes 8 y.nacc.toNat else leBytes 4 (y.sreg (o.t.toNat % 16)).toNat)

def lstEff (i : Issue) (o : LOp) (p : OpPlace) (s : State) : State :=
  (s.lInc i o p.tick).later i.stn (p.tick + s.lStoreAt i.stn) .lPort
    ((s.station i.stn).lstore i.strm o (s.sreg i.stn i.strm o.ar.toNat))

/-- LST. -/
def execLst (i : Issue) (o : LOp) (s : State) : Host.Outcome State Fault Refusal := .next (s.issue i .l (lstEff i o))

/-! ### The stash (R258 to R262) -/

/-- Spill region (Table 9-6): slots, and the region 0x0 offset of the slot of entry n. -/
def State.spillSlots (s : State) (stn : Nat) : Nat := s.fld .stnStashSpill stn 31 22
def State.spillAddr (s : State) (stn n : Nat) : Nat := 4096 * (s.fld .stnStashSpill stn 21 0 + n % s.spillSlots stn)
def State.spillEn (s : State) (stn : Nat) : Bool := s.bit .stnStashMark stn 31

/-- Whether window slot n mod E holds a resident or spilling entry, or one whose copy lands in it on this tick, or there is no window (R259). -/
def State.winFull (s : State) (stn n : Nat) : Bool :=
  let e := s.winEntries stn
  decide (e = 0) || (s.station stn).stash.any (fun y => y.inWin && decide (y.n % e = n % e))

/-- Whether spill-region slot n mod SLOTS holds no live entry (R259, R262). -/
def State.spillFree (s : State) (stn n : Nat) : Bool :=
  let k := s.spillSlots stn
  decide (k ≠ 0) && !(s.station stn).stash.any (fun y => (y.isOut || decide (y.at_ = .spilling)
    || decide (y.at_ = .buffered true)) && decide (y.n ≠ n) && decide (y.n % k = n % k))

def Station.bufEmpty (x : Station) : Bool := !x.stash.any StashEnt.inBuf

/-- A spill tick of a frame: the active map gives neither G nor X to a stream (R218). -/
def State.spillTick (s : State) (stn tick : Nat) : Bool :=
  decide (s.owner stn 2 tick = 0) && decide (s.owner stn 4 tick = 0)

/-- The active map has spill ticks (R218). -/
def State.hasSpillTick (s : State) (stn : Nat) : Bool := (List.range 64).any (s.spillTick stn)

/-- Read a row of an entry (R193, R262). -/
def State.entRead (s : State) (stn row : Nat) (e : StashEnt) : Option (List Byte) :=
  let x := s.station stn
  match e.at_ with
  | .resident | .spilling => some (x.rdStore (s.winAddr stn e.n + 256 * row) 256)
  | .buffered _ => some (Tbl.gets (fun _ => (0 : Byte)) x.buf (256 * row) 256)
  | _ => none

/-- STASH_FULL: captured, the station stops at the start of its next frame, its fault flit goes out (R194, R204). -/
def State.stashFull (s : State) (stn : Nat) (p : OpPlace) : State :=
  ((((s.captureLx stn 7 p.strm 0 p.tick).traceFault stn p).stopOn stn ((p.tick / 64 + 1) * 64))).sendFault (dieOf stn) 7 false stn

/-- Allocate an entry by the tiers of R194 and R259; none for the third tier. -/
def State.allocate (s : State) (stn n recipe : Nat) : Option State :=
  let add := fun (a : StashAt) (t : State) => t.modStation stn (fun x => { x with stash := x.stash ++ [⟨n, a, 0, 0⟩] })
  if !s.winFull stn n then some (add .resident s)
  else if s.spillEn stn && (s.station stn).bufEmpty && s.spillFree stn n && s.hasSpillTick stn then some (add (.buffered true) s)
  else if recipe ≠ 0 then some (add .dropped (s.modStation stn (fun x => { x with dropped := satTo 12 (x.dropped + 1) })))
  else none

/-- LSTASH: the entry is allocated on the issue tick; the row is read then and written as an LST writes (R192 to R194). -/
def lstashEff (i : Issue) (o : StashOp) (p : OpPlace) (s : State) : State :=
  let e := s.sreg i.stn i.strm o.se.toNat
  let n := bitsOf e 15 0
  let row := o.row.toNat
  let w := Wr.stash n row (((s.station i.stn).tile o.t.toNat).bytes (256 * row) 256)
  match (s.station i.stn).ent n with
  | some _ => s.later i.stn (p.tick + s.lStoreAt i.stn) .lPort w
  | none =>
    match s.allocate i.stn n (bitsOf e 27 16) with
    | some s1 => s1.later i.stn (p.tick + s.lStoreAt i.stn) .lPort w
    | none => s.stashFull i.stn p

/-- LSTASH. -/
def execLstash (i : Issue) (o : StashOp) (s : State) : Host.Outcome State Fault Refusal := .next (s.issue i .l (lstashEff i o))

/-- The station has raised STASH_FULL and not stopped yet. -/
def State.stashStops (s : State) (stn : Nat) : Bool :=
  match (s.station stn).stopAt with
  | some t => s.bit .stnLxFault stn 31 && decide (s.fld .stnLxFault stn 27 24 = 7) && decide (t % 64 = 0) && decide (t ≤ s.tick0 stn)
  | none => false

/-- STASH_FULL_STOP: the station stops at the start of its next frame; TICK has reached it (R194). -/
def execStashFullStop (stn : Stn) (s : State) : Host.Outcome State Fault Refusal :=
  .next (if s.running stn && !s.halted (regionOf stn) && s.stashStops stn then s.stopStation stn .stopped else s)

/-- An entry is read row by row; after all 16 it is released (R260). -/
def State.entTaken (s : State) (stn n row : Nat) : State :=
  s.modStation stn (fun x =>
    let y := x.setEnt n (fun e => { e with readB := e.readB ||| BitVec.ofNat 16 (2 ^ row) })
    match y.ent n with
    | some e => if e.readB = BitVec.allOnes 16 then
        { y with stash := y.stash.filter (fun z => z.n ≠ n),
                 xfer := match y.xfer with | some w => if w.n = n then none else some w | none => none } else y
    | none => y)

/-- A LUNST that issued on tick `t` acts on an entry that is not spilled: its row is read now and written on the tick of R192, or at once
where the entry has come back later than that (R193, R195, R260, log entry 15). -/
def State.unstash (s : State) (stn : Nat) (o : StashOp) (n t : Nat) : State :=
  match (s.station stn).ent n with
  | none => s
  | some e =>
    match s.entRead stn o.row.toNat e with
    | some bs =>
      let w := Wr.els o.t.toNat (rowEls o.row.toNat (wordsOf 64 bs))
      let due := t + s.lLoadAt stn
      (if s.tick0 stn ≤ due then s.later stn due .lPort w else s.land stn w).entTaken stn n o.row.toNat
    | none => s.entTaken stn n o.row.toNat

def Station.isSpilled (x : Station) (n : Nat) : Bool :=
  match x.ent n with
  | some e => e.isOut
  | none => false

def lunstEff (i : Issue) (o : StashOp) (p : OpPlace) (s : State) : State :=
  let n := bitsOf (s.sreg i.stn i.strm o.se.toNat) 15 0
  if (s.station i.stn).isSpilled n then
    (s.modStation i.stn (fun x => { x with unst := x.unst ++ [(n, o, p)] })).shutReq (dieOf i.stn) 4 i.stn
  else s.unstash i.stn o n p.tick

/-- LUNST: an op that names a spilled entry is held, and a shutter requested, until the entry is back (R195). -/
def execLunst (i : Issue) (o : StashOp) (s : State) : Host.Outcome State Fault Refusal := .next (s.issue i .l (lunstEff i o))

/-! ### Transfers (R262) -/

/-- Resident entries (Table 9-7 counts the spilling ones with them). -/
def Station.residents (x : Station) : Nat := (x.stash.filter (fun e => e.inWin && !e.isOut)).length

/-- The entry of a list with the highest number. -/
def topEnt : List StashEnt → Option StashEnt
  | [] => none
  | e :: es =>
    match topEnt es with
    | some f => if f.n < e.n then some e else some f
    | none => some e

/-- The entry of a list with the lowest number. -/
def lowEnt : List StashEnt → Option StashEnt
  | [] => none
  | e :: es =>
    match lowEnt es with
    | some f => if e.n < f.n then some e else some f
    | none => some e

/-- The next transfer by the priorities of R262. -/
def State.nextXfer (s : State) (stn : Nat) : Option StashXfer :=
  let x := s.station stn
  match x.stash.find? (fun e => decide (e.at_ = .buffered true)) with
  | some e => some ⟨e.n, false, 32⟩
  | none =>
    let back := topEnt (x.stash.filter (fun e => decide (e.at_ = .spilled)))
    match (match back with
      | some e => if x.residents ≤ s.fld .stnStashMark stn 17 9 ∧ (s.winFull stn e.n = false ∨ x.bufEmpty = true)
                  then some e else none
      | none => none) with
    | some e => some ⟨e.n, true, 32⟩
    | none =>
      let high := s.fld .stnStashMark stn 8 0
      if high ≠ 0 ∧ high ≤ x.residents ∧ s.spillEn stn = true then
        match lowEnt (x.stash.filter (fun e => decide (e.at_ = .resident) && decide (e.wrote = BitVec.allOnes 16) && s.spillFree stn e.n)) with
        | some e => some ⟨e.n, false, 32⟩
        | none => none
      else none

/-- Start the next transfer: a resident entry that is spilled becomes spilling (Table 9-3). -/
def State.startXfer (s : State) (stn : Nat) : State :=
  match s.nextXfer stn with
  | some w => s.modStation stn (fun x =>
      { x with xfer := some w }.setEnt w.n (fun e => if e.at_ = StashAt.resident then { e with at_ := StashAt.spilling } else e))
  | none => s.modStation stn (fun x => { x with xfer := none })

/-- The 4 KiB of an entry in the station. -/
def State.entBytes (s : State) (stn : Nat) (e : StashEnt) : List Byte :=
  if e.inBuf then Tbl.gets (fun _ => (0 : Byte)) (s.station stn).buf 0 4096 else (s.station stn).rdStore (s.winAddr stn e.n) 4096

/-- A station's access to the stacks that no op's tag stands for meets a quarantined page group: STALE_EPOCH is captured with tag 0 and
the station stops (R203, R264, log entry 15). -/
def State.staleStop (s : State) (stn : Nat) : State :=
  ((s.captureLx stn 6 .F 0 (s.tick0 stn)).stopStation stn .stopped).sendFault (dieOf stn) 6 false stn

/-- 4 KiB that the spec leaves open. -/
def State.freeEntry (s : State) : List Byte := (List.range 4096).map (Config.freeByte s.free)

/-- A spilled entry comes back: to its window slot if it is free, by a write of the ring port on the tick under way, else to the spill
buffer; data that do not arrive usable are open (R252, R262, R278, R279, log entry 15). -/
def State.stashBack (s : State) (stn n sp : Nat) (e : Ecc) (fails : Nat) : State :=
  let ms := sp / stackSize
  let a := sp % stackSize
  let ok := s.readOk ms fails e
  let bs := if ok then s.stackRdN ms a 4096 else s.freeEntry
  let s1 := (s.xfer ms a 2 fails e).onlyIf (!ok) State.fresh
  if !s.winFull stn n then
    (s1.modStation stn (fun x => x.setEnt n (fun y => { y with at_ := .returning }))).arrive stn .ring (.back n (s.winAddr stn n) bs)
  else if (s.station stn).bufEmpty then
    s1.modStation stn (fun x =>
      { x with buf := Tbl.puts (fun _ => (0 : Byte)) [] 0 bs }.setEnt n (fun y => { y with at_ := .buffered false }))
  else s1

/-- An entry goes out to its spill slot, read on the ring port where it is in the window: an uncorrectable error there stops the station,
and the entry stays resident. A write that fails is not applied (R253, R256, R262, R278, log entry 15). -/
def State.stashOut (s : State) (stn n sp : Nat) (x : StashEnt) (r : StashEnd) : State :=
  let ms := sp / stackSize
  let a := sp % stackSize
  match (if x.inWin then r.ecc else .clean) with
  | .bad mem addr =>
    (s.modStation stn (fun y => y.setEnt n (fun z => { z with at_ := .resident }))).memFault stn mem.toNat addr.toNat
  | e =>
    (((s.onlyIf (e = .corrected) (·.memCorrected stn)).xfer ms a 3 r.fails .clean).onlyIf (s.xferOk ms r.fails)
      (fun t => t.stackPut ms a (s.entBytes stn x) r.xs)).modStation stn (fun y =>
        { y with buf := if x.inBuf then [] else y.buf }.setEnt n (fun z => { z with at_ := .spilled }))

/-- The copy of a transfer completes (R262). -/
def State.endXfer (s : State) (stn : Nat) (w : StashXfer) (r : StashEnd) : State :=
  let sp := s.spillAddr stn w.n
  match (s.station stn).ent w.n with
  | none => s
  | some x =>
    if s.staleRange sp 4096 then s.staleStop stn
    else if w.back then s.stashBack stn w.n sp r.ecc r.fails
    else s.stashOut stn w.n sp x r

/-- The held LUNST ops whose entry is not spilled any more act, and the request of bit 4 is released with the last (R195). -/
def State.freeUnst (s : State) (stn : Nat) : State :=
  let x := s.station stn
  if x.unst.isEmpty then s
  else
    let go := x.unst.filter (fun h => !x.isSpilled h.1)
    let s1 := go.foldl (fun t h => t.unstash stn h.2.1 h.1 h.2.2.tick)
      (s.modStation stn (fun y => { y with unst := y.unst.filter (fun h => x.isSpilled h.1) }))
    if (s1.station stn).unst.isEmpty then s1.shutRel (dieOf stn) 4 stn else s1

/-- The transfer in progress has had its 32 spill ticks, or completes in a freeze (R222, R262). -/
def State.xferDue (s : State) (stn : Nat) : Option StashXfer :=
  match (s.station stn).xfer with
  | some w => if w.left = 0 ∨ (s.die (dieOf stn)).frozen = true then some w else none
  | none => if (s.die (dieOf stn)).frozen then s.nextXfer stn else none

/-- STASH_TRANSFER_DONE: the transfer completes and the stash starts the next one (R262). -/
def execStashTransferDone (x : StashEnd) (s : State) : Host.Outcome State Fault Refusal :=
  .next (match s.xferDue x.stn with
    | some w => (((s.endXfer x.stn w x).modStation x.stn (fun y => { y with xfer := none })).freeUnst x.stn).startXfer x.stn
    | none => s)

/-- A spill tick of a station: a transfer moves 128 bytes (R218, R262). -/
def State.stashTick (s : State) (stn : Nat) : State :=
  let s1 := if (s.station stn).xfer.isNone then s.startXfer stn else s
  s1.modStation stn (fun x => { x with xfer := match x.xfer with | some w => some { w with left := w.left - 1 } | none => none })

end Sys2Proof.Machine
end

