-- ==== Sys2Proof/Machine/Array.lean ====
section
/-! DEFINITION. M-slot ops: MLD, MMA, MDRN and MCLR (02_arrays_and_cells.md). -/

namespace Sys2Proof.Machine

/-! ### Checks (R53 to R57, R62) -/

/-- Capture an array fault in STN_ARRAY_FAULT and stop the station (R56, R64). -/
def State.arrayFault (s : State) (stn code group op : Nat) (p : OpPlace) : State :=
  ((s.capture .stnArrayFault stn (code * 2 ^ 24 + p.strm.code * 2 ^ 22 + group * 2 ^ 20 + op * 2 ^ 18 + p.tick % 2 ^ 16)).traceFault
    stn p).stationFault stn code

/-- The group is held by an MMA chain on tick `t` (Table 2-6, first row). -/
def Grp.chain (w : Grp) (t : Nat) : Bool := w.owner.isSome && decide (t ≤ w.last + 4)

/-- The class of the group's open block on tick `t`, if any (Table 2-6, second row). -/
def Grp.openBlk (w : Grp) (t : Nat) : Option Nat :=
  match w.till with
  | some u => if t ≤ u then w.cls else none
  | none => w.cls

/-- The drain path is held on tick `t` (Table 2-6). -/
def Station.drainHeld (x : Station) (t : Nat) : Bool :=
  match x.drain with
  | some d => decide (t < d.2)
  | none => false

/-- The group is draining on tick `t` (Table 2-6). -/
def Station.draining (x : Station) (g t : Nat) : Bool :=
  match x.drain with
  | some d => decide (d.1 = g) && decide (t < d.2)
  | none => false

/-! ### MLD (R45 to R47) -/

/-- Address bits that MLD ignores, the bytes of a chunk and whether it expands MXFP6 (R45, Table 2-3). -/
def mldSix (o : MldOp) : Bool := !o.kind && isFp6 o.fmt.toNat

/-- The 16 bytes of lane `i` in chunk `c` from source address `a` (R45). -/
def Station.chunkLane (x : Station) (six : Bool) (a c i : Nat) : List Byte :=
  if six then unpack6 (x.rdStore (a / 64 * 64 + 192 * c + 12 * i) 12) 16
  else x.rdStore (a / 256 * 256 + 256 * c + 16 * i) 16

/-- The writes of chunk `c` of an MLD, read from the store as it stands: 16 bytes to each lane, destination offsets wrapping in the
lane's element or scale area (R45). -/
def MFlight.chunk (f : MFlight) (x : Station) (c : Nat) : List Wr :=
  (List.range 16).map (fun i =>
    .lane f.scale (if f.scale then 256 * i + 16 * (f.dst + c) % 256 else 4096 * i + 16 * (f.dst + c) % 4096) (x.chunkLane f.six f.a c i))

/-- Ticks from the read of a chunk to its write (R46). -/
def MFlight.lead (f : MFlight) : Nat := if f.p1 then 2 else 1

/-- What an MLD reads on tick `u`: chunk u - t, written for MMAs from u + 3 or u + 2 on (R46). -/
def MFlight.reads (f : MFlight) (x : Station) (u : Nat) : List Late :=
  if f.t ≤ u ∧ u - f.t ≤ f.len then (f.chunk x (u - f.t)).map (fun w => ⟨u + f.lead, .v, w⟩) else []

/-- The MLD has read its last chunk by the end of tick `u`. -/
def MFlight.done (f : MFlight) (u : Nat) : Bool := decide (f.t + f.len ≤ u)

def mldEff (i : Issue) (o : MldOp) (p : OpPlace) (s : State) : State :=
  let x := s.station i.stn
  let p1 := s.profile1 (dieOf i.stn)
  if (wclass o.fmt.toNat).isNone then s.arrayFault i.stn 3 0 0 p
  else if p.tick < x.portBusy then s.arrayFault i.stn 1 0 0 p
  else
    s.setStation i.stn { x with
      portBusy := p.tick + (if p1 then 3 else 2) + o.len.toNat
      mq := x.mq ++ [⟨p.tick, s.sreg i.stn i.strm o.src.toNat, o.dst.toNat, o.len.toNat, o.kind, mldSix o, p1⟩] }

/-- MLD (R45): load chunks of the station store into the stationary input buffer. -/
def execMld (i : Issue) (o : MldOp) (s : State) : Host.Outcome State Fault Refusal := .next (s.issue i .m (mldEff i o))

/-! ### MMA (R48 to R51, R55, R57) -/

/-- A product enters a block register: finite products exactly, special ones by Table 3-3. -/
def Blk.addV (b : Blk) : FV → Blk
  | .nan => { b with nan := true }
  | .inf neg => if neg then { b with ninf := true } else { b with pinf := true }
  | .fin neg m e => { b with sum := b.sum + fxAt (-300) neg m e }

/-- The kc products of one cell (R48, R73). -/
def Blk.step (b : Blk) (fs fw cls su wu : Nat) : Blk :=
  ((unitElems cls su).zip (unitElems cls wu)).foldl (fun a p => a.addV (FV.mul (elemVal fs p.1) (elemVal fw p.2))) b

/-- Fold a block sum into an accumulator: Table 3-3, else one rounding of R74. -/
def foldAcc (acc : Word) (b : Blk) (nanScale : Bool) (e : Int) : Word :=
  match v32 acc with
  | .nan => BitVec.ofNat 32 nan32
  | .inf neg =>
    if nanScale || b.nan || (b.pinf && b.ninf) || (b.pinf && neg) || (b.ninf && !neg) then BitVec.ofNat 32 nan32 else acc
  | v =>
    if nanScale || b.nan || (b.pinf && b.ninf) then BitVec.ofNat 32 nan32
    else if b.pinf then to32 (.inf false)
    else if b.ninf then to32 (.inf true)
    else to32 (FV.add v (FV.scale e (ofFx (-300) b.sum false)))

/-- Take a valid word's scale bytes into a group's column-scale latch (R50, R100). -/
def Station.takeScales (x : Station) (g cls kb : Nat) (w : RingWord) : Station :=
  let n := if cls = 2 then 8 else 4
  (List.range n).foldl (fun y c =>
    y.setColScale g (n * (kb % blockUnits cls) + c) (bitsOf w.scale.toNat (8 * c + 7) (8 * c))) x

/-- Form the products of a valid word in the active rows (R39, R48). -/
def Station.products (x : Station) (o : MmaOp) (cls : Nat) (w : RingWord) : List Blk :=
  let kb := o.kbase.toNat
  let bs := x.blks o.group.toNat
  (List.range 1024).map (fun k =>
    let b := bs.getD k Blk.zero
    if k / 64 ≤ o.rows.toNat then
      b.step o.fmtS.toNat o.fmtW.toNat cls (x.laneUnit (k / 64) kb) (bitsOf w.data.toNat (16 * (k % 64) + 15) (16 * (k % 64)))
    else b)

/-- The stationary and the streaming scale code of cell (i, j), 127 for an operand without block scales (R49, R71, R74). -/
def Station.scales (x : Station) (o : MmaOp) (cls i j : Nat) : Nat × Nat :=
  (if isMx o.fmtS.toNat then x.laneScale i (o.kbase.toNat / blockUnits cls) else 127,
   if isMx o.fmtW.toNat then x.colScale o.group.toNat j else 127)

/-- The fold of an ending MMA: active rows fold and clear their block registers (R49). -/
def Station.fold (x : Station) (o : MmaOp) (cls : Nat) : Station :=
  let g := o.group.toNat
  let bs := x.blks g
  let a := x.group g
  let acc := tileOf (fun k =>
    if k / 64 ≤ o.rows.toNat then
      let sc := x.scales o cls (k / 64) (k % 64)
      foldAcc (a.el k) (bs.getD k Blk.zero) (sc.1 == 255 || sc.2 == 255) (scaleExp sc.1 + scaleExp sc.2)
    else a.el k)
  (x.setGroup g acc).setBlks g ((List.range 1024).map (fun k =>
    if k / 64 ≤ o.rows.toNat then Blk.zero else bs.getD k Blk.zero))

/-- Whether an MMA ends a block (R49). -/
def mmaEnds (o : MmaOp) (cls : Nat) : Bool := decide ((o.kbase.toNat + 1) % blockUnits cls = 0)

/-- The tick to which the open block of a group is held once an MMA on tick `t` has ended a block: its own fold for the block that was
open, the fold of an earlier ending MMA where that one has ended it (Table 2-6). -/
def Grp.heldTill (w : Grp) (t : Nat) : Option Nat :=
  match w.cls, w.till with
  | some _, none => some (t + 4)
  | some _, some u => if t ≤ u then some u else none
  | none, _ => none

/-- The windows of the group after an MMA of a stream on tick `t` (R53). -/
def Grp.mma (w : Grp) (m : Strm) (t cls : Nat) (ends : Bool) : Grp :=
  { owner := if w.chain t then w.owner else some m, last := t,
    cls := if ends then w.openBlk t else some cls, till := if ends then w.heldTill t else none }

/-- What an MMA does to the array (R43, R48 to R51). -/
def Station.mma (x : Station) (o : MmaOp) (m : Strm) (t cls : Nat) : Station :=
  let g := o.group.toNat
  let w := x.tap o.latch.toNat
  let x1 := if w.valid && isMx o.fmtW.toNat then x.takeScales g cls o.kbase.toNat w else x
  let x2 := if w.valid then x1.setBlks g (x1.products o cls w) else x1
  let x3 := if mmaEnds o cls then x2.fold o cls else x2
  x3.setWin g ((x.win g).mma m t cls (mmaEnds o cls))

/-- Why an MMA is suppressed: FORMAT_CLASS (R57), then ACC_CONFLICT (R55), none if it executes. -/
def Station.mmaFault (x : Station) (o : MmaOp) (m : Strm) (t : Nat) : Option Nat :=
  let g := o.group.toNat
  let w := x.tap o.latch.toNat
  let grp := x.win g
  match wclass o.fmtS.toNat, wclass o.fmtW.toNat with
  | some cs, some cw =>
    if cs ≠ cw ∨ (w.valid = true ∧ w.cls.toNat ≠ cw) ∨ ((grp.openBlk t).getD cw ≠ cw) then some 3
    else if (grp.chain t = true ∧ grp.owner ≠ some m) ∨ x.draining g t = true then some 1
    else none
  | _, _ => some 3

def mmaEff (i : Issue) (o : MmaOp) (p : OpPlace) (s : State) : State :=
  let x := s.station i.stn
  match x.mmaFault o i.strm p.tick with
  | some code => s.arrayFault i.stn code o.group.toNat 1 p
  | none =>
    let s1 := s.setStation i.stn (x.mma o i.strm p.tick ((wclass o.fmtW.toNat).getD 0))
    if s1.bit .stnArrayCtrl i.stn 2 then
      (s1.addPair .stnMmaCount i.stn 1).addPair .stnRowTicks i.stn (o.rows.toNat + 1)
    else s1

/-- MMA (R48): multiply the active lanes with the latched word into a group. -/
def execMma (i : Issue) (o : MmaOp) (s : State) : Host.Outcome State Fault Refusal := .next (s.issue i .m (mmaEff i o))

/-! ### MDRN (R58 to R62) -/

/-- One drained value after the fused operation (Table 2-9). -/
def fuseVal (fuse : Nat) (c ts : Word) : Res :=
  match fuse with
  | 0 => (c.toNat, Flg.none)
  | 2 => mul32 c.toNat ts.toNat
  | _ => add32 c.toNat ts.toNat

/-- Set a group, its block registers and its column-scale latch to zero (R54, R58, R76). -/
def Station.clearGroup (x : Station) (g : Nat) : Station :=
  let y := (x.setGroup g Tile.zero).setBlks g blkZeros
  { y with cscale := y.cscale.filter (fun e => decide (e.1 / 64 ≠ g)) }

/-- The drain of a group that issues on tick `t`: its rows are read, and cleared with `CLR`, on the ticks of the window in which nothing
else can use the group, so they are taken on `t` (R58, Table 2-6). -/
def Station.mdrn (x : Station) (o : MdrnOp) (t : Nat) (p1 : Bool) (l : LensSrc) : Station :=
  let g := o.group.toNat
  let y := if o.clr then x.clearGroup g else x
  { y with
    drain := some (g, t + 16)
    dq := x.dq ++ [⟨t, x.group g, o.dk, if o.dk then o.dst.toNat else o.dst.toNat % 32, o.fuse.toNat, o.ts.toNat, p1, l, [], []⟩] }

/-- The row of `TS` that the fused operation of row `i` reads (Table 2-9). With FUSE 0b11 the bias row 0 is read again for every row, as it
then stands, although Table 2-10 speaks of row `i` only (DESIGN CHOICE, log entry 72). -/
def DFlight.tsRow (f : DFlight) (x : Station) (i : Nat) : List Word :=
  (List.range 64).map (fun j => (x.tile f.ts).el (64 * (if f.fuse = 3 then 0 else i) + j))

/-- The entries that row `i` is added into (R59). -/
def DFlight.entRow (f : DFlight) (x : Station) (i : Nat) : List Nat :=
  (List.range 64).map (fun j => x.entry (1024 * f.dst + 64 * i + j))

/-- Ticks from the issue of a drain to the read of its first row of entries (Table 2-10). -/
def DFlight.entAt (f : DFlight) : Nat := if f.p1 then 1 else 0

/-- What a drain reads on tick `u`: row u - t - 1 of `TS`, and row u - t - 1 of the entries, a tick earlier under profile 2 (Table 2-10). -/
def DFlight.capture (f : DFlight) (x : Station) (u : Nat) : DFlight :=
  let g := u - f.t
  { f with
    tsv := if 1 ≤ g ∧ g ≤ 16 then f.tsv ++ f.tsRow x (g - 1) else f.tsv
    ent := if f.grad = true ∧ f.entAt ≤ g ∧ g < f.entAt + 16 then f.ent ++ f.entRow x (g - f.entAt) else f.ent }

/-- The drained values of row `i` after the fused operation (Table 2-9). -/
def DFlight.row (f : DFlight) (i : Nat) : List Res :=
  (List.range 64).map (fun j => fuseVal f.fuse (f.vals.el (64 * i + j)) (f.tsv.getD (64 * i + j) 0))

/-- Ticks from the issue of a drain to the write of its first row (Table 2-10). -/
def DFlight.writeAt (f : DFlight) : Nat := (if f.p1 then 2 else 1) + b2n f.grad

/-- The writes of row `i`: the row of the tile register, or the entries with the values added, the flags, and the values for the
collector (R58, R59, R85, R151). -/
def DFlight.rowWrites (f : DFlight) (i : Nat) : List Wr :=
  let rs := f.row i
  [if f.grad then .grad ((List.range 64).map (fun j =>
      (1024 * f.dst + 64 * i + j, addW48 (f.ent.getD (64 * i + j) 0) (fp32.decode (rs.getD j (0, Flg.none)).1))))
   else .els f.dst (rowEls i (rs.map (fun r => BitVec.ofNat 32 r.1))),
   .flags f.src.strm (orFlags rs).code, .drained f.src (rs.map (·.1))]

/-- What a drain writes at the end of tick `u` (Table 2-10). -/
def DFlight.writes (f : DFlight) (u : Nat) : List Late :=
  let g := u - f.t
  if f.writeAt ≤ g ∧ g < f.writeAt + 16 then (f.rowWrites (g - f.writeAt)).map (fun w => ⟨u, .drain, w⟩) else []

/-- The drain has written its last row by the end of tick `u`. -/
def DFlight.done (f : DFlight) (u : Nat) : Bool := decide (f.t + f.writeAt + 15 ≤ u)

/-- An MMA of the group issued fewer than ACC_SETTLE ticks before tick `t`, and the settle mode has brought about no freeze on it (R62). -/
def Station.early (x : Station) (g : Nat) (settle : Bool) (t : Nat) : Bool :=
  (x.win g).chain t && !(settle && x.settleAt.contains t)

/-- Why an MDRN is suppressed: ACC_CONFLICT, then DRAIN_EARLY (R55, R56, R62). -/
def Station.mdrnFault (x : Station) (o : MdrnOp) (settle : Bool) (t : Nat) : Option Nat :=
  let w := x.win o.group.toNat
  if x.drainHeld t then some 1
  else if x.early o.group.toNat settle t || (w.cls.isSome && w.till.isNone) then some 2
  else none

def mdrnEff (i : Issue) (o : MdrnOp) (p : OpPlace) (s : State) : State :=
  let x := s.station i.stn
  match x.mdrnFault o (s.bit .stnArrayCtrl i.stn 0) p.tick with
  | some code => s.arrayFault i.stn code o.group.toNat 2 p
  | none => s.setStation i.stn (x.mdrn o p.tick (s.profile1 (dieOf i.stn)) (s.lensSrc i.stn i.strm))

/-- MDRN (R58): drain a group into a tile register or the gradient buffer. In settle mode the freeze of an early one has been asked for
ahead of its tick (R62, TICK). -/
def execMdrn (i : Issue) (o : MdrnOp) (s : State) : Host.Outcome State Fault Refusal := .next (s.issue i .m (mdrnEff i o))

/-! ### MCLR (R54) -/

/-- The groups named by a mask, lowest first (R186). -/
def maskGroups (mask : BitVec 4) : List Nat := (List.range 4).filter (fun g => bitOf mask.toNat g)

/-- Clear groups and end their open blocks (R54). -/
def Station.mclr (x : Station) (gs : List Nat) : Station :=
  gs.foldl (fun y g => (y.clearGroup g).setWin g Grp.free) x

def mclrEff (i : Issue) (mask : BitVec 4) (p : OpPlace) (s : State) : State :=
  let x := s.station i.stn
  match (maskGroups mask).find? (fun g => (x.win g).chain p.tick || x.draining g p.tick) with
  | some g => s.arrayFault i.stn 1 g 3 p
  | none => s.setStation i.stn (x.mclr (maskGroups mask))

/-- MCLR (R54): clear the groups of a mask. -/
def execMclr (i : Issue) (mask : BitVec 4) (s : State) : Host.Outcome State Fault Refusal :=
  .next (s.issue i .m (mclrEff i mask))

end Sys2Proof.Machine
end

