-- ==== Sys2Proof/Machine/Vector.lean ====
section
/-! DEFINITION. V-slot ops (05_vector_engine.md). -/

namespace Sys2Proof.Machine

/-! ### Element-wise operations (Table 5-5) -/

/-- a + b, or a - b with SUB. -/
def addRes (sub : Bool) (a b : Nat) : Res :=
  let x := fp32.decode a
  let y := fp32.decode b
  fp32.arith (x.isNan || y.isNan) (FV.add x (if sub then FV.neg y else y))

/-- (-1)^NEG * a * b + c, rounded once. -/
def fmaRes (neg : Bool) (a b c : Nat) : Res :=
  let x := fp32.decode a
  let y := fp32.decode b
  let z := fp32.decode c
  let q := FV.mul x y
  fp32.arith (x.isNan || y.isNan || z.isNan) (FV.add (if neg then FV.neg q else q) z)

/-- max(a, b), or min(a, b) with MIN: NaN if either is NaN, +0 above -0. -/
def maxBits (mn : Bool) (a b : Nat) : Nat :=
  let x := fp32.decode a
  let y := fp32.decode b
  if x.isNan || y.isNan then nan32
  else if FV.lt x y then (if mn then a else b)
  else if FV.lt y x then (if mn then b else a)
  else if bitOf a 31 = mn then a else b

/-- e^a, or 2^a with B2 (R139). -/
def expRes (b2 : Bool) (a : Nat) : Res :=
  match fp32.decode a with
  | .nan => (nan32, Flg.none)
  | .inf neg => (fp32.encode (if neg then .fin false 0 0 else .inf false), Flg.none)
  | .fin neg m e => let r := expVal b2 neg m e; fp32.rnd r.1 r.2

/-- 1/sqrt(a), or 1/a with RCP (R139). -/
def rsqRes (rcp : Bool) (a : Nat) : Res :=
  match fp32.decode a with
  | .nan => (nan32, Flg.none)
  | .inf neg =>
    if rcp then (fp32.withSign neg 0, Flg.none)
    else if neg then (nan32, { Flg.none with inv := true }) else (0, Flg.none)
  | .fin neg m e =>
    if m = 0 then (fp32.encode (.inf neg), { Flg.none with dz := true })
    else if rcp then fp32.rnd (.fin neg (2 ^ 100 / m) (-100 - e)) (decide (2 ^ 100 % m ≠ 0))
    else if neg then (nan32, { Flg.none with inv := true })
    else
      let m2 := if e % 2 = 0 then m else 2 * m
      let e2 := if e % 2 = 0 then e else e - 1
      let r := isqrt (2 ^ 200 / m2)
      fp32.rnd (.fin false r (-100 - e2 / 2)) (decide (r * r * m2 ≠ 2 ^ 200))

/-- The predicates of VCMP (Table 5-5). -/
def predOf (pred : Nat) (a b : Nat) : Bool :=
  let x := fp32.decode a
  let y := fp32.decode b
  let un := x.isNan || y.isNan
  match pred with
  | 0 => FV.eqv x y
  | 1 => !FV.eqv x y
  | 2 => FV.lt x y
  | 3 => FV.lt x y || FV.eqv x y
  | 4 => FV.lt y x
  | 5 => FV.lt y x || FV.eqv x y
  | 6 => !un
  | _ => un

/-! ### Reductions (R141 to R143) -/

/-- One level of a pairwise tree (R142). -/
def pairUp (f : Res → Res → Res) : List Res → List Res
  | a :: b :: rest => f a b :: pairUp f rest
  | rest => rest

/-- `n` levels of a pairwise tree, to one result. -/
def treeOf (f : Res → Res → Res) : Nat → List Res → Res
  | 0, rs => rs.headD (0, Flg.none)
  | n + 1, rs => treeOf f n (pairUp f rs)

/-- The larger magnitude with its sign bit clear, the canonical NaN if either is NaN (R142). -/
def maxMag (a b : Nat) : Nat :=
  if (fp32.decode a).isNan || (fp32.decode b).isNan then nan32 else max (a % 2 ^ 31) (b % 2 ^ 31)

/-- A node of a reduction tree, and the identity of the reduction (R142). -/
def redNode (rop : Nat) (a b : Res) : Res :=
  match rop with
  | 0 => let r := add32 a.1 b.1; (r.1, (a.2.or b.2).or r.2)
  | 1 => (maxBits false a.1 b.1, Flg.none)
  | 2 => (maxBits true a.1 b.1, Flg.none)
  | _ => (maxMag a.1 b.1, Flg.none)

def redIdent (rop : Nat) : Nat :=
  match rop with
  | 0 => 0x80000000
  | 1 => 0xFF800000
  | 2 => 0x7F800000
  | _ => 0

/-! ### Lanes of an op in flight -/

/-- What lane `k` of a flight read of its first, second and third source and of its mask register. -/
def VFlight.la (f : VFlight) (k : Nat) : Nat := (f.a.getD k 0).toNat
def VFlight.lb (f : VFlight) (k : Nat) : Nat := (f.b.getD k 0).toNat
def VFlight.lc (f : VFlight) (k : Nat) : Nat := (f.c.getD k 0).toNat
def VFlight.lm (f : VFlight) (k : Nat) : Bool := f.m.getD k false

/-- What element (i, j) of `SA` contributes to a reduction (Table 5-4). -/
def VFlight.redLane (f : VFlight) (rop k : Nat) : Res := (if f.lm k then f.la k else redIdent rop, Flg.none)

/-- The reduction of row `i` over its 64 columns, or of column `j` over its 16 rows (R142). -/
def VFlight.redRow (f : VFlight) (rop i : Nat) : Res := treeOf (redNode rop) 6 ((List.range 64).map (fun j => f.redLane rop (64 * i + j)))

def VFlight.redCol (f : VFlight) (rop j : Nat) : Res := treeOf (redNode rop) 4 ((List.range 16).map (fun i => f.redLane rop (64 * i + j)))

/-- The square of one VNRM2 element in W48: the element, or the W48 value of a pair (R78, R143), +0 where masked. A pair of opposite
infinities makes a NaN and raises INV (R77, R151). A pair whose sum W48 does not hold exactly is rounded to W48 before it is squared, and
no flag reports that rounding (DESIGN CHOICE, log entry 72). -/
def VFlight.sqLane (f : VFlight) (pair : Bool) (k : Nat) : Res :=
  if f.lm k then
    let a := v32 (f.a.getD k 0)
    let b := v32 (f.b.getD k 0)
    let v := if pair then FV.add a b else a
    let nanIn := a.isNan || (pair && b.isNan)
    let w := if pair then v48 (w48.encode v) else v
    w48.arith nanIn (FV.mul w w)
  else (0, Flg.none)

/-- The sum of the squares of row `i` by the row tree (R142, R143). -/
def VFlight.sqRow (f : VFlight) (pair : Bool) (i : Nat) : Res :=
  treeOf addW48Res 6 ((List.range 64).map (fun j => f.sqLane pair (64 * i + j)))

/-! ### VCVT (R147 to R150, R79 to R82) -/

/-- A conversion: format, exponent, and the bits of the descriptor (Table 5-7). -/
structure Cvt where
  fmt   : Nat
  e     : Int
  sat   : Bool
  ax    : Bool
  kpos  : Nat
  widen : Bool
  half  : Bool
  deriving DecidableEq, Repr

/-- The conversion that a descriptor and a format-table entry give (R147). -/
def cvtOf (d entry : Nat) (tbl : Bool) : Cvt :=
  { fmt := if tbl then bitsOf entry 3 0 else bitsOf d 23 20,
    e := if tbl then sgn8 (bitsOf entry 23 16) else sgn8 (bitsOf d 31 24),
    sat := bitOf d 19, ax := bitOf d 18, kpos := bitsOf d 17 15, widen := bitOf d 14, half := bitOf d 13 }

/-- One element in a non-MX format: the code, underflow and overflow (Table 3-5, R79, R82). "Beyond the largest finite value" is tested
on the rounded code: a value above the largest finite one that rounds back to it neither saturates nor counts as an overflow (DESIGN
CHOICE, log entry 72). -/
def narrowElem (fmt : Nat) (sat : Bool) (e : Int) (v : FV) : Nat × Bool × Bool :=
  let f := fmtOf fmt
  let lim := if sat then f.maxCode else if fmt = 3 then f.nanBits else f.infCode
  match v with
  | .nan => (f.nanBits, false, false)
  | .inf neg => (f.withSign neg lim, false, false)
  | .fin neg m x =>
    let c := (f.roundMag m (x + e) false).1
    (f.withSign neg (if f.maxCode < c then lim else c), decide (m ≠ 0 ∧ c = 0), decide (f.maxCode < c))

/-- The scale exponent X of an MX block (R80). -/
def blockExp (fmt : Nat) (e : Int) (vs : List FV) : Option Int :=
  let fl := vs.filterMap (fun v => if v.isZero then none else some (FV.floorLog2 v + e))
  match fl with
  | [] => none
  | a :: as => some (clampI (-127) 127 (as.foldl max a - emaxOf fmt))

/-- One element of an MX block under X: the code, underflow and overflow (R80, R82). -/
def mxElem (fmt : Nat) (e x : Int) (v : FV) : Nat × Bool × Bool :=
  match v with
  | .fin neg m q =>
    if fmt = 7 then
      let n : Nat := roundNat m (q + e + 6 - x)
      let lim := if neg then 128 else 127
      let c := min n lim
      ((if neg then (256 - c) % 256 else c), decide (m ≠ 0 ∧ c = 0), decide (lim < n))
    else
      let f := fmtOf fmt
      let c := (f.roundMag m (q + e - x) false).1
      (f.withSign neg (min c f.maxCode), decide (m ≠ 0 ∧ c = 0), decide (f.maxCode < c))
  | _ => (0, false, false)
where
  /-- m * 2^k rounded to the nearest integer, ties to even. -/
  roundNat (m : Nat) (k : Int) : Nat :=
    if 0 ≤ k then m * 2 ^ k.toNat
    else
      let d := 2 ^ (-k).toNat
      let n := m / d
      let r := m % d
      n + b2n (decide (d < 2 * r) || (decide (2 * r = d) && decide (n % 2 = 1)))

/-- An MX block: its scale code, element codes, underflows and overflows (Table 3-5, R80, R82). -/
def mxBlock (fmt : Nat) (e : Int) (vs : List FV) : Nat × List (Nat × Bool × Bool) :=
  if vs.any (fun v => !v.isFin) then (255, vs.map (fun _ => (0, false, false)))
  else
    match blockExp fmt e vs with
    | none => (127, vs.map (mxElem fmt e 0))
    | some x => ((x + 127).toNat, vs.map (mxElem fmt e x))

/-- A narrowed lane: scales of its blocks and its elements (R79, R80). -/
def narrowLane (c : Cvt) (vs : List FV) : List Nat × List (Nat × Bool × Bool) :=
  if isMx c.fmt then
    let b0 := mxBlock c.fmt c.e (vs.take 32)
    let b1 := mxBlock c.fmt c.e (vs.drop 32)
    if vs.length ≤ 32 then ([b0.1], b0.2) else ([b0.1, b1.1], b0.2 ++ b1.2)
  else ([], vs.map (narrowElem c.fmt c.sat c.e))

/-- Bits of an element in an image (Table 5-8): MXFP6 is packed at 6. -/
def imgBits (fmt : Nat) : Nat := if isFp6 fmt then 6 else elemBits ((wclass fmt).getD 0)

/-- Row form: elements of a lane in one chunk (Table 5-8). -/
def chunkElems (fmt : Nat) : Nat := match (wclass fmt).getD 0 with | 0 => 8 | 1 => 16 | _ => 32

/-- Bit position in the image of element k of lane i (row form) or of k-row k of column i (column form) (Table 5-8). -/
def imgPos (fmt : Nat) (ax : Bool) (i k : Nat) : Nat :=
  let w := imgBits fmt
  if ax then
    let kc := kcOf ((wclass fmt).getD 0)
    (if isFp6 fmt then 96 else 128) * 8 * (k / kc) + w * (kc * i + k % kc)
  else
    let n := chunkElems fmt
    let lb := n * w / 8
    8 * (16 * lb * (k / n) + lb * i) + w * (k % n)

/-- Byte of row 0 of `DS` that holds the scale of block `b` of lane i (row form) or of column i (column form) (Table 5-8). -/
def scalePos (fmt : Nat) (ax : Bool) (kpos i b : Nat) : Nat :=
  if ax then (if (wclass fmt).getD 0 = 2 then 64 * (kpos % 4) + i else 128 * (kpos % 2) + 8 * (i / 4) + i % 4)
  else 16 * i + 2 * kpos + b

/-- The number of lanes and of elements of a lane in a form. -/
def cvtLanes (ax : Bool) : Nat := if ax then 64 else 16
def cvtLen (ax : Bool) : Nat := if ax then 32 else 64

/-- The image as one little-endian number: codes at their bit positions (Table 5-8). -/
def imageNat (c : Cvt) (lanes : List (List Nat × List (Nat × Bool × Bool))) : Nat :=
  ((List.range (cvtLanes c.ax)).map (fun i =>
    let l := (lanes.getD i ([], [])).2
    ((List.range (cvtLen c.ax)).map (fun k => (l.getD k (0, false, false)).1 * 2 ^ imgPos c.fmt c.ax i k)).foldl (· + ·) 0)).foldl
    (· + ·) 0

/-- Bytes of an image (Table 5-8). -/
def imageLen (c : Cvt) : Nat := cvtLanes c.ax * cvtLen c.ax * imgBits c.fmt / 8

/-- Element k of lane i entering a narrowing conversion: +0 where masked; the second half of a column comes from `SB`, under the mask
bits that its passes read (R131, R148, R149). -/
def VFlight.cvtIn (f : VFlight) (ax : Bool) (i k : Nat) : FV :=
  if ax then
    let pos := 64 * (k % 16) + i
    if k < 16 then (if f.lm pos then v32 (f.a.getD pos 0) else .fin false 0 0)
    else if f.lm (1024 + pos) then v32 (f.b.getD pos 0) else .fin false 0 0
  else
    let pos := 64 * i + k
    if f.lm pos then v32 (f.a.getD pos 0) else .fin false 0 0

/-- The scale area of row 0 of `DS`: the byte written at `a`, none where it keeps its value (Table 5-8). -/
def scaleByte (c : Cvt) (lanes : List (List Nat × List (Nat × Bool × Bool))) (a : Nat) : Option Nat :=
  let sc := fun i b => ((lanes.getD i ([], [])).1.getD b 0)
  if c.ax then
    if (wclass c.fmt).getD 0 = 2 then (if a / 64 = c.kpos % 4 then some (sc (a % 64) 0) else none)
    else if a / 128 = c.kpos % 2 then (if a % 8 < 4 then some (sc (4 * (a % 128 / 8) + a % 8) 0) else some 0)
    else none
  else if a % 16 / 2 = c.kpos then some (sc (a / 16) (a % 2)) else none

/-- The lanes of a narrowing conversion. -/
def VFlight.narrowed (f : VFlight) (c : Cvt) : List (List Nat × List (Nat × Bool × Bool)) :=
  (List.range (cvtLanes c.ax)).map (fun i => narrowLane c ((List.range (cvtLen c.ax)).map (f.cvtIn c.ax i)))

/-- The words of an image with their positions in `DST`; the bytes beyond it keep their values (R148). -/
def imageEls (c : Cvt) (lanes : List (List Nat × List (Nat × Bool × Bool))) : List (Nat × Word) :=
  let n := imageNat c lanes
  (List.range (imageLen c / 4)).map (fun k => (k, BitVec.ofNat 32 (n / 2 ^ (32 * k))))

/-- The bytes of the scale area with their places in row 0 of `DS` (Table 5-8). -/
def scaleBytes (c : Cvt) (lanes : List (List Nat × List (Nat × Bool × Bool))) : List (Nat × Byte) :=
  (List.range 256).filterMap (fun a => (scaleByte c lanes a).map (fun v => (a, BitVec.ofNat 8 v)))

/-- The writes of a narrowing VCVT to an array format, on one tick: image, scales of an MX format, counts (R148, R149). Where `DS` names
the tile register of `DST` too, the scales stand over the image (DESIGN CHOICE, log entry 72). -/
def VFlight.narrow (f : VFlight) (c : Cvt) : List Wr :=
  let lanes := f.narrowed c
  let es := lanes.flatMap (·.2)
  [.els f.dst (imageEls c lanes)] ++ (if isMx c.fmt then [.bytes f.ds (scaleBytes c lanes)] else [])
    ++ [.counts f.src (es.filter (·.2.1)).length (es.filter (·.2.2)).length]

/-- `w` bits from bit position `p` of a tile register. -/
def Tile.bitsAt (t : Tile) (p w : Nat) : Nat := leNat (t.bytes (p / 8) 3) / 2 ^ (p % 8) % 2 ^ w

/-- One FP32 value of a widening VCVT, from `SA` and row 0 of `DS` as read on the issue tick (R81, R148). -/
def VFlight.widenVal (f : VFlight) (c : Cvt) (k : Nat) : Word :=
  if c.fmt = 0 then to32 (FV.scale (-c.e) (v32 (f.a.getD k 0)))
  else
    let lane := if c.ax then k % 64 else k / 64
    let kk := if c.ax then 16 * b2n c.half + k / 64 else k % 64
    let v := elemVal c.fmt (Tile.bitsAt f.a (imgPos c.fmt c.ax lane kk) (imgBits c.fmt))
    if isMx c.fmt then
      let sc := (Tile.byte f.b (scalePos c.fmt c.ax c.kpos lane (kk / 32))).toNat
      if sc = 255 then BitVec.ofNat 32 nan32 else to32 (FV.scale (scaleExp sc - c.e) v)
    else to32 (FV.scale (-c.e) v)

/-- The element that a narrowing VCVT with FMT 0x0 makes: v * 2^E, +0 where masked (R148). -/
def VFlight.scaled (f : VFlight) (c : Cvt) (k : Nat) : Word := if f.lm k then to32 (FV.scale c.e (v32 (f.a.getD k 0))) else 0

/-- The unmasked finite elements that come out as `g` says. -/
def VFlight.scaledCount (f : VFlight) (c : Cvt) (g : FV → FV → Bool) : Nat :=
  ((List.range 1024).filter (fun k =>
    f.lm k && (v32 (f.a.getD k 0)).isFin && g (v32 (f.a.getD k 0)) (v32 (f.scaled c k)))).length

/-- The writes of a narrowing VCVT with FMT 0x0: an FP32 tile, and the counts it reports (R82, R148). -/
def VFlight.scaleTile (f : VFlight) (c : Cvt) : List Wr :=
  [.els f.dst ((List.range 1024).map (fun k => (k, f.scaled c k))),
   .counts f.src (f.scaledCount c (fun v w => !v.isZero && w.isZero)) (f.scaledCount c (fun _ w => !w.isFin))]

/-- Occupancy of a VCVT (Table 5-1, R148). -/
def cvtOcc (c : Cvt) : Nat := if !c.widen && c.ax && decide (c.fmt ≠ 0) then 8 else 4

/-! ### Flights: the passes read, the results land (R131, R132, R134, Table 5-1) -/

/-- The conversion of a VCVT in flight. -/
def VFlight.cvt (f : VFlight) : Cvt := cvtOf f.scal f.fmte f.tbl

/-- A narrowing VCVT in column form (Table 5-1). -/
def VFlight.column (f : VFlight) : Bool := decide (f.kind = .narrow) && f.cvt.ax

/-- The lanes of quad `r` of a source under a stride mode (R136). -/
def Station.quad (x : Station) (n mode r : Nat) : List Word := (List.range 256).map (fun q => (x.tile n).el (strideAt mode (256 * r + q)))

/-- The mask bits of quad `r`. -/
def Station.quadMask (x : Station) (n r : Nat) : List Bool := (List.range 256).map (fun q => x.mask n (256 * r + q))

/-- What a V op in flight reads on tick `u` (R131, Table 5-1): pass u - t reads its quad of the sources and of the mask register; a
widening VCVT reads `SA` and row 0 of `DS` on t; a narrowing one in column form reads `SB` in four more passes. -/
def VFlight.capture (f : VFlight) (x : Station) (u : Nat) : VFlight :=
  let r := u - f.t
  if 8 ≤ r then f
  else if 4 ≤ r then
    (if f.column then { f with b := f.b ++ x.quad f.sb 0 (r - 4), m := f.m ++ x.quadMask f.msk (r - 4) } else f)
  else if f.kind = .widen then
    { f with a := if r = 0 then x.tile f.sa else f.a, b := if r = 0 then (x.tile f.ds).take 64 else f.b, m := f.m ++ x.quadMask f.msk r }
  else
    { f with a := f.a ++ x.quad f.sa f.sta r, b := if f.column then f.b else f.b ++ x.quad f.sb f.stb r,
             c := f.c ++ x.quad f.sc 0 r, m := f.m ++ x.quadMask f.msk r }

/-- The result of an element-wise op in lane `k` (Table 5-5). -/
def VFlight.elem (f : VFlight) (k : Nat) : Res :=
  match f.kind with
  | .add sub => addRes sub (f.la k) (f.lb k)
  | .mul => mul32 (f.la k) (f.lb k)
  | .fma neg => fmaRes neg (f.la k) (f.lb k) (f.lc k)
  | .max mn => (maxBits mn (f.la k) (f.lb k), Flg.none)
  | .exp b2 => expRes b2 (f.la k)
  | .rsq rcp => rsqRes rcp (f.la k)
  | .sel => (if f.lm k then f.la k else f.lb k, Flg.none)
  | .widen => ((f.widenVal f.cvt k).toNat, Flg.none)
  | _ => (0, Flg.none)

/-- An op writes lane `k`: VSEL writes every lane, the others those that are not masked (R137, R140). -/
def VFlight.writesLane (f : VFlight) (k : Nat) : Bool := decide (f.kind = .sel) || f.lm k

/-- The writes of quad `r` of an element-wise op: elements of the lanes that are not masked, and their flags (R137, R151). -/
def VFlight.quadWrites (f : VFlight) (r : Nat) : List Wr :=
  let ks := ((List.range 256).map (256 * r + ·)).filter f.writesLane
  [.els f.dst (ks.map (fun k => (k, BitVec.ofNat 32 (f.elem k).1))), .flags f.src.strm (orFlags (ks.map f.elem)).code]

/-- The writes of quad `r` of a VCMP: a masked lane writes 0 (Table 5-4). -/
def VFlight.cmpWrites (f : VFlight) (pred r : Nat) : List Wr :=
  [.mask f.dst ((List.range 256).map (fun q => (256 * r + q, f.lm (256 * r + q) && predOf pred (f.la (256 * r + q)) (f.lb (256 * r + q)))))]

/-- The writes of quad `r` of a VRED.ROW: column 0 of its four rows (R141). -/
def VFlight.redRowWrites (f : VFlight) (rop r : Nat) : List Wr :=
  let rs := (List.range 4).map (fun i => f.redRow rop (4 * r + i))
  [.els f.dst ((List.range 4).map (fun i => (64 * (4 * r + i), BitVec.ofNat 32 (rs.getD i (0, Flg.none)).1))), .flags f.src.strm (orFlags rs).code]

/-- The writes of a VRED.COL: row 0 (R141). -/
def VFlight.redColWrites (f : VFlight) (rop : Nat) : List Wr :=
  let rs := (List.range 64).map (f.redCol rop)
  [.els f.dst (rowEls 0 (rs.map (fun r => BitVec.ofNat 32 r.1))), .flags f.src.strm (orFlags rs).code]

/-- The writes of a VNRM2 (R143). -/
def VFlight.nrm2Writes (f : VFlight) (pair clr : Bool) : List Wr :=
  let rs := (List.range 16).map (f.sqRow pair)
  [.naccAdd f.src.strm clr (rs.map (·.1)), .flags f.src.strm (orFlags rs).code]

/-- The positions whose mask bit is 1, ascending. -/
def VFlight.selected (f : VFlight) : List Nat := (List.range 1024).filter f.lm

/-- The start position in the scalar register of a VCMPR or VEXPD (R144, R145). -/
def VFlight.pos (f : VFlight) : Nat := f.scal % 2048

/-- VCMPR packs the selected elements from the position on (R144). -/
def VFlight.compressed (f : VFlight) : List (Nat × Word) :=
  ((List.range 1024).zip f.selected).filterMap (fun q => if f.pos + q.1 < 1024 then some (f.pos + q.1, f.a.getD q.2 0) else none)

/-- VEXPD scatters elements from the position on to the selected positions, +0 beyond the tile (R145). -/
def VFlight.expanded (f : VFlight) : List (Nat × Word) :=
  ((List.range 1024).zip f.selected).map (fun q => (q.2, if f.pos + q.1 < 1024 then f.a.getD (f.pos + q.1) 0 else 0))

/-- The writes of a VCMPR or VEXPD, on one tick: elements, the position register, CPX (R144 to R146). -/
def VFlight.packWrites (f : VFlight) (els : List (Nat × Word)) : List Wr :=
  let n := f.selected.length
  [.els f.dst els, .sreg f.src.strm f.so (BitVec.ofNat 32 (min (f.pos + n) 1024)),
   .flags f.src.strm (Flg.code { Flg.none with cpx := decide (0 < n ∧ 1024 < f.pos + n) })]

/-- Ticks from the issue of an op to its write, or to the write of its first quad (Table 5-1). -/
def VFlight.writeAt (f : VFlight) : Nat :=
  match f.kind with
  | .cmp _ => if f.p1 then 3 else 2
  | .exp _ | .rsq _ => if f.p1 then 8 else 6
  | .redRow _ => if f.p1 then 8 else 7
  | .redCol _ => if f.p1 then 10 else 9
  | .nrm2 _ _ => if f.p1 then 16 else 14
  | .compress | .expand => if f.p1 then 14 else 12
  | .narrow => if f.cvt.ax then (if f.p1 then 16 else 14) else if f.p1 then 12 else 10
  | .scale => if f.p1 then 12 else 10
  | .widen => if f.p1 then 6 else 5
  | _ => if f.p1 then 4 else 3

/-- The writes of an op on the write tick of quad `r`, or on its one write tick (Table 5-1). -/
def VFlight.parts (f : VFlight) (r : Nat) : List Wr :=
  match f.kind with
  | .cmp pred => f.cmpWrites pred r
  | .redRow rop => f.redRowWrites rop r
  | .redCol rop => f.redColWrites rop
  | .nrm2 pair clr => f.nrm2Writes pair clr
  | .compress => f.packWrites f.compressed
  | .expand => f.packWrites f.expanded
  | .narrow => f.narrow f.cvt
  | .scale => f.scaleTile f.cvt
  | _ => f.quadWrites r

/-- Whether an op writes quad by quad on four ticks, not on one (Table 5-1). -/
def VFlight.byQuad (f : VFlight) : Bool :=
  match f.kind with
  | .redCol _ | .nrm2 _ _ | .compress | .expand | .narrow | .scale => false
  | _ => true

/-- What a V op writes at the end of tick `u` (R132, Table 5-1). -/
def VFlight.writes (f : VFlight) (u : Nat) : List Late :=
  let g := u - f.t
  if f.writeAt ≤ g ∧ g ≤ f.writeAt + (if f.byQuad then 3 else 0) then (f.parts (g - f.writeAt)).map (fun w => ⟨u, .v, w⟩) else []

/-- The op has written its last result by the end of tick `u`. -/
def VFlight.done (f : VFlight) (u : Nat) : Bool := decide (f.t + f.writeAt + (if f.byQuad then 3 else 0) ≤ u)

/-! ### Issue (R131, R135, R147, R150) -/

/-- The flight of a V op of kind `k` that issues now; `so` is the scalar register read on the issue tick. -/
def State.vFlight (s : State) (i : Issue) (t : Nat) (k : VKind) (dst ds sa sb sc sta stb msk so : Nat) (tbl : Bool) : VFlight :=
  { t := t, kind := k, dst := dst, ds := ds, sa := sa, sb := sb, sc := sc, sta := sta, stb := stb, msk := msk, so := so, tbl := tbl,
    scal := s.sreg i.stn i.strm so, fmte := s.fmtEntry i.stn (s.stream i.stn i.strm).ltag.toNat, p1 := s.profile1 (dieOf i.stn),
    src := s.lensSrc i.stn i.strm, a := [], b := [], c := [], m := [] }

/-- A V op that finds the engine occupied is suppressed with SLOT_CONFLICT, cause 0x3; else it occupies the engine for `occ` ticks and
is in flight (R131, Table 5-1). -/
def State.vIssue (s : State) (stn occ : Nat) (p : OpPlace) (f : VFlight) : State :=
  if p.tick < (s.station stn).vBusy then s.seqFault stn 4 3 1 p
  else s.modStation stn (fun x => { x with vBusy := p.tick + occ, vq := x.vq ++ [f] })

/-- Ticks for which an op of a kind occupies the engine (Table 5-1). -/
def VKind.occ : VKind → Nat
  | .compress | .expand => 8
  | _ => 4

/-- The effect of a V op in standard form (R187). -/
def vEff (i : Issue) (o : VOp) (k : VKind) (p : OpPlace) (s : State) : State :=
  s.vIssue i.stn k.occ p (s.vFlight i p.tick k (match k with | .cmp _ => o.dst.toNat % 4 | _ => o.dst.toNat) 0 o.sa.toNat o.sb.toNat (o.x.toNat % 32)
    o.sta.toNat o.stb.toNat o.msk.toNat (o.x.toNat % 16) false)

/-- VADD. -/
def execVadd (i : Issue) (o : VOp) (s : State) : Host.Outcome State Fault Refusal := .next (s.issue i .v (vEff i o (.add (bitOf o.x.toNat 0))))

/-- VMUL. -/
def execVmul (i : Issue) (o : VOp) (s : State) : Host.Outcome State Fault Refusal := .next (s.issue i .v (vEff i o .mul))

/-- VFMA: the third source is read at full stride (Table 5-3). -/
def execVfma (i : Issue) (o : VOp) (s : State) : Host.Outcome State Fault Refusal := .next (s.issue i .v (vEff i o (.fma (bitOf o.x.toNat 5))))

/-- VMAX. -/
def execVmax (i : Issue) (o : VOp) (s : State) : Host.Outcome State Fault Refusal := .next (s.issue i .v (vEff i o (.max (bitOf o.x.toNat 0))))

/-- VEXP. -/
def execVexp (i : Issue) (o : VOp) (s : State) : Host.Outcome State Fault Refusal := .next (s.issue i .v (vEff i o (.exp (bitOf o.x.toNat 0))))

/-- VRSQ. -/
def execVrsq (i : Issue) (o : VOp) (s : State) : Host.Outcome State Fault Refusal := .next (s.issue i .v (vEff i o (.rsq (bitOf o.x.toNat 0))))

/-- VCMP: writes a mask register only (R140). -/
def execVcmp (i : Issue) (o : VOp) (s : State) : Host.Outcome State Fault Refusal := .next (s.issue i .v (vEff i o (.cmp (o.x.toNat % 8))))

/-- VSEL: the mask selects, and every lane is written (R140). -/
def execVsel (i : Issue) (o : VOp) (s : State) : Host.Outcome State Fault Refusal := .next (s.issue i .v (vEff i o .sel))

/-- VCMPR. -/
def execVcmpr (i : Issue) (o : VOp) (s : State) : Host.Outcome State Fault Refusal := .next (s.issue i .v (vEff i o .compress))

/-- VEXPD. -/
def execVexpd (i : Issue) (o : VOp) (s : State) : Host.Outcome State Fault Refusal := .next (s.issue i .v (vEff i o .expand))

/-- VRED.ROW: column 0 of every row of `DST` (R141). -/
def execVredRow (i : Issue) (o : VOp) (s : State) : Host.Outcome State Fault Refusal := .next (s.issue i .v (vEff i o (.redRow (o.x.toNat % 4))))

/-- VRED.COL: row 0 of `DST` (R141). -/
def execVredCol (i : Issue) (o : VOp) (s : State) : Host.Outcome State Fault Refusal := .next (s.issue i .v (vEff i o (.redCol (o.x.toNat % 4))))

/-- VNRM2. -/
def execVnrm2 (i : Issue) (o : VOp) (s : State) : Host.Outcome State Fault Refusal :=
  .next (s.issue i .v (vEff i o (.nrm2 (bitOf o.x.toNat 0) (bitOf o.x.toNat 1))))

/-- The kind of a VCVT in flight (R148). -/
def Cvt.kind (c : Cvt) : VKind := if c.widen then .widen else if c.fmt = 0 then .scale else .narrow

/-- FORMAT_CLASS of a VCVT: a descriptor with a bit set that must be 0, or a format code above 0xA, is captured in VEC_FAULT and stops the
station (R150, Table 5-10). -/
def State.cvtFault (s : State) (i : Issue) (o : VcvtOp) (d : Nat) (p : OpPlace) : State :=
  ((s.capture .vecFault i.stn (3 * 2 ^ 24 + i.strm.code * 2 ^ 22 + b2n o.tbl * 2 ^ 21 + bitsOf d 23 20 * 2 ^ 17
    + b2n (decide (d % 2 ^ 13 ≠ 0)) * 2 ^ 16 + p.tick % 2 ^ 16)).traceFault i.stn p).stationFault i.stn 3

def vcvtEff (i : Issue) (o : VcvtOp) (p : OpPlace) (s : State) : State :=
  let d := s.sreg i.stn i.strm o.cd.toNat
  let c := cvtOf d (s.fmtEntry i.stn (s.stream i.stn i.strm).ltag.toNat) o.tbl
  if p.tick < (s.station i.stn).vBusy then s.seqFault i.stn 4 3 1 p
  else if d % 2 ^ 13 ≠ 0 ∨ (o.tbl = false ∧ 10 < bitsOf d 23 20) then s.cvtFault i o d p
  else s.vIssue i.stn (cvtOcc c) p (s.vFlight i p.tick c.kind o.dst.toNat o.ds.toNat o.sa.toNat o.sb.toNat 0 0 0 o.msk.toNat o.cd.toNat o.tbl)

/-- VCVT. -/
def execVcvt (i : Issue) (o : VcvtOp) (s : State) : Host.Outcome State Fault Refusal := .next (s.issue i .v (vcvtEff i o))

end Sys2Proof.Machine
end

