-- ==== Sys2Proof/Machine/Pipe.lean ====
section
/-! DEFINITION. The end of a schedule tick in a station's pipelines: what the ops in flight read, what lands (R46, R52, R60, R127, R132,
R134, R192, R198, R252, R254). -/

namespace Sys2Proof.Machine

/-- The ops in flight read what their pass of tick `u` reads: the state as it stood at the end of the tick before (R127, R252). -/
def Station.reads (x : Station) (u : Nat) : Station :=
  { x with
    vq := x.vq.map (fun f => f.capture x u), dq := x.dq.map (fun f => f.capture x u),
    late := x.late ++ x.mq.flatMap (fun f => f.reads x u), mq := x.mq.filter (fun f => !f.done u) }

/-- The writes that land at the end of tick `u`. Two V ops whose writes reach one row on it, which R127 leaves unordered, stand in the order in
which they issued (DESIGN CHOICE, log entry 2). -/
def Station.dueWrites (x : Station) (u : Nat) : List Late :=
  x.late.filter (fun w => decide (w.due ≤ u)) ++ x.vq.flatMap (fun f => f.writes u) ++ x.dq.flatMap (fun f => f.writes u)

/-- The writes and ops that are still in flight after tick `u`. -/
def Station.flying (x : Station) (u : Nat) : Station :=
  { x with
    late := x.late.filter (fun w => !decide (w.due ≤ u)), vq := x.vq.filter (fun f => !f.done u), dq := x.dq.filter (fun f => !f.done u) }

/-- An XPUT whose source bytes are read by the end of tick `u`: from the tick after its issue on, after the writes of the tick (R198,
R252, log entry 2). -/
def XEntry.readSource (e : XEntry) (x : Station) (u : Nat) : XEntry :=
  if e.kind = .put ∧ e.data = none ∧ e.place.tick + 1 ≤ u then { e with data := some (x.rdStore e.la (64 * e.len)) } else e

/-- A tick of a station's clock brings its X ops nearer to their requests (R202). -/
def Station.xNearer (x : Station) : Station := { x with xq := x.xq.map (fun e => { e with wait := e.wait - 1 }) }

/-- The end of schedule tick `u` in the pipelines of a station. -/
def State.pipeTick (s : State) (stn u : Nat) : State :=
  let x := (s.station stn).reads u
  (((s.setStation stn (x.flying u)).landAll stn (x.dueWrites u)).postOld stn).modStation stn (fun y =>
    { y with xq := y.xq.map (fun e => e.readSource y u) })

/-- A station as its landing ports see it: after the writes of the tick under way (R252, R254). -/
def State.portView (s : State) (stn : Nat) : Station :=
  match s.openTick stn with
  | some u => (s.pipeTick stn u).station stn
  | none => s.station stn

/-- Nothing is in flight in a station. -/
def Station.still (x : Station) : Bool := x.late.isEmpty && x.vq.isEmpty && x.dq.isEmpty && x.mq.isEmpty && x.lensOld.isEmpty

/-- The ops that a stopped station has issued complete before it is loaded again; the longest, an MLD of 256 chunks, has written its
last by 260 ticks (R56, R228, log entry 2). -/
def State.pipeOut (s : State) (stn : Nat) : State :=
  if (s.station stn).still then s
  else (List.range 260).foldl (fun t k => t.pipeTick stn (s.tick0 stn + k)) s

end Sys2Proof.Machine
end

