-- ==== Sys2Proof/Machine/RingOps.lean ====
section
/-! DEFINITION. The station ring: words, positions, feed queues and their requests (04_station_ring.md). -/

namespace Sys2Proof.Machine

/-! ### Ring words (R98, R101) -/

/-- 1 where the number of ones in the low `w` bits of `n` is odd. -/
def oddOnes (w n : Nat) : Nat := ((List.range w).filter (fun i => n.testBit i)).length % 2

/-- Parity bit p over DATA bits [128p+127:128p] and SCALE byte p; bit 7 also covers TAG, VALID, CLASS and POISON (R101). -/
def parityBit (w : RingWord) (p : Nat) : Nat :=
  (oddOnes 128 (w.data.toNat / 2 ^ (128 * p)) + oddOnes 8 (w.scale.toNat / 2 ^ (8 * p))
    + (if p = 7 then oddOnes 16 w.tag.toNat + b2n w.valid + oddOnes 2 w.cls.toNat + b2n w.poison else 0)) % 2

def parityOf (w : RingWord) : BitVec 8 := BitVec.ofNat 8 (packBits 1 ((List.range 8).map (parityBit w)))

/-- A word with its parity computed again (R101). -/
def RingWord.fix (w : RingWord) : RingWord := { w with parity := parityOf w }

/-- An empty slot passes every parity check (R101). -/
def RingWord.ok (w : RingWord) : Bool := !w.valid || decide (w.parity = parityOf w)

/-- The word with POISON set (R125). -/
def RingWord.poisoned (w : RingWord) : RingWord := RingWord.fix { w with poison := true }

/-- The poisoned word of a crossing: VALID and POISON 1, every other field 0 (R236). -/
def RingWord.lost : RingWord := RingWord.fix { RingWord.empty with valid := true, poison := true }

/-- A new word with its fields (R98). -/
def RingWord.mk' (data scale tag cls : Nat) : RingWord :=
  RingWord.fix ⟨BitVec.ofNat 1024 data, BitVec.ofNat 64 scale, BitVec.ofNat 16 tag, 0, true, BitVec.ofNat 2 cls, false⟩

/-! ### Positions (R102) -/

/-- Index of position `pos` of package-wide segment `seg`. -/
def posKey (seg pos : Nat) : Nat := 33 * seg + pos

def State.slotAt (s : State) (k : Nat) : RingWord := Tbl.get (fun _ => RingWord.empty) s.ring k

def State.setSlot (s : State) (k : Nat) (w : RingWord) : State := { s with ring := Tbl.put (fun _ => RingWord.empty) s.ring k w }

/-- Index of the position of a station. -/
def State.stnKey (s : State) (stn : Nat) : Nat := posKey (segOf stn) (s.posOf stn)

/-- Words on their way through a seam, the oldest first: 4 ticks of the receiving region (R117). Key 2d: half 0 to half 1 of die d;
2d + 1: back. -/
def State.seamQ (s : State) (k : Nat) : List RingWord := Tbl.get (fun _ => List.replicate 4 RingWord.empty) s.seam k

def State.setSeamQ (s : State) (k : Nat) (q : List RingWord) : State :=
  { s with seam := Tbl.put (fun _ => List.replicate 4 RingWord.empty) s.seam k q }

/-- Words on their way over the bridge arriving at die `d`, the oldest first: 12 ticks (R120). -/
def State.bridgeQ (s : State) (d : Nat) : List RingWord := Tbl.get (fun _ => List.replicate 12 RingWord.empty) s.bridge d

def State.setBridgeQ (s : State) (d : Nat) (q : List RingWord) : State :=
  { s with bridge := Tbl.put (fun _ => List.replicate 12 RingWord.empty) s.bridge d q }

/-- A valid word that a crossing has delivered: the next tick of region `r` brings it to the half's first position. -/
def State.arriving (s : State) (r : Nat) : List RingWord := Tbl.get (fun _ => []) s.ringIn r

def State.setArriving (s : State) (r : Nat) (w : List RingWord) : State := { s with ringIn := Tbl.put (fun _ => []) s.ringIn r w }

/-! ### Station faults on the ring (R114, R125) -/

/-- A ring error at a station: RING_ERR and a stop of the station (Table 4-8, R108). -/
def State.stnRingError (s : State) (stn kind : Nat) (p : OpPlace) : State :=
  ((s.ringError (dieOf stn) kind (segOf stn) (s.posOf stn)).traceFault stn p).stationFault stn 15

/-- A die fault of the ring: SEAM_DOWN or a ring error of a crossing (R119, R229). -/
def State.ringDieFault (s : State) (d kind code seg pos : Nat) : State := (s.ringError d kind seg pos).sendFault d code true 0

/-! ### Feed queues (R105 to R108, R274) -/

def State.feed (s : State) (seg q : Nat) : FeedQ := Tbl.get (fun _ => FeedQ.empty) s.feeds (4 * seg + q)

def State.setFeed (s : State) (seg q : Nat) (x : FeedQ) : State :=
  { s with feeds := Tbl.put (fun _ => FeedQ.empty) s.feeds (4 * seg + q) x }

/-- Words a descriptor produces (R272). -/
def Desc.total (d : Desc) : Nat := (d.nk + 1) * (d.ncb + 1)

/-- The queue's descriptors still hold unfetched words (R108). -/
def FeedQ.unfetched (q : FeedQ) : Bool := q.descs.any (fun d => !d.isRead || decide (d.fetched < d.total))

/-- Entries of the descriptor queue: descriptors with words still to fetch (R274, log entry 14). -/
def FeedQ.depth (q : FeedQ) : Nat := (q.descs.filter (fun d => !d.isRead || decide (d.fetched < d.total))).length

/-- SEG_FEED_CTRL.LOW of a segment as its stations see it (R108, R215). -/
def State.lowMark (s : State) (seg : Nat) : Nat :=
  bitsOf (s.regFor .segFeedCtrl (Reg.at .segFeedCtrl seg) (seg / 8) (32 * seg)) 9 0

/-- Release the request of a queue that is back at LOW or holds no unfetched words (R108). -/
def State.feedRelease (s : State) (seg q : Nat) : State :=
  let f := s.feed seg q
  if s.lowMark seg ≤ f.words.length ∨ f.unfetched = false then s.shutRel (seg / 8) 2 (4 * seg + q) else s

/-- Every queue of a die that holds a request releases it where its condition has passed (R108). -/
def State.feedReleases (s : State) (d : Nat) : State :=
  ((s.die d).reqs.filter (fun q => q.bit = 2)).foldl (fun t q => t.feedRelease (q.src / 4) (q.src % 4)) s

/-- A word has been removed from a queue: the head descriptor counts it, and a queue below LOW with unfetched words
requests a shutter (R108). -/
def State.feedTaken (s : State) (seg q : Nat) : State :=
  let f := s.feed seg q
  let ds := match f.descs with
    | d :: rest => if d.used + 1 < d.total then { d with used := d.used + 1 } :: rest else rest
    | [] => []
  let g : FeedQ := { f with words := f.words.drop 1, descs := ds }
  let s1 := s.setFeed seg q g
  if decide (g.words.length < s1.lowMark seg) && g.unfetched then s1.shutReq (seg / 8) 2 (4 * seg + q) else s1

/-- Feed-bus lanes used on this tick by a segment's injections and pulls (R107). -/
def State.lanesUsed (s : State) (seg : Nat) : Nat := Tbl.get (fun _ => 0) s.injected seg

def State.useLane (s : State) (seg : Nat) : State := { s with injected := Tbl.put (fun _ => 0) s.injected seg (s.lanesUsed seg + 1) }

/-! ### The ring side of a GINJ (R110, R114) -/

/-- The word of a GINJ enters the slot and the latch it names (R110, R116). -/
def State.inject (s : State) (stn : Nat) (o : GinjOp) (w : RingWord) : State :=
  let s1 := if o.loc then s else s.setSlot (s.stnKey stn) w
  let s2 := if o.tap || o.loc then (s1.modStation stn (fun x => x.setTap (b2n o.latch) w)).addPair .ringTapCount stn 1 else s1
  s2.addPair .ringInjCount stn 1

/-- A GINJ on its ring-side tick, checked in the order of Table 4-8. -/
def State.ringSide (s : State) (stn : Nat) (g : GPend) : State :=
  let seg := segOf stn
  let q := g.op.src.toNat % 4
  if !g.op.loc && (s.slotAt (s.stnKey stn)).valid then s.seqFault stn 4 4 2 g.place
  else
    match g.word with
    | some w => s.inject stn g.op w
    | none =>
      if 12 ≤ s.lanesUsed seg then s.seqFault stn 4 6 2 g.place
      else
        match (s.feed seg q).words with
        | [] => s.stnRingError stn 6 g.place
        | w :: _ => ((s.useLane seg).inject stn g.op w).feedTaken seg q

end Sys2Proof.Machine
end

