-- ==== Sys2Proof/Machine/Ring.lean ====
section
/-! DEFINITION. G-slot ops and the events of the ring, its feed points, seams and bridges (04_station_ring.md, R236, R272 to R274). -/

namespace Sys2Proof.Machine

/-! ### GINJ (R110, R113 to R115) -/

/-- The ring word of the store image at the addresses of a GINJ with SK 0 (R110). All 8 scale bytes come from the address in SSC, bytes
4 to 7 too, which R100 calls 0 for the words of an 8-bit class (DESIGN CHOICE, log entry 72). -/
def Station.storeWord (x : Station) (fmt addr saddr tag : Nat) : RingWord :=
  let data := if isFp6 fmt then leNat (unpack6 (x.rdStore (addr / 32 * 32) 96) 128) else leNat (x.rdStore (addr / 128 * 128) 128)
  RingWord.mk' data (if isMx fmt then leNat (x.rdStore (saddr / 8 * 8) 8) else 0) (tag % 2 ^ 16) ((wclass fmt).getD 0)

/-- The INC updates of a GINJ with SK 0, on the values read at issue (R113); where SRC, SSC and TR name one register, the last of them
stands (DESIGN CHOICE, log entry 16). -/
def State.ginjInc (s : State) (i : Issue) (o : GinjOp) (t : Nat) : State :=
  let inc := fun (u : State) (n : BitVec 4) (k : Nat) => u.later i.stn t .gInc (.sreg i.strm n.toNat (s.incVal i.stn i.strm n.toNat k))
  if o.inc then inc (inc (inc s o.src (if isFp6 o.fmt.toNat then 96 else 128)) o.ssc 8) o.tr 1 else s

/-- A GINJ waits for its ring-side tick (R115). -/
def State.ginjWait (s : State) (i : Issue) (o : GinjOp) (p : OpPlace) (due : Nat) (w : Option RingWord) : State :=
  s.modStation i.stn (fun x => { x with ginj := x.ginj ++ [⟨due, o, w, p⟩] })

def ginjEff (i : Issue) (o : GinjOp) (p : OpPlace) (s : State) : State :=
  let fmt := o.fmt.toNat
  if 1 < o.sk.toNat ∨ (o.sk = 0 ∧ wclass fmt = none) then s.seqFault i.stn 3 11 2 p
  else if o.sk = 0 then
    let r := fun (n : BitVec 4) => s.sreg i.stn i.strm n.toNat
    (s.ginjWait i o p (p.tick + (if s.profile1 (dieOf i.stn) then 3 else 2))
      (some ((s.station i.stn).storeWord fmt (r o.src) (r o.ssc) (r o.tr)))).ginjInc i o p.tick
  else s.ginjWait i o p (p.tick + 2) none

/-- GINJ: the word is read at issue (SK 0) and placed on the op's ring-side tick, at that tick's end (R115, TICK). -/
def execGinj (i : Issue) (o : GinjOp) (s : State) : Host.Outcome State Fault Refusal := .next (s.issue i .g (ginjEff i o))

/-! ### Feed descriptors (R272 to R274) -/

/-- The fields of a descriptor's 32 bytes (Table 9-12). -/
def Desc.parse (d : Desc) (bs : List Byte) : Desc :=
  let n := leNat bs
  let f := fun (lo len : Nat) => n / 2 ^ (8 * lo) % 2 ^ (8 * len)
  { d with isRead := true, origin := f 0 4, k0 := f 4 2, j0 := f 6 2, nk := f 8 2, ncb := f 10 2, cstep := f 12 2, tag0 := f 14 2,
           col := bitOf (f 16 1) 0, inj := bitOf (f 16 1) 1, tagInc := bitOf (f 16 1) 2, twin := bitOf (f 16 1) 3,
           period := f 17 1, start := f 20 4, fetched := 0, used := 0 }

/-- A reserved byte or bit of a descriptor is non-zero (R273). -/
def descReserved (bs : List Byte) : Bool :=
  let n := leNat bs
  decide (bitsOf n 31 29 ≠ 0) || decide (bitsOf n 135 132 ≠ 0) || decide (bitsOf n 159 144 ≠ 0) || decide (n / 2 ^ 192 ≠ 0)

/-- Why Prism refuses a descriptor (R273): true where it does. -/
def State.descRefused (s : State) (seg : Nat) (d : Desc) (bs : List Byte) : Bool :=
  descReserved bs ||
  match (s.rgns seg).find? (fun g => g.base = d.origin) with
  | none => true
  | some g =>
    let kc := kcOf ((wclass g.fmt).getD 0)
    let rows := 64 * g.nbr
    let cols := 64 * g.nbc
    let kEnd := d.k0 + kc * (d.nk + 1)
    let jEnd := d.j0 + 64 * d.cstep * d.ncb + 64
    decide ((if d.col then cols else rows) < kEnd) || decide ((if d.col then rows else cols) < jEnd)
      || decide (d.k0 % 32 ≠ 0) || decide (d.j0 % 64 ≠ 0) || decide (d.cstep = 0)
      || (isMx g.fmt && decide (g.saxis ≠ d.col)) || (d.twin && !g.twin) || (!d.inj && !s.present seg)

/-- Replace the first descriptor of a queue that passes a test, or take it out. -/
def fixFirst (test : Desc → Bool) (f : Desc → Option Desc) : List Desc → List Desc
  | [] => []
  | d :: ds => if test d then (match f d with | some e => e :: ds | none => ds) else d :: fixFirst test f ds

/-- A queue whose first descriptor that passes a test is replaced or taken out; a request that it holds no longer needs is released
(R108). -/
def State.fixDesc (s : State) (seg q : Nat) (test : Desc → Bool) (f : Desc → Option Desc) : State :=
  let x := s.feed seg q
  (s.setFeed seg q { x with descs := fixFirst test f x.descs }).feedRelease seg q

/-- The posting station captures a failed post and stops on its arrival (R203, R273). -/
def State.postFails (s : State) (seg : Nat) (q : Nat) (d : Desc) (code : Nat) : State :=
  let tag := q + 4 * b2n (decide (segOf d.stn ≠ seg))
  ((s.captureLx d.stn code d.place.strm tag (s.tick0 d.stn)).stopStation d.stn .stopped).sendFault (dieOf d.stn) code false d.stn

/-- FEED_DESCRIPTOR_READ (R274): Prism reads the first unread descriptor of a queue through the landing port of the posting
station, and accepts or refuses it (R273). -/
def State.descRead (s : State) (seg q : Nat) (e : Ecc) : State :=
  match (s.feed seg q).descs.find? (fun d => !d.isRead) with
  | none => s
  | some d =>
    let bs := (s.portView d.stn).rdStore d.la 32
    let gone := s.fixDesc seg q (fun x => !x.isRead) (fun _ => none)
    match e with
    | .bad mem addr => (gone.captureMem d.stn mem.toNat addr.toNat true).postFails seg q d 13
    | _ =>
      let d1 := d.parse bs
      let s1 := if s.descRefused seg d1 bs then gone.postFails seg q d 11 else s.fixDesc seg q (fun x => !x.isRead) (fun _ => some d1)
      if e = .corrected then s1.memCorrected d.stn else s1

def execFeedDescriptorRead (seg : Seg) (q : Fin 4) (ecc : Ecc) (s : State) : Host.Outcome State Fault Refusal :=
  .next (s.descRead seg q ecc)

/-- The region that a descriptor reads: its own or, with `TWIN`, the twin (R271). -/
def Desc.source (d : Desc) (g : Rgn) : Rgn := if d.twin then g.other else g

/-- Row and column, in the region that it is read from, of element `e` of word `n` of a descriptor: column block n / (NK + 1), unit
n mod (NK + 1), element e / kc of k-row e mod kc (R99, R272). -/
def Desc.elemAt (d : Desc) (cls n e : Nat) : Nat × Nat :=
  let kc := kcOf cls
  let k := d.k0 + kc * (n % (d.nk + 1)) + e % kc
  let j := d.j0 + 64 * d.cstep * (n / (d.nk + 1)) + e / kc
  if d.col != d.twin then (j, k) else (k, j)

/-- The logical address of element `e` of word `n` of a descriptor. -/
def Desc.addrOf (d : Desc) (g : Rgn) (n e : Nat) : Nat :=
  let p := d.elemAt ((wclass g.fmt).getD 0) n e
  (d.source g).bitAddr p.1 p.2 / 8

/-- The addresses of the scale bytes of word `n` of a descriptor, 8 in the 4-bit class and 4 in the 8-bit class (R100, R270). -/
def Desc.scaleAddrs (d : Desc) (g : Rgn) (n : Nat) : List Nat :=
  let cls := (wclass g.fmt).getD 0
  let u := n % (d.nk + 1)
  let k := d.k0 + kcOf cls * u
  let j := d.j0 + 64 * d.cstep * (n / (d.nk + 1))
  let c := if cls = 2 then 8 else 4
  if isMx g.fmt then (List.range c).map (fun b => g.scaleAddr (k / 32) (j + c * (u % blockUnits cls) + b)) else []

/-- The scale bytes of word `n` of a descriptor (R100, R270). -/
def State.feedScale (s : State) (seg : Nat) (d : Desc) (g : Rgn) (n : Nat) : Nat := packBits 8 ((d.scaleAddrs g n).map (s.planeRd seg))

/-- Word `n` of a descriptor (R99, R100, R272). -/
def State.feedWord (s : State) (seg : Nat) (d : Desc) (g : Rgn) (n : Nat) (poison : Bool) : RingWord :=
  let cls := (wclass g.fmt).getD 0
  let data := packBits (elemBits cls) ((List.range (64 * kcOf cls)).map (fun e =>
    let p := d.elemAt cls n e
    s.rgnElem seg (d.source g) p.1 p.2))
  let r := RingWord.mk' data (s.feedScale seg d g n) (if d.tagInc then (d.tag0 + n) % 2 ^ 16 else d.tag0) cls
  if poison then r.poisoned else r

/-- A page group that elements or scales of word `n` of a descriptor are read from is quarantined (R264). -/
def State.feedStale (s : State) (seg : Nat) (d : Desc) (g : Rgn) (n : Nat) : Bool :=
  (List.range (64 * kcOf ((wclass g.fmt).getD 0))).any (fun e => s.staleRange (seg * stackSize + d.addrOf g n e) 1)
    || (d.scaleAddrs g n).any (fun a => s.staleRange (seg * stackSize + a) 1)

/-- FEED_QUEUE_FILL (R105, R270 to R272, R278, R279): the next word of the first descriptor with unfetched words enters
its queue, poisoned where its data arrive unusable; a quarantined page group answers STALE_EPOCH to the posting station (R264, log
entry 14). MS_ERR records an error of the word with the page and channel of its element 0, also where the word is drawn from several
channels (DESIGN CHOICE, log entry 72). -/
def State.feedFill (s : State) (seg q : Nat) (e : Ecc) (fails : Nat) : State :=
  let f := s.feed seg q
  let next := fun (d : Desc) => !d.isRead || decide (d.fetched < d.total)
  match f.descs.find? next with
  | none => s
  | some d =>
    match (s.rgns seg).find? (fun g => g.base = d.origin) with
    | none => s
    | some g =>
      if !d.isRead || decide (1024 ≤ f.words.length) then s
      else if s.feedStale seg d g d.fetched then (s.fixDesc seg q next (fun x => if x.used < x.fetched then
        some { x with nk := 0, ncb := x.fetched - 1 } else none)).postFails seg q d 6
      else
        let w := s.feedWord seg d g d.fetched (!s.readOk seg fails e)
        ((s.xfer seg (d.addrOf g d.fetched 0) 2 fails e).setFeed seg q { f with words := f.words ++ [w] }).fixDesc seg q next
          (fun x => some { x with fetched := x.fetched + 1 })

def execFeedQueueFill (seg : Seg) (q : Fin 4) (ecc : Ecc) (fails : Nat) (s : State) : Host.Outcome State Fault Refusal :=
  .next (s.feedFill seg q ecc fails)

/-! ### Feed-point injection (R106 to R108) -/

/-- The region that a segment's positions lie in. -/
def segRegion (seg : Nat) : Nat := seg / 8 * 2 + seg % 8 / 4

/-- The number of the word for which local tick `t` of position 0 is an injection tick of a descriptor, if it is one (R106, Table 9-12). -/
def Desc.named (d : Desc) (t : Nat) : Option Nat :=
  let j := (t % 2 ^ 32 - d.start) / (d.period + 1)
  if d.inj = true ∧ d.start ≤ t % 2 ^ 32 ∧ (t % 2 ^ 32 - d.start) % (d.period + 1) = 0 ∧ j < d.total then some j else none

/-- A descriptor with its fields: of one that Prism has not read yet, those it will read (R106). -/
def State.descFull (s : State) (d : Desc) : Desc :=
  if d.isRead then d else d.parse ((s.portView d.stn).rdStore d.la 32)

/-- The local tick of position 0 of a segment (R106). -/
def State.feedTick (s : State) (seg : Nat) : Option Nat :=
  let r := s.ref (segRegion seg)
  if s.halted (segRegion seg) = false ∧ s.lagAt seg 0 ≤ r then some (r - s.lagAt seg 0) else none

/-- Some descriptor of a queue names this tick and the feed point has not acted on it yet. -/
def State.feedDue (s : State) (seg q : Nat) : Bool :=
  match s.feedTick seg with
  | some t =>
    let f := s.feed seg q
    decide (f.acted ≠ some (s.ref (segRegion seg))) && f.descs.any (fun d => ((s.descFull d).named t).isSome && !d.missed)
  | none => false

/-- A suppressed injection: SLOT_CONFLICT at the posting station, cause 0x7, with the fields R179 gives for it. -/
def State.injectionFault (s : State) (d : Desc) : State :=
  let m := d.place.strm
  s.seqFault d.stn 4 7 4 ⟨s.tick0 d.stn, 0x3FFFF, (s.stream d.stn m).bank, false, m⟩

/-- An injection tick of a descriptor passes without its word: a feed underrun at the posting station (R106, R108). -/
def State.underrun (s : State) (d : Desc) : State := s.stnRingError d.stn 6 { d.place with tick := s.tick0 d.stn }

/-- What an injection tick that names word `j` of the head descriptor brings about: its word enters the empty slot, is suppressed, or
there is none. A word whose own tick has passed is never injected (R106). -/
def State.headInject (s : State) (seg q j : Nat) (d : Desc) : State :=
  let f := s.feed seg q
  let miss := s.setFeed seg q { f with descs := fixFirst (fun _ => true) (fun x => some { x with missed := true }) f.descs }
  match f.words with
  | [] => miss.underrun d
  | w :: _ =>
    if d.used < j then miss.underrun d
    else if (s.slotAt (posKey seg 0)).valid then
      (if j = d.used then miss else s).injectionFault d
    else (((s.useLane seg).setSlot (posKey seg 0) w).addPair .segFeedInjCount seg 1).feedTaken seg q

/-- The descriptors behind the head whose first tick comes before their words have reached the head of the queue (R106). -/
def State.lateDescs (s : State) (seg q t : Nat) : List Desc :=
  ((s.feed seg q).descs.drop 1).filter (fun d => ((s.descFull d).named t).isSome && !d.missed)

/-- FEED_POINT_INJECTION: on a tick that a descriptor names, once a tick (R106). -/
def State.feedInject (s : State) (seg q : Nat) : State :=
  match s.feedTick seg with
  | none => s
  | some t =>
    if !s.feedDue seg q then s
    else
      let f := s.feed seg q
      let late := s.lateDescs seg q t
      let s1 := s.setFeed seg q { f with
        acted := some (s.ref (segRegion seg)), descs := f.descs.map (fun d => if d ∈ late then { d with missed := true } else d) }
      let s2 := match f.descs with
        | d :: _ =>
          match (s.descFull d).named t with
          | some j => if d.missed then s1 else s1.headInject seg q j d
          | none => s1
        | [] => s1
      late.foldl (fun u d => u.underrun d) s2

def execFeedPointInjection (seg : Seg) (q : Fin 4) (s : State) : Host.Outcome State Fault Refusal := .next (s.feedInject seg q)

/-- An injection is due at position 0 of a segment. -/
def State.segDue (s : State) (seg : Nat) : Bool := (List.range 4).any (fun q => s.feedDue seg q)

/-! ### GTAP, GEJ, GPASS (R111, R112, R114) -/

/-- The word passing a station fails its parity check, or carries POISON (Table 4-8, row 3). -/
def RingWord.bad (w : RingWord) : Bool := !w.ok || w.poison

/-- An op that meets a bad word: the word passes on with POISON 1, the error is recorded, the station stops (R125). A word that fails
parity and carries POISON 1 is recorded as a parity error, 0x1 (DESIGN CHOICE, log entry 72). -/
def State.badWord (s : State) (stn : Nat) (w : RingWord) (p : OpPlace) : State :=
  (s.setSlot (s.stnKey stn) w.poisoned).stnRingError stn (if w.ok then 2 else 1) p

/-- The CHK test of GTAP, GEJ and GPASS (Table 4-8, row 5). -/
def RingWord.misses (w : RingWord) (chk : Bool) (tag : BitVec 16) : Bool := chk && (!w.valid || decide (w.tag ≠ tag))

/-- An op that meets the word passing its position issues once the feed point in front of that position has acted (R106). -/
def State.issueRing (s : State) (i : Issue) (eff : OpPlace → State → State) : State :=
  if decide (s.posOf i.stn = 0) && s.segDue (segOf i.stn) then s else s.issue i .g eff

/-- Write the passing word into a latch, for MMAs from the next tick on, and count it (R111, R115, R116). -/
def State.tapWord (s : State) (stn t : Nat) (latch : Bool) (w : RingWord) : State :=
  (s.later stn t .ring (.tap (b2n latch) w)).addPair .ringTapCount stn 1

def gtapEff (i : Issue) (o : GtapOp) (p : OpPlace) (s : State) : State :=
  let w := s.slotAt (s.stnKey i.stn)
  if w.bad then s.badWord i.stn w p
  else if w.misses o.chk o.tag then s.seqFault i.stn 4 5 2 p
  else s.tapWord i.stn p.tick o.latch w

/-- GTAP: latch the passing word (R111). -/
def execGtap (i : Issue) (o : GtapOp) (s : State) : Host.Outcome State Fault Refusal := .next (s.issueRing i (gtapEff i o))

def gejEff (i : Issue) (o : GejOp) (p : OpPlace) (s : State) : State :=
  let k := s.stnKey i.stn
  let w := s.slotAt k
  if o.tap && w.bad then s.badWord i.stn w p
  else if w.misses o.chk o.tag then s.seqFault i.stn 4 5 2 p
  else if o.tap then (s.tapWord i.stn p.tick o.latch w).setSlot k RingWord.empty
  else s.setSlot k RingWord.empty

/-- GEJ: remove the passing word, latched first with TAP (R111). -/
def execGej (i : Issue) (o : GejOp) (s : State) : Host.Outcome State Fault Refusal := .next (s.issueRing i (gejEff i o))

/-- The INC updates of a GPASS, on the values read at issue (R113); where DR and SR name one register, SR's stands (DESIGN CHOICE, log
entry 16). -/
def State.gpassInc (s : State) (i : Issue) (o : GpassOp) (t : Nat) : State :=
  let inc := fun (u : State) (n : BitVec 4) (k : Nat) => u.later i.stn t .gInc (.sreg i.strm n.toNat (s.incVal i.stn i.strm n.toNat k))
  if o.inc then inc (inc s o.dr 128) o.sr 8 else s

/-- The bytes of a GPASS land in time for loads from t + 3, or t + 2 under profile 2 (R112, Table 4-9). -/
def State.gpassStore (s : State) (i : Issue) (t a b : Nat) (w : RingWord) : State :=
  let due := t + (if s.profile1 (dieOf i.stn) then 2 else 1)
  (s.later i.stn due .ring (.store (a / 128 * 128) (leBytes 128 w.data.toNat))).later i.stn due .ring
    (.store (b / 8 * 8) (leBytes 8 w.scale.toNat))

def gpassEff (i : Issue) (o : GpassOp) (p : OpPlace) (s : State) : State :=
  let w := s.slotAt (s.stnKey i.stn)
  let s1 := s.gpassInc i o p.tick
  if w.bad then s1.badWord i.stn w p
  else if w.misses o.chk o.tag then s1.seqFault i.stn 4 5 2 p
  else if w.valid then s1.gpassStore i p.tick (s.sreg i.stn i.strm o.dr.toNat) (s.sreg i.stn i.strm o.sr.toNat) w
  else s1

/-- GPASS: copy the passing word into the station store (R112). -/
def execGpass (i : Issue) (o : GpassOp) (s : State) : Host.Outcome State Fault Refusal := .next (s.issueRing i (gpassEff i o))

/-! ### Crossings (R117 to R121, R234, R236) -/

/-- A half is the fast one at a 2:1 ratio: half 0 where half 1 is slow, and the other way round (Table 4-11). -/
def State.fastHalf (s : State) (r : Nat) : Bool := decide (s.ratio = 1#2) && decide (r % 2 = 0) || (decide (s.ratio = 2#2) && decide (r % 2 = 1))

/-- The region whose last position leads to the first one of region `r` (R102). -/
def State.feederOf (s : State) (r : Nat) : Nat := if r % 2 = 0 ∧ s.pkgRing = true then (r + 7) % 8 else if r % 2 = 0 then r + 1 else r - 1

/-- The region to whose first position the last one of region `r` leads. -/
def State.leadsTo (s : State) (r : Nat) : Nat := if r % 2 = 1 ∧ s.pkgRing = true then (r + 1) % 8 else if r % 2 = 0 then r + 1 else r - 1

/-- The words on their way to the first position of a region. -/
def State.inQ (s : State) (r : Nat) : List RingWord :=
  if r % 2 = 0 ∧ s.pkgRing = true then s.bridgeQ (r / 2) else s.seamQ (s.feederOf r)

def State.setInQ (s : State) (r : Nat) (q : List RingWord) : State :=
  if r % 2 = 0 ∧ s.pkgRing = true then s.setBridgeQ (r / 2) q else s.setSeamQ (s.feederOf r) q

/-- Slots of the crossing into the first position of a region: 12 over a bridge; 4 over a seam, in ticks of the receiving region, of which a
slot takes two where the fast half receives (R102, R117, R120). -/
def State.crossSlots (s : State) (r : Nat) : Nat := if r % 2 = 0 ∧ s.pkgRing = true then 12 else if s.fastHalf r then 2 else 4

/-- A crossing stands at its slots again: the receiver's pointer moves on past the oldest words, or back behind empty slots (R234, log
entry 11). -/
def State.realign (s : State) (r : Nat) : State :=
  let n := s.crossSlots r - (s.arriving r).length
  let q := s.inQ r
  s.setInQ r (List.replicate (n - q.length) RingWord.empty ++ q.drop (q.length - n))

/-- The half that a seam leads to can take no word: its clock is gated, or it has none (R118). -/
def State.seamShut (s : State) (d : Nat) (up : Bool) : Bool :=
  s.bit .ringSeamStatus d (4 + b2n up) || !s.ticking (2 * d + b2n up)

/-- SEAM_CROSSING: the next word in the seam toward the other half arrives there on the half's next tick; its parity is checked (R117 to
R119, R125). -/
def State.seamCross (s : State) (d : Nat) (up err : Bool) : State :=
  let k := 2 * d + b2n (!up)
  let r := 2 * d + b2n up
  let seg := if up then 4 else 0
  if (s.pkgRing && !up) || s.halted (2 * d + b2n up) || !(s.arriving r).isEmpty then s
  else
    match s.seamQ k with
    | [] => s
    | w :: q =>
      let s1 := s.setSeamQ k q
      if w.valid && (err || !w.ok) then (s1.setArriving r [w.poisoned]).ringDieFault d 3 15 seg 0
      else s1.setArriving r [w]

def execSeamCrossing (die : Die) (up : Bool) (err : Bool) (s : State) : Host.Outcome State Fault Refusal :=
  .next (s.seamCross die up err)

/-- BRIDGE_DELIVERY: the next word over the bridge arriving at a die; `fails` of its transmissions fail the parity check (R120). -/
def State.bridgeDeliver (s : State) (d fails : Nat) : State :=
  if !s.pkgRing || !(s.arriving (2 * d)).isEmpty then s
  else
    match s.bridgeQ d with
    | [] => s
    | w :: q =>
      let s1 := s.setBridgeQ d q
      let n := if w.valid then (if w.ok then fails else 2) else 0
      let retry := s.bit .ringBridge d 0
      let s2 := if decide (0 < n) && retry then s1.countFld .ringBridge d 31 16 1 else s1
      if n ≤ (if retry then 1 else 0) then s2.setArriving (2 * d) [w]
      else ((s2.countFld .ringBridge d 15 8 1).setArriving (2 * d) [w.poisoned]).ringError d 4 0 0

def execBridgeDelivery (die : Die) (fails : Nat) (s : State) : Host.Outcome State Fault Refusal := .next (s.bridgeDeliver die fails)

/-- Where SHT_FIFO holds the occupancy of a crossing FIFO (Table 8-12). -/
def fifoLo : Fifo → Nat
  | .s01 => 0
  | .s10 => 4
  | .br => 8

/-- The shutter-request bit of a crossing FIFO (Table 8-2). -/
def fifoBit : Fifo → Nat
  | .br => 1
  | _ => 0

def State.occ (s : State) (d : Nat) (f : Fifo) : Nat := s.fld .shtFifo d (fifoLo f + 3) (fifoLo f)

def State.setOcc (s : State) (d : Nat) (f : Fifo) (n : Nat) : State := s.setFld .shtFifo d (fifoLo f + 3) (fifoLo f) n

/-- FIFO_DRIFT_REQUEST: one tick of drift changes the occupancy by 1; at 1 or less, or 7 or more, the FIFO requests a
shutter (R234, R121). A request made in a freeze begins a recentring of its own (Table 8-2). -/
def State.fifoDrift (s : State) (d : Nat) (f : Fifo) (up : Bool) : State :=
  let n := if up then min 8 (s.occ d f + 1) else s.occ d f - 1
  let s1 := s.setOcc d f n
  if n ≤ 1 ∨ 7 ≤ n then
    (s1.shutReq d (fifoBit f) (fifoLo f)).modDie d (fun x => if x.frozen ∧ x.recentre = none then { x with recentre := some 4 } else x)
  else s1

def execFifoDriftRequest (die : Die) (f : Fifo) (up : Bool) (s : State) : Host.Outcome State Fault Refusal :=
  .next (s.fifoDrift die f up)

/-- A crossing's words with the one written last lost, which leaves an empty slot, and the poisoned word in place of the next one (R236). -/
def overrun (q : List RingWord) : List RingWord := RingWord.lost :: (q.drop 1).dropLast ++ (if 1 < q.length then [RingWord.empty] else [])

/-- CROSSING_POISON: a crossing reads an empty FIFO, and delivers a poisoned word, whose place in the crossing the late word loses (DESIGN
CHOICE, log entry 72), or writes a full one, and the word written is lost and the one to be delivered next is poisoned (R236). -/
def State.crossPoison (s : State) (d : Nat) (f : Fifo) : State :=
  let n := s.occ d f
  let r := 2 * d + (if f = .s01 then 1 else 0)
  let kind := if f = .br then 4 else 3
  let seg := if f = .s01 then 4 else 0
  let k := 2 * d + (if f = .s01 then 0 else 1)
  if s.halted r then s
  else if n = 0 then
    (((if f = .br then s.setBridgeQ d ((s.bridgeQ d).drop (if (s.arriving r).isEmpty then 1 else 0))
      else s.setSeamQ k ((s.seamQ k).drop (if (s.arriving r).isEmpty then 1 else 0))).setArriving r [RingWord.lost]).clockError d kind seg).sendFault d 15 true 0
  else if 8 ≤ n then
    ((if f = .br then s.setBridgeQ d (overrun (s.bridgeQ d))
      else s.setSeamQ k (overrun (s.seamQ k))).clockError d kind seg).sendFault d 15 true 0
  else s

def execCrossingPoison (die : Die) (f : Fifo) (s : State) : Host.Outcome State Fault Refusal := .next (s.crossPoison die f)

end Sys2Proof.Machine
end

