-- ==== Sys2Proof/Machine/Shutter.lean ====
section
/-! DEFINITION. The Shutter: freezes, resumes, fault stops, clock stretches (R209 to R211, R220 to R231, R234, R380). -/

namespace Sys2Proof.Machine

/-! ### Freezes (R221, R222, R225, R227) -/

/-- The timed requests of a die whose tick has come (R225). -/
def State.timedDue (s : State) (d : Nat) : List (Nat × Nat) := (s.die d).timed.filter (fun p => decide (p.2 ≤ s.dieTime d))

/-- The kind of Table 8-2 of a timed request; a step's freeze stands under the break it steps (log entry 12). -/
def timedKind (bit : Nat) : Nat := if bit = 13 then 9 else bit

/-- The kinds of request that join a freeze falling on die `d` (R224, R227). -/
def State.joining (s : State) (d : Nat) : Nat :=
  (s.scope d).foldl (fun n x => n ||| (s.die x).joined ||| s.pendBits x
    ||| (s.timedDue x).foldl (fun m p => m ||| 2 ^ timedKind p.1) 0) 0

/-- Change every station of a die that has left its reset state. -/
def State.eachStation (s : State) (d : Nat) (f : Nat → State → State) : State :=
  (s.used.filter (fun i => dieOf i = d)).foldl (fun t i => f i t) s

/-- The crossing FIFOs of a die that are not at occupancy 4 (R234). -/
def State.offCentre (s : State) (d : Nat) : List Fifo := [Fifo.s01, .s10, .br].filter (fun f => decide (s.occ d f ≠ 4))

/-- One die freezes: the timed requests that have come are held (bit 9) or released (bit 8), and off-centre FIFOs begin to
recentre (R221, R225, R234, Table 8-2). -/
def DieSt.freeze (x : DieSt) (c : Nat) (off : Bool) : DieSt :=
  let brk := x.timed.any (fun p => decide (p.2 ≤ c) && decide (timedKind p.1 = 9))
  { x with
    frozen := true, counted := true, resumeIn := none, joined := 0
    target := (match x.target with | some t => if t ≤ c then none else some t | none => none)
    timed := x.timed.filter (fun p => !decide (p.2 ≤ c) && !(brk && decide (p.1 = 13)))
    reqs := if brk && !x.reqs.contains ⟨9, 0⟩ then x.reqs ++ [⟨9, 0⟩] else x.reqs
    recentre := if off || x.reqs.any (fun q => decide (q.bit ≤ 1)) then some 4 else none }

/-- The breaks whose words fall on the tick of a freeze have hit there (R180, R181, log entry 12). -/
def State.hitBreaks (s : State) (i : Nat) : State :=
  if (s.station i).run = .brk then s
  else [Strm.F, .B, .U].foldl (fun t m => t.onlyIf ((t.tickOf i).isSome && decide ((t.stream i m).skip = t.tickOf i)) (·.setHit i m)) s

/-- The freeze reaches die `x`: it is counted once, with every kind that joined it (R227). -/
def State.freezeDie (s : State) (kinds x : Nat) : State :=
  let s1 := s.modDie x (fun y => y.freeze (s.dieTime x) (!(s.offCentre x).isEmpty))
  ((s1.cause x kinds).countFld .shtCount x 31 0 1).eachStation x (fun i t => t.hitBreaks i)

/-- FREEZE (R221): every die of the scope that a request stops freezes on one tick. -/
def State.freeze (s : State) (d : Nat) : State :=
  if s.freezeDue d then
    ((s.scope d).filter (fun x => s.dieDue x)).foldl (fun t x => t.freezeDie (s.joining d) x) s
  else s

def execFreeze (die : Die) (s : State) : Host.Outcome State Fault Refusal := .next (s.freeze die)

/-! ### Resumes (R210, R223) -/

/-- The resume of a frozen die is to be announced: no bit of its scope is pending. TICK waits for it (R223, log entry 1). -/
def State.announceDue (s : State) (d : Nat) : Bool := (s.die d).frozen && (s.die d).resumeIn.isNone && !s.scopePending d

/-- RESUME_ANNOUNCE: the resume comes a resume lead after the announcement (R223). -/
def State.announce (s : State) (d : Nat) : State :=
  if s.announceDue d then
    ((s.scope d).filter (fun x => (s.die x).frozen && (s.die x).resumeIn.isNone)).foldl
      (fun t x => t.modDie x (fun y => { y with resumeIn := some (s.horizon d) })) s
  else s

def execResumeAnnounce (die : Die) (s : State) : Host.Outcome State Fault Refusal := .next (s.announce die)

/-! ### Frozen ticks (R209, R227, R234, R246) -/

/-- A FIFO of a die is recentred and counted (R234, R249). -/
def State.recentreFifo (s : State) (d : Nat) (f : Fifo) : State := (s.setOcc d f 4).countFld .shtFifo d 31 16 1

/-- The recentring of a die is done: its FIFOs stand at 4 and the requests of bits 0 and 1 are released (Table 8-2). -/
def State.recentred (s : State) (d : Nat) : State :=
  ((s.offCentre d).foldl (fun t f => t.recentreFifo d f) s).modDie d (fun y =>
    { y with recentre := none, reqs := y.reqs.filter (fun q => 1 < q.bit) })

/-- One frozen tick of a die's control net: the announced resume and the recentring come nearer (R223, R234). -/
def State.frozenTick (s : State) (d : Nat) : State :=
  let x := s.die d
  let s1 := s.modDie d (fun y => { y with resumeIn := y.resumeIn.map (· - 1), recentre := y.recentre.map (· - 1) })
  if x.recentre = some 1 then s1.recentred d else s1

/-- The frozen ticks of a die are those of its half 0; the freeze before a start boundary does not count (R227, R246). -/
def State.countFrozen (s : State) (r : Nat) : State :=
  if r % 2 = 0 && (s.die (r / 2)).counted then s.addPair .shtTicks (r / 2) 1 else s

/-! ### Fault stops (R229, R230, R247) -/

/-- The order in which the fault flits of one tick are taken: unit before station, code of a unit, die, station (R247). -/
def FaultFlit.rank (f : FaultFlit) : Nat :=
  (if f.unit then f.code else 16) * 2 ^ 12 + f.die * 2 ^ 8 + f.stn

/-- The first of a list of fault flits. -/
def firstFlit : List FaultFlit → Option FaultFlit
  | [] => none
  | f :: fs =>
    match firstFlit fs with
    | some g => if g.rank < f.rank then some g else some f
    | none => some f

/-- The value captured in SHT_FAULT (Table 8-9). -/
def FaultFlit.word (f : FaultFlit) : Nat :=
  f.code * 2 ^ 27 + f.die * 2 ^ 25 + b2n f.unit * 2 ^ 24 + (if f.unit then 0 else f.stn) * 2 ^ 16 + f.tick % 2 ^ 16

/-- The resume announced on a die is withdrawn: its freeze is a fault stop (R230). -/
def State.withdraw (s : State) (x : Nat) : State :=
  let y := s.die x
  if y.frozen && y.resumeIn.isSome then
    (s.cause x (y.joined ||| 2 ^ 12)).modDie x (fun z => { z with resumeIn := none, target := none, joined := 0 })
  else s

/-- A fault flit has reached a die: TICK waits for it (R25, R26, R229, log entry 1). -/
def State.flitDue (s : State) (d : Nat) : Bool := (s.die d).flits.any (fun f => decide (f.left = 0))

/-- Every fault flit on its way to a die comes one tick nearer. -/
def State.flitsMove (s : State) (d : Nat) : State :=
  s.modDie d (fun y => { y with flits := y.flits.map (fun f => { f with left := f.left - 1 }) })

/-- Two flits tell of one fault. -/
def FaultFlit.same (f g : FaultFlit) : Bool := decide ({ f with left := 0 } = { g with left := 0 })

/-- The fault of a flit has reached every die of the scope before the tick of an announced resume (R230). -/
def State.earned (s : State) (d : Nat) (f : FaultFlit) : Bool :=
  (s.scope d).all (fun x => !(s.die x).flits.any f.same && decide ((s.die x).resumeIn ≠ some 0))

/-- FAULT_FLIT: the flits that have reached the die are captured (a memory error, code 0, is not); once every unit of the scope
has one of these faults before the resume tick, an announced resume is withdrawn (R229, R230, R247). -/
def State.faultFlit (s : State) (d : Nat) : State :=
  let due := (s.die d).flits.filter (fun f => decide (f.left = 0))
  if due.isEmpty then s
  else
    let s1 := s.modDie d (fun y => { y with flits := y.flits.filter (fun f => decide (f.left ≠ 0)) })
    let s2 := match firstFlit (due.filter (fun f => f.code ≠ 0)) with
      | some f => s1.capture .shtFault d f.word
      | none => s1
    if due.any (s2.earned d) then (s.scope d).foldl (fun t x => t.withdraw x) s2 else s2

def execFaultFlit (die : Die) (s : State) : Host.Outcome State Fault Refusal := .next (s.faultFlit die)

/-! ### Clock stretch (R233, R380) -/

/-- CLOCK_STRETCH: one period more is counted in CLK_REGION_STATUS; no count of the schedule changes (Table 14-8, R233). -/
def execClockStretch (r : Region) (s : State) : Host.Outcome State Fault Refusal :=
  .next (s.countFld .clkRegionStatus r 15 0 1)

end Sys2Proof.Machine
end

