-- ==== Sys2Proof/Machine/RegOps.lean ====
section
/-! DEFINITION. Registers as software sees them: views, field types, held writes, captures, domains (R9 to R12, R431 to R434). -/

namespace Sys2Proof.Machine

/-! ### Statuses and places -/

/-- Statuses of an access (Table 11-10). -/
def stOk : Nat := 0
def stAddr : Nat := 1
def stAbsent : Nat := 2
def stStale : Nat := 3
def stImem : Nat := 4
def stData : Nat := 5
def stUnreach : Nat := 6
def stOff : Nat := 10

/-- Combine the bits `m` of `v` with the other bits of `c`. -/
def mix (c v m : Nat) : Nat :=
  ((BitVec.ofNat 32 c &&& ~~~ BitVec.ofNat 32 m) ||| (BitVec.ofNat 32 v &&& BitVec.ofNat 32 m)).toNat

/-- The bits `m` of `v`. -/
def only (v m : Nat) : Nat := (BitVec.ofNat 32 v &&& BitVec.ofNat 32 m).toNat

/-- The station of instance `i` of a per-station register. -/
def Reg.stn (r : Reg) (i : Nat) : Option Nat :=
  match r.info.scope with
  | .station n => some (i / n)
  | _ => none

/-- The die of instance `i` of a register that belongs to a die. -/
def Reg.dieIx (r : Reg) (i : Nat) : Option Nat :=
  match r.info.scope with
  | .one => none
  | .station n => some (i / n / 256)
  | .die n => some (i / n)
  | .seg => some (i / 8)
  | .stack n => some (i / n / 8)

/-- The clock region whose logic holds instance `i` of a region-logic register (R434). -/
def Reg.regionIx (r : Reg) (i : Nat) : Nat :=
  match r.info.scope with
  | .station n => regionOf (i / n)
  | .seg => i / 8 * 2 + i % 8 / 4
  | .die n => 2 * (i / n)
  | _ => 0

/-- The logic of a clock region is powered; in Twilight its clock is gated and its registers still answer (R434). -/
def State.regionOn (s : State) (r : Nat) : Bool := bitOf s.pwr.on.toNat r

/-- The stacks of a die answer: powered and out of retention (R434). -/
def State.stacksUp (s : State) (d : Nat) : Bool := s.bit .pwrState 0 d

/-- The always-on logic works: it is powered, and RESET_L does not hold it in reset (R415, R416, Table 16-3). -/
def State.aonUp (s : State) : Bool := s.pins.resetL && s.pins.aux

/-- A register answers only while its domain is powered (R434). The package's own registers of the region-logic blocks
belong to die 0 (log entry 21). -/
def State.regPowered (s : State) (r : Reg) (i : Nat) : Bool :=
  match r.info.dom with
  | .alwaysOn => s.aonUp
  | .firmware => bitOf s.pwr.on.toNat 12
  | .io => bitOf s.pwr.on.toNat 13
  | .region => s.regionOn (r.regionIx i)
  | .stacks => s.stacksUp ((r.dieIx i).getD 0)

/-! ### Views (the registers that report a state held elsewhere) -/

/-- SHT_STATUS (Table 8-7). -/
def State.shtStatus (s : State) (d : Nat) : Nat :=
  let x := s.die d
  let c := s.dieTime d
  let n := s.tickLen (s.netRegion d)
  let pend := s.pendBits d ||| x.timed.foldl (fun n p => n ||| 2 ^ timedKind p.1) 0
  let due := (match x.target with | some t => [t] | none => []) ++ x.timed.map (·.2)
  let first := due.foldl (fun (m : Option Nat) t => match m with | some u => some (min u t) | none => some t) none
  let st := if x.frozen then (if s.faultStop d then 3 else 2) else if first.isSome then 1 else 0
  let cd := if x.frozen then x.resumeIn.getD 0 else (match first with | some t => (t - c + n - 1) / n | none => 0)
  st * 2 ^ 30 + b2n (x.frozen && x.resumeIn.isSome) * 2 ^ 29 + pend % 2 ^ 13 * 2 ^ 16 + satTo 16 cd

/-- One bit for each stream, F first, from bit `lo`. -/
def Station.strmBits (x : Station) (lo : Nat) (p : StreamSt → Bool) : Nat :=
  b2n (p x.f) * 2 ^ lo + b2n (p x.b) * 2 ^ (lo + 1) + b2n (p x.u) * 2 ^ (lo + 2)

/-- STN_SEQ_STATUS (Table 6-4). -/
def State.seqStatus (s : State) (i : Nat) : Nat :=
  let x := s.station i
  let st := if s.quarantined i then 3 else match x.run with | .stopped => 0 | .running => 1 | .brk => 2
  st * 2 ^ 30 + x.strmBits 24 (fun y => y.wait.isSome) + x.strmBits 18 StreamSt.inRtn + b2n x.ownPend * 2 ^ 17
    + b2n x.ownSet * 2 ^ 16 + s.tick0 i % 2 ^ 16

/-- STN_PC_F, STN_PC_B, STN_PC_U (R164). In a ROM routine, whose offsets the spec does not give, the caller's next offset is reported (DESIGN
CHOICE, log entry 72). -/
def StreamSt.pcWord (y : StreamSt) : Nat := b2n y.bank * 2 ^ 31 + b2n y.inRtn * 2 ^ 30 + y.pc % 2 ^ 18

/-- STN_IMEM_CTRL (Table 6-11). -/
def Station.imemCtrl (x : Station) : Nat :=
  x.strmBits 16 (fun y => y.swap.isSome) + x.strmBits 8 (fun y => y.bank) + x.ready.toNat

/-- STN_STASH_STATUS (Table 9-7). -/
def Station.stashStatus (x : Station) : Nat :=
  x.residents * 2 ^ 23 + (x.stash.filter StashEnt.isOut).length * 2 ^ 13 + b2n (!x.bufEmpty) * 2 ^ 12 + x.dropped

/-- SEG_FEED_STATUS: occupancies in units of 16 words (Table 4-5), rounded down, which the spec leaves open (DESIGN CHOICE, log entry 72). -/
def State.feedStatus (s : State) (g : Nat) : Nat :=
  (List.range 4).foldl (fun n q => n + (s.feed g q).words.length / 16 * 2 ^ (7 * q)) 0

/-- SEG_SPARE with AVAIL (Table 4-13). -/
def State.segSpareWord (s : State) (g : Nat) : Nat :=
  b2n (decide (s.sparePos g = 32) && bitOf s.fuses.spareOk.toNat g && s.present g) * 2 ^ 16 + s.sparePos g

/-- VEC_FLAG_SUM: the flags of the stations of the die, together (R153). -/
def State.flagSum (s : State) (d : Nat) : Nat :=
  (List.range 256).foldl (fun n k => if s.present (segOf (256 * d + k)) then n ||| s.reg .vecFlags (256 * d + k) else n) 0

/-- PY_RED_STATUS: slots in use on each I/O die (R325, R327). -/
def State.redStatus (s : State) : Nat :=
  (s.redKeys.filter (fun k => bitOf k.par.key.toNat 0)).length * 2 ^ 16 + (s.redKeys.filter (fun k => !bitOf k.par.key.toNat 0)).length

/-- The fused, strapped and computed words of a register, none where the register file itself holds the word. -/
def State.viewOf (s : State) (r : Reg) (i : Nat) (hi : Bool) : Option Nat :=
  let half := fun (n : Nat) => some (if hi then n / 2 ^ 32 % 2 ^ 32 else n % 2 ^ 32)
  match r with
  | .idPartInfo => some (s.fuses.part.toNat * 2 ^ 16 + s.fuses.stepping.toNat * 2 ^ 8 + (if s.fuses.stepping = 0 then 1 else 3) * 2 ^ 4)
  | .idRomVersion => some (0x01000000 + (if s.fuses.stepping = 0 then 0x3 else 0x11))
  | .idSerial => half s.fuses.serial.toNat
  | .idMinSvn => some (Tbl.get (fun _ => 0) s.fuses.minSvn i).toNat
  | .idKeyDigest => some (Tbl.get (fun _ => 0) s.fuses.keyDigest i).toNat
  | .idImgKeyDigest => some (Tbl.get (fun _ => 0) s.fuses.imgDigest i).toNat
  | .idCert => some (Tbl.get (fun _ => 0) s.fuses.cert i).toNat
  | .ethMac => half (Tbl.get (fun _ => 0) s.fuses.mac i % 2 ^ 48)
  | .govLimits => some (850 * 2 ^ 20 + 550 * 2 ^ 10 + 40)
  | .govVf => some (760 * 2 ^ 16 + 600)
  | .mbxStatus => some (setBits (s.reg .mbxStatus 0) 12 0 s.fw.queued.length)
  | .pyRedStatus => some s.redStatus
  | .shtStatus => some (s.shtStatus i)
  | .ringMode => some (if s.pkgRing then 0x4601 else 0x1100)
  | .ringSeamStatus => some (s.reg .ringSeamStatus i / 4 * 4 + s.ratio.toNat)
  | .segPresent => some s.fuses.segs.toNat
  | .segFeedStatus => some (s.feedStatus i)
  | .segSpare => some (s.segSpareWord i)
  | .stnSeqStatus => some (s.seqStatus i)
  | .stnPcF => some (s.station i).f.pcWord
  | .stnPcB => some (s.station i).b.pcWord
  | .stnPcU => some (s.station i).u.pcWord
  | .stnImemCtrl => some (s.station i).imemCtrl
  | .stnStashStatus => some (s.station i).stashStatus
  | .stnStateEpoch => some (b2n (s.quarantined i) * 2 ^ 31 + s.fld .stnStateEpoch i 15 0)
  | .msPgEpoch => some (b2n (s.pgQuarantined i) * 2 ^ 31 + s.fld .msPgEpoch i 15 0)
  | .vecFlagSum => some (s.flagSum i)
  | .lensStatus => some (s.reg .lensStatus i / 2 ^ 16 * 2 ^ 16 + satTo 16 (s.die i).posts.length)
  | _ => none

/-- What a read of instance `i` of a register returns (of its upper half with `hi`) (R10). -/
def State.regRead (s : State) (r : Reg) (i : Nat) (hi : Bool) : Nat :=
  (s.viewOf r i hi).getD (s.regAt r (r.at i + (if hi then 4 else 0)))

/-! ### Reads (R9, R433, R434) -/

/-- The register, index and half at an offset, or the status with which the access is refused (R4, R9, R433, R434). -/
def State.regLocate (s : State) (off width : Nat) : Except Nat (Reg × Nat × Bool) :=
  if width ≠ 4 ∨ off % 4 ≠ 0 then .error stAddr
  else
    match Reg.find off with
    | none => .error stAddr
    | some (r, i, hi) =>
      if (match r.stn i with | some n => !s.present (segOf n) | none => false) then .error stAbsent
      else if !s.regPowered r i then .error stOff
      else .ok (r, i, hi)

/-- The upper half that a requester has captured of the pair at `lo` (R9). -/
def State.capOf (s : State) (who : Requester) (lo : Nat) : Option Nat :=
  match s.caps.find? (fun c => decide (c.1 = who) && decide (c.2.1 = lo)) with
  | some c => some c.2.2.toNat
  | none => none

/-- Forget the capture of a requester. -/
def State.dropCap (s : State) (who : Requester) : State := { s with caps := s.caps.filter (fun c => c.1 ≠ who) }

/-- A read of a register: the state after it, its status and its value (R9, R10). -/
def State.csrRead (s : State) (who : Requester) (off width : Nat) : State × Nat × Nat :=
  match s.regLocate off width with
  | .error st => (s, st, 0)
  | .ok (r, i, hi) =>
    let v := s.regRead r i hi
    if !r.info.pair then (s, stOk, v)
    else if hi then
      (match s.capOf who (r.at i) with
       | some u => (s.dropCap who, stOk, u)
       | none => (s, stOk, v))
    else
      let t := s.dropCap who
      ({ t with caps := t.caps ++ [(who, r.at i, BitVec.ofNat 32 (s.regRead r i true))] }, stOk, v)

/-- A read of a register as a command of its own: the answer goes out. -/
def State.readOut (s : State) (who : Requester) (off : Nat) : State :=
  let q := s.csrRead who off 4
  q.1.emit (.reg who off q.2.1 (BitVec.ofNat 32 q.2.2))

/-- PAIR_LO_READ (R9): the 64-bit value is captured for its requester. -/
def execPairLoRead (who : Requester) (off : Nat) (s : State) : Host.Outcome State Fault Refusal := .next (s.readOut who off)

/-- PAIR_HI_READ (R9): the requester's capture is returned and consumed, or the current upper half. -/
def execPairHiRead (who : Requester) (off : Nat) (s : State) : Host.Outcome State Fault Refusal := .next (s.readOut who off)

/-! ### Held writes (R10, R214, R215) -/

/-- The RWE fields of the owner of a register apply at once: its station, or every station of its die, is stopped (R10). -/
def State.ownerStopped (s : State) (r : Reg) (i : Nat) : Bool :=
  match r.stn i, r.dieIx i with
  | some n, _ => !s.running n
  | none, some d => !s.dieRunning d
  | none, none => true

/-- The most boundaries that a participating station of the die has passed. -/
def State.maxPassed (s : State) (d : Nat) : Nat := (s.party d).foldl (fun n i => max n (s.station i).passed) 0

/-- Every participating station of the die has passed boundary `n`. -/
def State.allPassed (s : State) (d n : Nat) : Bool := (s.party d).all (fun i => decide (n ≤ (s.station i).passed))

/-- The value last accepted for a register: held, or in force (R93). -/
def State.latest (s : State) (r : Reg) (i : Nat) : Nat :=
  let o := r.at i
  let cur := s.regAt r o
  match r.stn i, r.dieIx i with
  | some n, _ => (match (s.station n).rwe.find? (fun p => p.1 = o) with | some p => mix cur p.2.toNat r.info.rwe | none => cur)
  | none, some d => (match ((s.die d).rwe.filter (fun h => h.off = o)).getLast? with | some h => mix cur h.val.toNat r.info.rwe | none => cur)
  | none, none => cur

/-- Replace a held write that joins the same boundary, or add it (R10, R215). -/
def holdIn (o n : Nat) (v : Word) (l : List DieRwe) : List DieRwe :=
  if l.any (fun h => decide (h.off = o) && decide (h.bnd = n)) then
    l.map (fun h => if h.off = o ∧ h.bnd = n then { h with val := v } else h)
  else l ++ [⟨o, v, n⟩]

/-- Hold a write to the RWE fields of a register for the boundary it joins (R10, R215). -/
def State.holdRwe (s : State) (r : Reg) (i v : Nat) : State :=
  let o := r.at i
  match r.stn i, r.dieIx i with
  | some n, _ => s.modStation n (fun x => { x with rwe := Tbl.ins x.rwe o (BitVec.ofNat 32 v) })
  | none, some d => s.modDie d (fun x => { x with rwe := holdIn o (s.maxPassed d + 1) (BitVec.ofNat 32 v) x.rwe })
  | none, none => s

/-- Forget what is held for a register that is written while its owner is stopped. -/
def State.dropRwe (s : State) (r : Reg) (i : Nat) : State :=
  let o := r.at i
  match r.stn i, r.dieIx i with
  | some n, _ => s.modStation n (fun x => { x with rwe := x.rwe.filter (fun p => p.1 ≠ o) })
  | none, some d => s.modDie d (fun x => { x with rwe := x.rwe.filter (fun h => h.off ≠ o) })
  | none, none => s

/-- The position of slot `k` in a segment whose spare stands at `p` (R20). -/
def slotPos (p k : Nat) : Nat := if k < p then k else k + 1

/-- SPARE_POS of a segment takes the value `q`: the stations whose slot moves are quarantined (R122). -/
def State.spareTo (s : State) (g q : Nat) : State :=
  let p := s.sparePos g
  let s1 := s.setFld .segSpare g 5 0 q
  ((List.range 32).filter (fun k => decide (slotPos p k ≠ slotPos q k))).foldl (fun t k =>
    t.setFld .stnStateEpoch (32 * g + k) 15 0 (2 ^ 16 - 1 - s.fld .stnDieEpoch (g / 8) 15 0)) s1

/-- The RWE fields of a register take a value (R10). -/
def State.applyRwe (s : State) (r : Reg) (i v : Nat) : State :=
  match r with
  | .segSpare => s.spareTo i (bitsOf v 5 0)
  | _ => s.setReg r i (mix (s.reg r i) v r.info.rwe)

/-- Apply a held write by its CSR offset. -/
def State.applyOff (s : State) (o : Nat) (v : Word) : State :=
  match Reg.find o with
  | some (r, i, _) => s.applyRwe r i v.toNat
  | none => s

/-- Apply the held writes of a station at its boundary (R214). -/
def State.applyStation (s : State) (i : Nat) : State :=
  (s.station i).rwe.foldl (fun t p => t.applyOff p.1 p.2) (s.modStation i (fun x => { x with rwe := [] }))

/-- Apply the held per-die writes of the boundaries up to the `n`-th (R215). -/
def State.applyDie (s : State) (d n : Nat) : State :=
  ((s.die d).rwe.filter (fun h => decide (h.bnd ≤ n))).foldl (fun t h => t.applyOff h.off h.val)
    (s.modDie d (fun x => { x with rwe := x.rwe.filter (fun h => !decide (h.bnd ≤ n)) }))

/-- Everything held on a die applies: its start boundary, or its last station has stopped (R10, R210). -/
def State.applyAll (s : State) (d : Nat) : State :=
  let s1 := s.eachStation d (fun i t => t.applyStation i)
  (s1.die d).rwe.foldl (fun t h => t.applyOff h.off h.val) (s1.modDie d (fun x => { x with rwe := [] }))

/-! ### The write of a register by its field types (R10) -/

/-- Write a register: RW fields at once, W1C bits cleared, RWE fields at once or held, the rest discarded (R10). -/
def State.putReg (s : State) (r : Reg) (i : Nat) (hi : Bool) (v : Nat) : State :=
  let o := r.at i + (if hi then 4 else 0)
  let g := r.info
  let cur := s.regAt r o
  let v1 := mix cur v g.rw
  let s1 := s.setRegAt r o (only v1 (2 ^ 32 - 1 - only v g.w1c))
  if g.rwe = 0 then s1
  else if s.ownerStopped r i then (s1.dropRwe r i).applyRwe r i v
  else s1.holdRwe r i (only v g.rwe)

end Sys2Proof.Machine
end

