-- ==== Sys2Proof/Machine/Attest.lean ====
section
/-! DEFINITION. Attestation: reports, the engine (R426 to R429). -/

namespace Sys2Proof.Machine

/-- The first `n` bytes of a list, filled with 0. -/
def takeN (n : Nat) (bs : List Byte) : List Byte := (bs ++ List.replicate n 0).take n

/-- Little-endian bytes of the words of a register array. -/
def State.regBytes (s : State) (r : Reg) (n : Nat) : List Byte := (List.range n).flatMap (fun i => leBytes 4 (s.regRead r i false))

/-- BODY_DIGEST of the image in force of a processor, zeros in ROM state (R428). -/
def State.digestOf (s : State) (p : Nat) : List Byte :=
  match s.image p with
  | some m => takeN 64 m.digest
  | none => List.replicate 64 0

def State.svnOf (s : State) (p : Nat) : Nat :=
  match s.image p with
  | some m => m.svn
  | none => 0

/-- Bytes 0 to 511 of an attestation report (Table 16-12). -/
def State.attestBody (s : State) : List Byte :=
  let rom := (List.range 4).any (fun p => (s.image p).isNone)
  leBytes 4 0x54415458 ++ leBytes 1 1 ++ leBytes 1 (b2n (s.bit .idAttest 0 25) + 2 * b2n rom) ++ leBytes 2 0
    ++ leBytes 4 (s.regRead .idPartInfo 0 false) ++ leBytes 4 (s.regRead .idRomVersion 0 false) ++ leBytes 8 s.fuses.serial.toNat
    ++ s.regBytes .idNonce 8 ++ (List.range 4).flatMap s.digestOf ++ (List.range 4).flatMap (fun p => leBytes 4 (s.svnOf p))
    ++ takeN 64 (Config.fuseDigest s.fuses.serial.toNat) ++ s.regBytes .idKeyDigest 16 ++ leBytes 8 s.fw.refTime ++ List.replicate 48 0

/-- The code of a requester in ID_ATTEST.ORIGIN (Table 16-13). -/
def originOf : Requester → Nat
  | .host => 1
  | .fabric _ => 2
  | .smbus => 3
  | .fp _ => 4
  | .debug => 5

/-- GO: every input of the report is captured and signing begins (R429). -/
def State.attestGo (s : State) (who : Requester) : State :=
  let s1 := ((s.setFld .idAttest 0 30 30 1).setFld .idAttest 0 28 26 (originOf who))
  { s1 with attest := some (s.attestBody, []) }

/-- ATTEST_DONE: the whole of ID_REPORT is replaced (R428, R429). -/
def State.attestDone (s : State) : State :=
  match s.attest with
  | none => s
  | some (body, _) =>
    let bs := takeN 4096 (body ++ takeN 3309 (Config.sign body))
    let s1 := (List.range 1024).foldl (fun t w => t.setReg .idReport w (leNat ((bs.drop (4 * w)).take 4))) s
    let s2 := (((s1.setFld .idAttest 0 30 30 0).setFld .idAttest 0 29 29 1).countFld .idAttest 0 15 0 1)
    { s2 with attest := none }

def execAttestDone (s : State) : Host.Outcome State Fault Refusal := .next s.attestDone

end Sys2Proof.Machine
end

