-- ==== Sys2Proof/Machine/Banks.lean ====
section
/-! DEFINITION. Images of banks, their writing, and the restart of a processor, which abandons a load (R173 to R175, R351, R353, R354). -/

namespace Sys2Proof.Machine

/-! ### Images (R173 to R175, R178) -/

/-- The stations that a bank descriptor names. -/
def bankStns (k : BankDesc) : List Nat := (List.range k.count).map (k.first + ·)

/-- The bytes of an image in the stacks. -/
def State.imageBytes (s : State) (k : BankDesc) : List Byte := s.stackRdN (k.source / stackSize) (k.source % stackSize) k.length

/-- Offset of a bank in a station's instruction memories. -/
def bankOff (m : Strm) (b : Bool) : Nat := 0x20000 * m.idx + 0x10000 * b2n b

/-- The bit of a bank in `READY`. -/
def readyBit (m : Strm) (b : Bool) : BitVec 6 := BitVec.ofNat 6 (2 ^ (2 * m.idx + b2n b))

/-- Write an image to a bank and mark the bank READY (R175). -/
def State.fillBank (s : State) (i : Nat) (m : Strm) (b : Bool) (img : List Byte) : State :=
  s.modStation i (fun x => { x with imem := x.imem.wrN (bankOff m b) img, ready := x.ready ||| readyBit m b })

/-- A bank that a load has begun to write: it keeps `READY` 0 (R174, R353). -/
def State.partBank (s : State) (i : Nat) (m : Strm) (b : Bool) (bs : List Byte) : State :=
  if s.running i && (s.stream i m).bank == b then s
  else s.modStation i (fun x => { x with imem := x.imem.wrN (bankOff m b) bs, ready := x.ready &&& ~~~ readyBit m b })

/-- The first `n` bytes that a load writes, bank after bank. -/
def State.loadFirst (s : State) (n : Nat) : List (Nat × BankDesc) → State
  | [] => s
  | (i, k) :: rest =>
    if n = 0 then s else (s.partBank i k.strm k.bank ((s.imageBytes k).take n)).loadFirst (n - k.length) rest

/-! ### Restarts (R351, R353, R354) -/

/-- An activity of Liaison is abandoned: of a load, the banks it has partly written keep `READY` 0 (R353, log entry 64). -/
def State.abandonTask (s : State) (q : Nat × Instr) : State :=
  match q.2 with
  | .binLoad _ _ banks =>
    s.loadFirst (Config.loadPart q.1 (s.fld .fwStatus 0 15 0)) (banks.flatMap (fun k => (bankStns k).map (fun i => (i, k))))
  | _ => s

/-- A processor restarts: its count rises, its registers and the part's stay, and the restart is an error of class 0x9 (R354, R393); what
Liaison was carrying out is abandoned (R353). `cause` as in Table 13-10. -/
def State.restart (s : State) (p cause : Nat) : State :=
  let t := (((s.setFld .fwStatus p 15 0 (s.fld .fwStatus p 15 0 + 1)).setFld .fwStatus p 29 27 cause).setFld .fwStatus p 31 30 3).raiseAs 9 6 p
    (Reg.at .fwStatus p)
  if p = 0 then
    (t.fw.tasks.foldl State.abandonTask t).fwUpd (fun f => { f with late := f.late ++ f.tasks.map (·.1), tasks := [] })
  else t

end Sys2Proof.Machine
end

