-- ==== Sys2Proof/Machine/Power.lean ====
section
/-! DEFINITION. Profiles, voltages, the governor, idle states and power loss (R370 to R392, R414 to R417). -/

namespace Sys2Proof.Machine

/-! ### Profiles (R370, R387, Table 14-1) -/

/-- Core clock of a half in a profile, in units of 50 MHz. -/
def State.profMult (s : State) (p half : Nat) : Nat :=
  match p with
  | 0 => 20
  | 1 => 40
  | 2 => 30
  | _ => if half = 0 then s.fld .pwrZenithClkv 0 25 20 else s.fld .pwrZenithClkv 0 31 26

/-- Core rail of a half in a profile, in mV. -/
def State.profMv (s : State) (p half : Nat) : Nat :=
  match p with
  | 0 => 620
  | 1 => 780
  | 2 => 700
  | _ => if half = 0 then s.fld .pwrZenithClkv 0 9 0 else s.fld .pwrZenithClkv 0 19 10

/-- Package ring mode of a profile. -/
def State.profPkg (s : State) (p : Nat) : Bool :=
  match p with
  | 0 => false
  | 1 | 2 => true
  | _ => s.bit .pwrZenithCfg 0 28

/-- Seam ratio of a profile, coded as RING_SEAM_STATUS.RATIO. -/
def State.profSeam (s : State) (p : Nat) : Nat := if p = 3 then s.fld .pwrZenithCfg 0 30 29 else 0

/-- Minimum core voltage for a multiplier, rounded up to a whole mV (R387). -/
def minMv (m : Nat) : Nat := if m ≤ 20 then 600 else 600 + (160 * (m - 20) + 19) / 20

/-- The multiplier in force of a region. -/
def State.mult (s : State) (r : Nat) : Nat := s.fld .clkRegionStatus r 31 26

/-- Last acknowledged voltage of a rail (select code), in mV. -/
def State.rail (s : State) (sel : Nat) : Nat := Tbl.get (fun _ => 0) s.pwr.rails sel

def State.setRail (s : State) (sel mv : Nat) : State := s.pwrUpd (fun w => { w with rails := Tbl.put (fun _ => 0) w.rails sel mv })

def State.active (s : State) : Nat := s.fld .pwrProfile 0 1 0
def State.nextProf (s : State) : Nat := s.fld .pwrProfile 0 17 16
def State.armed (s : State) : Bool := s.bit .pwrProfile 0 31
/-- The profile whose settings the regions have: Dawn while a part strapped for Zenith has not switched to it yet (R371). -/
def State.inForce (s : State) : Nat := s.pwr.prof.toNat
def State.legacyMode (s : State) : Bool := s.bit .pwrCtrl 0 31

/-- Some station of the part runs. -/
def State.anyRunning (s : State) : Bool := (List.range 4).any s.dieRunning

/-- Some station is loaded: running, held before its start, or stopped at a break. -/
def State.anyLoaded (s : State) : Bool :=
  (List.range 4).any (fun d => (s.die d).hold) || s.used.any (fun i => (s.station i).run ≠ .stopped)

/-! ### AVSBus (R382 to R385) -/

/-- A setting beyond the limits was refused (R385, R419). -/
def State.governs (s : State) : State := (s.setFld .govStatus 0 29 29 1).alert 6

/-- A transaction writes a target voltage. -/
def AvsTx.sets (t : AvsTx) : Bool := t.write && decide (t.typ = 0)

/-- Whether the governor refuses a voltage write (R385). -/
def State.avsRefused (s : State) (t : AvsTx) : Bool :=
  t.sets && (decide (850 < t.mv) || decide (t.mv < 550) || (decide (t.sel < 8) && decide (t.mv < minMv (s.mult t.sel))))

/-- No transaction of a purpose is in progress or waiting. -/
def State.avsQuiet (s : State) (k : AvsFor) : Bool :=
  s.pwr.avs.all (fun t => decide (t.what ≠ k)) && (s.pwr.legacy ++ s.pwr.avsWait).all (fun t => decide (t.what ≠ k))

/-- An armed switch may go: in legacy mode every raise has been acknowledged first (R377, R384). -/
def State.mayTrigger (s : State) : Bool := s.armed && !s.pwr.trigger && (!s.legacyMode || s.avsQuiet .raise)

/-- The region stop of an armed switch begins: with no station running no shutter is requested (R375). -/
def State.tryTrigger (s : State) : State :=
  if s.mayTrigger && !s.anyRunning then s.pwrUpd (fun w => { w with trigger := true }) else s

/-- Some region's rail is too low for its clock in a profile (R376). -/
def State.railLow (s : State) (n : Nat) : Bool :=
  (List.range 8).any (fun r => decide (s.profMult n (r % 2) ≠ 0) && decide (s.rail r < minMv (s.profMult n (r % 2))))

/-- A profile asks for a multiplier above FMAX (R385). -/
def State.armOver (s : State) (n : Nat) : Bool := (List.range 2).any (fun h => decide (40 < s.profMult n h))

/-- A switch is armed (Table 14-4). -/
def State.setArm (s : State) (n : Nat) : State := (s.setFld .pwrProfile 0 17 16 n).setFld .pwrProfile 0 31 31 1

/-- Sundial writes ARM 1 in native mode: the write is discarded while a rail is too low (R376). -/
def State.sundialArm (s : State) (n : Nat) : State :=
  if s.railLow n || s.armOver n then s.fwUpd (fun f => { f with profWant := none }) else (s.setArm n).tryTrigger

/-- A raise of voltage has been acknowledged: with the last one an armed switch may go, or Sundial arms the switch it raised
them for (R376, R384). -/
def State.raiseDone (s : State) : State :=
  if !s.avsQuiet .raise then s
  else if s.armed then s.tryTrigger
  else
    match s.fw.profWant with
    | some n => s.sundialArm n
    | none => s

/-- A failed raise of voltage abandons the switch; the old profile stays in force (R384). -/
def State.abandon (s : State) : State :=
  (((s.pwrUpd (fun w => { w with legacy := w.legacy.filter (fun t => decide (t.what ≠ .raise))
                                 avsWait := w.avsWait.filter (fun t => decide (t.what ≠ .raise)) })).fwUpd (fun f =>
    { f with profWant := none })).onlyIf (s.armed && !s.pwr.trigger) (fun t => t.setFld .pwrProfile 0 31 31 0)).setFld .pwrProfile 0 1 0
    s.inForce

/-- The core rails stand at the Dawn voltage after a reference loss, or their writes have failed: its shutter requests are released (R381). -/
def State.lossOver (s : State) : State :=
  if s.avsQuiet .loss then (List.range 4).foldl (fun t d => t.shutRel d 10 1) s else s

/-- What the end of a transaction brings about for what it was for. -/
def State.avsNext (s : State) (k : AvsFor) (ok : Bool) : State :=
  match k with
  | .raise => if ok then s.raiseDone else s.abandon
  | .loss => s.lossOver
  | .command | .lower => s

/-- A transaction ends with a status (Table 14-10): a failure of the bus asserts ALERT_L and is reported
(R382). -/
def State.avsEnd (s : State) (t : AvsTx) (status data : Nat) : State :=
  let s1 := s.pwrUpd (fun w => { w with avs := none })
  let busy := b2n (!(s1.pwr.legacy.isEmpty && s1.pwr.avsWait.isEmpty))
  let s2 := s1.setReg .pwrAvsResult 0 (busy * 2 ^ 31 + status * 2 ^ 28 + data % 2 ^ 16)
  let s3 := if status = 4 then s2.governs else if status ∈ [1, 2, 3] then (s2.raiseAs 8 9 t.sel (Reg.at .pwrAvsResult 0)).alert 1 else s2
  (s3.onlyIf (decide (status = 0) && t.sets) (·.setRail t.sel t.mv)).avsNext t.what (decide (status = 0))

/-- The frame of a transaction goes out (R382). -/
def State.avsSend (s : State) (t : AvsTx) : State :=
  ((s.pwrUpd (fun w => { w with avs := some t })).setFld .pwrAvsResult 0 31 31 1).emit (.avs t.sel t.typ t.write t.mv)

/-- Start the next waiting transaction, the power unit's own first (R383); refused ones end at once (R385). -/
def State.avsKick (s : State) : Nat → State
  | 0 => s
  | n + 1 =>
    if s.pwr.avs.isSome then s
    else
      match s.pwr.legacy, s.pwr.avsWait with
      | t :: ts, _ =>
        let s1 := s.pwrUpd (fun w => { w with legacy := ts })
        if s1.avsRefused t then (s1.avsEnd t 4 0).avsKick n else s1.avsSend t
      | [], t :: ts =>
        let s1 := s.pwrUpd (fun w => { w with avsWait := ts })
        if s1.avsRefused t then (s1.avsEnd t 4 0).avsKick n else s1.avsSend t
      | [], [] => s

def State.avsGo (s : State) : State := s.avsKick (s.pwr.legacy.length + s.pwr.avsWait.length)

/-- A write of PWR_AVS_CMD with GO 1 (R383, R384). -/
def State.avsCommand (s : State) (v : Nat) : State :=
  let wr := !bitOf v 30
  if wr && s.legacyMode then s.setFld .pwrAvsResult 0 30 28 5
  else (s.pwrUpd (fun w => { w with avsWait := w.avsWait ++ [⟨wr, bitsOf v 27 24, bitsOf v 23 20, bitsOf v 15 0, 0, false, .command⟩] })).avsGo

/-- The slave's reply to the frame in progress (R382): CRC errors repeat the frame at most 3 times; a write-and-commit that is acted
on then waits for VDone. -/
def State.avsReply (s : State) (r : AvsReply) : State :=
  match s.pwr.avs with
  | none => s
  | some t =>
    if t.acked then (if r.acked && r.crcOk && r.vdone then (s.avsEnd t 0 0).avsGo else s)
    else if !r.crcOk then (if t.tries < 3 then s.avsSend { t with tries := t.tries + 1 } else (s.avsEnd t 2 0).avsGo)
    else if !r.acked then (s.avsEnd t 1 0).avsGo
    else if t.sets then s.pwrUpd (fun w => { w with avs := some { t with acked := true } })
    else (s.avsEnd t 0 r.data.toNat).avsGo

/-- No VDone within 500 µs (R382). -/
def State.avsLate (s : State) : State :=
  match s.pwr.avs with
  | some t => if t.acked then (s.avsEnd t 3 0).avsGo else s
  | none => s

/-! ### Switching profiles (R374 to R377, R381) -/

/-- A write of ARM 1 is refused: NEXT is the active profile, or a rail is too low for its region's new clock in native mode
(Table 14-4, R376). -/
def State.armLow (s : State) (n : Nat) : Bool := decide (n = s.active) || (!s.legacyMode && s.railLow n)

/-- The voltage writes of a switch for the rails that `need`, in ascending select code (R384). -/
def State.railWrites (s : State) (n : Nat) (k : AvsFor) (need : Nat → Bool) : List AvsTx :=
  ((List.range 8).filter need).map (fun r => ⟨true, r, 0, s.profMv n (r % 2), 0, false, k⟩)

/-- A switch has been armed: in legacy mode the rails of the regions that go faster are raised first (R384). -/
def State.armDone (s : State) (n : Nat) : State :=
  if s.legacyMode then
    ((s.pwrUpd (fun w => { w with legacy := w.legacy ++ s.railWrites n .raise (fun r => decide (s.mult r < s.profMult n (r % 2))) })).avsGo).tryTrigger
  else s.tryTrigger

/-- The dies whose requests stop the regions for a switch: the package in package scope, else each die (R374). -/
def State.switchDies (s : State) : List Nat := if s.bit .shtCtrl 0 12 then [0] else [0, 1, 2, 3]

/-- Sundial's part of a switch (R372, R376): in native mode it first raises through AVSBus the rails that are too low. -/
def State.switchTo (s : State) (n : Nat) : State :=
  let s1 := s.fwUpd (fun f => { f with profWant := some n })
  let need := fun (r : Nat) => decide (s.profMult n (r % 2) ≠ 0) && decide (s.rail r < s.profMv n (r % 2))
  if s.legacyMode then (s1.setArm n).armDone n
  else if (List.range 8).any need then (s1.pwrUpd (fun w => { w with avsWait := w.avsWait ++ s.railWrites n .raise need })).avsGo
  else s1.sundialArm n

/-- The closing boundary of a step is decided on die 0: an armed switch is triggered (R374, R377, R384). -/
def State.closingSwitch (s : State) : State :=
  if s.mayTrigger then
    s.switchDies.foldl (fun t d => t.shutReq d 10 0) (s.pwrUpd (fun w => { w with trigger := true }))
  else s

/-- Every die stands still: frozen, or with no station running. -/
def State.allStill (s : State) : Bool := (List.range 4).all (fun d => (s.die d).frozen || !s.dieRunning d)

/-- Recentre the crossing FIFOs of every die (R375, R392). -/
def State.recentreAll (s : State) : State :=
  (List.range 4).foldl (fun t d => (t.offCentre d).foldl (fun u f => u.recentreFifo d f) t) s

/-- A region runs at a multiplier, locked or not (Table 14-8). -/
def State.setMult (s : State) (r m : Nat) (lock : Bool) : State :=
  (s.setFld .clkRegionStatus r 31 26 m).setFld .clkRegionStatus r 25 25 (b2n (lock && m ≠ 0))

/-- Ring mode and seam ratio of the profile (R373, R375): a crossing into a fast half takes 4 of its ticks, 2 of the slow half (R117, log
entry 11). -/
def State.setRing (s : State) (n : Nat) : State :=
  let r := s.profSeam n
  if s.pkgRing = s.profPkg n ∧ s.ratio.toNat = r then s
  else
    let two := List.replicate 2 RingWord.empty
    (List.range 4).foldl (fun t d => t.setSeamQ (2 * d + (if r = 1 then 1 else 0)) (if r = 0 then List.replicate 4 RingWord.empty else two))
      { s with pkgRing := s.profPkg n, ratio := BitVec.ofNat 2 r, seam := [], bridge := [] }

def State.setGated (s : State) (n : Nat) : State :=
  (List.range 4).foldl (fun t d => t.setFld .ringSeamStatus d 5 4
    (b2n (decide (s.profMult n 0 = 0)) + 2 * b2n (decide (s.profMult n 1 = 0)))) s

/-- The clocks stay on the fast internal oscillator over a switch: they go back to the PLL only for PROFILE_SET, and with the PLL locked to a
reference (R381, log entry 13). -/
def State.staysFio (s : State) : Bool :=
  s.bit .clkStatus 0 28 && (s.fw.profWant.isNone || !(s.bit .clkStatus 0 31 && s.bit .clkStatus 0 29))

/-- The region stop of a switch is done; in legacy mode, and where Sundial made the switch, the rails that may are lowered now
(R375, R376, R377, R384). -/
def State.switchDone (s : State) : State :=
  let n := s.nextProf
  let fio := s.staysFio
  let s1 := ((List.range 8).filter s.regionOn).foldl (fun t r => t.setMult r (if fio && decide (s.profMult n (r % 2) ≠ 0) then 8 else
    s.profMult n (r % 2)) (!fio)) s
  let s2 := s1.recentreAll.setGated n
  let s3 := if s.anyLoaded then s2 else s2.setRing n
  let s4 := (((s3.setFld .pwrProfile 0 1 0 n).setFld .pwrProfile 0 31 31 0).setFld .clkStatus 0 28 28 (b2n fio)).pwrUpd (fun w =>
    { w with trigger := false, prof := BitVec.ofNat 2 n })
  let s5 := (List.range 4).foldl (fun t d => t.shutRel d 10 0) s4
  let s6 := if n = 3 then s5.fwUpd (fun f => { f with flash := Tbl.ins (Tbl.ins f.flash 0 (s.reg .pwrZenithClkv 0)) 1 (s.reg .pwrZenithCfg 0) }) else s5
  let s7 := s6.fwUpd (fun f => { f with profWant := none })
  let low := s7.railWrites n .lower (fun r => decide (s.profMv n (r % 2) < s.rail r) && decide (s.profMult n (r % 2) ≠ 0))
  if s.legacyMode then (s7.pwrUpd (fun w => { w with legacy := w.legacy ++ low })).avsGo
  else if s.fw.profWant.isSome then (s7.pwrUpd (fun w => { w with avsWait := w.avsWait ++ low })).avsGo
  else s7

/-- The region stop of a reference loss is done: every clock runs from the fast internal oscillator, a switch under way ends, and the core
rails go to the Dawn voltage before the requests are released (R377, R381). -/
def State.lossDone (s : State) : State :=
  let rs := (List.range 8).filter (fun r => decide (s.mult r ≠ 0))
  let s1 := rs.foldl (fun t r => t.setMult r 8 false) s
  let s2 := (s1.setFld .clkStatus 0 29 28 1).onlyIf (s.armed && s.pwr.trigger) (fun t => (t.setFld .pwrProfile 0 31 31 0).fwUpd (fun f => { f with profWant := none }))
  let s3 := s2.pwrUpd (fun w => { w with lostRef := false, trigger := false,
                                         legacy := rs.map (fun r => ⟨true, r, 0, 620, 0, false, .loss⟩) ++ w.legacy })
  ((List.range 4).foldl (fun t d => t.shutRel d 10 0) s3).avsGo.lossOver

/-- REGION_STOP_DONE: the regions of a stop are locked again (R375, R381). -/
def State.regionStopDone (s : State) : State :=
  if !s.allStill then s
  else if s.pwr.lostRef then s.lossDone
  else if s.pwr.trigger then s.switchDone
  else s

/-- REF_LOSS (R381): ALERT_L, a report of the clock class, and a package-scope shutter stops the regions, where they do not run from the
fast internal oscillator already; on it, the loss still ends a switch whose region stop has begun (R377). -/
def State.refLoss (s : State) : State :=
  let s1 := (((s.setFld .clkStatus 0 31 30 1).setFld .clkStatus 0 29 29 0).raiseAs 7 6 3 (Reg.at .clkStatus 0)).alert 0
  if s.bit .clkStatus 0 28 && !s.pwr.trigger then s1
  else (List.range 4).foldl (fun t d => t.shutReq d 10 1) (s1.pwrUpd (fun w => { w with lostRef := true }))

/-! ### Zenith (R373) -/

/-- A Zenith record passes the checks of R373. -/
def zenithOk (clkv cfg : Nat) : Bool :=
  let m0 := bitsOf clkv 25 20
  let m1 := bitsOf clkv 31 26
  let v0 := bitsOf clkv 9 0
  let v1 := bitsOf clkv 19 10
  let seam := bitsOf cfg 30 29
  let cap := bitsOf cfg 25 16 * 10
  let volt := fun (m v : Nat) => decide (m = 0) || (decide (550 ≤ v) && decide (v ≤ 850) && decide (minMv m ≤ v))
  decide (m0 ≤ 40) && decide (m1 ≤ 40) && (decide (m0 ≠ 0) || decide (m1 ≠ 0)) && volt m0 v0 && volt m1 v1
    && (decide (seam = 0) || (!bitOf cfg 28 && (if seam = 1 then decide (2 * m1 = m0) && decide (m1 ≠ 0) else decide (2 * m0 = m1) && decide (m0 ≠ 0))))
    && decide (200 ≤ cap) && decide (cap ≤ 1650)

/-- A clock and voltage record lies beyond the governor's limits: a multiplier above FMAX, or the voltage of a half that runs outside VMIN
to VMAX or below the minimum for its frequency (R385). -/
def zenithOver (clkv : Nat) : Bool :=
  let beyond := fun (m v : Nat) => decide (40 < m) || (decide (m ≠ 0) && (decide (v < 550) || decide (850 < v) || decide (v < minMv m)))
  beyond (bitsOf clkv 25 20) (bitsOf clkv 9 0) || beyond (bitsOf clkv 31 26) (bitsOf clkv 19 10)

/-! ### Losing power (R391, R416) -/

/-- A register of the always-on domain keeps its word (Table 1-8). -/
def keptAlways (p : Nat × Word) : Bool :=
  match Reg.find p.1 with
  | some (r, _, _) => decide (r.info.dom = .alwaysOn)
  | none => false

/-- What Keeper keeps in configuration flash and NAND when everything else is lost (R123, R280, R394, R396, R403). Reference time starts anew:
the times of what happened before are counted from the loss on, as if no time passed without power (DESIGN CHOICE, log entry 31). -/
def FwSt.kept (f : FwSt) : FwSt :=
  { FwSt.reset with
    flash := f.flash, slots := f.slots, saved := f.saved, spares := f.spares, retired := f.retired
    memErrs := f.memErrs.map (fun e => (e.1, e.2 - f.refTime)), nand := { f.nand with scanAt := f.nand.scanAt - f.refTime, params := none } }

/-- Every domain but the always-on one loses power: registers, stations, stacks, fabric and firmware state are lost (R391, R416). -/
def State.powerLoss (s : State) : State :=
  let k := s.free
  { State.reset with
    regs := s.regs.filter keptAlways, stackMem := Memory.lost k
    fw := s.fw.kept
    pwr := { s.pwr with avs := none, avsWait := [], legacy := [], hot := 0, trigger := false, on := 0, lostRef := false, latch := 0 }
    pins := s.pins, jtag := s.jtag, smbAddr := s.smbAddr, smbStat := s.smbStat, attest := s.attest, caps := s.caps, fuses := s.fuses
    pending := s.pending, out := s.out, free := k + 1 : State }.setFld .govStatus 0 31 31 0

/-- Nothing is up any more in PWR_STATE. -/
def State.allDown (s : State) : State := s.powerLoss.setReg .pwrState 0 0

/-! ### Idle states (R388 to R392) -/

def State.idleState (s : State) : Nat := s.fld .pwrState 0 31 30
def State.waking (s : State) : Bool := s.bit .pwrState 0 28

/-- The code of an idle state in PWR_STATE. -/
def idleCode : Idle → Nat
  | .twilight => 1
  | .night => 2
  | .midnight => 3

/-- Record a wake or an abandoned entry (Table 14-18). -/
def State.wakeNote (s : State) (abort : Bool) (src : Nat) (st : Nat) : State :=
  s.setReg .pwrWakeLast 0 (2 ^ 31 + b2n abort * 2 ^ 30 + st * 2 ^ 28 + src % 32)

/-- No Mirror copy, snapshot or restore is in progress. -/
def State.mirrorIdle (s : State) : Bool := decide (s.fld .snapStatus 0 31 30 = 0)

/-- Entry conditions of an idle state (Table 14-15). -/
def State.idleOk (s : State) (st : Idle) : Bool :=
  match st with
  | .twilight => (List.range 4).all (fun d => !s.dieRunning d
      || ((s.die d).frozen && (s.scope d).any (fun x => (s.die x).reqs.any (fun q => q.bit = 11))))
  | .night => !s.anyRunning && s.mirrorIdle
  | .midnight => !s.anyRunning && (List.range 16).all (fun p => decide (s.fld .pyPortStatus p 31 28 = 0))
      && (List.range 2).all (fun p => !s.bit .ethPortCtrl p 31)

/-- Sources that can wake from a state: the Pycia wake not from Midnight (Table 14-17). -/
def wakeable (st : Nat) (m : Nat) : Nat := if st = 3 then m % 16 else m % 32

/-- The part rests in an idle state: clocks gated, or domains off (Table 14-15). -/
def State.rest (s : State) (st : Idle) : State :=
  match st with
  | .twilight => s.setReg .pwrState 0 (2 ^ 30 + s.fld .pwrState 0 3 0)
  | .night => ([8, 9, 10, 11].foldl (fun t k => t.setRail k 600) (s.pwrUpd (fun w => { w with on := w.on &&& 0x3000#14 }))).setReg .pwrState 0
      (2 * 2 ^ 30)
  | .midnight => (s.powerLoss).setReg .pwrState 0 (3 * 2 ^ 30)

/-- The sources that stand asserted: those latched, and WAKE_L low where it wakes by its level (R390). -/
def State.wakeLevels (s : State) : Nat := s.pwr.latch.toNat ||| b2n (!s.pins.wakeL && !s.bit .pwrWakeEn 0 31)

/-- A wake or an abandoned entry is over: the latches are cleared, and WAKE_L is taken as released (log entry 34). -/
def State.wakeSeen (s : State) : State := { s.pwrUpd (fun w => { w with latch := 0 }) with pins := { s.pins with wakeL := true } }

/-- Enter an idle state through its closing window: an enabled source that is asserted, at a pin or by its latch, abandons the entry
(R390). -/
def State.enterIdle (s : State) (st : Idle) (asserted : Nat) : State :=
  let on := wakeable (idleCode st) ((asserted ||| s.wakeLevels) &&& s.fld .pwrWakeEn 0 4 0)
  if on ≠ 0 then (s.wakeNote true on (idleCode st)).wakeSeen else s.rest st

/-- Leave an idle state, woken by `src` (0: by firmware) (R392). -/
def State.leaveIdle (s : State) (src : Nat) : State :=
  let st := s.idleState
  if st = 0 ∨ s.waking then s
  else
    let s1 := (s.wakeNote false src st).wakeSeen
    match st with
    | 1 => (s1.setReg .pwrState 0 (s.pwr.on.toNat % 256 * 2 ^ 8 + s.fld .pwrState 0 3 0)).recentreAll
    | 2 => s1.setFld .pwrState 0 28 28 1
    | _ => ((s1.setFld .pwrState 0 28 28 1).setFld .clkStatus 0 29 28 1).pwrUpd (fun w => { w with on := 0x3000#14 })

/-- The part leaves its idle state where an enabled source stands asserted: the lowest one is recorded (R390, Table 14-17). -/
def State.wakeCheck (s : State) : State :=
  let on := wakeable s.idleState (s.wakeLevels &&& s.fld .pwrWakeEn 0 4 0)
  match (List.range 5).find? (fun i => bitOf on i) with
  | some i => if decide (s.idleState ≠ 0) && s.pins.resetL && s.pins.pwrOk then s.leaveIdle (2 ^ i) else s
  | none => s

/-- A wake source asserts in an idle state, and is latched until it wakes the part (R342, R390). -/
def State.wakeBy (s : State) (i : Nat) : State :=
  if s.idleState = 0 then s else (s.pwrUpd (fun w => { w with latch := w.latch ||| BitVec.ofNat 5 (2 ^ i) })).wakeCheck

/-- WAKE_L falls: a level that stands, or an edge that wakes only now (R390). -/
def State.wakeFall (s : State) : State :=
  let t := { s with pins := { s.pins with wakeL := false } }
  if s.bit .pwrWakeEn 0 31 then
    (if s.bit .pwrWakeEn 0 0 && decide (s.idleState ≠ 0) && s.pins.resetL && s.pins.pwrOk then t.leaveIdle 1 else t)
  else t.wakeCheck

end Sys2Proof.Machine
end

