-- ==== Sys2Proof/Machine/Fabric.lean ====
section
/-! DEFINITION. Pycia messages: targets, routes, headers and output queues (R308 to R315). -/

namespace Sys2Proof.Machine

/-! ### Targets and routes (R312, R314, R315, R35) -/

/-- Where a message goes: this module, another one, a multicast group, or an answer at the issuing module (Table 11-10). -/
inductive Target where
  | loc
  | remote (phys : Nat)
  | group (g : Nat)
  | bad (status : Nat)
  deriving DecidableEq, Repr

/-- The module's own physical ID, if assigned (Table 11-15). -/
def State.ownId (s : State) : Option Nat := if s.bit .pyModuleId 0 31 then some (s.fld .pyModuleId 0 15 0) else none

/-- A physical target: this module, or a routed one, else Unreachable (R314, R35). -/
def State.physTarget (s : State) (m : Nat) : Target :=
  match s.ownId with
  | none => .bad 6
  | some i => if i = m then .loc else if s.bit .pyRoute m 31 then .remote m else .bad 6

/-- The target that a module ID names at the issuing module (Table 11-12, R315). -/
def State.target (s : State) (m : Nat) : Target :=
  if m = 0xFFFF then .loc
  else if m < 0x4000 then s.physTarget m
  else if 0x8000 ≤ m ∧ m < 0xC000 then
    (if s.bit .pyRemap (m - 0x8000) 31 then s.physTarget (s.fld .pyRemap (m - 0x8000) 13 0) else .bad 6)
  else if 0xFF00 ≤ m then .group (m - 0xFF00)
  else .bad 1

/-- The module field of a Pycia address (Table 1-6). -/
def modOf (addr : BitVec 64) : Nat := bitsOf addr.toNat 63 48

/-- An address with its module field replaced by the physical target (R315). -/
def withMod (addr : BitVec 64) (m : Nat) : BitVec 64 := BitVec.ofNat 64 (bitsOf addr.toNat 47 0 + m * 2 ^ 48)

/-- The output port of an agent toward a physical module (R314). -/
def State.outPort (s : State) (agent m : Nat) : Nat := if agent % 2 = 0 then s.fld .pyRoute m 3 0 else s.fld .pyRoute m 7 4

/-! ### Fabric events (R328) -/

/-- The fabric's error reports reach Steward while its image runs, and wait for it otherwise (R328, R354). -/
def State.tellSteward (s : State) (v : Word) : State :=
  if s.fld .fwStatus 2 31 30 = 2 then s.emit (.steward v) else s.fwUpd (fun f => { f with steward := f.steward ++ [v] })

/-- Capture in PY_ERR (Table 11-26); a capture raises a report to Keeper and to Steward (R328). -/
def State.pyErr (s : State) (kind port m : Nat) : State :=
  let t := s.capture .pyErr 0 (kind * 2 ^ 27 + port * 2 ^ 23 + m % 2 ^ 16)
  if s.bit .pyErr 0 31 = false ∧ bitOf s.pwr.on.toNat 12 = true then t.tellSteward (BitVec.ofNat 32 (t.reg .pyErr 0)) else t

/-- Unreachable answered (Table 11-26, kind 0x7). -/
def State.noteBad (s : State) (status m : Nat) : State := if status = 6 then s.pyErr 7 0 m else s

/-! ### Messages (Tables 11-8, 11-9) -/

/-- Fields of a message header. -/
structure Hdr where
  opc    : Nat
  status : Nat
  src    : Nat
  dst    : Nat
  agent  : Nat
  gen    : Nat
  tag    : Nat
  len    : Nat
  addr   : Nat
  key    : Nat
  rdesc  : Nat
  rflags : Nat
  mseq   : Nat
  deriving DecidableEq, Repr

def zeros (n : Nat) : List Byte := List.replicate n 0

def padTo (n : Nat) (bs : List Byte) : List Byte := bs ++ zeros (n - bs.length)

/-- The 64 bytes of a header flit; `inl` are the data of a message of at most 16 bytes (Table 11-8). -/
def Hdr.flit (h : Hdr) (inl : List Byte) : List Byte :=
  leBytes 1 h.opc ++ leBytes 1 h.status ++ leBytes 2 h.src ++ leBytes 2 h.dst ++ leBytes 2 (h.agent % 4096 + h.gen % 16 * 4096)
    ++ leBytes 1 (h.tag % 64) ++ zeros 1 ++ leBytes 2 (h.len - 1) ++ leBytes 8 h.addr ++ leBytes 4 h.key ++ leBytes 6 h.rdesc
    ++ leBytes 1 h.rflags ++ zeros 1 ++ leBytes 4 h.mseq ++ zeros 12 ++ padTo 16 inl

/-- Data flits of 64 bytes, the last filled with 0 (R310). -/
def dataFlits : Nat → List Byte → List (List Byte)
  | 0, _ => []
  | n + 1, bs => if bs.isEmpty then [] else padTo 64 (bs.take 64) :: dataFlits n (bs.drop 64)

/-- The flits of a message, header first (R310). -/
def msgFlits (h : Hdr) (data : List Byte) : List (List Byte) :=
  if data.length ≤ 16 then [h.flit data] else h.flit [] :: dataFlits 64 data

/-- The virtual channel of an opcode (Table 11-9): 0 request, 1 response, 2 reduce, 3 control. -/
def vcOf (opc : Nat) : Nat :=
  match opc with
  | 1 | 2 | 5 => 0
  | 3 | 4 | 6 => 1
  | 7 | 8 => 2
  | _ => 3

def State.port (s : State) (p : Nat) : PyPortSt := Tbl.get (fun _ => PyPortSt.reset) s.ports p

def State.setPort (s : State) (p : Nat) (x : PyPortSt) : State := { s with ports := Tbl.put (fun _ => PyPortSt.reset) s.ports p x }

def State.modPort (s : State) (p : Nat) (f : PyPortSt → PyPortSt) : State := s.setPort p (f (s.port p))

/-- The ring dimension of a port role (Tables 11-3, 11-13): 1 X, 2 Y, 3 Z, 0 none. -/
def roleDim (role : Nat) : Nat :=
  match role with
  | 1 | 2 => 1
  | 3 | 4 | 8 | 9 => 2
  | 5 | 6 | 10 | 11 => 3
  | _ => 0

/-- The role runs in the positive direction of its dimension (Table 11-13). -/
def rolePos (role : Nat) : Bool := role = 1 || role = 3 || role = 5 || role = 8 || role = 10

def State.role (s : State) (p : Nat) : Nat := s.fld .pyPortCtrl p 19 16

/-- A link crosses the dateline of its ring: it leads from the highest coordinate on to 0, or from 0 back to the highest,
which is where the neighbour's ID is out of order (R313, log entry 22). -/
def State.crosses (s : State) (p : Nat) : Bool :=
  let n := s.fld .pyNeighbor p 15 0
  let i := (s.ownId).getD 0
  decide (roleDim (s.role p) ≠ 0) && (if rolePos (s.role p) then decide (n < i) else decide (i < n))

/-- Put a message in the output queue of a port. -/
def State.queueOn (s : State) (p : Nat) (q : QMsg) : State := s.modPort p (fun x => { x with outq := x.outq ++ [q] })

/-- PY_ROUTE leads to a physical module (R314). -/
def State.routed (s : State) (m : Nat) : Bool := decide (m < 0x4000) && s.bit .pyRoute m 31

/-- Put a message of this module in the output queue of the port its agent takes. Without a valid route it is Unreachable and does not leave:
a request has been answered so before this (State.target), and nothing answers an answer (R314, R319). -/
def State.enqueue (s : State) (agent m : Nat) (h : Hdr) (data : List Byte) : State :=
  if !s.routed m then s.noteBad 6 m
  else s.queueOn (s.outPort agent m) ⟨vcOf h.opc, false, 0, 16 + agent, false, false, msgFlits h data⟩

/-- The class in which a flit leaves by a port: 1 past the dateline of the ring it is in, until it enters a new dimension (R313). -/
def State.flitClass (s : State) (p : Nat) (q : QMsg) : Bool := (q.cls && decide (q.dim = roleDim (s.role p))) || s.crosses p

/-- The ID this module writes into `SRC`. -/
def State.srcId (s : State) : Nat := (s.ownId).getD 0xFFFF

/-- A WRITE of an agent of the firmware processors leaves: to another module, or into this one (R315, R343). -/
def State.fwWrite (s : State) (agent : Nat) (a : BitVec 64) (bs : List Byte) : State :=
  match s.target (modOf a) with
  | .remote m => s.enqueue agent m ⟨2, 0, s.srcId, m, agent, 0, 0, bs.length, (withMod a m).toNat, 0, 0, 0, 0⟩ bs
  | .bad st => s.noteBad st (modOf a)
  | _ => s.emit (.req (BitVec.ofNat 12 agent) 0 0 a bs.length bs)

/-- A run of bytes leaves in WRITEs of at most 4,096 bytes (R311, R401). -/
def State.fwWrites (s : State) (agent a : Nat) (bs : List Byte) : State :=
  (List.range ((bs.length + 4095) / 4096)).foldl (fun t k =>
    t.fwWrite agent (BitVec.ofNat 64 (a + 4096 * k)) ((bs.drop (4096 * k)).take 4096)) s

/-- A control message of a firmware processor leaves for a module (Table 11-9). -/
def State.sendCtrl (s : State) (fp dst what : Nat) (vals : List Nat) : State :=
  let t := s.emit (.ctrl (BitVec.ofNat 16 dst) what vals)
  let data := (Config.ctrlBytes what vals).take 4096
  match s.target dst with
  | .remote p => t.enqueue (0x400 + fp) p ⟨10, 0, s.srcId, p, 0x400 + fp, 0, 0, data.length, p * 2 ^ 48, 0, 0, 0, 0⟩ data
  | .bad st => t.noteBad st dst
  | _ => t

end Sys2Proof.Machine
end

