-- ==== Sys2Proof/Machine/PyPort.lean ====
section
/-! DEFINITION. Pycia ports: bring-up, lanes, link units, retry, flit scheduling (R300 to R310). -/

namespace Sys2Proof.Machine

/-! ### Trailers and credits (R306, R308) -/

/-- One bit of CRC-24 (Table 11-6). -/
def crcBit (c : Nat) (b : Bool) : Nat :=
  let top := c.testBit 23 ^^ b
  let d := c * 2 % 2 ^ 24
  if top then d ^^^ 0x864CFB else d

/-- CRC-24 over the flit bytes and trailer bits [39:0], most significant bit of each byte first (Table 11-6, log entry 24). -/
def crc24 (bytes : List Byte) : Nat :=
  bytes.foldl (fun c b => (List.range 8).foldl (fun d i => crcBit d (bitOf b.toNat (7 - i))) c) 0xB704CE

/-- Fields of a link trailer (Table 11-6). -/
structure Trailer where
  seq  : Nat
  ack  : Nat
  vc   : Nat
  dcls : Bool
  kind : Nat
  cvc  : Nat
  ccls : Bool
  ccnt : Nat
  deriving DecidableEq, Repr

/-- Bits [39:0] of a trailer. -/
def Trailer.low (t : Trailer) : Nat :=
  t.seq * 2 ^ 28 + t.ack * 2 ^ 16 + t.vc * 2 ^ 14 + b2n t.dcls * 2 ^ 13 + t.kind * 2 ^ 11 + t.cvc * 2 ^ 9 + b2n t.ccls * 2 ^ 8 + t.ccnt

def Trailer.crc (t : Trailer) (flit : List Byte) : Nat := crc24 (flit ++ leBytes 5 t.low)

/-- A link unit with its trailer. -/
def Trailer.unit (t : Trailer) (flit : List Byte) : LinkUnit := ⟨flit, BitVec.ofNat 64 (t.crc flit * 2 ^ 40 + t.low)⟩

/-- The fields of a received trailer. -/
def trailerOf (w : BitVec 64) : Trailer :=
  let n := w.toNat
  ⟨bitsOf n 39 28, bitsOf n 27 16, bitsOf n 15 14, bitOf n 13, bitsOf n 12 11, bitsOf n 10 9, bitOf n 8, bitsOf n 7 0⟩

/-- The CRC of a received unit is correct. -/
def unitIntact (u : LinkUnit) : Bool := decide (bitsOf u.trailer.toNat 63 40 = (trailerOf u.trailer).crc u.flit)

/-- Key of a channel and dateline class. -/
def vcKey (vc : Nat) (cls : Bool) : Nat := 2 * vc + b2n cls

/-- Receive buffer of a channel in flits (Table 11-7). -/
def vcBuf (vc : Nat) : Nat :=
  match vc with
  | 0 | 1 => 1024
  | 2 => 512
  | _ => 64

def count (t : Tbl Nat) (k : Nat) : Nat := Tbl.get (fun _ => 0) t k
def setCount (t : Tbl Nat) (k n : Nat) : Tbl Nat := Tbl.put (fun _ => 0) t k n

/-- Credits that a received unit returns (R308). -/
def PyPortSt.credited (x : PyPortSt) (t : Trailer) : PyPortSt :=
  let k := vcKey t.cvc t.ccls
  { x with used := setCount x.used k (count x.used k - t.ccnt) }

/-- Credits to return with the next unit: channel, class, count. -/
def PyPortSt.returning (x : PyPortSt) : Nat × Nat :=
  match x.toRet with
  | (k, n) :: _ => (k, min n 255)
  | [] => (0, 0)

def PyPortSt.returned (x : PyPortSt) : PyPortSt :=
  let r := x.returning
  { x with toRet := setCount x.toRet r.1 (count x.toRet r.1 - r.2) }

/-- The trailer of a unit that leaves now. -/
def PyPortSt.trailer (x : PyPortSt) (seq vc : Nat) (cls : Bool) (kind : Nat) : Trailer :=
  let r := x.returning
  ⟨seq, x.lastAck.toNat, vc, cls, kind, r.1 / 2, decide (r.1 % 2 = 1), r.2⟩

/-- A link-control unit of a kind with a value leaves: no SEQ, but acknowledgement and credits as every unit (R306). -/
def State.sendCtl (s : State) (p : PyPort) (kind val : Nat) : State :=
  let x := s.port p
  (s.setPort p x.returned).emit (.linkCtl p kind val ((x.trailer 0 0 false 3).unit (padTo 64 ((Config.ctlFlit kind val).take 64))))

/-- Places in the receive buffer of a port are free again: their credits go back to its far end (R308). -/
def State.giveBack (s : State) (p k n : Nat) : State := s.modPort p (fun x => { x with toRet := setCount x.toRet k (count x.toRet k + n) })

/-- The flits of a message in an output queue leave the buffer they hold. -/
def State.release (s : State) (q : QMsg) (n : Nat) : State := s.onlyIf q.owed (fun t => t.giveBack q.src (vcKey q.vc q.cls) n)

/-! ### Link states (Tables 11-2, 11-4) -/

def State.pyState (s : State) (p : Nat) : Nat := s.fld .pyPortStatus p 31 28

def State.setPyState (s : State) (p v : Nat) : State := s.setFld .pyPortStatus p 31 28 v

/-- The ID of the module at the far end (Table 11-5). -/
def State.neighbor (s : State) (p : Nat) : Nat := s.fld .pyNeighbor p 15 0

/-- The link starts afresh: nothing of an earlier link is kept but the output queue (R303, R307). -/
def PyPortSt.fresh (x : PyPortSt) : PyPortSt := { PyPortSt.reset with outq := x.outq }

/-- Enter TRAIN from DISABLED or DOWN: nothing is known of the far end until PROBE completes (Tables 11-2, 11-5). -/
def State.toTrain (s : State) (p : Nat) : State :=
  (((s.setPyState p 1).setFld .pyPortStatus p 27 25 0).setFld .pyNeighbor p 15 0 0xFFFF).modPort p PyPortSt.fresh

/-- Fields of the header flit of a message (Table 11-8). -/
def flitAgent (f : List Byte) : Nat := leNat ((f.drop 6).take 2) % 4096
def flitGen (f : List Byte) : Nat := leNat ((f.drop 6).take 2) / 4096
def flitTag (f : List Byte) : Nat := leNat ((f.drop 8).take 1) % 64
def flitDst (f : List Byte) : Nat := leNat ((f.drop 4).take 2)
def flitSrc (f : List Byte) : Nat := leNat ((f.drop 2).take 2)
def flitAddr (f : List Byte) : Nat := leNat ((f.drop 12).take 8)
def flitMseq (f : List Byte) : Nat := leNat ((f.drop 32).take 4)
def flitOpc (f : List Byte) : Nat := leNat (f.take 1)

/-- The physical module to which a message goes: that of DST, or of ADDR where DST is a multicast group (Table 11-8, R321). -/
def flitTo (f : List Byte) : Nat := if flitOpc f = 5 then flitAddr f / 2 ^ 48 else flitDst f

/-- The flits a message has in all, from its header (R310). -/
def flitsOf (h : List Byte) : Nat :=
  let opc := flitOpc h
  let n := leNat ((h.drop 10).take 2) + 1
  if opc = 1 ∨ opc = 4 ∨ opc = 6 ∨ leNat ((h.drop 1).take 1) % 16 ≠ 0 ∨ n ≤ 16 then 1 else 1 + (n + 63) / 64

/-- A header that is discarded: a reserved opcode, or a DST of 0xFFFF (Table 11-9). -/
def hdrBad (h : List Byte) : Bool := !decide (flitOpc h ∈ [1, 2, 3, 4, 5, 6, 7, 8, 10]) || decide (flitDst h = 0xFFFF)

/-- The opcode that answers a request (Table 11-9). -/
def answerOpc (opc : Nat) : Option Nat :=
  match opc with
  | 1 => some 3
  | 2 => some 4
  | 5 => some 6
  | _ => none

/-- A message without a valid route is answered with Unreachable; one that no message answers is lost, and its issuer learns of it
through FETCH_TIMEOUT (R314, R319). -/
def State.bounce (s : State) (h : List Byte) : State :=
  let t := s.noteBad 6 (flitTo h)
  match answerOpc (flitOpc h) with
  | none => t
  | some o =>
    if flitSrc h = s.srcId then
      t.emit (if o = 6 then .mcAck (BitVec.ofNat 16 s.srcId) (BitVec.ofNat 32 (flitMseq h)) 6
        else .rsp (BitVec.ofNat 16 s.srcId) (BitVec.ofNat 12 (flitAgent h)) (BitVec.ofNat 4 (flitGen h)) (BitVec.ofNat 6 (flitTag h))
          (decide (o = 4)) 6 [])
    else t.enqueue (flitAgent h) (flitSrc h) ⟨o, 6, s.srcId, flitSrc h, flitAgent h, flitGen h, flitTag h, 0, flitAddr h, 0, 0, 0, flitMseq h⟩ []

/-- Route a message again that had not started when its port went down (R304). -/
def State.reroute (s : State) (q : QMsg) : State :=
  match q.flits with
  | h :: _ =>
    if s.routed (flitTo h) then s.queueOn (s.outPort (flitAgent h) (flitTo h)) q else (s.bounce h).release q q.flits.length
  | [] => s

/-- The messages that came in by a port hold no places in its buffer any more. -/
def State.disown (s : State) (p : Nat) : State :=
  (List.range 16).foldl (fun t o => t.modPort o (fun x =>
    { x with outq := x.outq.map (fun q => if q.src = p then { q with owed := false } else q) })) s

/-- What a port discards when it carries nothing any more, and what it hands on (R304). -/
def State.dropLink (s : State) (p : Nat) : State :=
  let s := s.disown p
  let x := s.port p
  let s1 := (x.outq.filter (·.begun)).foldl (fun t q => t.release q q.flits.length) s
  (x.outq.filter (fun q => !q.begun)).foldl State.reroute (s1.setPort p { PyPortSt.fresh x with outq := [] })

/-- The role that runs the other way round the ring of a role (Table 11-13); 0 for a port without one. -/
def otherWay (role : Nat) : Nat := if roleDim role = 0 then 0 else if rolePos role then role + 1 else role - 1

/-- A port by which the ring of a port is gone round the other way, where one is not down (R329). -/
def State.roundPort (s : State) (p : Nat) : Option Nat :=
  (List.range 16).find? (fun q => decide (otherWay (s.role p) ≠ 0) && decide (s.role q = otherWay (s.role p)) && decide (s.pyState q = 4))

/-- A route entry that names a port which is down takes the other port of its pair, where that one is not down, else a port that leads
round the ring the other way (R314, R329, log entry 23). -/
def State.paired (s : State) (p v : Nat) : Nat :=
  let a := bitsOf v 3 0
  let b := bitsOf v 7 4
  let round := fun (w : Nat) => match s.roundPort p with | some q => setBits (setBits w 3 0 q) 7 4 q | none => w
  if a ≠ p ∧ b ≠ p then v
  else if a = p ∧ s.pyState b ≠ 6 then setBits v 3 0 b
  else if b = p ∧ s.pyState a ≠ 6 then setBits v 7 4 a
  else round v

/-- Steward routes around a port that has gone down, while its image runs (R314, R329, R354). -/
def State.routeAround (s : State) (p : Nat) : State :=
  if bitOf s.pwr.on.toNat 12 && decide (s.fld .fwStatus 2 31 30 = 2) then
    ((s.regs.map (·.1)).filter (fun o => decide (0x810000 ≤ o) && decide (o < 0x820000) && bitOf (s.regAt .pyRoute o) 31)).foldl
      (fun t o => t.setRegAt .pyRoute o (s.paired p (s.regAt .pyRoute o))) s
  else s

/-- Enter DOWN: counted, recorded, sent and unacknowledged messages lost (R303, R304, R328). -/
def State.toDown (s : State) (p : Nat) : State :=
  ((((s.setPyState p 6).countFld .pyPortErrs p 7 0 1).pyErr 1 p (s.neighbor p)).routeAround p).dropLink p

/-- Steward's image runs, first or again: it takes the fabric's reports that have waited, and routes around the ports that have gone down
meanwhile (R328, R329, R354). -/
def State.stewardRuns (s : State) : State :=
  let t := s.fw.steward.foldl (fun u v => u.emit (.steward v)) (s.fwUpd (fun f => { f with steward := [] }))
  ((List.range 16).filter (fun p => s.pyState p = 6)).foldl State.routeAround t

/-- Enter RETRAIN: sequenced units are held (R303, R304). -/
def State.toRetrain (s : State) (p : Nat) : State := (s.setPyState p 5).countFld .pyPortStatus p 15 0 1

/-- EN is written 1: the port starts TRAIN from DISABLED once the module has an ID (Table 11-2). -/
def State.pyEnable (s : State) (p : Nat) : State :=
  if s.pyState p = 0 ∧ s.ownId.isSome then s.toTrain p else s

/-- EN is written 0: the transmitters turn off and what the port had sent is lost as in DOWN (Table 11-2, log entry 23). -/
def State.pyDisable (s : State) (p : Nat) : State := if s.pyState p = 0 then s else (s.setPyState p 0).dropLink p

/-- RETRAIN is written 1 (Table 11-3). -/
def State.pyRetrain (s : State) (p : Nat) : State :=
  if s.pyState p = 6 then s.toTrain p else if s.pyState p = 4 then s.toRetrain p else s

/-- The counters of a port become 0 (R328). -/
def State.pyClear (s : State) (p : Nat) : State :=
  (((s.setReg .pyPortErrs p 0).setPair .pyFecCorr p 0).setPair .pyTxFlits p 0).setPair .pyRxFlits p 0

/-! ### Lanes (R302) -/

/-- The physical lanes that work. -/
def PyPortSt.working (x : PyPortSt) : List Nat := (List.range 9).filter (fun l => !x.dead.contains l)

/-- The physical lane of a logical lane (Table 11-1). -/
def State.laneOf (s : State) (p k : Nat) : Nat := bitsOf (s.reg .pyLaneMap p) (4 * k + 3) (4 * k)

/-- Write the lane map: the lanes given in order, 0xF for the rest; HALF and SPARE_USED follow (Tables 11-1, 11-4). -/
def State.mapLanes (s : State) (p : Nat) (ls : List Nat) : State :=
  let m := (List.range 8).foldl (fun n k => n + (ls.getD k 15) * 2 ^ (4 * k)) 0
  ((s.setReg .pyLaneMap p m).setFld .pyPortStatus p 27 27 (b2n (ls.length < 8))).setFld .pyPortStatus p 26 26 (b2n (ls.contains 8))

/-- The lane map of a port goes to the far end in a link-control unit (R302). -/
def State.sendLanes (s : State) (p : PyPort) : State := s.sendCtl p 2 (s.reg .pyLaneMap p)

/-- A port whose map changes retrains; before ACTIVE, and in a retrain, it goes on with the new map (R302, Table 11-2). -/
def State.remapped (s : State) (p : Nat) : State := if s.pyState p = 4 then s.toRetrain p else s

/-- A new lane map: the port retrains, and imposes the map on the far end (R302). -/
def State.imposeLanes (s : State) (p : PyPort) (ls : List Nat) (kind : Nat) : State :=
  let t := s.mapLanes p ls
  ((t.sendLanes p).pyErr kind p (s.neighbor p)).remapped p

/-- The port has a lane map that is in use: in ALIGN, PROBE, ACTIVE or RETRAIN (Table 11-2). -/
def State.lanesLive (s : State) (p : Nat) : Bool := decide (2 ≤ s.pyState p) && decide (s.pyState p ≤ 5)

/-- Drop to half width on four working lanes, or go down (R302). -/
def State.halve (s : State) (p : PyPort) : State :=
  let w := ((s.port p).working).take 4
  if s.bit .pyPortCtrl p 28 && decide (w.length = 4) then s.imposeLanes p w 3 else s.toDown p

/-- The logical lanes in use. -/
def State.lanesUsedOf (s : State) (p : Nat) : List Nat := (List.range (if s.bit .pyPortStatus p 27 then 4 else 8)).map (s.laneOf p)

/-- The spare lane, where no logical lane uses it and it works. -/
def State.spareLane (s : State) (p : Nat) : Option Nat :=
  if s.bit .pyPortStatus p 27 then none else ((s.port p).working).find? (fun l => !(s.lanesUsedOf p).contains l)

/-- Substitute the spare for a lane, if allowed and free (R302). -/
def State.substitute (s : State) (p : PyPort) (lane : Nat) : Option State :=
  match s.spareLane p with
  | some sp =>
    if s.bit .pyPortCtrl p 27 then some (s.imposeLanes p ((s.lanesUsedOf p).map (fun l => if l = lane then sp else l)) 2) else none
  | none => none

/-- A lane works no more. -/
def State.killLane (s : State) (p lane : Nat) : State := s.modPort p (fun x => { x with dead := lane :: x.dead.filter (· ≠ lane) })

/-- LANE_LOSS (R302): a logical lane that loses lock is replaced by the spare, else the port drops to half width or goes down. -/
def State.laneLoss (s : State) (p : PyPort) (lane : Nat) : State :=
  let s1 := s.killLane p lane
  if s.lanesLive p = false ∨ lane ∉ s.lanesUsedOf p then s1
  else match s1.substitute p lane with
    | some t => t
    | none => s1.halve p

def execLaneLoss (p : PyPort) (lane : Fin 9) (s : State) : Host.Outcome State Fault Refusal := .next (s.laneLoss p lane)

/-- LANE_FEC_LIMIT (R302): a lane whose FEC corrects too much is replaced while the spare is free; it still works otherwise. -/
def State.laneFec (s : State) (p : PyPort) (lane : Nat) : State :=
  if s.pyState p ≠ 4 ∨ lane ∉ s.lanesUsedOf p then s
  else match (s.killLane p lane).substitute p lane with
    | some t => t
    | none => s

def execLaneFecLimit (p : PyPort) (lane : Fin 9) (s : State) : Host.Outcome State Fault Refusal := .next (s.laneFec p lane)

/-- A lane map that the far end imposes: the lanes that it gives up work no more, and the port takes the map. A map with a lane that does not
work here is answered with a narrower one, so that both ends come to the same width (R302, log entry 25). -/
def State.lanesImposed (s : State) (p : PyPort) (ls : List Nat) : State :=
  if s.lanesLive p = false ∨ ls = s.lanesUsedOf p ∨ (ls.length ≠ 8 ∧ ls.length ≠ 4) then s
  else
    let t := ((s.lanesUsedOf p).filter (fun l => !ls.contains l)).foldl (fun u l => u.killLane p l) s
    if ls.all (fun l => ((t.port p).working).contains l) then
      ((t.mapLanes p ls).pyErr (if ls.length = 4 then 3 else 2) p (s.neighbor p)).remapped p
    else t.halve p

/-! ### Bring-up (R303 to R305) -/

/-- TRAIN_COMPLETE: at least 8 lanes lock, the map going around one that fails, or at least 4 with HALF_EN. In ALIGN the map is agreed: it
goes to the far end (R302, Table 11-2). -/
def State.trainDone (s : State) (p : PyPort) (locked : BitVec 9) : State :=
  let ok := (List.range 9).filter (fun l => bitOf locked.toNat l)
  let s1 := s.modPort p (fun x => { x with dead := (List.range 9).filter (fun l => !bitOf locked.toNat l) })
  if s.pyState p ≠ 1 then s
  else if 8 ≤ ok.length then
    ((s1.mapLanes p ((List.range 8).map (fun k => if bitOf locked.toNat k then k else 8))).setPyState p 2).sendLanes p
  else if 4 ≤ ok.length ∧ s.bit .pyPortCtrl p 28 = true then
    (((s1.mapLanes p (ok.take 4)).pyErr 3 p (s.neighbor p)).setPyState p 2).sendLanes p
  else s

def execTrainComplete (p : PyPort) (locked : BitVec 9) (s : State) : Host.Outcome State Fault Refusal := .next (s.trainDone p locked)

/-- TRAIN_TIMEOUT. -/
def execTrainTimeout (p : PyPort) (s : State) : Host.Outcome State Fault Refusal :=
  .next (if s.pyState p = 1 then s.toDown p else s)

/-- ALIGN_COMPLETE: in PROBE the port sends its module ID, role and number (Table 11-2). -/
def execAlignComplete (p : PyPort) (s : State) : Host.Outcome State Fault Refusal :=
  .next (if s.pyState p = 2 then
      (s.setPyState p 3).sendCtl p 3 (s.fld .pyModuleId 0 15 0 + s.role p * 2 ^ 16 + p.val * 2 ^ 20)
    else s)

/-- ALIGN_TIMEOUT. -/
def execAlignTimeout (p : PyPort) (s : State) : Host.Outcome State Fault Refusal :=
  .next (if s.pyState p = 2 then s.toDown p else s)

/-- Two roles match: opposite ones, or either unassigned (R305). -/
def rolesMatch (a b : Nat) : Bool :=
  decide (a = 0) || decide (b = 0) || decide ((a, b) ∈ [(1, 2), (2, 1), (3, 4), (4, 3), (5, 6), (6, 5), (8, 9), (9, 8), (10, 11), (11, 10)])

/-- PROBE_EXCHANGE: the far end is recorded, and the port enters ACTIVE or holds with MISMATCH, which is reported to Steward also where
PY_ERR holds an earlier event (R305, Table 11-5). -/
def State.probe (s : State) (p m port role : Nat) : State :=
  if s.pyState p ≠ 3 then s
  else
    let s1 := s.setReg .pyNeighbor p (port * 2 ^ 20 + role * 2 ^ 16 + m)
    if rolesMatch (s.role p) role then (s1.setFld .pyPortStatus p 25 25 0).setPyState p 4
    else
      let t := (s1.setFld .pyPortStatus p 25 25 1).pyErr 5 p m
      if s.bit .pyErr 0 31 = true ∧ bitOf s.pwr.on.toNat 12 = true then
        t.tellSteward (BitVec.ofNat 32 (5 * 2 ^ 27 + p * 2 ^ 23 + m % 2 ^ 16)) else t

def execProbeExchange (p : PyPort) (modId : BitVec 16) (port : BitVec 4) (role : BitVec 4) (s : State) : Host.Outcome State Fault Refusal :=
  .next (s.probe p modId.toNat port.toNat role.toNat)

/-! ### Link units (R306, R307) -/

/-- Drop what an acknowledgement covers from a list of sequenced units. -/
def ackedThrough (a : BitVec 12) (l : List (BitVec 12 × LinkUnit)) : List (BitVec 12 × LinkUnit) :=
  if l.any (fun q => q.1 = a) then (l.dropWhile (fun q => q.1 ≠ a)).drop 1 else l

/-- The acknowledgement of a received unit (R307). -/
def PyPortSt.acked (x : PyPortSt) (a : BitVec 12) : PyPortSt :=
  let r := ackedThrough a x.replay
  { x with replay := r, again := ackedThrough a x.again, naks := if r.length < x.replay.length then 0 else x.naks }

/-- The reduce engine of a key holds all its slots, so that it withholds the credits of a message for a key that it does not hold
(R327). -/
def State.redFull (s : State) (key : Nat) : Bool :=
  decide (2048 ≤ (s.redKeys.filter (fun k => bitOf k.par.key.toNat 0 == bitOf key 0)).length)
    && !s.redKeys.any (fun k => decide (k.par.key.toNat = key))

/-- A message has been consumed: its buffer places are free, or withheld while the engine it is for has no slot (R308, R327). -/
def State.consumed (s : State) (p vc : Nat) (cls : Bool) (h : List Byte) (n : Nat) : State :=
  if vc = 2 ∧ s.redFull (leNat ((h.drop 20).take 4)) then
    s.modPort p (fun x => { x with held := setCount x.held (vcKey vc cls) (count x.held (vcKey vc cls) + n) })
  else s.giveBack p (vcKey vc cls) n

/-- A whole message has arrived, of which `n` flits hold buffer places: discarded and counted, handed to this module's units, sent on in
transit, or answered with Unreachable (R308, R310, R313, R314). A port without a role carries only control messages (R305). -/
def State.msgIn (s : State) (p : PyPort) (vc : Nat) (cls : Bool) (n : Nat) (flits : List (List Byte)) : State :=
  match flits with
  | [] => s
  | h :: _ =>
    let back := fun (t : State) => t.giveBack p (vcKey vc cls) n
    if hdrBad h then back ((s.countFld .pyErrCount 0 15 0 1).pyErr 6 p (flitSrc h))
    else if s.role p = 0 ∧ vc ≠ 3 then back s
    else if decide (s.ownId = some (flitTo h)) || decide (flitTo h = 0xFFFF) then (s.emit (.message p flits)).consumed p vc cls h n
    else if s.routed (flitTo h) then
      s.queueOn (s.outPort (flitAgent h) (flitTo h)) ⟨vc, cls, roleDim (s.role p), p, decide (n ≠ 0), false, flits⟩
    else back (s.bounce h)

/-- A flit accepted in sequence joins the message of its channel; a data flit behind no header is discarded. A message that its buffer
cannot hold whole gives its places back flit by flit (R308, R310). -/
def State.flitIn (s : State) (p : PyPort) (t : Trailer) (flit : List Byte) : State :=
  let x := s.port p
  let old := Tbl.get (fun _ => []) x.rx t.vc
  let fs := (if t.kind = 1 then [] else old) ++ [flit]
  let s1 := s.addPair .pyRxFlits p 1
  let keep := fun (u : State) (l : List (List Byte)) => u.modPort p (fun y => { y with rx := Tbl.put (fun _ => []) y.rx t.vc l })
  match fs with
  | [] => s1
  | h :: _ =>
    if t.kind = 2 ∧ old = [] then s1.giveBack p (vcKey t.vc t.dcls) 1
    else
      let big := decide (vcBuf t.vc < flitsOf h)
      let s2 := s1.onlyIf big (fun u => u.giveBack p (vcKey t.vc t.dcls) 1)
      if hdrBad h || decide (flitsOf h ≤ fs.length) then (keep s2 []).msgIn p t.vc t.dcls (if big then 0 else fs.length) fs
      else keep s2 fs

/-- Discard a unit and ask for the expected one, once (R307). -/
def State.nakOut (s : State) (p : PyPort) : State :=
  let s1 := s.countFld .pyPortErrs p 31 16 1
  if (s.port p).skip then s1
  else (s1.modPort p (fun x => { x with skip := true })).sendCtl p 1 (s.port p).rxSeq.toNat

/-- LINK_UNIT_RX (R307): FEC counts what it met (R328); credits of a sequenced unit count once it is accepted (log entry 25); a
link-control unit may impose a lane map, from ALIGN on (R302). -/
def State.linkUnit (s : State) (p : PyPort) (e : LinkRx) : State :=
  let u := e.unit
  let t := trailerOf u.trailer
  let s := (s.addPair .pyFecCorr p e.corr).countFld .pyPortErrs p 15 8 e.uncorr
  if s.pyState p ≠ 4 then
    (match e.lanes with
     | some ls => if unitIntact u && decide (t.kind = 3) then s.lanesImposed p (ls.map (·.val)) else s
     | none => s)
  else if !unitIntact u then s.nakOut p
  else
    let s1 := s.modPort p (·.acked (BitVec.ofNat 12 t.ack))
    if t.kind = 0 then s1.modPort p (·.credited t)
    else if t.kind = 3 then
      let s2 := s1.modPort p (·.credited t)
      match e.lanes with
      | some ls => s2.lanesImposed p (ls.map (·.val))
      | none => s2
    else if BitVec.ofNat 12 t.seq = (s.port p).rxSeq then
      (s1.modPort p (fun x => { (x.credited t) with rxSeq := x.rxSeq + 1, lastAck := x.rxSeq, skip := false })).flitIn p t u.flit
    else s1.nakOut p

def execLinkUnitRx (p : PyPort) (e : LinkRx) (s : State) : Host.Outcome State Fault Refusal := .next (s.linkUnit p e)

/-- NAK_RX: replay from the named sequence number; after 8 NAKs for it without progress the port retrains (R307). -/
def State.nakRx (s : State) (p : Nat) (seq : BitVec 12) : State :=
  if s.pyState p ≠ 4 then s
  else
    let x := s.port p
    let n := if x.nakSeq = seq then x.naks + 1 else 1
    let r := if x.replay.any (fun q => q.1 = seq) then x.replay.dropWhile (fun q => q.1 ≠ seq) else if seq = x.txSeq then [] else x.replay
    let s1 := s.setPort p { x with naks := if n < 8 then n else 0, nakSeq := seq, replay := r, again := r }
    if n < 8 then s1 else (s1.pyErr 4 p (s.neighbor p)).toRetrain p

def execNakRx (p : PyPort) (seq : BitVec 12) (s : State) : Host.Outcome State Fault Refusal := .next (s.nakRx p seq)

/-- NAK_REPEAT: every 1 µs until the expected unit arrives (R307). -/
def execNakRepeat (p : PyPort) (s : State) : Host.Outcome State Fault Refusal :=
  .next (if s.pyState p = 4 ∧ (s.port p).skip = true then s.sendCtl p 1 (s.port p).rxSeq.toNat else s)

/-- RETRAIN_DONE: both ends replay from the other end's last acknowledged unit; a third retrain within 1 s ends in DOWN
(R304, Table 11-2). -/
def State.retrainDone (s : State) (p : Nat) (third : Bool) (ack : BitVec 12) : State :=
  if s.pyState p ≠ 5 then s
  else if third then s.toDown p
  else (s.setPyState p 4).modPort p (fun x => let y := x.acked ack; { y with again := y.replay, naks := 0 })

def execRetrainDone (p : PyPort) (third : Bool) (ack : BitVec 12) (s : State) : Host.Outcome State Fault Refusal :=
  .next (s.retrainDone p third ack)

/-! ### Sending (R306 to R309) -/

/-- A credit in hand for a message's channel and the class in which it leaves (R308). -/
def PyPortSt.credit (x : PyPortSt) (cls : QMsg → Bool) (q : QMsg) : Bool := decide (count x.used (vcKey q.vc (cls q)) < vcBuf q.vc)

/-- Places of the second rotating pointer: the 16 input ports, then the module's own agents by their numbers (R309, Table 11-11). -/
def ptrPlaces : Nat := 16 + 4096

/-- The first message of each source in a list. -/
def firstOfEach : List QMsg → List QMsg
  | [] => []
  | q :: qs => q :: (firstOfEach qs).filter (fun r => r.src ≠ q.src)

/-- Of messages of different sources, the one whose source comes first from a pointer on. -/
def nearest (ptr : Nat) : List QMsg → Option QMsg
  | [] => none
  | q :: qs =>
    let dist := fun (r : QMsg) => (r.src + ptrPlaces - ptr) % ptrPlaces
    match nearest ptr qs with
    | some r => if dist r < dist q then some r else some q
    | none => some q

/-- The message whose header a channel sends next: by the second rotating pointer over the input ports and local agents (R309). -/
def PyPortSt.newMsg (x : PyPortSt) (cls : QMsg → Bool) (vc : Nat) : Option QMsg :=
  nearest (count x.ptr2 vc) ((firstOfEach (x.outq.filter (fun q => decide (q.vc = vc)))).filter (x.credit cls))

/-- The message whose flit a channel sends next: one begun goes on, flits of one message being contiguous on their channel (R308). -/
def PyPortSt.nextMsg (x : PyPortSt) (cls : QMsg → Bool) (vc : Nat) : Option QMsg :=
  match x.outq.find? (fun q => decide (q.vc = vc) && q.begun) with
  | some q => if x.credit cls q then some q else none
  | none => x.newMsg cls vc

/-- The choice among channels: control first, the others by a rotating pointer; a port without a role sends control only (R305, R309). -/
def PyPortSt.choose (x : PyPortSt) (cls : QMsg → Bool) (all : Bool) : Option QMsg :=
  match x.nextMsg cls 3 with
  | some q => some q
  | none => if all then ((List.range 3).map (fun k => (x.ptr + k) % 3)).findSome? (x.nextMsg cls) else none

/-- Replace the first occurrence of a message by what is left of it, if anything. -/
def shrink (q : QMsg) : List QMsg → List QMsg
  | [] => []
  | r :: rs =>
    if r = q then (match q.flits with | _ :: [] => rs | _ :: fs => { q with flits := fs, begun := true } :: rs | [] => rs)
    else r :: shrink q rs

/-- Send one flit of a message as a sequenced unit; a flit in transit leaves its receive buffer (R308). -/
def State.sendFlit (s : State) (p : PyPort) (q : QMsg) : State :=
  match q.flits with
  | [] => s
  | f :: rest =>
    let x := s.port p
    let cls := s.flitClass p q
    let u := (x.trailer x.txSeq.toNat q.vc cls (if q.begun then 2 else 1)).unit f
    let k := vcKey q.vc cls
    let y := { x.returned with
      txSeq := x.txSeq + 1, replay := x.replay ++ [(x.txSeq, u)], outq := shrink q x.outq, used := setCount x.used k (count x.used k + 1),
      ptr := if rest.isEmpty && decide (q.vc ≠ 3) then (x.ptr + 1) % 3 else x.ptr,
      ptr2 := if q.begun then x.ptr2 else setCount x.ptr2 q.vc ((count x.ptr2 q.vc + 1) % ptrPlaces) }
    (((s.setPort p y).addPair .pyTxFlits p 1).release q 1).emit (.unit p u)

/-- FLIT_SEND: a unit sent again after a NAK or retrain, else the next flit, else an idle unit with acknowledgement and
credits (R306, R307, R309). -/
def State.flitSend (s : State) (p : PyPort) : State :=
  let x := s.port p
  if s.pyState p ≠ 4 then s
  else
    match x.again with
    | q :: rest => (s.setPort p { x with again := rest }).emit (.unit p q.2)
    | [] =>
      match (if x.replay.length < 2048 then x.choose (s.flitClass p) (decide (s.role p ≠ 0)) else none) with
      | some q => s.sendFlit p q
      | none => (s.setPort p x.returned).emit (.unit p ((x.trailer 0 0 false 0).unit (zeros 64)))

def execFlitSend (p : PyPort) (s : State) : Host.Outcome State Fault Refusal := .next (s.flitSend p)

end Sys2Proof.Machine
end

