-- ==== Sys2Proof/Machine/XSlot.lean ====
section
/-! DEFINITION. X-slot ops and the fetch engine: queue, tags, responses, landing cache (R196 to R204, R276, R318, R319). -/

namespace Sys2Proof.Machine

/-! ### Tags and the X queue -/

def Station.tag (x : Station) (k : Nat) : TagSt := Tbl.get (fun _ => TagSt.free) x.tags k

def Station.setTag (x : Station) (k : Nat) (t : TagSt) : Station := { x with tags := Tbl.put (fun _ => TagSt.free) x.tags k t }

def TagSt.busy (t : TagSt) : Bool := t.op.isSome

/-- The 16-bit tag name of an op that holds a tag; a feed-form XFETCH holds none (R198). -/
def XEntry.holdsTag (e : XEntry) : Bool := decide (e.kind ≠ .feed)

/-- The request of bit 3 stands while the queue holds 32 ops or more (R202). -/
def State.xHold (s : State) (stn : Nat) : State :=
  if 32 ≤ (s.station stn).xq.length then s.shutReq (dieOf stn) 3 stn else s.shutRel (dieOf stn) 3 stn

/-- Take an op into the X queue (R202). -/
def State.xPush (s : State) (stn : Nat) (e : XEntry) : State :=
  (s.modStation stn (fun x => { x with xq := x.xq ++ [e] })).xHold stn

/-- An empty entry of the X queue. -/
def XEntry.base (k : XKind) (tag : Nat) (p : OpPlace) : XEntry :=
  { kind := k, bypass := false, absent := false, tag := tag, addr := 0, la := 0, len := 1, rd := 0, sd := 0, dt := 0, nacc := 0,
    data := none, place := p, wait := 2 }

/-! ### Responses (R200, R201, R203) -/

/-- The wait of a landing-cache fill for a tag of a station. -/
def LcWait.isFor (w : LcWait) (stn k : Nat) : Bool := decide (w.stn = stn) && decide (w.tag = k)

/-- Free a tag (R197); it waits for no fill any more. -/
def State.freeTag (s : State) (stn k : Nat) : State :=
  (s.modStation stn (fun x => x.setTag k { x.tag k with op := none, cancel := false })).modDie (dieOf stn) (fun d =>
    { d with fills := d.fills.map (fun f => { f with waits := f.waits.filter (fun w => !w.isFor stn k) }) })

/-- A fault of an X op is captured and the station stops on the tick the response arrives (R203, R204, R228). -/
def State.xFault (s : State) (stn code : Nat) (e : XEntry) : State :=
  (((s.captureLx stn code e.place.strm e.tag (s.tick0 stn)).traceFault stn e.place).stopStation stn .stopped).sendFault
    (dieOf stn) code false stn

/-- IMEM_BUSY of a refused remote write (R174, R179, R203). -/
def State.xImem (s : State) (stn : Nat) (e : XEntry) : State :=
  (((s.captureSeq stn 8 8 4 e.place).traceFault stn e.place).stopStation stn .stopped).sendFault (dieOf stn) 8 false stn

/-- The fault code of an error status (Table 11-10). -/
def lxCode (status : Nat) : Nat :=
  match status with
  | 1 => 0xB
  | 2 => 0x5
  | 3 => 0x6
  | _ => 0xD

/-- Land the data of a completed op at the end of the tick: read data and results in the station store, an XNORM total in NACC and
S[SD], over which a write of that tick by an op of the stream stands (R200, R252). -/
def State.xLand (s : State) (stn : Nat) (e : XEntry) (data : List Byte) : State :=
  match e.kind with
  | .fetch | .red => s.arrive stn .landing (.store e.la data)
  | .norm =>
    let v := fp64.decode (leNat data)
    (s.arrive stn .norm (.nacc e.place.strm (BitVec.ofNat 48 (w48.encode v)))).arrive stn .norm
      (.sreg e.place.strm e.sd (BitVec.ofNat 32 (fp32.encode v)))
  | _ => s

/-- A response to the op of a tag (R201, R203). -/
def State.xRespond (s : State) (stn k status : Nat) (data : List Byte) : State :=
  let t := (s.station stn).tag k
  match t.op with
  | none => s
  | some e =>
    let s1 := s.freeTag stn k
    if t.cancel then s1
    else if status = 0 then s1.xLand stn e data
    else if status = 4 then s1.xImem stn e
    else s1.xFault stn (lxCode status) e

/-! ### Issue (R197 to R202) -/

/-- The Pycia address in a register pair (R197). -/
def State.apAddr (s : State) (stn : Nat) (m : Strm) (ap : Nat) : BitVec 64 :=
  BitVec.ofNat 64 (s.sreg stn m (2 * ap) + 2 ^ 32 * s.sreg stn m (2 * ap + 1))

/-- INC of XFETCH and XPUT at the end of the tick: LA and the address pair, with carry; where they meet, the pair's value stands (R197,
log entry 16). -/
def State.xInc (s : State) (i : Issue) (o : XOp) (t : Nat) : State :=
  if o.inc then
    let n := 64 * (o.len.toNat + 1)
    let a := (s.apAddr i.stn i.strm o.ap.toNat).toNat + n
    ((s.later i.stn t .xInc (.sreg i.strm o.la.toNat (s.incVal i.stn i.strm o.la.toNat n))).later i.stn t .xInc
      (.sreg i.strm (2 * o.ap.toNat) (BitVec.ofNat 32 a))).later i.stn t .xInc
      (.sreg i.strm (2 * o.ap.toNat + 1) (BitVec.ofNat 32 (a / 2 ^ 32)))
  else s

/-- The entry of an XFETCH or XPUT with the operands captured at issue (R197). -/
def State.xEntry (s : State) (i : Issue) (o : XOp) (k : XKind) (p : OpPlace) : XEntry :=
  { XEntry.base k o.tag.toNat p with
    bypass := o.bypass, addr := s.apAddr i.stn i.strm o.ap.toNat, la := s.sreg i.stn i.strm o.la.toNat / 64 * 64,
    len := o.len.toNat + 1 }

def xfetchEff (i : Issue) (o : XOp) (p : OpPlace) (s : State) : State :=
  (s.xPush i.stn (s.xEntry i o .fetch p)).xInc i o p.tick

/-- XFETCH, forms 0b00 and 0b10. -/
def execXfetch (i : Issue) (o : XOp) (s : State) : Host.Outcome State Fault Refusal := .next (s.issue i .x (xfetchEff i o))

def feedEff (i : Issue) (o : FeedOp) (p : OpPlace) (s : State) : State :=
  let a := s.sreg i.stn i.strm o.la.toNat
  let e := { XEntry.base .feed (o.queue.toNat + 4 * b2n o.absent) p with absent := o.absent, la := a / 32 * 32 }
  let s1 := s.xPush i.stn e
  if o.inc then s1.later i.stn p.tick .xInc (.sreg i.strm o.la.toNat (s.incVal i.stn i.strm o.la.toNat 32)) else s1

/-- XFETCH, feed form. -/
def execXfetchFeed (i : Issue) (o : FeedOp) (s : State) : Host.Outcome State Fault Refusal := .next (s.issue i .x (feedEff i o))

/-- An uncorrectable error in the store is found on the landing port that reads an XPUT's source (R257). -/
def landingBad : Ecc → Option Nat
  | .bad mem addr => if mem = 1 then some addr.toNat else none
  | _ => none

/-- XPUT: its source bytes are read by the tick on which it may leave (R198, log entry 2); an unreadable source sends nothing (R257). -/
def xputEff (i : Issue) (o : XOp) (p : OpPlace) (s : State) : State :=
  let e := s.xEntry i o .put p
  match landingBad i.ecc with
  | some a => ((s.xInc i o p.tick).captureMem i.stn 1 a true).xFault i.stn 13 e
  | none => (s.xPush i.stn e).xInc i o p.tick

def execXput (i : Issue) (o : XOp) (s : State) : Host.Outcome State Fault Refusal :=
  .next (s.issue { i with ecc := if (landingBad i.ecc).isSome then .clean else i.ecc } .x (xputEff i o))

/-- XCANCEL: busy XFETCH and XPUT tags of the group are cancelled, unsent ops of the group leave the queue (R201). -/
def xcancelEff (i : Issue) (g : Nat) (_ : OpPlace) (s : State) : State :=
  let s1 := s.modStation i.stn (fun x =>
    let y := (List.range 8).foldl (fun (y : Station) j =>
      let t := y.tag (8 * g + j)
      match t.op with
      | some e => if e.kind = .fetch ∨ e.kind = .put then y.setTag (8 * g + j) { t with cancel := true } else y
      | none => y) x
    { y with xq := y.xq.filter (fun e => !((decide (e.kind = .fetch) || decide (e.kind = .put)) && decide (e.tag / 8 = g))) })
  s1.xHold i.stn

def execXcancel (i : Issue) (grp : BitVec 3) (s : State) : Host.Outcome State Fault Refusal :=
  .next (s.issue i .x (xcancelEff i grp.toNat))

def xredEff (i : Issue) (o : XredOp) (p : OpPlace) (s : State) : State :=
  s.xPush i.stn { XEntry.base .red o.tag.toNat p with
    dt := o.dt, la := s.sreg i.stn i.strm o.la.toNat / 64 * 64, len := o.len.toNat + 1, rd := s.sreg i.stn i.strm o.rd.toNat }

/-- XRED. -/
def execXred (i : Issue) (o : XredOp) (s : State) : Host.Outcome State Fault Refusal := .next (s.issue i .x (xredEff i o))

def xnormEff (i : Issue) (o : XnormOp) (p : OpPlace) (s : State) : State :=
  s.xPush i.stn { XEntry.base .norm o.tag.toNat p with
    rd := s.sreg i.stn i.strm o.rd.toNat, sd := o.sd.toNat, nacc := (s.stream i.stn i.strm).nacc }

/-- XNORM: NACC is read on the issue tick (R200). -/
def execXnorm (i : Issue) (o : XnormOp) (s : State) : Host.Outcome State Fault Refusal := .next (s.issue i .x (xnormEff i o))

/-! ### Landing cache (R275 to R277) -/

/-- Home stack, set, and line name of an address (R276). -/
def lcHome (addr : Nat) : Nat := bitsOf addr 10 8
def lcSet (addr : Nat) : Nat := bitsOf addr 22 11
def lcLine (addr : Nat) : Nat := addr / 256

/-- The line of the cache that holds an address. -/
def DieSt.lcFind (d : DieSt) (line : Nat) : Option LcLine := d.lines.find? (fun l => l.line = line)

/-- Fills of a home stack, in arrival order. -/
def DieSt.homeFills (d : DieSt) (h : Nat) : List LcFill := d.fills.filter (fun f => lcHome (256 * f.line) = h)

/-- The parts of a byte range inside each 256-byte line: address, length, place in the destination. -/
def lineParts : Nat → Nat → Nat → Nat → List (Nat × Nat × Nat)
  | 0, _, _, _ => []
  | n + 1, a, len, la =>
    if len = 0 then []
    else
      let k := min len (256 - a % 256)
      (a, k, la) :: lineParts n (a + k) (len - k) (la + k)

/-- Send the fabric read of a fill, which MS_LC_MISS counts: 256 bytes from the landing-cache agent of the die (R276, R318, Table
9-13). -/
def State.lcRequest (s : State) (d line : Nat) : State :=
  let a := BitVec.ofNat 64 (256 * line)
  let agent := 0x408 + d
  let s := s.addPair .msLcMiss d 1
  match s.target (modOf a) with
  | .remote m => s.enqueue agent m ⟨1, 0, s.srcId, m, agent, 0, 0, 256, (withMod a m).toNat, 0, 0, 0, 0⟩ []
  | _ => s.emit (.req (BitVec.ofNat 12 agent) 0 0 a 256 [])

/-- Home stack of a die's line, and the address there of the line in a way of its set: the carve-out holds the lines way by way, set by
set (R275, log entry 14). -/
def lcStack (d addr : Nat) : Nat := 8 * d + lcHome addr
def lcPlace (addr way : Nat) : Nat := 0x1F800000 + (8 * lcSet addr + way) * 256

/-- A line of the cache is read out of its home stack: its data land, or the read takes the error response of an unusable line (R278,
R279). -/
def State.lcHit (s : State) (stn k : Nat) (q : Nat × Nat × Nat) (l : LcLine) (e : Ecc) (fails : Nat) : State :=
  let n := lcStack (dieOf stn) q.1
  let s1 := (s.addPair .msLcHits (dieOf stn) 1).xfer n (lcPlace q.1 l.way) 2 fails e
  if s.readOk n fails e then s1.arrive stn .landing (.store q.2.2 ((l.data.drop (q.1 % 256)).take q.2.1)) else s1.xRespond stn k stData []

/-- One line of a read through the cache: it hits, joins the fill in flight, or starts a fill (R276). -/
def State.lcRead (s : State) (stn k : Nat) (q : Nat × Nat × Nat) (e : Ecc) (fails : Nat) : State :=
  let d := dieOf stn
  let x := s.die d
  let line := lcLine q.1
  match x.lcFind line with
  | some l => s.lcHit stn k q l e fails
  | none =>
    let w : LcWait := ⟨stn, k, BitVec.ofNat 64 q.1, q.2.1, q.2.2⟩
    if x.fills.any (fun f => decide (f.line = line) && !f.stale) then
      s.modDie d (fun y => { y with fills := y.fills.map (fun f =>
        if f.line = line ∧ f.stale = false then { f with waits := f.waits ++ [w] } else f) })
    else
      let full := decide (128 ≤ (x.homeFills (lcHome q.1)).length)
      let s1 := s.modDie d (fun y => { y with fills := y.fills ++ [⟨line, [w], false⟩] })
      if full then s1 else s1.lcRequest d line

/-- Whether some fill of the die still owes data to a tag. -/
def DieSt.owes (d : DieSt) (stn k : Nat) : Bool := d.fills.any (fun f => f.waits.any (fun w => w.isFor stn k))

/-- The lines of a read, until one ends it with an error; what the memory does on the first hit is `e` and `fails`. -/
def State.lcReads (s : State) (stn k : Nat) (e : Ecc) (fails : Nat) : List (Nat × Nat × Nat) → State
  | [] => s
  | q :: qs =>
    if !((s.station stn).tag k).busy then s
    else if ((s.die (dieOf stn)).lcFind (lcLine q.1)).isSome then (s.lcRead stn k q e fails).lcReads stn k .clean 0 qs
    else (s.lcRead stn k q .clean 0).lcReads stn k e fails qs

/-- A read through the landing cache (R198, R276): its tag frees at once when every line hits. -/
def State.lcFetch (s : State) (stn : Nat) (e : XEntry) (c : Ecc) (fails : Nat) : State :=
  let s1 := s.lcReads stn e.tag c fails (lineParts 18 e.addr.toNat (64 * e.len) e.la)
  if (s1.die (dieOf stn)).owes stn e.tag || !((s1.station stn).tag e.tag).busy then s1 else s1.freeTag stn e.tag

/-- Install a line in the way its set's round-robin pointer names (R276). -/
def DieSt.install (d : DieSt) (line : Nat) (data : List Byte) : DieSt :=
  let a := 256 * line
  let key := 4096 * lcHome a + lcSet a
  let way := Tbl.get (fun _ => 0) d.ways key
  { d with lines := d.lines.filter (fun l => !(decide (l.home = lcHome a) && decide (l.set = lcSet a) && decide (l.way = way)))
             ++ [⟨lcHome a, lcSet a, way, line, data⟩],
           ways := Tbl.put (fun _ => 0) d.ways key ((way + 1) % 8) }

/-- Give the data of a fill, or its error, to one waiting read. -/
def State.lcServe (s : State) (status line : Nat) (data : List Byte) (w : LcWait) : State :=
  let t := (s.station w.stn).tag w.tag
  if t.op.isNone then s
  else if status ≠ 0 then s.xRespond w.stn w.tag status []
  else
    let s1 := if t.cancel then s
      else s.arrive w.stn .landing (.store w.la ((data.drop (w.addr.toNat - 256 * line)).take w.len))
    if (s1.die (dieOf w.stn)).owes w.stn w.tag then s1 else s1.freeTag w.stn w.tag

/-- The way that the next line of a set is installed in (R276). -/
def DieSt.nextWay (d : DieSt) (line : Nat) : Nat := Tbl.get (fun _ => 0) d.ways (4096 * lcHome (256 * line) + lcSet (256 * line))

/-- The response of a fill: it is installed if it is good, no invalidation fell since and its write to the home stack goes through,
every waiting read is served, and the next miss waiting for a place in flight is sent (R276 to R278). -/
def State.lcFill (s : State) (d line status : Nat) (data : List Byte) (fails : Nat) : State :=
  let x := s.die d
  match x.fills.find? (fun f => f.line = line) with
  | none => s
  | some f =>
    let waiting := (x.homeFills (lcHome (256 * line)))[128]?
    let n := lcStack d (256 * line)
    let put := decide (status = 0) && !f.stale
    let s1 := (s.modDie d (fun y =>
      let z := { y with fills := x.fills.erase f }
      if put && s.xferOk n fails then z.install line data else z)).onlyIf put (fun t =>
        t.xfer n (lcPlace (256 * line) (x.nextWay line)) 3 fails .clean)
    let s2 := f.waits.foldl (fun t w => t.lcServe status line data w) s1
    match waiting with
    | some g => s2.lcRequest d g.line
    | none => s2

/-- A fill has been sent: it is one of the first 128 of its home stack (R276). -/
def DieSt.sent (d : DieSt) (f : LcFill) : Bool := ((d.homeFills (lcHome (256 * f.line))).take 128).contains f

/-- Every line of a die's landing cache becomes invalid; fills in flight will not be installed, but those of misses that still wait to be
sent will be (R276, R277). -/
def DieSt.lcInvalidate (d : DieSt) : DieSt :=
  { d with lines := [], fills := d.fills.map (fun f => if d.sent f then { f with stale := true } else f) }

/-! ### Sending (R202) -/

/-- Parameters of a reduction from its descriptor (Table 11-25). -/
def redParams (desc : List Byte) (dt : BitVec 2) (len : Nat) : RedParams :=
  let n := leNat desc
  ⟨BitVec.ofNat 32 n, BitVec.ofNat 16 (n / 2 ^ 32), BitVec.ofNat 16 (n / 2 ^ 48), BitVec.ofNat 16 (n / 2 ^ 64), bitOf n 80, bitOf n 81,
   dt, len⟩

/-- The rank of this module in the group of a reduction, if it is a member (R325). -/
def State.rankOf (s : State) (p : RedParams) : Option Nat :=
  let i := s.fld .pySelfLogical 0 13 0
  let b := p.base.toNat
  let k := p.stride.toNat
  if s.bit .pySelfLogical 0 31 = true ∧ b ≤ i ∧ k ≠ 0 ∧ (i - b) % k = 0 ∧ (i - b) / k ≤ p.count.toNat then some ((i - b) / k) else none

/-- A descriptor that breaks the rules of R325. -/
def State.descBad (s : State) (desc : List Byte) (e : XEntry) : Bool :=
  let p := redParams desc e.dt (64 * e.len)
  decide (leNat desc / 2 ^ 82 ≠ 0) || decide (16383 < p.count.toNat) || decide (p.stride.toNat = 0) || decide (16383 < p.stride.toNat)
    || (decide (e.kind = .norm) && p.maxOp) || (decide (e.kind = .red) && decide (e.dt = 1) && decide (e.len % 3 ≠ 0))
    || (s.rankOf p).isNone

/-- Stations whose NACC the trees of R291 wait for. -/
def State.normMembers (s : State) : List Nat :=
  (List.range 1024).filter (fun i => bitOf (s.reg .shtCtrl (dieOf i)) (i / 32 % 8) && s.present (segOf i))

/-- A pairwise tree of W48 additions over 2^n values from index `i` (R291). -/
def normTree (f : Nat → Nat) : Nat → Nat → Nat
  | 0, i => f i
  | n + 1, i => addW48 (normTree f n i) (v48 (normTree f n (i + 2 ^ n)))

/-- The package total of a key's contributions (R291, R327): over die trees of 256 leaves and the package tree of four. -/
def normTotal (vals : List (Nat × Nat × BitVec 48)) (key : Nat) : Nat :=
  normTree (fun i =>
    match vals.find? (fun v => decide (v.1 = key) && decide (v.2.1 = i)) with
    | some v => v.2.2.toNat
    | none => 0) 10 0

/-- A station contributes its NACC; when every member has, the total leaves as this module's FP64 operand (R291, R292). -/
def State.normAdd (s : State) (stn : Nat) (e : XEntry) (p : RedParams) : State :=
  let key := p.key.toNat
  let vals := s.norm ++ [(key, stn, e.nacc)]
  if s.normMembers.all (fun i => vals.any (fun v => decide (v.1 = key) && decide (v.2.1 = i))) then
    let total := fp64.encode (v48 (normTotal (vals.filter (fun v => s.normMembers.contains v.2.1)) key))
    ({ s with norm := vals.filter (fun v => v.1 ≠ key) }).emit
      (.redUp ((s.rankOf p).getD 0) ⟨p, (s.rankOf p).getD 0, 0, true, false, 0x40C, 0, 0, leBytes 8 total⟩)
  else { s with norm := vals }

/-- The segment of a die that is not in service, where there is one (R3, R198). -/
def State.absentSeg (s : State) (d : Nat) : Option Nat := ((List.range 8).map (8 * d + ·)).find? (fun g => !s.present g)

/-- The segment whose feed port a feed-form post names (R198). -/
def State.feedSeg (s : State) (stn : Nat) (e : XEntry) : Option Nat :=
  if e.absent then s.absentSeg (dieOf stn) else some (segOf stn)

/-- The op at the head may be sent: two ticks have passed since its issue, in a freeze frozen ones (DESIGN CHOICE, log entry 2), and its
tag is free, or the descriptor queue it names has room (R202, R222, R274). -/
def State.xReady (s : State) (stn : Nat) (e : XEntry) : Bool :=
  decide (e.wait = 0) &&
    (if e.kind = .feed then
      (match s.feedSeg stn e with
       | some g => decide ((s.feed g (e.tag % 4)).depth < 8)
       | none => true)
     else !((s.station stn).tag e.tag).busy)

/-- A feed descriptor enters the descriptor queue it names; a segment that the die does not lack is an address error (R198, R274). -/
def State.sendFeed (s : State) (stn : Nat) (e : XEntry) : State :=
  match s.feedSeg stn e with
  | none => s.xFault stn 11 e
  | some g =>
    let q := e.tag % 4
    let f := s.feed g q
    s.setFeed g q { f with descs := f.descs ++ [{
      stn := stn, place := e.place, la := e.la, isRead := false, origin := 0, k0 := 0, j0 := 0, nk := 0, ncb := 0, cstep := 0,
      tag0 := 0, col := false, inj := false, tagInc := false, twin := false, period := 0, start := 0, fetched := 0, used := 0,
      missed := false }] }

/-- Take a tag for an op: its generation advances (R318). -/
def State.takeTag (s : State) (stn : Nat) (e : XEntry) : State :=
  s.modStation stn (fun x => x.setTag e.tag ⟨(x.tag e.tag).gen + 1, some e, false⟩)

/-- The source bytes of an XPUT: as read already, else as the landing port sees them now (R198, R252). -/
def State.putBytes (s : State) (stn : Nat) (e : XEntry) : List Byte :=
  match e.data with
  | some bs => bs
  | none => if e.kind = .put then (s.portView stn).rdStore e.la (64 * e.len) else []

/-- Send a read or write on its tag (R311 to R315, R35). -/
def State.sendRequest (s : State) (stn : Nat) (e : XEntry) (c : Ecc) (fails : Nat) : State :=
  let wr := decide (e.kind = .put)
  let g := ((s.station stn).tag e.tag).gen
  let n := 64 * e.len
  let m := modOf e.addr
  let bs := s.putBytes stn e
  let loc := fun (t : State) (a : BitVec 64) => t.emit (.req (BitVec.ofNat 12 stn) g (BitVec.ofNat 6 e.tag) a n bs)
  match s.target m with
  | .loc => loc s e.addr
  | .remote p =>
    if !wr && !e.bypass && s.bit .msLcCtrl (dieOf stn) 0 then s.lcFetch stn { e with addr := withMod e.addr p } c fails
    else s.enqueue stn p ⟨if wr then 2 else 1, 0, s.srcId, p, stn, g.toNat, e.tag, n, (withMod e.addr p).toNat, 0, 0, 0, 0⟩ bs
  | .group _ => if wr then loc s e.addr else s.xRespond stn e.tag 1 []
  | .bad st => (s.noteBad st m).xRespond stn e.tag st []

/-- What the ECC of a station memory brings about on the landing port (R253, R257): the state, and whether data are usable. -/
def State.landEcc (s : State) (i : Nat) (e : Ecc) : State × Bool :=
  match e with
  | .clean => (s, true)
  | .corrected => (s.memCorrected i, true)
  | .bad mem addr => (s.captureMem i mem.toNat addr.toNat true, false)

/-- Send a reduction: the landing port reads the descriptor and the operand now (R199, R200, R257, R325). -/
def State.sendReduce (s : State) (stn : Nat) (e : XEntry) (c : Ecc) : State :=
  let x := s.portView stn
  let q := s.landEcc stn c
  let s := q.1
  let desc := x.rdStore e.rd 64
  if !q.2 then s.xRespond stn e.tag stData []
  else if s.descBad desc e then s.xRespond stn e.tag 1 []
  else if e.kind = .norm then
    let p := redParams desc 2 8
    (s.modStation stn (fun y => y.setTag e.tag { y.tag e.tag with op := some { e with la := p.key.toNat } })).normAdd stn e p
  else
    let p := redParams desc e.dt (64 * e.len)
    s.emit (.redUp ((s.rankOf p).getD 0) ⟨p, (s.rankOf p).getD 0, 0, true, false, BitVec.ofNat 12 stn,
      ((s.station stn).tag e.tag).gen, BitVec.ofNat 6 e.tag, x.rdStore e.la (64 * e.len)⟩)

/-- X_QUEUE_SEND (R202), with what the memory read by the op meets: the store for a reduction, the home stack of a line that a cached
read hits. -/
def execXQueueSend (x : StnXfer) (s : State) : Host.Outcome State Fault Refusal :=
  .next (match (s.station x.stn).xq with
    | [] => s
    | e :: rest =>
      if s.xReady x.stn e then
        let s1 := (s.modStation x.stn (fun y => { y with xq := rest })).xHold x.stn
        match e.kind with
        | .feed => s1.sendFeed x.stn e
        | .fetch | .put => (s1.takeTag x.stn e).sendRequest x.stn e x.ecc x.fails
        | .red | .norm => (s1.takeTag x.stn e).sendReduce x.stn e x.ecc
      else s)

/-! ### Arrivals (R203, R318, R319) -/

/-- A response of another generation is discarded and counted (R318, Table 11-27). -/
def State.countGen (s : State) : State := s.countFld .pyErrCount 0 31 16 1

/-- X_RESPONSE. -/
def State.xResponse (s : State) (stn : Nat) (m : RspMsg) : State :=
  let k := m.tag.toNat
  if m.agent.toNat ≠ stn then s
  else if ((s.station stn).tag k).gen ≠ m.gen then s.countGen
  else s.xRespond stn k m.status.toNat m.data

def execXResponse (stn : Stn) (m : RspMsg) (s : State) : Host.Outcome State Fault Refusal := .next (s.xResponse stn m)

/-- XNORM_RESULT: the FP64 total reaches a contributing station (R200). -/
def State.xnormResult (s : State) (stn k : Nat) (gen : BitVec 4) (total : BitVec 64) : State :=
  let t := (s.station stn).tag k
  if t.gen ≠ gen then s.countGen
  else
    match t.op with
    | some e => if e.kind = .norm then s.xRespond stn k 0 (leBytes 8 total.toNat) else s
    | none => s

def execXnormResult (stn : Stn) (tag : BitVec 6) (gen : BitVec 4) (total : BitVec 64) (s : State) : Host.Outcome State Fault Refusal :=
  .next (s.xnormResult stn tag.toNat gen total)

end Sys2Proof.Machine
end

