-- ==== Sys2Proof/Machine/Reduce.lean ====
section
/-! DEFINITION. Multicast at its issuing unit and fixed-order reductions (R321 to R327). -/

namespace Sys2Proof.Machine

/-- An agent that is no station hears the answer to a request of its own. A WRITE of Sundial that fails is a ledger entry that has not
reached the collector (R366). -/
def State.tellAgent (s : State) (agent : Nat) (gen : BitVec 4) (tag : BitVec 6) (status : Nat) (wr : Bool) (data : List Byte) : State :=
  let t := s.emit (.rsp (BitVec.ofNat 16 s.srcId) (BitVec.ofNat 12 agent) gen tag wr status data)
  if agent = 0x401 ∧ wr = true ∧ status ≠ stOk then t.event 0x8007 [1] else t

/-- Answer a request of an agent of this module: a station's tag at once, any other agent by a response that goes out. -/
def State.answer (s : State) (agent : Nat) (gen : BitVec 4) (tag status : Nat) (wr : Bool) (data : List Byte) : State :=
  if agent < 1024 then
    (if ((s.station agent).tag tag).gen = gen then s.xRespond agent tag status data else s.countGen)
  else s.tellAgent agent gen (BitVec.ofNat 6 tag) status wr data

/-! ### Multicast (R321 to R324) -/

def State.group (s : State) (g : Nat) : McGroup := Tbl.get (fun _ => McGroup.reset) s.mcast g

def State.setGroup' (s : State) (g : Nat) (x : McGroup) : State := { s with mcast := Tbl.put (fun _ => McGroup.reset) s.mcast g x }

/-- The valid members of a group, as their bits (R321). -/
def State.members (s : State) (g : Nat) : List Nat := (List.range 64).filter (fun i => s.bit .pyMcastMember (64 * g + i) 31)

def hasBit (w : BitVec 64) (i : Nat) : Bool := bitOf w.toNat i
def addBit (w : BitVec 64) (i : Nat) : BitVec 64 := w ||| BitVec.ofNat 64 (2 ^ i)
def delBit (w : BitVec 64) (i : Nat) : BitVec 64 := w &&& ~~~ BitVec.ofNat 64 (2 ^ i)

/-- A write to a multicast group is taken into the group's messages; a group without a valid member is refused (R321). -/
def State.mcastTake (s : State) (g : Nat) (m : ReqMsg) : State :=
  if (s.members g).isEmpty then s.answer m.agent.toNat m.gen m.tag.toNat 1 true []
  else
    let x := s.group g
    s.setGroup' g { x with next := x.next + 1, msgs := x.msgs ++ [⟨x.next, m.agent.toNat, m.gen, m.tag.toNat, m.addr, m.data, false, 0, 0, 0, 0⟩] }

/-- Change the message of a group with a sequence number. -/
def McGroup.modMsg (x : McGroup) (q : BitVec 32) (f : McMsg → McMsg) : McGroup :=
  { x with msgs := x.msgs.map (fun m => if m.mseq = q then f m else m) }

/-- A member has answered a message of a group: with OK, or with an error (R324). -/
def State.mcAnswered (s : State) (g i : Nat) (q : BitVec 32) (ok : Bool) : State :=
  s.setGroup' g ((s.group g).modMsg q (fun m =>
    { m with ackd := addBit m.ackd i, held := delBit m.held i, good := if ok then addBit m.good i else m.good }))

/-- One MC_WRITE leaves for a member over its unicast route, or over the package mesh for this module; a member that no message reaches
is answered for here: an address error or Unreachable (R312, R314, R321). -/
def State.mcSend (s : State) (g i : Nat) (m : McMsg) : State :=
  let s1 : State := s.setGroup' g ((s.group g).modMsg m.mseq (fun y => { y with left := true, sent := addBit y.sent i, held := delBit y.held i }))
  match s.target (s.fld .pyMcastMember (64 * g + i) 15 0) with
  | .remote p => s1.enqueue m.agent p ⟨5, 0, s.srcId, 0xFF00 + g, m.agent, m.gen.toNat, m.tag, m.data.length, (withMod m.addr p).toNat, 0, 0, 0,
      m.mseq.toNat⟩ m.data
  | .loc => s1.emit (.mcWrite (BitVec.ofNat 16 s.srcId) g m.mseq m.addr m.data)
  | .group _ => s1.mcAnswered g i m.mseq false
  | .bad st => (s1.noteBad st (s.fld .pyMcastMember (64 * g + i) 15 0)).mcAnswered g i m.mseq false

/-- Messages of a member that are out and not acknowledged. -/
def McGroup.outOf (x : McGroup) (i : Nat) : Nat := (x.msgs.filter (fun m => hasBit m.sent i && !hasBit m.ackd i)).length

/-- Members on the common path (R323). -/
def State.onPath (s : State) (g : Nat) : List Nat := (s.members g).filter (fun i => !hasBit (s.group g).off i)

/-- Bytes held in the multicast buffer by messages that have left (R321). -/
def State.mcBuffered (s : State) : Nat :=
  s.mcast.foldl (fun n p => p.2.msgs.foldl (fun k m => if m.left then k + m.data.length else k) n) 0

/-- The next new message of a group leaves for the members on the common path, while pacing and the 2 MiB buffer allow; members off it
will be sent it on the straggler path (R323). -/
def State.mcNew (s : State) (g : Nat) : State :=
  let x := s.group g
  match x.msgs.find? (fun m => !m.left) with
  | none => s
  | some m =>
    if (s.onPath g).all (fun i => decide (x.outOf i < 16)) && decide (s.mcBuffered + m.data.length ≤ 2 ^ 21) then
      (s.onPath g).foldl (fun t i => t.mcSend g i m) (s.setGroup' g (x.modMsg m.mseq (fun y => { y with left := true })))
    else s

/-- A member on the straggler path with nothing out is sent the oldest message it lacks (R323). -/
def State.mcStraggler (s : State) (g i : Nat) : State :=
  let x := s.group g
  if 0 < x.outOf i ∨ x.msgs.any (fun m => hasBit m.held i) = true then s
  else match x.msgs.find? (fun m => !hasBit m.ackd i && m.left) with
    | some m => s.mcSend g i m
    | none => s

/-- A member leaves the common path: what it has not acknowledged will be sent again, one message at a time (R323). -/
def State.mcOff (s : State) (g i : Nat) : State :=
  let x := s.group g
  s.setGroup' g { x with off := addBit x.off i,
                         msgs := x.msgs.map (fun m => if hasBit m.ackd i then m else { m with sent := delBit m.sent i }) }

/-- A member off the common path that has acknowledged every message that has left rejoins it (R323). -/
def State.mcRejoin (s : State) (g i : Nat) : State :=
  let x := s.group g
  if x.msgs.all (fun m => hasBit m.ackd i || !m.left) then s.setGroup' g { x with off := delBit x.off i } else s

/-- A message leaves the multicast buffer, and the members that lack none any more rejoin the common path (R321, R323). -/
def State.mcDrop (s : State) (g : Nat) (q : BitVec 32) : State :=
  let x := s.group g
  ((List.range 64).filter (hasBit x.off)).foldl (fun t i => t.mcRejoin g i)
    (s.setGroup' g { x with msgs := x.msgs.filter (fun y => y.mseq ≠ q) })

/-- A multicast ends in failure: recorded with the members that received it, its tag freed with code 0xD (R324, Table 11-23). -/
def State.mcFail (s : State) (g : Nat) (m : McMsg) : State :=
  let s1 := if s.bit .pyMcastFail 0 31 then s
    else (s.setReg .pyMcastFail 0 (2 ^ 31 + g * 2 ^ 23 + m.tag % 64 * 2 ^ 17 + m.agent % 4096 * 2 ^ 5)).setPair .pyMcastFailMap 0 m.good.toNat
  (s1.mcDrop g m.mseq).answer m.agent m.gen m.tag 5 true []

/-- Every member has acknowledged: the tag frees (R324). -/
def State.mcFinish (s : State) (g : Nat) (q : BitVec 32) : State :=
  match (s.group g).msgs.find? (fun m => m.mseq = q) with
  | none => s
  | some m =>
    if m.left && (s.members g).all (fun i => hasBit m.ackd i) then
      (if (s.members g).all (fun i => hasBit m.good i) then (s.mcDrop g q).answer m.agent m.gen m.tag 0 true [] else s.mcFail g m)
    else s

/-- The messages of a group that every member has answered end (R324). -/
def State.mcFinishes (s : State) (g : Nat) : State := ((s.group g).msgs.map (·.mseq)).foldl (fun t q => t.mcFinish g q) s

/-- MCAST_SEND. -/
def State.mcastSend (s : State) (g : Nat) : State :=
  let s1 := ((s.members g).filter (fun i => hasBit (s.group g).off i)).foldl (fun t i => t.mcStraggler g i) s
  (s1.mcNew g).mcFinishes g

def execMcastSend (group : BitVec 8) (s : State) : Host.Outcome State Fault Refusal := .next (s.mcastSend group.toNat)

/-- MC_ACK (R322 to R324): Hold takes the member off the common path; any other answer is an acknowledgement. -/
def State.mcAck (s : State) (g i : Nat) (q : BitVec 32) (status : Nat) : State :=
  let x := s.group g
  if !x.msgs.any (fun m => m.mseq = q) then s
  else if status = 8 then
    s.setGroup' g ({ x with off := addBit x.off i }.modMsg q (fun m => { m with held := addBit m.held i, sent := delBit m.sent i }))
  else
    ((s.mcAnswered g i q (decide (status = 0))).mcRejoin g i).mcFinish g q

def execMcAck (group : BitVec 8) (member : BitVec 6) (mseq : BitVec 32) (status : BitVec 4) (s : State) : Host.Outcome State Fault Refusal :=
  .next (s.mcAck group.toNat member.toNat mseq status.toNat)

/-- MCAST_HOLD_RETRY: a held member is tried again every 2 µs (R322). -/
def State.mcRetry (s : State) (g i : Nat) : State :=
  match (s.group g).msgs.find? (fun m => hasBit m.held i) with
  | some m => (s.mcSend g i m).mcFinishes g
  | none => s

def execMcastHoldRetry (group : BitVec 8) (member : BitVec 6) (s : State) : Host.Outcome State Fault Refusal :=
  .next (s.mcRetry group.toNat member.toNat)

/-- The member has not acknowledged a message that every other member on the common path has (R323). -/
def State.mcLags (s : State) (g i : Nat) : Bool :=
  (s.group g).msgs.any (fun m => hasBit m.sent i && !hasBit m.ackd i && (s.onPath g).all (fun j => decide (j = i) || hasBit m.ackd j))

/-- MCAST_LAG_EXPIRY. -/
def execMcastLagExpiry (group : BitVec 8) (member : BitVec 6) (s : State) : Host.Outcome State Fault Refusal :=
  .next (if member.toNat ∈ s.onPath group.toNat ∧ s.mcLags group.toNat member.toNat = true then s.mcOff group.toNat member.toNat else s)

/-- MCAST_TIMEOUT (R324, R328). -/
def State.mcTimeout (s : State) (g : Nat) (q : BitVec 32) : State :=
  match (s.group g).msgs.find? (fun m => m.mseq = q) with
  | some m => (s.pyErr 9 0 (0xFF00 + g)).mcFail g m
  | none => s

def execMcastTimeout (group : BitVec 8) (mseq : BitVec 32) (s : State) : Host.Outcome State Fault Refusal :=
  .next (s.mcTimeout group.toNat mseq)

/-! ### Combination (R326) -/

/-- The larger of two values of a format as VMAX gives it, with the format's canonical NaN (R326). -/
def Fmt.maxOf (f : Fmt) (a b : Nat) : Nat :=
  let x := f.decode a
  let y := f.decode b
  if x.isNan || y.isNan then f.nanBits
  else if FV.lt x y then b
  else if FV.lt y x then a
  else if a.testBit (f.eb + f.mb) then b else a

/-- The format and bytes of an operand element of a reduction (R199). -/
def redFmt (dt : Nat) : Fmt × Nat :=
  match dt with
  | 0 => (fp32, 4)
  | 1 => (w48, 6)
  | _ => (fp64, 8)

/-- One element: addition with one rounding, or maximum; the left operand first (R326). -/
def redOp (dt : Nat) (mx : Bool) (a b : Nat) : Nat :=
  let f := (redFmt dt).1
  if mx then f.maxOf a b
  else
    let v := FV.add (f.decode a) (f.decode b)
    if v.isNan then f.nanBits else f.encode v

/-- Element by element over `n` elements. -/
def redBytes (dt : Nat) (mx : Bool) : Nat → List Byte → List Byte → List Byte
  | 0, _, _ => []
  | n + 1, a, b =>
    let w := (redFmt dt).2
    leBytes w (redOp dt mx (leNat (a.take w)) (leNat (b.take w))) ++ redBytes dt mx n (a.drop w) (b.drop w)

def RedKey.op (k : RedKey) (a b : List Byte) : List Byte :=
  redBytes k.par.dt.toNat k.par.maxOp (k.par.len / (redFmt k.par.dt.toNat).2) a b

/-! ### Engines (R325 to R327) -/

/-- Members of a group. -/
def redSize (p : RedParams) : Nat := p.count.toNat + 1

/-- The right child of level j + 1 of rank r in the tree, 2^j above it, where there is one (R326). -/
def redChildren (r n : Nat) : List Nat :=
  ((List.range 14).filter (fun j => decide (r % 2 ^ (j + 1) = 0) && decide (r + 2 ^ j < n))).map (fun j => r + 2 ^ j)

/-- The parent of a rank other than 0 in the tree: its leftmost-leaf rank of the next node. -/
def redParent (r : Nat) : Nat :=
  match (List.range 14).find? (fun j => decide (r % 2 ^ (j + 1) ≠ 0)) with
  | some j => r - 2 ^ j
  | none => 0

/-- The tree level of the value a rank sends up. -/
def redLevel (r : Nat) : Nat := ((List.range 14).find? (fun j => decide (r % 2 ^ (j + 1) ≠ 0))).getD 0

/-- The ranks from which a rank needs a partial before its own can leave, in the order they combine (R326). -/
def redNeeds (p : RedParams) (r : Nat) : List Nat :=
  if p.tree then redChildren r (redSize p) else if r = 0 then [] else [r - 1]

def RedKey.part (k : RedKey) (r : Nat) : Option (List Byte) := (k.parts.find? (fun q => q.1 = r)).map (·.2)

/-- The combined value of a rank, once everything it needs has arrived: in a chain the partial is the left operand, in a tree
the rank's own value is (R326). -/
def RedKey.value (k : RedKey) (r : Nat) : Option (List Byte) :=
  (redNeeds k.par r).foldl (fun acc c =>
    match acc, k.part c with
    | some v, some w => some (if k.par.tree then k.op v w else k.op w v)
    | _, _ => none) k.own

/-- The rank that holds the result (R326). -/
def redRoot (p : RedParams) : Nat := if p.tree then 0 else redSize p - 1

/-- The ranks to which a result goes on (R326). -/
def redDownTo (p : RedParams) (r : Nat) : List Nat :=
  if p.tree then redChildren r (redSize p) else if r = 0 then [] else [r - 1]

/-- The rank to which a partial goes (R326). -/
def redUpTo (p : RedParams) (r : Nat) : Nat := if p.tree then redParent r else r + 1

/-- Logical index of a rank (R325). -/
def redLogical (p : RedParams) (r : Nat) : Nat := p.base.toNat + r * p.stride.toNat

def redAgent (p : RedParams) : Nat := 0x40C + b2n (bitOf p.key.toNat 0)

/-- Send a reduction message to the engine of another rank (R325, Table 11-8). -/
def State.redSend (s : State) (opc r : Nat) (m : RedMsg) : State :=
  let p := m.par
  let flags := p.dt.toNat + b2n p.maxOp * 4 + b2n p.tree * 8 + m.level % 16 * 16
  let rdesc := p.base.toNat + p.count.toNat * 2 ^ 16 + p.stride.toNat * 2 ^ 32
  match s.target (0x8000 + redLogical p r) with
  | .remote d => s.enqueue (redAgent p) d
      ⟨opc, if m.mism then 7 else 0, s.srcId, d, redAgent p, 0, m.tag.toNat, p.len, d * 2 ^ 48, p.key.toNat, rdesc, flags, 0⟩
      (if m.mism then [] else m.data)
  | .loc => s.emit (if opc = 7 then .redUp r m else .redDown r m)
  | .group _ => s
  | .bad st => s.noteBad st (0x8000 + redLogical p r)

/-- The status with which a rank cannot be reached: a reserved ID, or no valid remap entry or route (R312, R315). -/
def State.redBad (s : State) (p : RedParams) (r : Nat) : Option Nat :=
  match s.target (0x8000 + redLogical p r) with
  | .bad st => some st
  | .group _ => some 1
  | _ => none

def State.setKey (s : State) (k : RedKey) : State := { s with redKeys := s.redKeys.map (fun x => if x.par.key = k.par.key then k else x) }

/-- A key's slot is free: the ports give back the credits withheld for the reduce channel (R327). -/
def State.dropKey (s : State) (key : BitVec 32) : State :=
  (List.range 16).foldl (fun t p => t.modPort p (fun x =>
      { x with toRet := [4, 5].foldl (fun c k => setCount c k (count c k + count x.held k)) x.toRet, held := [] }))
    { s with redKeys := s.redKeys.filter (fun x => x.par.key ≠ key) }

/-- The result of a reduction, or its status, reaches this module's contributor, whose tag has a generation (R318, R326). -/
def State.redAnswer (s : State) (agent : Nat) (gen : BitVec 4) (tag status : Nat) (data : List Byte) : State :=
  if agent < 1024 then s.answer agent gen tag status false data
  else s.emit (.rsp (BitVec.ofNat 16 s.srcId) (BitVec.ofNat 12 agent) 0 0 false status data)

/-- The result of a key lands at this module's contributor and goes on down (R326, R327). -/
def State.redLand (s : State) (k : RedKey) (r : Nat) (mism : Bool) (data : List Byte) : State :=
  let s1 := (redDownTo k.par r).foldl (fun t c =>
    t.redSend 8 c ⟨k.par, r, 0, false, mism, BitVec.ofNat 12 (redAgent k.par), 0, 0, data⟩) (s.dropKey k.par.key)
  if k.own.isNone then s1 else s1.redAnswer k.agent k.gen k.tag (if mism then 7 else 0) (if mism then [] else data)

/-- Everything that a key needs has arrived (R326). -/
def RedKey.whole (k : RedKey) (r : Nat) : Bool := k.own.isSome && (redNeeds k.par r).all (fun c => (k.part c).isSome)

/-- The value that a key sends on, once all it needs has arrived: after a mismatch none, but the status (R326, R327). -/
def RedKey.ready (k : RedKey) (r : Nat) : Option (List Byte) := if k.mism then (if k.whole r then some [] else none) else k.value r

/-- What the engine does once a key has all it needs: the root's result descends, any other rank's partial goes up; a rank above that
cannot be reached is an error of this module's own op (R315, R326). -/
def State.redAdvance (s : State) (k : RedKey) : State :=
  match s.rankOf k.par with
  | none => s
  | some r =>
    if k.sentUp then s
    else
      match k.ready r with
      | none => s
      | some v =>
        if r = redRoot k.par then s.redLand k r k.mism v
        else
          let s1 := (s.setKey { k with sentUp := true }).redSend 7 (redUpTo k.par r)
            ⟨k.par, r, redLevel r, false, k.mism, BitVec.ofNat 12 (redAgent k.par), 0, 0, v⟩
          match s.redBad k.par (redUpTo k.par r), k.own with
          | some st, some _ => (s1.dropKey k.par.key).redAnswer k.agent k.gen k.tag st []
          | _, _ => s1

/-- A key with an arrival added; one that disagrees with what is held, or a second own operand, is a mismatch, and the key goes on with the
parameters that it has (R327, log entry 26). -/
def RedKey.arrive (k : RedKey) (m : RedMsg) : RedKey :=
  let bad := k.mism || m.mism || decide (k.par ≠ m.par)
  if m.own then
    (if k.own.isSome then { k with mism := true }
     else { k with own := some (if k.par = m.par then m.data else []), agent := m.agent.toNat, tag := m.tag.toNat, gen := m.gen, mism := bad })
  else { k with parts := k.parts ++ [(m.rank, m.data)], mism := bad }

/-- A second own operand of a key is answered with the mismatch at once (R327). -/
def State.redRefuse (s : State) (k : RedKey) (m : RedMsg) : State :=
  if m.own && k.own.isSome then s.redAnswer m.agent.toNat m.gen m.tag.toNat 7 [] else s

/-- Keys held by the engine that a key belongs to (R325, R327). -/
def State.redHeld (s : State) (p : RedParams) : Nat :=
  (s.redKeys.filter (fun k => bitOf k.par.key.toNat 0 == bitOf p.key.toNat 0)).length

/-- An operand of this module or a partial of another rank reaches the reduce engine; with all 2,048 slots held one for a new key waits
outside (R326, R327, log entry 26). -/
def State.redTake (s : State) (m : RedMsg) : State :=
  match s.redKeys.find? (fun k => k.par.key = m.par.key) with
  | some k =>
    let k1 := k.arrive m
    let s1 := (s.setKey k1).redRefuse k m
    (if k1.mism && !k.mism && !m.mism then s1.pyErr 8 0 s.srcId else s1).redAdvance k1
  | none =>
    if 2048 ≤ s.redHeld m.par then { s with redWait := s.redWait ++ [m] }
    else
      let k := (⟨m.par, none, 0, 0, 0, [], false, false⟩ : RedKey).arrive m
      ({ s with redKeys := s.redKeys ++ [k] }).redAdvance k

/-- What waited outside the engines is tried again, in its order (R327). -/
def State.redRetry (s : State) : State := s.redWait.foldl State.redTake { s with redWait := [] }

/-- RED_UP. -/
def execRedUp (m : RedMsg) (s : State) : Host.Outcome State Fault Refusal := .next (s.redTake m).redRetry

/-- RED_DOWN: the result descends and lands (R326). -/
def State.redDown (s : State) (m : RedMsg) : State :=
  match s.redKeys.find? (fun k => k.par.key = m.par.key), s.rankOf m.par with
  | some k, some r => (s.redLand k r (k.mism || m.mism) m.data).redRetry
  | _, _ => s

def execRedDown (m : RedMsg) (s : State) : Host.Outcome State Fault Refusal := .next (s.redDown m)

/-! ### FETCH_TIMEOUT (R203, R318, R319) -/

/-- The reduction of an op that has timed out is held for it no longer: its slot and the credits withheld come free, and what waited outside
is tried again (R327). -/
def State.redForget (s : State) (stn k : Nat) (e : XEntry) : State :=
  let drop := fun (t : State) (f : RedKey → Bool) => (t.redKeys.filter f).foldl (fun u x => u.dropKey x.par.key) t
  match e.kind with
  | .red =>
    (drop { s with redWait := s.redWait.filter (fun m => !(m.own && decide (m.agent.toNat = stn) && decide (m.tag.toNat = k))) }
      (fun x => x.own.isSome && decide (x.agent = stn) && decide (x.tag = k))).redRetry
  | .norm =>
    (drop { s with norm := s.norm.filter (fun v => v.1 ≠ e.la) }
      (fun x => x.own.isSome && decide (x.agent = 0x40C) && decide (x.par.key.toNat = e.la))).redRetry
  | _ => s

/-- FETCH_TIMEOUT of a tag: it frees and its generation advances; one that was not cancelled raises a tag timeout (R203, R318, R319). -/
def State.tagTimeout (s : State) (stn k : Nat) : State :=
  let t := (s.station stn).tag k
  match t.op with
  | none => s
  | some e =>
    let s1 := ((s.redForget stn k e).freeTag stn k).modStation stn (fun x => x.setTag k { x.tag k with gen := (x.tag k).gen + 1 })
    if t.cancel then s1 else s1.xFault stn 12 e

/-- The status that reports the timeout of a fill or of a request of the firmware: one that is captured as code 0xD (R319,
log entry 25). -/
def timeoutStatus : Nat := 5 + Config.timeoutStatus % 2

/-- The status with which an agent hears of a timeout: at a host port one that Table 12-3 maps to Remote Operational Error, as it does
FETCH_TIMEOUT (log entry 25). -/
def agentTimeout (a : Nat) : Nat := if a = 0x404 ∨ a = 0x405 then stData else timeoutStatus

/-- FETCH_TIMEOUT (R319). -/
def execFetchTimeout (who : TimedOut) (tag : BitVec 6) (s : State) : Host.Outcome State Fault Refusal :=
  .next (match who with
    | .stn i => s.tagTimeout i tag.toNat
    | .fill d line => s.lcFill d line timeoutStatus [] 0
    | .agent a gen wr => s.tellAgent a.toNat gen tag (agentTimeout a.toNat) wr [])

end Sys2Proof.Machine
end

