-- ==== Sys2Proof/Machine/Csr.lean ====
section
/-! DEFINITION. Writes of registers: their checks and their effects (R10, R11, R431 to R434 and the table of each register). -/

namespace Sys2Proof.Machine

/-! ### Checks (R10, R11) -/

/-- A check that passes, or refuses with an error response. -/
def okIf (c : Bool) : Nat := if c then stOk else stAddr

/-- A run of bytes of region 0x0 lies in the stacks of die `d` (R90). -/
def inDie (d base size : Nat) : Bool := decide (d * 2 ^ 32 ≤ base) && decide (base + size ≤ (d + 1) * 2 ^ 32)

/-- SHT_CTRL (R239, R243). -/
def State.checkSht (s : State) (d v : Nat) : Nat :=
  let p := bitsOf v 9 8
  okIf ((decide (p = 1) || decide (p = 2)) && !(s.dieRunning d && decide (only v 0x13FF ≠ only (s.reg .shtCtrl d) 0x13FF))
    && bitOf (s.regRead .idPartInfo 0 false) (3 + p)
    && (List.range 8).all (fun g => !bitOf v g || s.present (8 * d + g)))

/-- SEG_SPARE (R122). -/
def State.checkSpare (s : State) (g v : Nat) : Nat :=
  okIf (decide (bitsOf v 5 0 ≤ 32) && s.present g && (bitOf (s.segSpareWord g) 16 || decide (bitsOf v 5 0 = s.sparePos g)))

/-- STN_OWN_MAP (R166): the active set of a running station refuses with IMEM_BUSY. -/
def State.checkMap (s : State) (i : Nat) : Nat :=
  if s.running (i / 40) && decide (i % 40 / 20 = b2n (s.station (i / 40)).ownSet) then stImem else stOk

/-- The width class of an FMT_TABLE code (Table 3-10). -/
def tableClass (f : Nat) : Option Nat := if f = 0 then some 3 else wclass f

/-- A FMT_TABLE value whose FMT is a code of its CLASS (R92, Table 3-10). -/
def fmtOk (v : Nat) : Bool := decide (tableClass (bitsOf v 3 0) = some (bitsOf v 9 8))

/-- FMT_TABLE (R92, R93). -/
def State.checkFmt (s : State) (i v : Nat) : Nat :=
  okIf (fmtOk v && !(s.bit .fmtPolicy (i / 4096) 31 && decide (bitsOf (s.latest .fmtTable i) 9 8 ≠ bitsOf v 9 8)))

/-- FMT_CAND (R94): a slot holds 0x0 or a code of its class. -/
def checkCand (v : Nat) : Nat :=
  okIf ([(24, 2), (20, 0), (16, 0), (12, 1), (8, 1), (4, 1), (0, 1)].all (fun (q : Nat × Nat) =>
    let c := bitsOf v (q.1 + 3) q.1
    decide (c = 0) || decide (wclass c = some q.2)))

/-- The dies that a DBG_STEP of a scope resumes. -/
def stepDies (scope d : Nat) : List Nat := if scope = 2 then [0, 1, 2, 3] else [d]

/-- The target of a DBG_STEP is stopped at a break (R182). -/
def State.atBreak (s : State) (d v : Nat) : Bool :=
  let scope := bitsOf v 25 24
  if scope = 0 then decide ((s.station (256 * d + bitsOf v 23 16)).run = .brk) && s.present (segOf (256 * d + bitsOf v 23 16))
  else decide (scope < 3) && (stepDies scope d).any (fun x => (s.die x).frozen && (s.die x).reqs.any (fun q => q.bit = 9))

/-- The region of an entry once one of its words takes the value `v`. -/
def State.rgnWith (s : State) (r : Reg) (i v : Nat) : Option Rgn :=
  let w := fun (q : Reg) => if q = r then v else s.reg q i
  if bitOf (w .prismRgnBase) 31 then some (rgnOf (w .prismRgnBase) (w .prismRgnShape) (w .prismRgnScale) (w .prismRgnTwin)) else none

/-- The byte ranges that a region and its twin occupy. -/
def Rgn.spans (g : Rgn) : List (Nat × Nat) := (g.base, g.size) :: (if g.twin then [(g.tbase, g.size)] else [])

/-- Two byte ranges overlap. -/
def spansMeet (a b : Nat × Nat) : Bool := decide (a.1 < b.1 + b.2) && decide (b.1 < a.1 + a.2)

/-- The region table of a stack (R267, R268, R271). -/
def State.checkRgn (s : State) (r : Reg) (i v : Nat) : Nat :=
  let n := i / 16
  let new := s.rgnWith r i v
  let busy := (new.isSome || (s.rgn n (i % 16)).isSome) && s.dieRunning (n / 8)
  let twinMx := decide (r = .prismRgnShape) && bitOf v 2 && isMx (bitsOf v 7 4)
  let badFmt := decide (r = .prismRgnShape) && decide (10 < bitsOf v 7 4) && decide (bitsOf v 7 4 ≠ 14)
  okIf (!busy && !twinMx && !badFmt &&
    match new with
    | none => true
    | some g =>
      let others := ((List.range 16).filter (· ≠ i % 16)).flatMap (fun j => match s.rgn n j with | some h => h.spans | none => [])
      decide (1 ≤ g.fmt) && decide (g.fmt ≤ 10) && g.spans.all (fun a => decide (a.1 + a.2 ≤ stackSize))
        && g.spans.all (fun a => others.all (fun b => !spansMeet a b))
        && !(g.twin && spansMeet (g.base, g.size) (g.tbase, g.size)))

/-- The retirement table (R280): an entry that names a page once more is discarded also while the die is stopped, where R280 can be read
either way (DESIGN CHOICE, log entry 72). -/
def State.checkRetire (s : State) (i v : Nat) : Nat :=
  let n := i / 32
  let dup := bitOf v 31 && (List.range 32).any (fun j => decide (j ≠ i % 32) && s.bit .prismRetire (32 * n + j) 31
    && decide (s.fld .prismRetire (32 * n + j) 12 0 = bitsOf v 12 0))
  okIf (!s.dieRunning (n / 8) && !dup)

/-- A Mirror copy is active on a stack: a snapshot copies pages of it, or a restore is writing (R281, R399). -/
def State.mirrorOn (s : State) (n : Nat) : Bool :=
  decide (s.fld .snapStatus 0 31 30 = 3) || (decide (s.fld .snapStatus 0 31 30 = 2)
    && (s.bit .snapCtrl 0 31 || (List.range 128).any (fun g => s.bit .snapMask (4 * n + g / 32) (g % 32))))

/-- MS_TG_CTRL (R281, Table 9-18). -/
def State.checkTg (s : State) (c v : Nat) : Nat :=
  okIf (decide (bitsOf v 27 25 ≤ 4) && decide (bitsOf v 11 0 ≤ bitsOf v 23 12) && decide (bitsOf v 23 12 ≤ 2055)
    && !(bitOf v 31 && (s.dieRunning (c / 32) || s.bit .msLcCtrl (c / 32) 0 || s.mirrorOn (c / 4))))

/-- PWR_PROFILE (Table 14-4, R376, R385). -/
def State.checkProf (s : State) (v : Nat) : Nat :=
  okIf (!(bitOf v 31 && (s.armLow (bitsOf v 17 16) || s.armOver (bitsOf v 17 16))))

/-- A Zenith register may not be written while Zenith is active or armed (R373). -/
def State.zenithBusy (s : State) : Bool := decide (s.active = 3) || (s.armed && decide (s.nextProf = 3))

/-- Snapshot registers are written only while Mirror is idle (Table 15-8). -/
def State.checkReserve (s : State) (d v : Nat) : Nat :=
  let n := 8 * d + bitsOf v 19 17
  let first := bitsOf v 16 10
  let cnt := bitsOf v 7 0
  let marked := (List.range cnt).any (fun k => s.bit .snapMask ((128 * n + first + k) / 32) ((128 * n + first + k) % 32))
  okIf (s.mirrorIdle && decide (cnt ≤ 128) && (!bitOf v 31 || (decide (1 ≤ cnt) && decide (first + cnt ≤ 128) && !marked)))

/-- PY_MODULE_ID (Table 11-15). -/
def State.checkModId (s : State) (v : Nat) : Nat :=
  okIf (decide (bitsOf v 15 0 < 0x4000) && (List.range 16).all (fun p => decide (s.pyState p = 0)))

/-- The check of a register's write, by the rules of its table; `v` is the value written (R11). -/
def State.csrCheck (s : State) (who : Requester) (r : Reg) (i v : Nat) : Nat :=
  match r with
  | .shtCtrl => s.checkSht i v
  | .segSpare => s.checkSpare i v
  | .stnOwnMap => s.checkMap i
  | .stnStashWin => okIf (decide (bitsOf v 8 0 + bitsOf v 17 9 ≤ 512) && decide (bitsOf v 17 9 ≤ 384))
  | .stnStashSpill => okIf (decide (bitsOf v 31 22 = 0) || inDie (i / 256) (bitsOf v 21 0 * 4096) (bitsOf v 31 22 * 4096))
  | .stnStateEpoch | .stnDieEpoch | .msPgEpoch => okIf (decide (who = .fp 3))
  | .lensBase => okIf (inDie i (bitsOf v 11 0 * 2 ^ 22) (2 ^ 22))
  | .lensLogCfg | .dbgTraceCfg =>
    okIf (inDie i (bitsOf v 15 0 * 2 ^ 18) (2 ^ 18 * 2 ^ bitsOf v 18 16) && decide (bitsOf v 15 0 % 2 ^ bitsOf v 18 16 = 0))
  | .fmtTable => s.checkFmt i v
  | .fmtCand => checkCand v
  | .dbgStep => okIf (!bitOf v 31 || s.atBreak i v)
  | .dbgBrkF | .dbgBrkB | .dbgBrkU => okIf (decide (bitsOf v 20 19 ≠ 3))
  | .prismRgnBase | .prismRgnShape | .prismRgnScale | .prismRgnTwin => s.checkRgn r i v
  | .prismRetire => s.checkRetire i v
  | .msCtrl => okIf (!(s.dieRunning (i / 8)) || bitOf v 1 == s.bit .msCtrl i 1)
  | .msLcCtrl => okIf (!(s.dieRunning i) || bitOf v 0 == s.bit .msLcCtrl i 0)
  | .msTgCtrl => s.checkTg i v
  | .pwrProfile => s.checkProf v
  | .pwrCtrl => okIf (!s.armed && !s.anyRunning)
  | .pwrZenithClkv => okIf (!s.zenithBusy && decide (bitsOf v 31 26 ≤ 40) && decide (bitsOf v 25 20 ≤ 40))
  | .pwrZenithCfg => okIf (!s.zenithBusy && decide (bitsOf v 30 29 ≠ 3) && (!bitOf v 31 || zenithOk (s.reg .pwrZenithClkv 0) v))
  | .pwrIdleHint => okIf (decide (bitsOf v 11 10 ≠ 0))
  | .pwrRetain => okIf (decide (s.idleState ≠ 2))
  | .fwNextVariant => okIf (s.fw.variants.any (fun x => decide (x.index.toNat = bitsOf v 5 0)))
  | .mbxCtrl => okIf (decide (10 ≤ bitsOf v 15 0) && decide (bitsOf v 15 0 ≤ 60000))
  | .snapCtrl | .snapMask | .snapReloc => okIf s.mirrorIdle
  | .snapReserve => s.checkReserve i v
  | .snapInbound => okIf (s.mirrorIdle && (!bitOf v 31 || decide (1 ≤ bitsOf v 4 0)))
  | .ethPortCtrl => okIf (decide (bitsOf v 28 27 ≠ 3) && decide (3 ≤ bitsOf v 3 0) && decide (bitsOf v 3 0 ≤ 5))
  | .ethIpv4Addr => okIf (!s.qpsBusy i)
  | .ethIpv6Addr => okIf (!s.qpsBusy (i / 4))
  | .ethMkeyCtrl | .ethMkeyBase | .ethMkeyLimit => okIf (!s.rdmaBusy (i / 64))
  | .pyPortCtrl => okIf (decide (bitsOf v 19 16 ∈ [0, 1, 2, 3, 4, 5, 6, 8, 9, 10, 11])
      && (decide (s.pyState i = 0) || decide (bitsOf v 19 16 = s.role i)))
  | .pyModuleId => s.checkModId v
  | .pySelfLogical | .pyRemap => okIf (!s.anyRunning)
  | .pyTimeout => okIf (decide (bitsOf v 15 0 ≠ 0))
  | .pyMcastCtrl => okIf (decide (bitsOf v 15 0 < bitsOf v 31 16 * 10))
  | .pyMcastMember => okIf ((s.group (i / 64)).msgs.isEmpty)
  | .idAttest => okIf (!(bitOf v 31 && s.bit .idAttest 0 30))
  | .idNonce => okIf (!s.bit .idAttest 0 30)
  | _ => stOk

/-- What a refused write still does: a setting beyond the limits is noted by the governor (R385). -/
def State.csrRefused (s : State) (r : Reg) (v : Nat) : State :=
  match r with
  | .pwrProfile => s.onlyIf (bitOf v 31 && s.armOver (bitsOf v 17 16)) State.governs
  | .pwrZenithClkv => s.onlyIf (decide (40 < bitsOf v 31 26) || decide (40 < bitsOf v 25 20)) State.governs
  | .pwrZenithCfg => s.onlyIf (bitOf v 31 && zenithOver (s.reg .pwrZenithClkv 0)) State.governs
  | _ => s

/-! ### Effects -/

/-- Clear the counters of the Shutter of a die (R246, R249). -/
def State.shtClear (s : State) (d : Nat) : State := ((s.setReg .shtCount d 0).setPair .shtTicks d 0).setFld .shtFifo d 31 16 0

/-- FW_HOLD requests a shutter with bit 11, or releases it (R243, Table 8-2). -/
def State.fwHold (s : State) (d : Nat) : State := if s.bit .shtCtrl d 14 then s.shutReq d 11 0 else s.shutRel d 11 0

/-- DBG_STEP with GO 1: the target resumes, for TICKS + 1 ticks with FREE 0 (R182). -/
def State.dbgGo (s : State) (d v : Nat) : State :=
  let scope := bitsOf v 25 24
  let free := bitOf v 30
  let n := bitsOf v 15 0 + 1
  if scope = 0 then
    let i := 256 * d + bitsOf v 23 16
    s.modStation i (fun x => { x with run := .running, stopAt := if free then none else some (s.tick0 i + n),
                                      step := if free then none else some (s.tick0 i + n) })
  else
    (stepDies scope d).foldl (fun t x => t.modDie x (fun y =>
      { y with reqs := y.reqs.filter (fun q => q.bit ≠ 9)
               timed := if free || !y.frozen then y.timed else y.timed ++ [(13, s.dieTime x + s.tickLen (s.netRegion x) * n)] })) s

/-- The expected 64-bit word of a channel test at channel-local byte address `x` (Table 9-18). Walking ones have bit (x / 8) mod 64 set, and
the address that is the data is `x` itself (DESIGN CHOICE, log entry 29). -/
def tgWord (pat x : Nat) : Nat :=
  match pat with
  | 0 => Config.prbs x
  | 1 => x
  | 2 => 2 ^ (x / 8 % 64)
  | 3 => 0
  | _ => 2 ^ 64 - 1

/-- First byte and number of 256-byte lines of a channel test's range. -/
def tgRange (v : Nat) : Nat × Nat := (bitsOf v 11 0 * 65536, (bitsOf v 23 12 + 1 - bitsOf v 11 0) * 256)

/-- The transfers of a run that fail their parity check: whether a write, the channel-local address of the 64-bit word, how often. -/
abbrev TgFails := List (Bool × Nat × Nat)

/-- A transfer of a run: its repeats are counted, and one that does not go through is recorded (R278, R281). The page is the one of the
linear mapping, which the generator bypasses (DESIGN CHOICE, log entry 29). -/
def State.tgXfer (s : State) (c x : Nat) (write : Bool) (bad : TgFails) : State × Bool :=
  match bad.find? (fun q => decide (q.1 = write) && decide (q.2.1 = x)) with
  | none => (s, true)
  | some q =>
    let n := c / 4
    let s1 := s.countFld .msErrCount n 15 8 (s.retries n q.2.2)
    if s.xferOk n q.2.2 then (s1, true) else (s1.msErrorAt n (if write then 3 else 2) c (x / 2 ^ 14), false)

/-- Write the pattern to `n` 64-bit words of a channel from address `x` on; a write that fails is not applied (R278). -/
def State.tgWrite (s : State) (c pat x : Nat) (bad : TgFails) : Nat → State
  | 0 => s
  | n + 1 =>
    let q := s.tgXfer c x true bad
    (q.1.onlyIf q.2 (fun t => { t with stackMem := t.stackMem.wrLE (chanKey (c / 4) (c % 4) x) 8 (tgWord pat x) })).tgWrite c pat (x + 8) bad n

/-- Check one 64-bit word of a channel; one that is delivered poisoned does not match (DESIGN CHOICE, log entry 29). -/
def State.tgCheck1 (s : State) (c pat x : Nat) (bad : TgFails) : State :=
  let q := s.tgXfer c x false bad
  if q.2 = true ∧ s.stackMem.rdLE (chanKey (c / 4) (c % 4) x) 8 = tgWord pat x % 2 ^ 64 then q.1
  else
    let s1 := q.1.countFld .msTgErrs c 31 0 1
    if s.bit .msTgStatus c 30 then s1 else (s1.setFld .msTgStatus c 27 0 x).setFld .msTgStatus c 30 30 1

def State.tgCheck (s : State) (c pat x : Nat) (bad : TgFails) : Nat → State
  | 0 => s
  | n + 1 => (s.tgCheck1 c pat x bad).tgCheck c pat (x + 8) bad n

/-- A run has come as far as `done` lines, writing first where its mode writes, then checking (R281). -/
def State.tgRun (s : State) (c done : Nat) (bad : TgFails) : State :=
  let v := s.reg .msTgCtrl c
  let q := tgRange v
  let mode := bitsOf v 29 28
  let pat := bitsOf v 27 25
  let wr := if mode = 2 then 0 else min done q.2
  let ck := if mode = 1 then 0 else if mode = 2 then min done q.2 else min (done - q.2) q.2
  ((s.tgWrite c pat q.1 bad (32 * wr)).tgCheck c pat q.1 bad (32 * ck)).setFld .msTgStatus c 31 31 0

/-- START: the run begins and its error count is cleared (R281). -/
def State.tgStart (s : State) (c : Nat) : State :=
  { (s.setReg .msTgErrs c 0).setFld .msTgStatus c 31 31 1 with tgStops := s.tgStops.filter (· ≠ c) }

/-- STOP: a run will end at the next 256-byte boundary (R281). -/
def State.tgStop (s : State) (c : Nat) : State :=
  if s.bit .msTgStatus c 31 && !s.tgStops.contains c then { s with tgStops := s.tgStops ++ [c] } else s

/-- The effects of an accepted write beyond its fields. -/
def State.csrEffect (s : State) (who : Requester) (r : Reg) (i v : Nat) : State :=
  match r with
  | .shtCtrl => (s.onlyIf (bitOf v 13) (·.shtClear i)).fwHold i
  | .stnArrayCtrl => s.onlyIf (bitOf v 1) (fun t => (t.setPair .stnMmaCount i 0).setPair .stnRowTicks i 0)
  | .ringBridge => s.onlyIf (bitOf v 1) (fun t => t.setFld .ringBridge i 31 8 0)
  | .stnMemErr => s.onlyIf (bitOf v 31) (fun t => t.setFld .stnMemErr i 23 16 0)
  | .dbgStep => s.onlyIf (bitOf v 31) (fun t => t.dbgGo i v)
  | .dbgTraceDrop => s.setReg .dbgTraceDrop i 0
  | .clkRegionStatus => s.setFld .clkRegionStatus i 15 0 0
  | .pyErrCount => s.setReg .pyErrCount 0 0
  | .msCtrl => s.onlyIf (bitOf v 3) (fun t => t.setReg .msErrCount i 0)
  | .msLcCtrl =>
    (s.onlyIf (bitOf v 1) (fun t => t.modDie i DieSt.lcInvalidate)).onlyIf (bitOf v 2) (fun t => (t.setPair .msLcHits i 0).setPair .msLcMiss i 0)
  | .msTgCtrl => (s.onlyIf (bitOf v 31) (·.tgStart i)).onlyIf (bitOf v 30) (·.tgStop i)
  | .pyPortCtrl =>
    let s1 := s.onlyIf (bitOf v 29) (·.pyClear i)
    let s2 := if bitOf v 31 then s1.pyEnable i else s1.pyDisable i
    s2.onlyIf (bitOf v 30) (·.pyRetrain i)
  | .ethPortCtrl =>
    let s1 := s.onlyIf (bitOf v 30) (·.ethClear i)
    s1.onlyIf (!bitOf v 31) (·.ethDisable i)
  | .fwRestart => (List.range 4).foldl (fun t p => t.onlyIf (bitOf v p) (·.restart p 3)) s
  | .pwrProfile => s.onlyIf (bitOf v 31) (·.armDone (bitsOf v 17 16))
  | .pwrAvsCmd => s.onlyIf (bitOf v 31) (·.avsCommand v)
  | .pwrWakeEn => s.wakeCheck
  | .pwrIdleHint => s.setFld .pwrIdleHint 0 31 31 (b2n (!bitOf v 31))
  | .idAttest => s.onlyIf (bitOf v 31) (·.attestGo who)
  | _ => s

/-- A region that keeps a twin no longer, or another one: the bytes of the twin stay where it lay (R271, log entry 13). -/
def State.leaveTwin (s t : State) (r : Reg) (i : Nat) : State :=
  match r with
  | .prismRgnBase | .prismRgnShape | .prismRgnScale | .prismRgnTwin =>
    let n := i / 16
    match s.rgn n (i % 16) with
    | some g => t.onlyIf (g.twin && decide (t.rgn n (i % 16) ≠ some g)) (fun u => u.stackWrN n g.tbase (s.stackRdN n g.tbase g.size))
    | none => t
  | _ => t

/-- ALERT_L follows its status and enable bits (R419). -/
def State.alertPin (s t : State) : State := if s.alertOn = t.alertOn then t else t.emit (.pin 6 t.alertOn)

/-- A write of a register: the state after it and its status (R9 to R11, R433, R434). -/
def State.csrWrite (s : State) (who : Requester) (off width v : Nat) : State × Nat :=
  match s.regLocate off width with
  | .error st => (s, st)
  | .ok (r, i, hi) =>
    let st := s.csrCheck who r i v
    if st ≠ stOk then (s.csrRefused r v, st)
    else (s.alertPin ((s.leaveTwin (s.putReg r i hi v) r i).csrEffect who r i v), stOk)

/-- A write of a register as a command of its own: the answer goes out. -/
def State.writeOut (s : State) (who : Requester) (off width : Nat) (v : Nat) : State :=
  let q := s.csrWrite who off width v
  q.1.emit (.reg who off q.2 0)

/-- Write instance `i` of a register with some bits forced on: the rows of the table for one bit of a register. -/
def State.writeBit (s : State) (who : Requester) (r : Reg) (i : Nat) (val : Word) (on : Nat) : State :=
  s.writeOut who (r.at i) 4 (val.toNat ||| on)

/-- The same with some bits forced off. -/
def State.writeClear (s : State) (who : Requester) (r : Reg) (i : Nat) (val : Word) (off : Nat) : State :=
  s.writeOut who (r.at i) 4 (only val.toNat (2 ^ 32 - 1 - off))

/-! ### The commands -/

/-- REGISTER_WRITE (R10). -/
def execRegisterWrite (who : Requester) (off width : Nat) (val : Word) (s : State) : Host.Outcome State Fault Refusal :=
  .next (s.writeOut who off width val.toNat)

/-- ARRAY_CNT_CLR (R63, R65). -/
def execArrayCntClr (who : Requester) (stn : Stn) (val : Word) (s : State) : Host.Outcome State Fault Refusal :=
  .next (s.writeBit who .stnArrayCtrl stn val (2 ^ 1))

/-- BRIDGE_CNT_CLR (Table 4-12). -/
def execBridgeCntClr (who : Requester) (die : Die) (val : Word) (s : State) : Host.Outcome State Fault Refusal :=
  .next (s.writeBit who .ringBridge die val (2 ^ 1))

/-- SHT_CNT_CLR (R243, R246). -/
def execShtCntClr (who : Requester) (die : Die) (val : Word) (s : State) : Host.Outcome State Fault Refusal :=
  .next (s.writeBit who .shtCtrl die val (2 ^ 13))

/-- FW_HOLD_SET (R243). -/
def execFwHoldSet (who : Requester) (die : Die) (val : Word) (s : State) : Host.Outcome State Fault Refusal :=
  .next (s.writeBit who .shtCtrl die val (2 ^ 14))

/-- FW_HOLD_RELEASE (R243). -/
def execFwHoldRelease (who : Requester) (die : Die) (val : Word) (s : State) : Host.Outcome State Fault Refusal :=
  .next (s.writeClear who .shtCtrl die val (2 ^ 14))

/-- SPARE_SUBSTITUTION (R122). -/
def execSpareSubstitution (who : Requester) (seg : Seg) (val : Word) (s : State) : Host.Outcome State Fault Refusal :=
  .next (s.writeOut who (Reg.at .segSpare seg) 4 val.toNat)

/-- FMT_TABLE_WRITE (R92, R93). -/
def execFmtTableWrite (who : Requester) (die : Die) (tag : BitVec 12) (val : Word) (s : State) : Host.Outcome State Fault Refusal :=
  .next (s.writeOut who (Reg.at .fmtTable (4096 * die.val + tag.toNat)) 4 val.toNat)

/-- STATE_EPOCH_WRITE (R397). -/
def execStateEpochWrite (who : Requester) (u : EpochUnit) (val : Word) (s : State) : Host.Outcome State Fault Refusal :=
  .next (match u with
    | .station i => s.writeOut who (Reg.at .stnStateEpoch i) 4 val.toNat
    | .pageGroup g => s.writeOut who (Reg.at .msPgEpoch g) 4 val.toNat)

/-- DBG_STEP_FREE (R182). -/
def execDbgStepFree (who : Requester) (die : Die) (val : Word) (s : State) : Host.Outcome State Fault Refusal :=
  .next (s.writeBit who .dbgStep die val (2 ^ 31 + 2 ^ 30))

/-- DBG_STEP_TICKS (R182). -/
def execDbgStepTicks (who : Requester) (die : Die) (val : Word) (s : State) : Host.Outcome State Fault Refusal :=
  .next (s.writeOut who (Reg.at .dbgStep die) 4 (only val.toNat (2 ^ 30 - 1) + 2 ^ 31))

/-- TRACE_DROP_CLR (R183). -/
def execTraceDropClr (who : Requester) (die : Die) (val : Word) (s : State) : Host.Outcome State Fault Refusal :=
  .next (s.writeOut who (Reg.at .dbgTraceDrop die) 4 val.toNat)

/-- LC_INV (R277). -/
def execLcInv (who : Requester) (die : Die) (val : Word) (s : State) : Host.Outcome State Fault Refusal :=
  .next (s.writeBit who .msLcCtrl die val (2 ^ 1))

/-- LC_CNT_CLR (R277). -/
def execLcCntClr (who : Requester) (die : Die) (val : Word) (s : State) : Host.Outcome State Fault Refusal :=
  .next (s.writeBit who .msLcCtrl die val (2 ^ 2))

/-- MS_CNT_CLR (Table 9-15). -/
def execMsCntClr (who : Requester) (stack : Seg) (val : Word) (s : State) : Host.Outcome State Fault Refusal :=
  .next (s.writeBit who .msCtrl stack val (2 ^ 3))

/-- TG_START (R281). -/
def execTgStart (who : Requester) (ch : Fin 128) (val : Word) (s : State) : Host.Outcome State Fault Refusal :=
  .next (s.writeBit who .msTgCtrl ch val (2 ^ 31))

/-- TG_STOP (R281). -/
def execTgStop (who : Requester) (ch : Fin 128) (val : Word) (s : State) : Host.Outcome State Fault Refusal :=
  .next (s.writeBit who .msTgCtrl ch val (2 ^ 30))

/-- Lines that a run covers when nothing stops it: its range once, and once more where it writes and checks (R281). -/
def State.tgLines (s : State) (c : Nat) : Nat :=
  let n := (tgRange (s.reg .msTgCtrl c)).2
  if s.fld .msTgCtrl c 29 28 = 1 ∨ s.fld .msTgCtrl c 29 28 = 2 then n else 2 * n

/-- TG_RUN_DONE, with the transfers of the run that failed: a run in progress has covered its whole range, or ends by STOP after `upto`
lines; one that repeats goes on until stopped (R278, R281). -/
def execTgRunDone (r : TgDone) (s : State) : Host.Outcome State Fault Refusal :=
  .next (let c := r.ch.val
    if s.bit .msTgStatus c 31 then
      (if s.tgStops.contains c then
        { s.tgRun c (min r.upto (s.tgLines c)) r.fails with tgStops := s.tgStops.filter (· ≠ c) }
       else
        (let t := s.tgRun c (s.tgLines c) r.fails
         if s.fld .msTgCtrl c 29 28 = 3 then t.setFld .msTgStatus c 31 31 1 else t))
    else s)

/-- PATROL_SCRUB: corrected lines are counted and written back, which changes no value (R266, R279). -/
def execPatrolScrub (ch : Fin 128) (corrected : Nat) (s : State) : Host.Outcome State Fault Refusal :=
  .next (if s.bit .msCtrl (ch.val / 4) 2 then s.countFld .msErrCount (ch.val / 4) 31 16 corrected else s)

/-- PORT_ENABLE (R303). -/
def execPortEnable (who : Requester) (p : PyPort) (val : Word) (s : State) : Host.Outcome State Fault Refusal :=
  .next (s.writeBit who .pyPortCtrl p val (2 ^ 31))

/-- PORT_DISABLE (R303). -/
def execPortDisable (who : Requester) (p : PyPort) (val : Word) (s : State) : Host.Outcome State Fault Refusal :=
  .next (s.writeClear who .pyPortCtrl p val (2 ^ 31))

/-- PORT_RETRAIN (Table 11-3). -/
def execPortRetrain (who : Requester) (p : PyPort) (val : Word) (s : State) : Host.Outcome State Fault Refusal :=
  .next (s.writeBit who .pyPortCtrl p val (2 ^ 30))

/-- PY_CNT_CLR (Table 11-3, R328). -/
def execPyCntClr (who : Requester) (p : PyPort) (val : Word) (s : State) : Host.Outcome State Fault Refusal :=
  .next (s.writeBit who .pyPortCtrl p val (2 ^ 29))

/-- PY_ERR_COUNT_CLR (R328). -/
def execPyErrCountClr (who : Requester) (val : Word) (s : State) : Host.Outcome State Fault Refusal :=
  .next (s.writeOut who (Reg.at .pyErrCount 0) 4 val.toNat)

/-- ETH_PORT_ENABLE (Table 12-4). -/
def execEthPortEnable (who : Requester) (p : EthPort) (val : Word) (s : State) : Host.Outcome State Fault Refusal :=
  .next (s.writeBit who .ethPortCtrl p val (2 ^ 31))

/-- ETH_PORT_DISABLE (Table 12-8). -/
def execEthPortDisable (who : Requester) (p : EthPort) (val : Word) (s : State) : Host.Outcome State Fault Refusal :=
  .next (s.writeClear who .ethPortCtrl p val (2 ^ 31))

/-- ETH_CNT_CLR (Table 12-4). -/
def execEthCntClr (who : Requester) (p : EthPort) (val : Word) (s : State) : Host.Outcome State Fault Refusal :=
  .next (s.writeBit who .ethPortCtrl p val (2 ^ 30))

/-- PROFILE_ARM (R374, R376, R384). -/
def execProfileArm (who : Requester) (val : Word) (s : State) : Host.Outcome State Fault Refusal :=
  .next (s.writeBit who .pwrProfile 0 val (2 ^ 31))

/-- ZENITH_RECORD_WRITE (R373). -/
def execZenithRecordWrite (who : Requester) (val : Word) (s : State) : Host.Outcome State Fault Refusal :=
  .next (s.writeBit who .pwrZenithCfg 0 val (2 ^ 31))

/-- AVS_WRITE: the write-and-commit starts, and where its frame is on the bus the slave's reply comes (R382). -/
def execAvsWrite (who : Requester) (val : Word) (r : AvsReply) (s : State) : Host.Outcome State Fault Refusal :=
  .next (let t := s.writeOut who (Reg.at .pwrAvsCmd 0) 4 (only val.toNat (2 ^ 30 - 1) + 2 ^ 31)
    if s.pwr.avs.isNone then t.avsReply r else t)

/-- AVS_READ (R382). -/
def execAvsRead (who : Requester) (val : Word) (r : AvsReply) (s : State) : Host.Outcome State Fault Refusal :=
  .next (let t := s.writeBit who .pwrAvsCmd 0 val (2 ^ 31 + 2 ^ 30)
    if s.pwr.avs.isNone then t.avsReply r else t)

/-- IDLE_HINT (R389). -/
def execIdleHint (who : Requester) (val : Word) (s : State) : Host.Outcome State Fault Refusal :=
  .next (s.writeOut who (Reg.at .pwrIdleHint 0) 4 val.toNat)

/-- ATTEST_GO (R429). -/
def execAttestGo (who : Requester) (val : Word) (s : State) : Host.Outcome State Fault Refusal :=
  .next (s.writeBit who .idAttest 0 val (2 ^ 31))

/-- FW_RESTART (R354, R368). -/
def execFwRestart (who : Requester) (val : Word) (s : State) : Host.Outcome State Fault Refusal :=
  .next (s.writeOut who (Reg.at .fwRestart 0) 4 val.toNat)

end Sys2Proof.Machine
end

