-- ==== Sys2Proof/Machine/Lens.lean ====
section
/-! DEFINITION. The Lens table: posts merging, records, the ROM routines over it (R86 to R97, R172, R289). -/

namespace Sys2Proof.Machine

/-- Region code and offset of a Pycia address (Table 1-6). -/
def regionOfAddr (a : BitVec 64) : Nat := bitsOf a.toNat 47 44
def offsetOf (a : BitVec 64) : Nat := bitsOf a.toNat 43 0

/-! ### Records (R88, Table 3-6) -/

/-- Byte address in region 0x0 of the record of a tag and stream number in the table of die `d`. -/
def State.lensAddr (s : State) (d tag m : Nat) : Nat := s.fld .lensBase d 11 0 * 2 ^ 22 + tag * 1024 + m * 256

/-- Read a run of stack bytes by its region 0x0 offset. -/
def State.rd0 (s : State) (a len : Nat) : List Byte := s.stackRdN (a / stackSize) (a % stackSize) len

/-- Write a run of stack bytes by its region 0x0 offset, on a scheduled path. -/
def State.wr0 (s : State) (a : Nat) (bs : List Byte) (xs : List XferAt) : State := s.stackPut (a / stackSize) (a % stackSize) bs xs

/-- Word `w` of a record's bytes. -/
def recWord (bs : List Byte) (w : Nat) : Nat := leNat ((bs.drop (4 * w)).take 4)

/-- The live record that the bytes of a table record hold. -/
def LensRec.ofBytes (bs : List Byte) : LensRec :=
  { count := recWord bs 0, zero := recWord bs 1, nonfin := recWord bs 2, amax := BitVec.ofNat 32 (recWord bs 3), uflow := recWord bs 4,
    oflow := recWord bs 5, hist := Tbl.puts (fun _ => 0) [] 0 ((List.range 32).map (fun b => recWord bs (8 + b))) }

/-- The first 160 bytes of a table record (Table 3-6). -/
def LensRec.bytes (r : LensRec) : List Byte :=
  leBytes 4 r.count ++ leBytes 4 r.zero ++ leBytes 4 r.nonfin ++ leBytes 4 r.amax.toNat ++ leBytes 4 r.uflow ++ leBytes 4 r.oflow
    ++ List.replicate 8 0 ++ (List.range 32).flatMap (fun b => leBytes 4 (Tbl.get (fun _ => 0) r.hist b))

/-- Two records together: saturating sums and the larger magnitude (R87). -/
def LensRec.join (a b : LensRec) : LensRec :=
  let sum := fun (x y : Nat) => satTo 32 (x + y)
  { count := sum a.count b.count, zero := sum a.zero b.zero, nonfin := sum a.nonfin b.nonfin,
    amax := if a.amax.toNat < b.amax.toNat then b.amax else a.amax, uflow := sum a.uflow b.uflow, oflow := sum a.oflow b.oflow,
    hist := Tbl.puts (fun _ => 0) [] 0 ((List.range 32).map (fun i => sum (Tbl.get (fun _ => 0) a.hist i) (Tbl.get (fun _ => 0) b.hist i))) }

/-- Some counter saturates when two records are joined. -/
def LensRec.saturates (a b : LensRec) : Bool :=
  let ovf := fun (x y : Nat) => decide (2 ^ 32 ≤ x + y)
  ovf a.count b.count || ovf a.zero b.zero || ovf a.nonfin b.nonfin || ovf a.uflow b.uflow || ovf a.oflow b.oflow
    || (List.range 32).any (fun i => ovf (Tbl.get (fun _ => 0) a.hist i) (Tbl.get (fun _ => 0) b.hist i))

/-- A post merges into the table; a record that can not be read, or whose page group is quarantined, stays and SAT is set (R87, R264,
R279). -/
def State.mergePost (s : State) (d : Nat) (p : LensPost) (xs : List XferAt) : State :=
  let a := s.lensAddr d p.tag.toNat p.strm.idx
  let old := LensRec.ofBytes (s.rd0 a 160)
  if !s.readsOk xs a 160 || s.staleRange a 160 then s.setFld .lensStatus d 16 16 1
  else (s.onlyIf (old.saturates p.rcd) (fun t => t.setFld .lensStatus d 16 16 1)).wr0 a (old.join p.rcd).bytes xs

/-- The first post of a die is taken out: held reads have one less to wait for, and the request of bit 5 is released with the last
(R87, Table 8-2). -/
def State.popPost (s : State) (d : Nat) : State :=
  let t := (s.modDie d (fun x => { x with posts := x.posts.drop 1 })).fwUpd (fun f =>
    { f with heldWr := f.heldWr.map (fun h => if offsetOf h.msg.addr / 2 ^ 32 = d then { h with posts := h.posts - 1 } else h) })
  if (t.die d).posts.isEmpty then t.shutRel d 5 0 else t

/-- The oldest post of a die merges (R87); an uncorrectable error leaves its record unchanged and sets SAT (R279). -/
def State.postMerge (s : State) (d : Nat) (xs : List XferAt) : State :=
  match (s.die d).posts with
  | [] => s
  | p :: _ => ((s.xfers xs false (s.lensAddr d p.tag.toNat p.strm.idx) 160).mergePost d p xs).popPost d

/-- How many posts of a die have to merge before a read of a run of region 0x0 bytes: all up to the last one to a record that it touches
(R87). -/
def State.postsBefore (s : State) (off len : Nat) : Nat :=
  let d := off / 2 ^ 32
  let meets := fun (p : LensPost) =>
    let a := s.lensAddr d p.tag.toNat p.strm.idx
    decide (a < off + len) && decide (off < a + 256)
  ((s.die d).posts.reverse.dropWhile (fun p => !meets p)).length

/-- A read of the Lens table of a die is held for pending posts: a shutter is requested with bit 5 (R87, Table 8-2). -/
def State.lensAsk (s : State) (d : Nat) : State := s.shutReq d 5 0

end Sys2Proof.Machine
end

