-- ==== Sys2Proof/Machine/Access.lean ====
section
/-! DEFINITION. Accesses to module memory and the messages that carry them (R32 to R35, R174, R177, R257, R275, R311, R398, R400). -/

namespace Sys2Proof.Machine

/-! ### Addresses (Tables 1-6, 1-7) -/

/-- A range lies within the layout of its region and within one unit of it (R34, R311). -/
def unitOk (rgn off len : Nat) : Bool :=
  decide (1 ≤ len) &&
  match rgn with
  | 0 => decide (off < 2 ^ 34) && decide (off % stackSize + len ≤ stackSize)
  | 1 => decide (off < 2 ^ 31) && decide (off % 2 ^ 21 + len ≤ 2 ^ 21)
  | 2 => decide (off < 2 ^ 31) && decide (off % 2 ^ 21 + len ≤ 0x180000)
  | 3 => decide (off < 2 ^ 29) && decide (off % 2 ^ 19 + len ≤ 0x60000)
  | 4 => decide (off < 2 ^ 26) && decide (len = 4) && decide (off % 4 = 0)
  | 5 => decide (off < 2 ^ 21) && decide (off % 2 ^ 19 + len ≤ 2 ^ 19)
  | _ => false

/-- The range of a READ or WRITE message (R311). -/
def rangeOk (rgn off len : Nat) : Bool := decide (len ≤ 4096) && unitOk rgn off len

/-- The station that an offset of regions 0x1 to 0x3 names. -/
def stnOfOff (rgn off : Nat) : Nat := if rgn = 3 then off / 2 ^ 19 else off / 2 ^ 21

/-- Agents that reach a quarantined unit: the host, and any firmware processor, Mirror's writes among them (R398). -/
def trusted (agent : Nat) : Bool := decide (0x400 ≤ agent) && decide (agent ≤ 0x405)

/-- The landing cache's carve-out is in service over a range of region 0x0 (R275). -/
def State.inCarve (s : State) (off len : Nat) : Bool :=
  s.bit .msLcCtrl (off / 2 ^ 32) 0 && decide (0x1F800000 < off % stackSize + len)

/-- The status with which an access is refused before it reaches its unit, if it is (R4, R34, R275, R311, R398, R434). -/
def State.refusedAt (s : State) (agent rgn off len : Nat) : Nat :=
  if !rangeOk rgn off len then stAddr
  else
    match rgn with
    | 0 =>
      if !s.stacksUp (off / 2 ^ 32) then stOff
      else if s.inCarve off len then stAddr
      else if s.staleRange off len && !trusted agent then stStale
      else stOk
    | 4 => stOk
    | 5 => if s.regionOn (2 * (off / 2 ^ 19)) then stOk else stOff
    | _ =>
      let i := stnOfOff rgn off
      if !s.present (segOf i) then stAbsent
      else if !s.regionOn (regionOf i) then stOff
      else if s.quarantined i && !trusted agent then stStale
      else stOk

/-- The requester of a register access that a message makes (R9). -/
def State.requester (s : State) (via : Option PyPort) (src : BitVec 16) (agent : Nat) : Requester :=
  if via.isSome then .fabric src
  else if agent = 0x404 ∨ agent = 0x405 then .host
  else if 0x400 ≤ agent ∧ agent < 0x404 then .fp (Fin.ofNat 4 (agent - 0x400))
  else .fabric (BitVec.ofNat 16 s.srcId)

/-! ### Reads -/

/-- Read module memory: the state after it, the status, the data (R311). -/
def State.memRead (s : State) (who : Requester) (agent : Nat) (addr : BitVec 64) (len : Nat) (e : Ecc) (fails : Nat) :
    State × Nat × List Byte :=
  let rgn := regionOfAddr addr
  let off := offsetOf addr
  let st := s.refusedAt agent rgn off len
  if st ≠ stOk then (s, st, [])
  else
    match rgn with
    | 0 =>
      let n := off / stackSize
      let a := off % stackSize
      let s1 := s.xfer n a 2 fails e
      if s.readOk n fails e then (s1, stOk, s1.stackRdN n a len) else (s1, stData, [])
    | 4 =>
      let q := s.csrRead who off 4
      (q.1, q.2.1, if q.2.1 = stOk then leBytes 4 q.2.2 else [])
    | 5 => (s, stOk, (s.die (off / 2 ^ 19)).rram.rdN (off % 2 ^ 19) len)
    | _ =>
      let i := stnOfOff rgn off
      let q := s.landEcc i e
      let x := s.portView i
      let m := if rgn = 1 then x.store else if rgn = 2 then x.grad else x.imem
      if q.2 then (q.1, stOk, m.rdN (off % 2 ^ (if rgn = 3 then 19 else 21)) len) else (q.1, stData, [])

/-! ### Writes -/

/-- The banks of a station's instruction memories that a range touches, as bits 2 * stream + bank. -/
def banksOf (off len : Nat) : List Nat :=
  (List.range ((off + len - 1) / 65536 - off / 65536 + 1)).map (fun k => off / 65536 + k)

/-- A bank is active, or `swap` says that a boundary falls now at which it becomes active (R173, R176). The bank that an armed swap leaves
still counts as active on the boundary tick, of which R176 does not speak (DESIGN CHOICE, log entry 72). -/
def Station.bankActive (x : Station) (swap : Bool) (b : Nat) : Bool :=
  let y := x.stream (if b / 2 = 0 then .F else if b / 2 = 1 then .B else .U)
  decide (b2n y.bank = b % 2) || (swap && y.swap.isSome && bitOf x.ready.toNat b)

/-- A boundary of a station falls on the tick under way (R176). -/
def State.boundaryNow (s : State) (i : Nat) : Bool :=
  match s.liveTick i with
  | some t => (s.station i).boundaryDue t
  | none => false

/-- A write of instruction memory: refused on an active bank of a running station, else READY of its banks is cleared (R174, R176). -/
def State.imemWrite (s : State) (i off : Nat) (bs : List Byte) : State × Nat :=
  let x := s.station i
  let banks := banksOf off bs.length
  if s.running i && banks.any (x.bankActive (s.boundaryNow i)) then (s, stImem)
  else
    (s.modStation i (fun y =>
      let m := banks.foldl (fun n b => n ||| 2 ^ b) 0
      { y with imem := y.imem.wrN off bs, ready := y.ready &&& ~~~ BitVec.ofNat 6 m }), stOk)

/-- A write of routine RAM (R177): refused on a valid table entry while a station of the die runs. -/
def State.rramWrite (s : State) (d off : Nat) (bs : List Byte) : State × Nat :=
  let hit := (List.range 768).any (fun k => decide (off < 8 * k + 8) && decide (8 * k < off + bs.length)
    && bitOf ((s.die d).rram.rdLE (8 * k) 8) 63)
  if s.dieRunning d && hit then (s, stImem)
  else (s.modDie d (fun y => { y with rram := y.rram.wrN off bs }), stOk)

/-- Some page that a range of region 0x0 touches is uncopied (R400). -/
def State.heldBack (s : State) (off len : Nat) : Bool := (s.changedPages (off / stackSize) (off % stackSize) len).any s.isUncopied

/-- Write module memory: the state after it and the status (R311, R278). -/
def State.memWrite (s : State) (who : Requester) (agent : Nat) (addr : BitVec 64) (bs : List Byte) (e : Ecc) (fails : Nat) :
    State × Nat :=
  let rgn := regionOfAddr addr
  let off := offsetOf addr
  let st := s.refusedAt agent rgn off bs.length
  if st ≠ stOk then (s, st)
  else
    match rgn with
    | 0 =>
      let n := off / stackSize
      let a := off % stackSize
      let s1 := s.xfer n a 3 fails .clean
      if s.xferOk n fails then (s1.stackWrN n a bs, stOk) else (s1, stData)
    | 4 => s.csrWrite who off 4 (leNat bs)
    | 5 => s.rramWrite (off / 2 ^ 19) (off % 2 ^ 19) bs
    | _ =>
      let i := stnOfOff rgn off
      let q := s.landEcc i e
      if !q.2 then (q.1, stData)
      else if rgn = 3 then q.1.imemWrite i (off % 2 ^ 19) bs
      else if rgn = 1 then (q.1.arrive i .landing (.store (off % 2 ^ 21) bs), stOk)
      else (q.1.arrive i .landing (.gradBytes (off % 2 ^ 21) bs), stOk)

/-! ### Responses (R311, R318) -/

/-- A response reaches an agent of this module: a station's tag, a landing cache's fill, or another agent (R276, R318). -/
def State.deliver (s : State) (agent : Nat) (gen : BitVec 4) (tag status : Nat) (wr : Bool) (addr : BitVec 64) (data : List Byte)
    (fails : Nat) : State :=
  if 0x408 ≤ agent ∧ agent < 0x40C then s.lcFill (agent - 0x408) (addr.toNat / 256) status data fails
  else s.answer agent gen tag status wr data

/-- Answer a READ or WRITE: at once for an agent of this module, else by a message to the source (Tables 11-8, 11-9). -/
def State.respond (s : State) (m : ReqMsg) (wr : Bool) (status : Nat) (data : List Byte) : State :=
  match m.via with
  | none => s.deliver m.agent.toNat m.gen m.tag.toNat status wr m.addr data 0
  | some _ =>
    s.enqueue m.agent.toNat m.src.toNat ⟨if wr then 4 else 3, status, s.srcId, m.src.toNat, m.agent.toNat, m.gen.toNat, m.tag.toNat,
      data.length, m.addr.toNat, 0, 0, 0, 0⟩ data

/-- A message whose module field is 0xFFFF has no business on a port (R35). -/
def ReqMsgBad (m : ReqMsg) : Bool := m.via.isSome && decide (modOf m.addr = 0xFFFF)

/-! ### READ_RSP, WRITE_ACK -/

/-- READ_RSP (R318). -/
def execReadRsp (m : RspMsg) (s : State) : Host.Outcome State Fault Refusal :=
  .next (s.deliver m.agent.toNat m.gen m.tag.toNat m.status.toNat false m.addr m.data m.fails)

/-- WRITE_ACK (R311, R318). -/
def execWriteAck (m : RspMsg) (s : State) : Host.Outcome State Fault Refusal :=
  .next (s.deliver m.agent.toNat m.gen m.tag.toNat m.status.toNat true m.addr [] m.fails)

/-! ### READ and WRITE (R311, R317, R400, R410) -/

/-- The write lies in the inbound area of buddy copies (Table 15-13). -/
def State.inInbound (s : State) (off len : Nat) : Bool :=
  let v := s.reg .snapInbound 0
  let b := bitsOf v 16 12 * stackSize + bitsOf v 11 5 * 2 ^ 22
  bitOf v 31 && decide (b ≤ off) && decide (off + len ≤ b + bitsOf v 4 0 * 2 ^ 22)

/-- A write of another module's Mirror for a restore finds stations running (R410, Table 11-10). -/
def State.restoreRefused (s : State) (m : ReqMsg) : Bool :=
  m.via.isSome && decide (m.agent = 0x403#12) && decide (regionOfAddr m.addr = 0) && !s.inInbound (offsetOf m.addr) m.data.length && s.anyRunning

/-- Apply a WRITE and answer it. -/
def State.applyWrite (s : State) (m : ReqMsg) : State :=
  let q := s.memWrite (s.requester m.via m.src m.agent.toNat) m.agent.toNat m.addr m.data m.ecc m.fails
  q.1.respond m true q.2 []

/-- Bytes of a request. -/
def reqLen (m : ReqMsg) : Nat := if m.data.isEmpty then m.len else m.data.length

/-- Two requests of one agent overlap (R317). -/
def reqMeets (a b : ReqMsg) : Bool :=
  decide (a.src = b.src) && decide (a.agent = b.agent) && decide (offsetOf a.addr < offsetOf b.addr + reqLen b)
    && decide (offsetOf b.addr < offsetOf a.addr + reqLen a)

/-- An access of region 0x0 meets an earlier write of its agent that is held, and keeps behind it (R317). -/
def State.behind (s : State) (m : ReqMsg) : Bool := decide (regionOfAddr m.addr = 0) && s.fw.heldWr.any (fun h => h.kind ≠ .read && reqMeets h.msg m)

/-- A write that Prism holds until its page has been copied (R400), or behind one that is held (R317). -/
def State.holds (s : State) (m : ReqMsg) : Bool :=
  decide (regionOfAddr m.addr = 0) && decide (s.refusedAt m.agent.toNat 0 (offsetOf m.addr) m.data.length = stOk)
    && (s.heldBack (offsetOf m.addr) m.data.length || s.behind m)

/-- An access is held, a READ also for `posts` Lens posts. A write is counted (R87, R400). -/
def State.holdWrite (s : State) (kind : HeldKind) (posts : Nat) (m : ReqMsg) : State :=
  (s.onlyIf (kind ≠ .read) (fun t => t.countFld .snapStatus 0 15 0 1)).fwUpd (fun f => { f with heldWr := f.heldWr ++ [⟨kind, posts, m⟩] })

/-- Apply a READ and answer it (R311). -/
def State.applyRead (s : State) (m : ReqMsg) : State :=
  let q := s.memRead (s.requester m.via m.src m.agent.toNat) m.agent.toNat m.addr m.len m.ecc m.fails
  q.1.respond m false q.2.1 q.2.2

/-- The Lens posts that a READ is held for (R87). -/
def State.readPosts (s : State) (m : ReqMsg) : Nat :=
  if regionOfAddr m.addr = 0 ∧ s.refusedAt m.agent.toNat 0 (offsetOf m.addr) m.len = stOk then s.postsBefore (offsetOf m.addr) m.len else 0

/-- READ: the target answers with one READ_RSP; a read that overlaps a held write of its agent returns the written bytes, and one of a
Lens record is held, with a shutter request, until the posts to it have merged (R87, R311, R317). -/
def State.readMsg (s : State) (m : ReqMsg) : State :=
  if ReqMsgBad m then s.respond m false stAddr []
  else if s.readPosts m ≠ 0 then (s.holdWrite .read (s.readPosts m) m).lensAsk (offsetOf m.addr / 2 ^ 32)
  else if s.behind m then s.holdWrite .read 0 m
  else s.applyRead m

def execRead (m : ReqMsg) (s : State) : Host.Outcome State Fault Refusal := .next (s.readMsg m)

/-- WRITE: taken into a multicast group of this module, refused, held behind a copy, or applied and acknowledged (R311, R321, R400). -/
def State.writeMsg (s : State) (m : ReqMsg) : State :=
  if ReqMsgBad m then s.respond m true stAddr []
  else if m.via.isNone && decide (0xFF00 ≤ modOf m.addr) && decide (modOf m.addr < 0xFFFF) then s.mcastTake (modOf m.addr - 0xFF00) m
  else if s.restoreRefused m then s.respond m true 9 []
  else if s.holds m then s.holdWrite .write 0 m
  else s.applyWrite m

def execWrite (m : ReqMsg) (s : State) : Host.Outcome State Fault Refusal := .next (s.writeMsg m)

/-! ### MC_WRITE (R322) -/

/-- Answer an MC_WRITE. -/
def State.mcAnswer (s : State) (m : ReqMsg) (status : Nat) : State :=
  match m.via with
  | none => s.emit (.mcAck m.src m.mseq status)
  | some _ =>
    s.enqueue m.agent.toNat m.src.toNat ⟨6, status, s.srcId, m.src.toNat, m.agent.toNat, m.gen.toNat, m.tag.toNat, 0, m.addr.toNat,
      0, 0, 0, m.mseq.toNat⟩ []

/-- Apply an MC_WRITE and answer it. -/
def State.mcApply (s : State) (m : ReqMsg) : State :=
  let q := s.memWrite (s.requester m.via m.src m.agent.toNat) m.agent.toNat m.addr m.data m.ecc m.fails
  q.1.mcAnswer m q.2

/-- MC_WRITE: refused without a module ID (R35), discarded with Hold where no receive slot is free; a write held behind a copy keeps its slot. -/
def State.mcWriteMsg (s : State) (m : ReqMsg) : State :=
  if ReqMsgBad m then s.mcAnswer m stAddr
  else if 64 ≤ s.mcSlots then s.mcAnswer m 8
  else if s.holds m then { s.holdWrite .mcWrite 0 m with mcSlots := s.mcSlots + 1 }
  else s.mcApply m

def execMcWrite (m : ReqMsg) (s : State) : Host.Outcome State Fault Refusal := .next (s.mcWriteMsg m)

/-! ### Copy-ahead-of-write (R400) -/

/-- Apply a held access. -/
def State.releaseHeld (s : State) (h : Held) : State :=
  match h.kind with
  | .write => s.applyWrite h.msg
  | .mcWrite => { s.mcApply h.msg with mcSlots := s.mcSlots - 1 }
  | .read => s.applyRead h.msg

/-- The held accesses that may go, given those before them that stay: no uncopied page keeps a write back, no Lens post a read, and no
write that stays one of its agent (R87, R317, R400). -/
def State.mayGo (s : State) (kept : List Held) : List Held → List Held
  | [] => []
  | h :: hs =>
    if (h.kind ≠ .read && s.heldBack (offsetOf h.msg.addr) h.msg.data.length) || decide (h.posts ≠ 0)
        || kept.any (fun k => k.kind ≠ .read && reqMeets k.msg h.msg) then
      s.mayGo (kept ++ [h]) hs
    else h :: s.mayGo kept hs

/-- The held accesses that nothing keeps back any more are released in their order. -/
def State.releaseAll (s : State) : State :=
  let go := s.mayGo [] s.fw.heldWr
  go.foldl State.releaseHeld (s.fwUpd (fun f => { f with heldWr := f.heldWr.filter (fun q => !go.contains q) }))

/-- COPY_AHEAD_OF_WRITE: a write to the uncopied page `page` (region 0x0 offset / 65536) of the die is held and counted, unless it
came as a message and is counted already; from a scheduled path it requests a shutter with bit 6. -/
def execCopyAheadOfWrite (die : Die) (page : Nat) (scheduled : Bool) (s : State) : Host.Outcome State Fault Refusal :=
  .next (if s.isUncopied page then
      (let t := if scheduled || !s.fw.heldWr.any (fun h => offsetOf h.msg.addr / 65536 = page) then s.countFld .snapStatus 0 15 0 1 else s
       let u := t.fwUpd (fun f => { f with heldBit := if scheduled then f.heldBit ++ [(die.val, page)] else f.heldBit })
       if scheduled then u.shutReq die 6 page else u)
    else s)

/-- COPY_AHEAD_RELEASE: the page is copied ahead, into the reserve of its die where one is defined, and the writes it held are released
(R400). With the reserve full they wait until a page of it has been written to NAND; where Lens posts to the page are pending, its read
is held for them (R87). -/
def execCopyAheadRelease (die : Die) (c : PageCopy) (s : State) : Host.Outcome State Fault Refusal :=
  .next (let d := c.page / 65536
    let s1 := s.fwUpd (fun f => { f with reserve := Tbl.put (fun _ => 0) f.reserve d (s.reserved d - c.freed) })
    if s.isUncopied c.page = true ∧ s.postsBefore (65536 * c.page) 65536 ≠ 0 then s1.lensAsk d
    else if s.isUncopied c.page = true ∧ s1.reserveSize d ≠ 0 ∧ s1.reserveSize d ≤ s1.reserved d then s1
    else
      let t := if s.isUncopied c.page then (s1.reservePut c.page).copyPage c.page c.xs else s1
      (((t.fwUpd (fun f => { f with heldBit := f.heldBit.filter (· ≠ (die.val, c.page)) })).shutRel die 6 c.page).releaseAll))

/-- LENS_POST_MERGE: the oldest post of the die merges, and the reads held for it go (R87). -/
def execLensPostMerge (die : Die) (xs : List XferAt) (s : State) : Host.Outcome State Fault Refusal :=
  .next (if (s.die die).posts.isEmpty then s else (s.postMerge die xs).releaseAll)

end Sys2Proof.Machine
end

