-- ==== Sys2Proof/Machine/CSlot.lean ====
section
/-! DEFINITION. C-slot ops, WAIT words and breaks (R157, R163, R168 to R173, R180, R205 to R208). -/

namespace Sys2Proof.Machine

/-! ### EPOCH (R206, R212, R213) -/

/-- EPOCH marks its boundary and sends a flit to the epoch unit of its die, in package scope to those of all four dies; the flit says whether
it comes before the previous boundary has taken effect, or less than 64 ticks after the station's last EPOCH (R206, R213, R216). -/
def epochEff (i : Issue) (pkg : Bool) (eid : BitVec 16) (p : OpPlace) (s : State) : State :=
  let early := !(s.station i.stn).bounds.isEmpty || (s.station i.stn).lastEpoch.any (fun u => decide (p.tick < u + 64))
  let s1 := s.modStation i.stn (fun x =>
    { x with bounds := x.bounds ++ [⟨p.tick + (if pkg then 64 else 32), pkg, eid, i.strm, p.tick⟩], lastEpoch := some p.tick })
  (if pkg then [0, 1, 2, 3] else [dieOf i.stn]).foldl (fun t x =>
    t.modDie x (fun d => { d with epochs := d.epochs ++ [⟨i.stn, i.strm, p.tick, pkg, eid, early⟩] })) s1

/-- EPOCH. -/
def execEpoch (i : Issue) (pkg : Bool) (eid : BitVec 16) (s : State) : Host.Outcome State Fault Refusal :=
  .next (s.issue i .c (epochEff i pkg eid))

/-! ### REPEAT (R168, R169) -/

/-- Open a loop whose body follows the REPEAT word; its counter starts at 0. -/
def StreamSt.openLoop (y : StreamSt) (o : RepeatOp) : StreamSt :=
  { y with reps := ⟨y.pc, o.len.toNat + 1, 0, o.cnt.toNat, o.kr.toNat⟩ :: y.reps, k := Tbl.put (fun _ => 0) y.k o.kr.toNat 0 }

/-- REPEAT. -/
def execRept (i : Issue) (o : RepeatOp) (s : State) : Host.Outcome State Fault Refusal :=
  .next (s.issue i .c (fun _ t => t.modStream i.stn i.strm (·.openLoop o)))

/-! ### CALL and RET (R170 to R172, R240) -/

/-- Enter a routine on the tick after the CALL word: a ROM routine runs as one command, whose stream issues again after its duration
(R172), another word by word. -/
def StreamSt.enter (y : StreamSt) (id : Nat) (r : Rtn) (t : Nat) : StreamSt :=
  if id < 256 then { y with rom := some ⟨id, t, 0, 0, none⟩, next := t + 1 + r.dur }
  else { y with rets := ⟨y.pc, y.reps.length⟩ :: y.rets, pc := r.entry }

/-- CALL: its word has issued, so that its routine is there and covers the active profile (R240). -/
def execCall (i : Issue) (id : BitVec 10) (s : State) : Host.Outcome State Fault Refusal :=
  .next (s.issue i .c (fun p t => t.modStream i.stn i.strm (·.enter id.toNat (t.rtn (dieOf i.stn) id.toNat) p.tick)))

/-- Return to the caller's next word; loops the routine left open close with it (R170). -/
def StreamSt.leave (y : StreamSt) : StreamSt :=
  match y.rets with
  | r :: rs => { y with rets := rs, pc := r.pc, reps := y.reps.drop (y.reps.length - r.depth) }
  | [] => y

/-- RET. -/
def execRet (i : Issue) (s : State) : Host.Outcome State Fault Refusal :=
  .next (s.issue i .c (fun _ t => t.modStream i.stn i.strm StreamSt.leave))

/-! ### PHASE (R85, R87, R207) -/

/-- PHASE: the layer tag and the Lens enable change at the end of its tick (R207); the marker goes out. -/
def phaseEff (i : Issue) (o : PhaseOp) (p : OpPlace) (s : State) : State :=
  (s.later i.stn p.tick .phase (.phase i.strm o.ltag o.le)).onlyIf o.mark (fun t => t.emit (.marker (dieOf i.stn) o.pid o.fin p.tick))

/-- PHASE. -/
def execPhase (i : Issue) (o : PhaseOp) (s : State) : Host.Outcome State Fault Refusal := .next (s.issue i .c (phaseEff i o))

/-! ### WAITEV (R163, R208) -/

/-- WAITEV: the stream is held until the event. -/
def execWaitev (i : Issue) (ev : BitVec 6) (s : State) : Host.Outcome State Fault Refusal :=
  .next (s.issue i .c (fun p t => t.modStream i.stn i.strm (fun y => { y with wait := some ⟨ev, p.tick, none⟩ })))

/-- Whether a tag of group `g` is busy, or named by an op still in the X queue (log entry 18). -/
def Station.groupBusy (x : Station) (g : Nat) : Bool :=
  (List.range 8).any (fun j => (Tbl.get (fun _ => TagSt.free) x.tags (8 * g + j)).op.isSome)
    || x.xq.any (fun e => decide (e.kind ≠ .feed) && decide (e.tag / 8 = g))

/-- The condition of a WAITEV event at the end of a tick; event 0x10 comes with the epoch boundary itself (Table 7-11). -/
def Station.evHolds (x : Station) (ev : Nat) : Bool :=
  if ev < 8 then !x.groupBusy ev
  else if ev = 8 then x.xq.isEmpty && !(List.range 64).any (fun k => (Tbl.get (fun _ => TagSt.free) x.tags k).op.isSome)
  else false

/-- Note at the end of tick `t` the events that have occurred (R208). -/
def StreamSt.seeEvent (y : StreamSt) (x : Station) (t : Nat) : StreamSt :=
  match y.wait with
  | some w => if w.seen.isNone && x.evHolds w.ev.toNat then { y with wait := some { w with seen := some t } } else y
  | none => y

/-- A wait may end on tick `u` (R163). -/
def WaitSt.ends (w : WaitSt) (u : Nat) : Bool :=
  match w.seen with
  | some v => decide (v < u) && decide (w.at_ + 1 ≤ u) && decide ((u - (w.at_ + 1)) % 64 = 0)
  | none => false

/-- WAITEV_RESUME: on the tick on which a wait ends the stream issues again; what a boundary of that tick changes comes first (R163). -/
def State.waitResume (s : State) (stn : Nat) (m : Strm) : State :=
  match s.issueTick stn, (s.stream stn m).wait with
  | some u, some w => if w.ends u then s.modStream stn m (fun y => { y with wait := none, next := u }) else s
  | _, _ => s

def execWaitevResume (stn : Stn) (strm : Strm) (s : State) : Host.Outcome State Fault Refusal := .next (s.waitResume stn strm)

/-! ### SWAPBANK (R167, R173) -/

def swapEff (i : Issue) (sm : BitVec 3) (map : Bool) (entry : Nat) (_ : OpPlace) (s : State) : State :=
  s.modStation i.stn (fun x =>
    let arm := fun (m : Strm) (z : Station) => if bitOf sm.toNat m.idx then z.modStream m (fun y => { y with swap := some entry }) else z
    let y := arm .U (arm .B (arm .F x))
    { y with ownPend := y.ownPend || map })

/-- SWAPBANK. -/
def execSwapbank (i : Issue) (sm : BitVec 3) (map : Bool) (entry : BitVec 15) (s : State) : Host.Outcome State Fault Refusal :=
  .next (s.issue i .c (swapEff i sm map entry.toNat))

/-! ### WAIT words (R157) -/

/-- WAIT_WORD: the word issues nothing and occupies its stream for TAG + 1 ticks; an uncorrectable error of the instruction memory
suppresses it and stops the station (R256). -/
def execWaitWord (i : Issue) (s : State) : Host.Outcome State Fault Refusal :=
  .next (match s.issueTick i.stn with
    | some t => if (hdrSlots i.hdr).isEmpty && s.wordOpens i t then s.withEcc i.stn i.ecc (·.openWord i t) else s
    | none => s)

end Sys2Proof.Machine
end

