-- ==== Sys2Proof/Machine/Load.lean ====
section
/-! DEFINITION. The checks of a binary and of its images, and the writing of its banks (R175, R178, R226, R241, R242, Table 8-5). -/

namespace Sys2Proof.Machine

/-! ### Words of an image (R155, R156) -/

/-- A halfword of a run of bytes. -/
def half (bs : List Byte) (k : Nat) : Nat := leNat ((bs.drop (2 * k)).take 2)

/-- The slots of the word at a halfword offset, each with its 32 bits. -/
def slotsAt (bs : List Byte) (k : Nat) : List (Slot × Nat) :=
  (hdrSlots (BitVec.ofNat 16 (half bs k))).zipIdx.map (fun q => (q.1, half bs (k + 1 + 2 * q.2) + 65536 * half bs (k + 2 + 2 * q.2)))

/-- The C slot of a word, 0 where it has none. -/
def cSlotAt (bs : List Byte) (k : Nat) : Nat :=
  match (slotsAt bs k).find? (fun q => q.1 = .c) with
  | some q => q.2
  | none => 0

/-- A word carries an SCHK of the list and no reserved opcode or bit (R178). With an empty list neither is asked: a routine that no image
reaches is only measured. -/
def wordOk (bs : List Byte) (k : Nat) (schks : List Nat) : Bool :=
  schks.isEmpty || schks.contains (hdrSchk (BitVec.ofNat 16 (half bs k))) && (slotsAt bs k).all (fun q => slotOk q.1 q.2)

/-! ### Loops (R168, R169) -/

/-- An open body of the walk: words left in it, `CNT`, the ticks of its words so far, `KR`. -/
structure Body where
  left  : Nat
  cnt   : Nat
  ticks : Nat
  kr    : Nat
  deriving DecidableEq, Repr

/-- `c` ticks pass in the innermost body; a body that is done gives `(CNT + 1) × D` ticks to the one around it. -/
def settleBodies : Nat → List Body → Nat → List Body × Nat
  | c, [], t => ([], t + c)
  | c, f :: fs, t =>
    if f.left = 0 then settleBodies ((f.cnt + 1) * (f.ticks + c)) fs t else ({ f with ticks := f.ticks + c } :: fs, t)

/-- One word more of every open body. -/
def countBodies (fs : List Body) : List Body := fs.map (fun f => { f with left := f.left - 1 })

/-- Words left in the innermost body. -/
def bodyRoom : List Body → Option Nat
  | [] => none
  | f :: _ => some f.left

/-! ### The walk over a bank or a routine (R157, R168 to R170, R178) -/

/-- Walk the words from offset `k` to halfword `lim`: the ticks they take, or the offset of the first word that fails. `rtn` for a
routine, which ends at its RET; `callOk` judges a CALL under the loop counters open there, `dur` gives a routine's duration,
`above` are the counters that callers hold open. A RET is taken only with no body open: one on the last word of an open body fails, of
which R178 does not speak (DESIGN CHOICE, log entry 72). -/
def walk (bs : List Byte) (lim : Nat) (schks : List Nat) (rtn : Bool) (callOk : Nat → List Nat → Bool) (dur : Nat → Nat)
    (above : List Nat) : Nat → Nat → List Body → Nat → Except Nat Nat
  | 0, k, _, _ => .error k
  | n + 1, k, fs, t =>
    if lim ≤ k then (if rtn || !fs.isEmpty then .error k else .ok t)
    else
      let h := BitVec.ofNat 16 (half bs k)
      let k2 := k + hdrLen h
      let c := cSlotAt bs k
      let opened := fs.map (·.kr) ++ above
      let go := fun (ticks : Nat) =>
        let q := settleBodies ticks (countBodies fs) t
        walk bs lim schks rtn callOk dur above n k2 q.1 q.2
      if lim < k2 || !wordOk bs k schks then .error k
      else if (hdrSlots h).isEmpty then go (hdrTag h + 1)
      else
        match bitsOf c 31 29 with
        | 2 =>
          let len := bitsOf c 25 14 + 1
          let kr := bitsOf c 28 26
          let fs2 := countBodies fs
          let fits := match bodyRoom fs2 with | some r => decide (len ≤ r) | none => true
          if !fits || (!schks.isEmpty && (opened.contains kr || decide (8 ≤ opened.length))) then .error k
          else
            match fs2 with
            | [] => walk bs lim schks rtn callOk dur above n k2 [⟨len, bitsOf c 13 1, 0, kr⟩] (t + 1)
            | f :: rest =>
              walk bs lim schks rtn callOk dur above n k2 (⟨len, bitsOf c 13 1, 0, kr⟩ :: { f with ticks := f.ticks + 1 } :: rest) t
        | 3 => if callOk (bitsOf c 9 0) opened then go (1 + dur (bitsOf c 9 0)) else .error k
        | 4 => if rtn && fs.isEmpty then .ok (t + 1) else .error k
        | _ => go 1

/-- The SCHK values of a routine's words: its one stream's or 0, else 0 (Table 6-10). -/
def routineSchks (streams : Nat) : List Nat :=
  match streams with
  | 1 => [0, 1]
  | 2 => [0, 2]
  | 4 => [0, 3]
  | _ => [0]

/-- A CALL of routine `id` by stream `m` at call depth `depth`, with the loop counters `opened` open, passes R178; a routine in
routine RAM is walked itself. -/
def State.callFits (s : State) (d prof : Nat) (m : Strm) : Nat → Nat → Nat → List Nat → Bool
  | 0, _, _, _ => false
  | n + 1, depth, id, opened =>
    let r := s.rtn d id
    r.valid && bitOf r.streams m.idx && r.covers (decide (id < 256)) prof
      && decide (opened.length + r.rdepth ≤ 8) && decide (depth + 1 + r.cdepth ≤ 4) && opened.all (fun k => !bitOf r.kmask k)
      && (decide (id < 256) ||
        (let bs := (s.die d).rram.rdN 0 0x80000
         match walk bs 0x40000 (routineSchks r.streams) true (fun i ks => s.callFits d prof m n (depth + 1) i ks)
            (fun i => (s.rtn d i).dur) opened 0x40000 r.entry [] 0 with
         | .ok t => decide (t = r.dur)
         | .error _ => false))

/-- Every valid routine of a die's routine RAM lasts its `DURATION`, and its RET stands at its end and nowhere else (R178). -/
def State.ramFits (s : State) (d : Nat) : Bool :=
  ((List.range 768).map (256 + ·)).all (fun id =>
    let r := s.rtn d id
    !r.valid || (match walk ((s.die d).rram.rdN 0 0x80000) 0x40000 [] true (fun _ _ => true) (fun i => (s.rtn d i).dur) [] 0x40000 r.entry [] 0 with
      | .ok t => decide (t = r.dur)
      | .error _ => false))

/-- The first word of a bank that fails R178, if any; where only a routine in routine RAM that the bank does not reach fails, the bank's
first (log entry 64). -/
def State.bankFails (s : State) (d prof : Nat) (m : Strm) (bs : List Byte) : Option Nat :=
  match walk bs 0x8000 [0, m.code] false (fun i ks => s.callFits d prof m 5 0 i ks) (fun i => (s.rtn d i).dur) [] 0x8001 0 [] 0 with
  | .ok _ => if s.ramFits d then none else some 0
  | .error k => some k

/-! ### Declarations (R226, R241, R242, Table 8-5) -/

/-- FSCOPE of a binary (R226). -/
def declScope (b : BinDecl) : Bool := b.package || b.pkgEpoch

/-- The byte of a segment mask of a die. -/
def maskOf (b : BinDecl) (d : Nat) : Nat := b.segMask.toNat / 2 ^ (8 * d) % 256

/-- The stations of a segment mask, in logical order. -/
def State.maskStns (s : State) (b : BinDecl) : List Nat :=
  (List.range 1024).filter (fun i => bitOf b.segMask.toNat (i / 32) && s.present (i / 32))

/-- A half of a die is gated (R118, R372). -/
def State.gatedSeg (s : State) (g : Nat) : Bool := s.bit .ringSeamStatus (g / 8) (4 + g % 8 / 4)

/-- A bank descriptor within its ranges (Table 13-6). -/
def bankFieldOk (k : BankDesc) : Bool :=
  decide (1 ≤ k.count) && decide (k.first + k.count ≤ 1024) && decide (1 ≤ k.length) && decide (k.length ≤ 65536)
    && decide (k.source < 2 ^ 34) && decide (k.source % stackSize + k.length ≤ stackSize)

/-- The bits [hi:lo] of SHT_CTRL that a declaration gives a die: FSCOPE, PROFILE, SEG_MASK (R242). -/
def declSht (b : BinDecl) (d : Nat) : Nat := b2n (declScope b) * 2 ^ 12 + b.profile.toNat * 2 ^ 8 + maskOf b d

/-- What a load refuses a binary for: the status and its place (R241, R242, R175, Table 8-5), none where it passes. -/
def State.declRefused (s : State) (b : BinDecl) (banks : List BankDesc) : Option (Nat × List Nat) :=
  let seg := (List.range 32).find? (fun g => bitOf b.segMask.toNat g && (!s.present g || s.gatedSeg g))
  let quar := (s.maskStns b).find? s.quarantined
  let absent := (banks.flatMap bankStns).find? (fun i => !s.present (segOf i))
  let busy := (banks.flatMap (fun k => (bankStns k).map (fun i => (i, k.strm, k.bank)))).find? (fun q =>
    s.running q.1 && (s.stream q.1 q.2.1).bank == q.2.2)
  let other := (List.range 4).find? (fun d => s.dieRunning d && decide (only (s.reg .shtCtrl d) 0x13FF ≠ declSht b d))
  if !((decide (b.profile.toNat = 1) || decide (b.profile.toNat = 2)) && bitOf (s.regRead .idPartInfo 0 false) (3 + b.profile.toNat)) then
    some (0x30, [0])
  else
    match seg, quar, absent, busy, other with
    | some g, _, _, _, _ => some (0x31, [1, g])
    | none, quar, absent, busy, other =>
      if b.package ≠ s.pkgRing ∨ b.package ≠ s.profPkg s.inForce then some (0x32, [2])
      else if b.seam ≠ s.ratio ∨ b.seam.toNat ≠ s.profSeam s.inForce then some (0x33, [3])
      else
        match quar, absent, busy, other with
        | some i, _, _, _ => some (0x34, [i])
        | none, some i, _, _ => some (0x31, [i])
        | none, none, some q, _ => some (0x13, [q.1, q.2.1.code, b2n q.2.2])
        | none, none, none, some d => some (0x13, [d])
        | none, none, none, none => none

/-! ### Images (R173 to R175, R178) -/

/-- The whole bank of a station once an image has been written to its start. -/
def State.bankWith (s : State) (i : Nat) (k : BankDesc) (img : List Byte) : List Byte :=
  img ++ (s.station i).imem.rdN (bankOff k.strm k.bank + img.length) (0x10000 - img.length)

/-- The first bank of a load that fails R178: station, stream, bank and offset. -/
def State.codeRefused (s : State) (prof : Nat) (banks : List BankDesc) : Option (List Nat) :=
  banks.findSome? (fun k =>
    let img := s.imageBytes k
    (bankStns k).findSome? (fun i =>
      (s.bankFails (dieOf i) prof k.strm (s.bankWith i k img)).map (fun o => [i, k.strm.code, b2n k.bank, o])))

/-- Write one descriptor's image to every station it names. -/
def State.fillDesc (s : State) (k : BankDesc) : State :=
  let img := s.imageBytes k
  (bankStns k).foldl (fun t i => t.fillBank i k.strm k.bank img) s

def State.fillAll (s : State) (banks : List BankDesc) : State := banks.foldl State.fillDesc s

/-- SHT_CTRL of every die whose stations are all stopped takes the declarations (R242, R226). -/
def State.declSet (s : State) (b : BinDecl) : State :=
  ((List.range 4).filter (fun d => !s.dieRunning d)).foldl (fun t d =>
    t.setReg .shtCtrl d (mix (t.reg .shtCtrl d) (declSht b d) 0x13FF)) s

/-- The outcome of a load whose start was accepted: status and place (R241, R242). -/
def State.loadDone (s : State) (b : BinDecl) (banks : List BankDesc) : State × Nat × List Nat :=
  match s.declRefused b banks with
  | some q => (s, q.1, q.2)
  | none =>
    match s.codeRefused b.profile.toNat banks with
    | some p => (s, 0x35, p)
    | none => (((s.fillAll banks).declSet b).fwUpd (fun f => { f with binary := some ⟨b, banks⟩ }), 0, [])

/-- Every bank descriptor within its ranges, at most 250 of them. -/
def banksOk (banks : List BankDesc) : Bool := decide (banks.length ≤ 250) && banks.all bankFieldOk

end Sys2Proof.Machine
end

