-- ==== Sys2Proof/Machine/Mirror.lean ====
section
/-! DEFINITION. Mirror: snapshots, buddy copies, restores, state epochs, spare substitution, the NAND store (R123, R396 to R410). -/

namespace Sys2Proof.Machine

/-! ### Slots (R402, R403, Table 15-7) -/

def State.slot (s : State) (n : Nat) : Slot_ := Tbl.get (fun _ => Slot_.never) s.fw.slots n

def State.putSlot (s : State) (n : Nat) (x : Slot_) : State :=
  s.fwUpd (fun f => { f with slots := Tbl.put (fun _ => Slot_.never) f.slots n x })

/-- Bytes 0 to 31 of a slot's header; a slot never written gives zeros. -/
def Slot_.head (x : Slot_) : List Byte :=
  leBytes 4 x.magic ++ leBytes 1 x.format ++ leBytes 1 x.state ++ leBytes 2 x.flags ++ leBytes 4 x.seq ++ leBytes 4 x.step
    ++ leBytes 8 x.refT ++ leBytes 4 x.sess.toNat ++ leBytes 2 x.phys ++ leBytes 2 x.logic

/-- Bytes of page data of a slot: pages of region 0x0, and 32 pages of store and 24 of gradient buffer of each station (R402). -/
def Slot_.pageData (x : Slot_) : Nat := 65536 * (x.pages.length + 56 * x.stns.length)

/-- The whole header of a slot (Table 15-7). -/
def Slot_.header (x : Slot_) : List Byte := takeN 4096 (x.head ++ takeN 288 x.prov ++ leBytes 8 x.pageData)

/-- Bytes 32 to 319 of the header, as the snapshot point leaves them: part, phase-ledger entries, variant, Lens heads, image digests. -/
def State.provenance (s : State) : List Byte :=
  leBytes 4 (s.regRead .idPartInfo 0 false) ++ leBytes 4 s.fw.closed ++ leBytes 4 (s.reg .fwVariantStatus 0) ++ leBytes 4 0
    ++ (List.range 4).flatMap (fun d => leBytes 4 (s.reg .lensLogHead d)) ++ (List.range 4).flatMap s.digestOf

/-- A header that a restore accepts (R407, R408). -/
def Slot_.good (x : Slot_) : Bool := decide (x.state = 1) && decide (x.magic = 0x50414E53) && decide (x.format = 1)

/-- Pages are numbered by bits [47:16] of their Pycia address. Those of a station's store and of its gradient buffer. -/
def storePages (i : Nat) : List Nat := (List.range 32).map (fun k => 2 ^ 28 + 32 * i + k)
def gradPages (i : Nat) : List Nat := (List.range 24).map (fun k => 2 ^ 29 + 32 * i + k)

/-- A page of a slot, with its poison flag. -/
def Slot_.pageAt (x : Slot_) (p : Nat) : Option (List Byte × Bool) :=
  if p < 2 ^ 28 then (x.pages.find? (fun q => q.1 = p)).map (fun q => q.2)
  else (x.stns.find? (fun q => q.1 = p % 2 ^ 28 / 32)).map (fun q =>
    ((if p < 2 ^ 29 then q.2.1 else q.2.2.1).rdN (65536 * (p % 32)) 65536, q.2.2.2))

/-! ### What goes to the buddy (R401) -/

/-- The number under which a slot's header goes to the buddy: no page has it. -/
def headerPage : Nat := 2 ^ 32

/-- What is sent of a page: its 16-byte tag and its bytes; the header as it stands (R401, R402). -/
def State.buddyBytes (s : State) (p : Nat) : List Byte :=
  let x := s.slot s.fw.snapSlot
  if p = headerPage then x.header
  else
    match x.pageAt p with
    | some q => leBytes 8 (s.srcId * 2 ^ 48 + 65536 * p) ++ leBytes 1 (b2n q.2) ++ List.replicate 7 0 ++ q.1
    | none => []

/-- A page leaves for the buddy's inbound area, by WRITEs of agent 0x403. Where in the area it goes, the spec leaves open (log entry 48). -/
def State.buddySend (s : State) (p : Nat) : State :=
  (s.fwUpd (fun f => { f with buddyOut := f.buddyOut + 1 })).fwWrites 0x403
    ((0x8000 + s.fld .snapBuddy 0 27 14) * 2 ^ 48 + Config.inboundAt p % 2 ^ 44) (s.buddyBytes p)

/-- The pages that wait leave, at most 1,024 being out unacknowledged (R401). -/
def State.buddyFlush (s : State) : State :=
  if s.fw.buddyWait.isEmpty then s
  else
    let n := if s.buddyOn then 1024 - s.fw.buddyOut else s.fw.buddyWait.length
    let t := s.fwUpd (fun f => { f with buddyWait := f.buddyWait.drop n })
    if s.buddyOn then (s.fw.buddyWait.take n).foldl State.buddySend t else t

/-- Pages wait to go to the buddy. -/
def State.buddyQueue (s : State) (ps : List Nat) : State :=
  if s.buddyOn then s.fwUpd (fun f => { f with buddyWait := f.buddyWait ++ ps }) else s

/-- Highest SNAP_SEQ of this module's own slots. -/
def State.topSeq (s : State) : Nat := (List.range 16).foldl (fun n k => max n (s.slot k).seq) 0

/-- A slot of a range, never written or with the lowest SNAP_SEQ, the newest complete one left out (R403). -/
def State.rotate (s : State) (ks : List Nat) : Nat :=
  let top := ks.foldl (fun n k => max n (s.slot k).seq) 0
  match ks.find? (fun k => (s.slot k).state = 0) with
  | some k => k
  | none =>
    (ks.filter (fun k => !(decide ((s.slot k).state = 1) && decide ((s.slot k).seq = top)))).foldl
      (fun b k => if (s.slot k).seq < (s.slot b).seq ∨ ((s.slot b).state = 1 ∧ (s.slot b).seq = top) then k else b) (ks.headD 0)

def ownSlots : List Nat := List.range 16
def buddySlots : List Nat := (List.range 4).map (16 + ·)

/-! ### The register record (R402) -/

def recordRegs : List Reg :=
  [.fmtTable, .fmtPolicy, .fmtCand, .lensBase, .lensLogCfg, .lensLogHead, .prismRgnBase, .prismRgnShape, .prismRgnScale, .prismRgnTwin,
   .snapMask, .stnStashWin]

/-- A CSR offset belongs to the register record. -/
def inRecord (o : Nat) : Bool :=
  match Reg.find o with
  | some (r, _, _) => recordRegs.contains r
  | none => false

def State.regRecord (s : State) : List (Nat × Word) := s.regs.filter (fun p => inRecord p.1)

/-- The registers of the record take the values of a slot. -/
def State.setRecord (s : State) (l : List (Nat × Word)) : State :=
  { s with regs := l.foldl (fun t p => Tbl.ins t p.1 p.2) (s.regs.filter (fun p => !inRecord p.1)) }

/-! ### Blocks of the NAND store (R405, R406) -/

def State.nandUpd (s : State) (f : NandSt → NandSt) : State := s.fwUpd (fun y => { y with nand := f y.nand })

def NandSt.blk (n : NandSt) (b : Nat) : NandBlk := Tbl.get (fun _ => NandBlk.new) n.blocks b

def NandSt.setBlk (n : NandSt) (b : Nat) (f : NandBlk → NandBlk) : NandSt :=
  { n with blocks := Tbl.put (fun _ => NandBlk.new) n.blocks b (f (n.blk b)) }

/-- Bytes of an erase block, and its codewords. -/
def blockBytes : Nat := 64 * 2 ^ 20
def blockWords : Nat := 16384

/-- The blocks that have been in use or are bad, and the first that is new. -/
def NandSt.known (n : NandSt) : List Nat :=
  let l := n.blocks.map (·.1)
  match (List.range (min 60000 (l.length + 1))).find? (fun b => !l.contains b) with
  | some b => l ++ [b]
  | none => l

/-- Of a list of blocks, the first with the fewest cycles. -/
def NandSt.least (n : NandSt) : List Nat → Option Nat
  | [] => none
  | b :: bs =>
    match n.least bs with
    | some c => if (n.blk c).cycles < (n.blk b).cycles then some c else some b
    | none => some b

/-- The erased block with the fewest program/erase cycles, which is written next (R405). -/
def NandSt.nextBlock (n : NandSt) : Option Nat := n.least (n.known.filter (fun b => !(n.blk b).full && !(n.blk b).bad))

/-- Blocks grown bad, highest cycles, and the mean of the blocks in service (Table 15-15). -/
def NandSt.grown (n : NandSt) : Nat := (n.blocks.filter (fun p => p.2.bad)).length
/-- Blocks of the store and its spare blocks: Keeper's flash parameters, as its image has them or as the part was made (R344). -/
def NandSt.total (n : NandSt) : Nat := match n.params with | some q => q.1 | none => Config.nand 0
def NandSt.spares (n : NandSt) : Nat := match n.params with | some q => q.2 | none => Config.nand 3
def NandSt.inService (n : NandSt) : Nat := n.total - n.grown
def NandSt.top (n : NandSt) : Nat := n.blocks.foldl (fun m p => max m p.2.cycles) 0
def NandSt.mean (n : NandSt) : Nat := n.blocks.foldl (fun m p => m + p.2.cycles) 0 / n.inService

/-- Remaining endurance in percent (Table 15-15). -/
def NandSt.left (n : NandSt) : Nat := 100 * (3000 - n.mean) / 3000

/-- Wear is looked at: at 10 % of endurance left a report, at a mean of 3,000 cycles or with no spare block the store is read-only
(R406). -/
def State.nandWear (s : State) : State :=
  let n := s.fw.nand
  let warn := decide (n.left ≤ 10) && !n.warned
  let t := s.nandUpd (fun x => { x with warned := x.warned || warn, ro := x.ro || decide (3000 ≤ n.mean) || decide (n.spares ≤ n.grown) })
  t.onlyIf warn (fun u => u.report 0xA 1 ⟨8, BitVec.ofNat 12 (Config.nand 2)⟩ 0 0)

/-- One new block is programmed for a slot (R405). -/
def State.takeBlock (s : State) (slot : Nat) : State :=
  match s.fw.nand.nextBlock with
  | some b => s.nandUpd (fun n => { n.setBlk b (fun x => { x with full := true }) with
      owned := Tbl.put (fun _ => []) n.owned slot (Tbl.get (fun _ => []) n.owned slot ++ [b]), progd := n.progd + blockBytes })
  | none => s

/-- A block is erased. -/
def NandSt.erase (n : NandSt) (b : Nat) : NandSt := n.setBlk b (fun x => { x with cycles := x.cycles + 1, reads := 0, full := false })

/-- The data of a block are moved to a new block, and the block is erased (R405). -/
def State.moveBlock (s : State) (b : Nat) : State :=
  match s.fw.nand.nextBlock with
  | some c => s.nandUpd (fun n => { (n.setBlk c (fun x => { x with full := true })).erase b with
      owned := n.owned.map (fun p => (p.1, p.2.map (fun x => if x = b then c else x))), progd := n.progd + blockBytes })
  | none => s

/-- Cold data move where the most-worn block leads the least-worn by more than 300 cycles (R405). -/
def State.moveCold (s : State) : State :=
  let n := s.fw.nand
  match n.least (n.known.filter (fun b => !(n.blk b).bad)) with
  | some b => s.onlyIf (decide ((n.blk b).cycles + 300 < n.top) && (n.blk b).full) (·.moveBlock b)
  | none => s

/-- A slot is written anew: its blocks are erased (R403, R405). -/
def State.eraseSlot (s : State) (slot : Nat) : State :=
  let t := s.nandUpd (fun n => { (Tbl.get (fun _ => []) n.owned slot).foldl NandSt.erase n with owned := Tbl.put (fun _ => []) n.owned slot [] })
  t.moveCold.nandWear

/-- The bytes of a register record (R402). -/
def recordBytes : Nat := recordRegs.foldl (fun n r => n + 4 * r.info.count) 0

/-- A slot with so many bytes of page data is written: header, register record, and each page with its tag (R402). -/
def State.fillSlot (s : State) (slot data : Nat) : State :=
  let n := 4096 + recordBytes + data / 65536 * 65552
  ((List.range ((n + blockBytes - 1) / blockBytes)).foldl (fun t _ => t.takeBlock slot)
    (s.nandUpd (fun x => { x with written := x.written + n }))).nandWear

/-- Every codeword of some blocks is read. -/
def State.readBlocks (s : State) (bs : List Nat) : State :=
  s.nandUpd (fun n => bs.foldl (fun m b => m.setBlk b (fun x => { x with reads := x.reads + blockWords })) n)

/-! ### Snapshots (R399, R400, R403, R404) -/

/-- SNAP_STATUS: state, slot and progress. -/
def State.snapState (s : State) (st slot pct : Nat) : State :=
  s.setReg .snapStatus 0 (st * 2 ^ 30 + slot % 64 * 2 ^ 24 + pct * 2 ^ 16 + s.fld .snapStatus 0 15 0)

/-- Page groups that a snapshot copies: those marked, or all of a full one, but for carve-outs in service (R399). -/
def State.snapGroups (s : State) : List Nat :=
  (List.range 4096).filter (fun g => (s.bit .snapCtrl 0 31 || s.bit .snapMask (g / 32) (g % 32))
    && !(s.bit .msLcCtrl (g / 1024) 0 && decide (126 ≤ g % 128)))

/-- The slot of the snapshot that is armed, as its state point leaves it (Table 15-7, R398, R401, R402). -/
def State.snapNow (s : State) : Slot_ :=
  let full := s.bit .snapCtrl 0 31
  { magic := 0x50414E53, format := 1, state := 2, flags := b2n full, seq := s.topSeq + 1, step := s.fw.stepCnt, refT := s.fw.refTime,
    sess := BitVec.ofNat 32 (s.reg .mbxSession 0), phys := s.fld .pyModuleId 0 15 0,
    logic := if s.bit .pySelfLogical 0 31 then s.fld .pySelfLogical 0 13 0 else 0xFFFF,
    prov := s.provenance, pages := [], lost := [],
    stns := if full then ((List.range 1024).filter (fun i => s.present (segOf i))).map (fun i =>
      (i, (s.station i).store, (s.station i).grad, s.quarantined i)) else [],
    regs := s.regRecord }

/-- Every page of the groups of a snapshot is uncopied. -/
def State.snapUncopied (s : State) : List (Nat × Nat) := s.snapGroups.map (fun g => (g, 2 ^ 64 - 1))

/-- The store takes no more snapshots (R406). -/
def State.nandReadOnly (s : State) : Bool := s.fw.nand.ro

/-- The snapshot point: every marked page becomes uncopied, and the slot, whose blocks are erased, is begun (R399, R403). In a store that is
read-only nothing is begun (R406). -/
def State.snapPoint (s : State) : State :=
  let k := s.fld .snapStatus 0 29 24
  if s.nandReadOnly then s.snapState 2 k 0
  else
    (((((s.eraseSlot k).putSlot k s.snapNow).fwUpd (fun f =>
      { f with snapSlot := k, uncopied := s.snapUncopied, reserve := [] })).setFld .snapStatus 0 15 0 0).snapState 2 k 0).buddyQueue
        [headerPage]

/-- An armed snapshot reaches its point. -/
def State.snapReach (s : State) : State := if s.fld .snapStatus 0 31 30 = 1 then s.snapPoint else s

/-- Arm a snapshot; with no station running the arming is its point. A full one is armed only then (R399). -/
def State.snapArm (s : State) (slot : Nat) (cmd : Option Nat) : State :=
  if s.bit .snapCtrl 0 31 && s.anyRunning then s
  else
    let t := (s.snapState 1 slot 0).fwUpd (fun f => { f with snapCmd := cmd })
    if t.anyRunning then t else t.snapReach

/-- Every page still uncopied is copied, in ascending order (R399). -/
def State.copyRest (s : State) (xs : List XferAt) : State :=
  s.fw.uncopied.foldl (fun t q => ((List.range 64).filter (fun b => q.2.testBit b)).foldl (fun u b => u.copyPage (64 * q.1 + b) xs) t) s

/-- The flags of a finished slot: full, poisoned pages, copy-ahead used. -/
def State.slotFlags (s : State) (x : Slot_) : Nat :=
  x.flags % 4 + 4 * b2n (x.pages.any (fun p => p.2.2) || x.stns.any (fun q => q.2.2.2)) + 8 * b2n (decide (s.fld .snapStatus 0 15 0 ≠ 0))

/-- Nothing is held for a copy any more. -/
def State.endHolds (s : State) : State :=
  let t := s.fw.heldBit.foldl (fun u q => u.shutRel q.1 6 q.2) (s.fwUpd (fun f => { f with uncopied := [], heldBit := [] }))
  t.releaseAll

/-- The pages of the stations of a full snapshot, in ascending order. -/
def Slot_.stnPages (x : Slot_) : List Nat := x.stns.flatMap (fun q => storePages q.1) ++ x.stns.flatMap (fun q => gradPages q.1)

/-- The dies with a page still uncopied to which Lens posts are pending: Mirror's read of it is held for them (R87). -/
def State.copyWaits (s : State) : List Nat :=
  (List.range 4).filter (fun d => s.fw.uncopied.any (fun q => decide (q.1 / 1024 = d) && decide (s.postsBefore (2 ^ 22 * q.1) (2 ^ 22) ≠ 0)))

/-- The slot of a copy that has ended takes its state and its blocks (R403, R405). -/
def State.snapSlotDone (s : State) (good : Bool) : State :=
  let slot := s.fw.snapSlot
  let x := s.slot slot
  let t := s.putSlot slot { x with state := if good then 1 else 2, flags := s.slotFlags x }
  ((t.fillSlot slot x.pageData).buddyQueue ((if good then x.stnPages else []) ++ [headerPage])).buddyFlush

/-- R400, R403: a snapshot's end: the pages still uncopied, the slot, the pages held back and the state. -/
def State.snapEnd (s : State) (good : Bool) (xs : List XferAt) : State :=
  let k := s.fld .snapStatus 0 29 24
  let s1 := (s.onlyIf good (·.copyRest xs)).onlyIf (decide ((s.slot k).state = 2) && decide (s.fw.snapSlot = k)) (·.snapSlotDone good)
  (s1.snapState 0 k (if good then 100 else s.fld .snapStatus 0 23 16)).endHolds.fwUpd (fun f => { f with snapCmd := none, reserve := [] })

/-- SNAPSHOT_COMPLETE: every page and the register record are programmed and read back, or the copy ends incomplete (R403, R404). In a
read-only store it ends with HW_ERROR and changes no slot (R406). -/
def State.snapDone (s : State) (ok : Bool) (xs : List XferAt) : State :=
  let good := ok && !s.nandReadOnly
  if s.fld .snapStatus 0 31 30 ≠ 2 then s
  else if good && !s.copyWaits.isEmpty then s.copyWaits.foldl State.lensAsk s
  else
    match s.fw.snapCmd with
    | some q => (s.snapEnd good xs).activityDone (BitVec.ofNat 32 q) 3 (if good then 0 else 0x40) []
    | none => s.snapEnd good xs

def execSnapshotComplete (r : SnapEnd) (s : State) : Host.Outcome State Fault Refusal := .next (s.snapDone r.ok r.xs)

/-- SNAP_EVERY_ARM: the step count has reached a multiple of EVERY; while a copy runs the point is skipped and reported (R399, R404). -/
def execSnapEveryArm (s : State) : Host.Outcome State Fault Refusal :=
  .next (let n := s.fld .snapCtrl 0 15 0
    if n = 0 ∨ s.fw.stepCnt % n ≠ 0 then s
    else if s.mirrorIdle then s.snapArm (s.rotate ownSlots) none
    else if s.fld .snapStatus 0 31 30 = 1 then s
    else s.report 0xB 0 ⟨0xB, BitVec.ofNat 12 (s.fld .snapStatus 0 29 24)⟩ (s.reg .snapStatus 0) 0)

/-! ### State epochs (R397, Table 15-4) -/

/-- The next state epoch of a die, skipping 0x0000 and 0xFFFF (Table 15-5). -/
def nextEpoch (e : Nat) : Nat := if 0xFFFE ≤ e then 1 else e + 1

def State.dieEpoch (s : State) (d : Nat) : Nat := s.fld .stnDieEpoch d 15 0

/-- Stamp a station: it takes its die's state epoch. -/
def State.stampStn (s : State) (i : Nat) : State := s.setFld .stnStateEpoch i 15 0 (s.dieEpoch (dieOf i))

def State.stampGroup (s : State) (g : Nat) : State := s.setFld .msPgEpoch g 15 0 (s.dieEpoch (g / 1024))

/-- Quarantine a unit: the complement of its die's state epoch. -/
def State.staleStn (s : State) (i : Nat) : State := s.setFld .stnStateEpoch i 15 0 (0xFFFF - s.dieEpoch (dieOf i))

def State.staleGroup (s : State) (g : Nat) : State := s.setFld .msPgEpoch g 15 0 (0xFFFF - s.dieEpoch (g / 1024))

/-! ### Restores (R407 to R410) -/

/-- The target of a page group of a buddy copy, where its entry is valid: logical index and page group (Table 15-14). -/
def State.relocOf (s : State) (g : Nat) : Option (Nat × Nat) :=
  let v := s.reg .snapReloc g
  if bitOf v 31 then some (bitsOf v 25 12, bitsOf v 11 0) else none

/-- A slot holds pages of a page group. -/
def Slot_.holds (x : Slot_) (g : Nat) : Bool := x.pages.any (fun p => p.1 / 64 = g)

/-- The page groups of this module that a buddy copy is restored into (R410). -/
def State.relocHere (s : State) (x : Slot_) : List Nat :=
  ((List.range 4096).filter x.holds).filterMap (fun g =>
    match s.relocOf g with
    | some q => (match s.target (0x8000 + q.1) with | .loc => some q.2 | _ => none)
    | none => none)

/-- The restore begins: epochs advance, what the slot does not hold is stamped, the rest is quarantined, with a buddy copy the page groups it
is restored into as well (R407, Table 15-4, log entry 48). -/
def State.restoreStart (s : State) (slot : Nat) (cmd : Option Nat) : State :=
  let x := s.slot slot
  let here := if slot < 16 then [] else s.relocHere x
  let s1 := (List.range 4).foldl (fun t d => t.setFld .stnDieEpoch d 15 0 (nextEpoch (t.dieEpoch d))) s
  let s2 := (List.range 4096).foldl (fun t g => if x.holds g || here.contains g then t.staleGroup g else t.stampGroup g) s1
  let s3 := (List.range 1024).foldl (fun t i => t.staleStn i) s2
  (s3.snapState 3 slot 0).fwUpd (fun f => { f with restSlot := slot, restCmd := cmd })

/-- A page of a snapshot is written into this module's stacks, as far as its transfers go through (R278, R407). -/
def State.putPage (s : State) (xs : List XferAt) (p : Nat) (bytes : List Byte) : State :=
  (s.xfers xs true (65536 * p) 65536).stackWrBut (s.lostLines xs (65536 * p) 65536) (65536 * p) bytes

/-- A page group of a buddy copy goes to its target: into this module's own stacks, or by WRITEs of agent 0x403 to another module; unless a
page of it failed to decode, the Keeper of the target stamps the group (R409, R410). -/
def State.relocate (s : State) (x : Slot_) (bad : List Nat) (xs : List XferAt) (g : Nat) : State :=
  match s.relocOf g with
  | none => s
  | some q =>
    let m := 0x8000 + q.1
    let ps := x.pages.filter (fun p => decide (p.1 / 64 = g) && !bad.contains p.1)
    let whole := !bad.any (fun p => p / 64 = g)
    match s.target m with
    | .loc => (ps.foldl (fun t p => t.putPage xs (64 * q.2 + p.1 % 64) p.2.1) s).onlyIf whole (·.stampGroup q.2)
    | .bad st => s.noteBad st m
    | _ => (ps.foldl (fun t p => t.fwWrites 0x403 (m * 2 ^ 48 + 65536 * (64 * q.2 + p.1 % 64)) p.2.1) s).onlyIf whole (fun t =>
        t.sendCtrl 3 m 2 [q.2])

/-- Own slot: pages, stores and the register record are written; a snapshot that is not full leaves the stores undefined (R407). -/
def State.restoreOwn (s : State) (x : Slot_) (bad : List Nat) (xs : List XferAt) : State :=
  let s1 := (x.pages.filter (fun p => !bad.contains p.1)).foldl (fun t p => t.putPage xs p.1 p.2.1) s
  let k := s1.free
  let s2 := if x.flags.testBit 0 then x.stns.foldl (fun t q => t.modStation q.1 (fun y => { y with store := q.2.1, grad := q.2.2.1 })) s1
    else { (List.range 1024).foldl (fun t i => t.modStation i (fun y => { y with store := Memory.lost (k + i) })) s1 with free := k + 1024 }
  s2.setRecord x.regs

/-- Units stamped when a restore has written them: the stations, and the page groups of this module but those with a page that failed to
decode (Table 15-4, R409). -/
def State.restoreStamp (s : State) (keep : List Nat) : State :=
  ((List.range 4096).filter (fun g => !keep.contains g)).foldl (fun t g => t.stampGroup g)
    ((List.range 1024).foldl (fun t i => t.stampStn i) s)

/-- The page groups of this module with a page that failed to decode. -/
def State.restoreKeep (s : State) (slot : Nat) (bad : List Nat) : List Nat :=
  if slot < 16 then bad.map (· / 64)
  else bad.filterMap (fun p =>
    match s.relocOf (p / 64) with
    | some q => (match s.target (0x8000 + q.1) with | .loc => some q.2 | _ => none)
    | none => none)

/-- The poisoned pages that a restore of a slot has written (R409). -/
def State.restorePoison (s : State) (slot : Nat) (x : Slot_) (bad : List Nat) : List Nat :=
  ((x.pages.filter (fun p => p.2.2 && !bad.contains p.1 && (decide (slot < 16) || (s.relocOf (p.1 / 64)).isSome))).map (·.1))
    ++ (if slot < 16 then (x.stns.filter (fun q => q.2.2.2)).flatMap (fun q => storePages q.1 ++ gradPages q.1) else [])

/-- RESTORE_COMPLETE: the slot has been written; the units are stamped but for the page groups of pages that failed to decode, poisoned
and failed pages are reported (R405, R407, R409). `refused`: a target of a buddy copy had stations running, and the restore ends with
nothing written or stamped (R410). -/
def State.restoreDone (s : State) (failed : List Nat) (refused : Bool) (xs : List XferAt) : State :=
  if s.fld .snapStatus 0 31 30 ≠ 3 then s
  else
    let slot := s.fw.restSlot
    let x := s.slot slot
    let bad := (x.pages.map (·.1)).filter (fun p => (failed ++ x.lost).contains p)
    let s1 := if refused then s
      else if slot < 16 then (s.restoreOwn x bad xs).restoreStamp (s.restoreKeep slot bad)
      else (((List.range 4096).filter x.holds).foldl (fun t g => t.relocate x bad xs g) s).restoreStamp (s.restoreKeep slot bad)
    let s2 := (if refused then [] else s.restorePoison slot x bad).foldl (fun t p => t.report 0xB 1 ⟨0xB, BitVec.ofNat 12 slot⟩ 0 p)
      (s1.readBlocks (Tbl.get (fun _ => []) s.fw.nand.owned slot))
    let s3 := (bad.filter (fun p => !x.lost.contains p)).foldl (fun t p => t.report 0xA 1 ⟨8, BitVec.ofNat 12 (Config.nand (256 + p))⟩ 0 p) s2
    let s4 := (s3.snapState 0 slot 100).fwUpd (fun f => { f with restCmd := none })
    match s.fw.restCmd with
    | some q =>
      if refused then s4.activityDone (BitVec.ofNat 32 q) 3 0x13 []
      else if bad.isEmpty then s4.activityDone (BitVec.ofNat 32 q) 3 0 []
      else s4.activityDone (BitVec.ofNat 32 q) 3 0x40 [bad.length]
    | none => s4

def execRestoreComplete (r : RestoreEnd) (refused : Bool) (s : State) : Host.Outcome State Fault Refusal :=
  .next (s.restoreDone r.failed refused r.xs)

/-! ### Buddy copies (R401, R410) -/

/-- The module whose copies this one keeps. -/
def State.fromBuddy (s : State) (src : Nat) : Bool :=
  s.bit .snapCtrl 0 30 && s.bit .snapBuddy 0 30 && s.bit .snapInbound 0 31 &&
    s.bit .pyRemap (s.fld .snapBuddy 0 13 0) 31 && decide (s.fld .pyRemap (s.fld .snapBuddy 0 13 0) 13 0 = src)

/-- A header page sets the fields of a buddy slot; STATE 0x01 completes it (Table 15-7). -/
def Slot_.ofHead (x : Slot_) (bs : List Byte) : Slot_ :=
  let f := fun (lo n : Nat) => leNat ((bs.drop lo).take n)
  { x with magic := f 0 4, format := f 4 1, state := if f 5 1 = 1 then 1 else 2, flags := f 6 2 ||| 2, seq := f 8 4, step := f 12 4,
           refT := f 16 8, sess := BitVec.ofNat 32 (f 24 4), phys := f 28 2, logic := f 30 2, prov := (bs.drop 32).take 288 }

/-- A page with its tag enters a buddy slot: of region 0x0, or of a station's store or gradient buffer (R401, R402). -/
def Slot_.ofPage (x : Slot_) (bs : List Byte) : Slot_ :=
  let p := leNat (bs.take 8) % 2 ^ 48 / 65536
  let bad := decide (leNat ((bs.drop 8).take 1) % 2 = 1)
  let i := p % 2 ^ 28 / 32
  if p < 2 ^ 28 then { x with pages := insPage p (bs.drop 16) bad x.pages }
  else
    let q := (x.stns.find? (fun q => q.1 = i)).getD (i, Memory.zero, Memory.zero, false)
    let put := fun (m : Memory) => m.wrN (65536 * (p % 32)) (bs.drop 16)
    let r := if p < 2 ^ 29 then (i, put q.2.1, q.2.2.1, q.2.2.2 || bad) else (i, q.2.1, put q.2.2.1, q.2.2.2 || bad)
    { x with stns := x.stns.filter (fun q => q.1 ≠ i) ++ [r] }

/-- The buddy slot being filled, begun where none is. -/
def State.openBuddy (s : State) : State × Nat :=
  match s.fw.buddySlot with
  | some k => (s, k)
  | none =>
    let k := s.rotate buddySlots
    (((s.eraseSlot k).putSlot k { Slot_.never with state := 2, flags := 2 }).fwUpd (fun f => { f with buddySlot := some k }), k)

/-- BUDDY_PAGE_RX: a page from the source enters the buddy slot and is acknowledged; a header page that says complete ends the copy. -/
def State.buddyIn (s : State) (src : BitVec 16) (addr : BitVec 64) (data : List Byte) : State :=
  if !s.fromBuddy src.toNat then s
  else
    let q := s.openBuddy
    let x := q.1.slot q.2
    if data.length = 4096 then
      (let y := x.ofHead data
       let t := q.1.putSlot q.2 y
       (if y.state = 1 then t.fwUpd (fun f => { f with buddySlot := none }) else t).sendCtrl 3 src.toNat 3 [addr.toNat])
    else (q.1.putSlot q.2 (x.ofPage data)).sendCtrl 3 src.toNat 3 [addr.toNat]

def execBuddyPageRx (src : BitVec 16) (addr : BitVec 64) (data : List Byte) (s : State) : Host.Outcome State Fault Refusal :=
  .next (s.buddyIn src addr data)

/-- BUDDY_ACK: the window frees one page and the next waiting page leaves. -/
def State.buddyAcked (s : State) : State := (s.fwUpd (fun f => { f with buddyOut := f.buddyOut - 1 })).buddyFlush

def execBuddyAck (s : State) : Host.Outcome State Fault Refusal := .next s.buddyAcked

/-- BUDDY_TIMEOUT: a copy that stopped is left incomplete and reported, at the keeper of the copy and at its sender. -/
def State.buddyLate (s : State) : State :=
  let s1 := match s.fw.buddySlot with
    | some k => (s.fwUpd (fun f => { f with buddySlot := none })).report 0xB 1 ⟨0xB, BitVec.ofNat 12 k⟩ 0 0
    | none => s
  if s.fw.buddyOut = 0 then s1
  else (s1.fwUpd (fun f => { f with buddyOut := 0, buddyWait := [] })).report 0xB 1 ⟨0xB, BitVec.ofNat 12 s.fw.snapSlot⟩ 0 0

def execBuddyTimeout (s : State) : Host.Outcome State Fault Refusal := .next s.buddyLate

/-- BUDDY_STAMP: Keeper stamps a page group that another module's Mirror has restored here (R410). -/
def execBuddyStamp (_src : BitVec 16) (g : Fin 4096) (s : State) : Host.Outcome State Fault Refusal :=
  .next (if s.stacksUp (g.val / 1024) then s.stampGroup g else s)

/-! ### Spare substitution (R122, R123, R396) -/

/-- The newest complete own slot. -/
def State.newest (s : State) : Option Nat :=
  (ownSlots.filter (fun k => (s.slot k).state = 1)).foldl (fun b k =>
    match b with
    | some j => if (s.slot j).seq < (s.slot k).seq then some k else b
    | none => some k) none

/-- A restore after a substitution begins once the whole module is stopped and Mirror is idle: the latest snapshot (R123). -/
def State.restoreDue (s : State) : State :=
  if s.fw.restDue && s.mirrorIdle && !s.anyRunning then
    (let t := s.fwUpd (fun f => { f with restDue := false })
     match t.newest with
     | some k => t.restoreStart k none
     | none => t)
  else s

/-- The segment of a failed station is degraded: it has no spare (R122, Table 15-3). -/
def State.degraded (s : State) (i : Nat) : State := s.report 1 3 ⟨1, BitVec.ofNat 12 i⟩ 0 0

/-- The spare of the failed station's segment takes over: Keeper writes the failed position and records it, and a restore is due; a
segment whose spare is used has none (R122, R123). -/
def State.substSpare (s : State) (i : Nat) : State :=
  let g := segOf i
  let p := s.posOf i
  if bitOf (s.segSpareWord g) 16 then
    ((s.spareTo g p).fwUpd (fun f => { f with spares := f.spares.filter (fun q => q.1 ≠ g) ++ [(g, p)], restDue := true })).restoreDue
  else s.degraded i

/-- Every station of a die is stopped. -/
def State.stopDie (s : State) (d : Nat) : State := s.eachStation d (fun i t => t.stopStation i .stopped)

/-- The die has reached its first epoch boundary after a failure was reported: its stations stop and the substitutions are made. -/
def State.substAt (s : State) (d : Nat) : State :=
  let here := s.fw.subst.filter (fun i => dieOf i = d)
  if here.isEmpty then s
  else here.foldl (fun t i => t.substSpare i) ((s.stopDie d).fwUpd (fun f => { f with subst := f.subst.filter (fun i => dieOf i ≠ d) }))

/-- No epoch boundary of a die will come: nothing runs on it, or it stands in a fault stop (log entry 67). -/
def State.noBoundary (s : State) (d : Nat) : Bool := !s.dieRunning d || s.faultStop d

/-- STATION_FAILED: with a spare left the die is stopped at its next epoch boundary, or at once where none will come, and the spare takes
over; with none the segment is degraded (R122, R123, R395). -/
def State.stationFailed (s : State) (i : Nat) : State :=
  if bitOf (s.segSpareWord (segOf i)) 16 then
    (let t := s.fwUpd (fun f => { f with subst := f.subst ++ [i] })
     t.onlyIf (s.noBoundary (dieOf i)) (·.substAt (dieOf i)))
  else s.degraded i

def execStationFailed (stn : Stn) (s : State) : Host.Outcome State Fault Refusal := .next (s.stationFailed stn)

/-! ### NAND management (R405, R406, Table 15-15) -/

/-- A page of a slot has a codeword that fails LDPC: it is reported, and a restore will not write it (R405, R409). Which channel the report
names is open (log entry 31). -/
def State.codewordLost (s : State) (q : Nat × Nat) : State :=
  let x := s.slot q.1
  ((s.putSlot q.1 { x with lost := x.lost ++ [q.2] }).fresh).report 0xA 1 ⟨8, BitVec.ofNat 12 (Config.nand (256 + s.free))⟩ 0 q.2

/-- RETENTION_SCAN: every block that holds data is read, those that needed much correction are rewritten, and codewords that failed are
reported (R405). -/
def State.retentionScan (s : State) (rewritten : List Nat) (corrected : Nat) (failed : List (Nat × Nat)) : State :=
  let s1 := s.readBlocks ((s.fw.nand.blocks.filter (fun p => p.2.full)).map (·.1))
  let go := rewritten.filter (fun b => (s.fw.nand.blk b).full)
  let s2 := (go.foldl State.moveBlock s1).nandUpd (fun n => { n with
    scanned := n.scanned + go.length, fixed := n.fixed + corrected, failed := n.failed + failed.length, scanAt := s.fw.refTime })
  (failed.foldl State.codewordLost s2).nandWear

def execRetentionScan (rewritten : List Nat) (corrected : Nat) (failed : List (Nat × Nat)) (s : State) : Host.Outcome State Fault Refusal :=
  .next (s.retentionScan rewritten corrected failed)

/-- READ_DISTURB_REFRESH: a block of which 100,000 codewords have been read is refreshed (R405; that the reads counted are of codewords is
log entry 31). -/
def execReadDisturbRefresh (s : State) : Host.Outcome State Fault Refusal :=
  .next (match s.fw.nand.blocks.find? (fun p => p.2.full && decide (100000 ≤ p.2.reads)) with
    | some p => ((s.moveBlock p.1).nandUpd (fun n => { n with fresh := n.fresh + 1 })).nandWear
    | none => s)

/-- NAND_PROGRAM_FAIL: the block being written becomes grown-bad, and its data go to a spare block; with none left the store becomes
read-only (R395, R406). -/
def execNandProgramFail (s : State) : Host.Outcome State Fault Refusal :=
  .next (match s.fw.nand.nextBlock with
    | some b => (s.nandUpd (fun n => n.setBlk b (fun x => { x with bad := true }))).nandWear
    | none => s)

/-- The 16 words of the FLASH_HEALTH reply (Table 15-15); what was at manufacture is open (log entry 31). -/
def State.flashHealth (s : State) : List Nat :=
  let n := s.fw.nand
  [n.inService, Config.nand 1, n.grown, n.spares - n.grown, n.mean, n.top,
   3000 + n.left * 2 ^ 16 + (b2n n.ro + 2 * b2n (decide (n.left ≤ 10))) * 2 ^ 24, n.written % 2 ^ 32, n.written / 2 ^ 32 % 2 ^ 32,
   n.progd % 2 ^ 32, n.progd / 2 ^ 32 % 2 ^ 32, n.scanned, n.fresh, satTo 32 n.fixed, satTo 32 n.failed,
   ((s.fw.refTime - n.scanAt) / (3600 * 10 ^ 8)).toNat]

end Sys2Proof.Machine
end

