-- ==== Sys2Proof/Machine/Sundial.lean ====
section
/-! DEFINITION. Sundial: variant choice, work items, step boundaries, holds and parks, ledger, energy (R356 to R366). -/

namespace Sys2Proof.Machine

/-! ### Holds (R243, R356) -/

/-- Firmware sets or releases FW_HOLD on every powered die. -/
def State.holdAll (s : State) (on : Bool) : State :=
  ((List.range 4).filter (fun d => s.regionOn (2 * d))).foldl (fun t d => (t.setFld .shtCtrl d 14 14 (b2n on)).fwHold d) s

/-- Every die stands still under a hold of firmware, or has no station running. -/
def State.parkedStill (s : State) : Bool :=
  (List.range 4).all (fun d => !s.dieRunning d || ((s.die d).frozen && (s.die d).reqs.any (fun q => q.bit = 11)))

/-- Sundial runs its image: neither in ROM state nor restarting. -/
def State.sundialUp (s : State) : Bool := decide (s.fpState 1 = 2)

/-! ### Variants (R359, R362) -/

def State.variantOf (s : State) (v : Nat) : Option VariantDecl := s.fw.variants.find? (fun x => x.index.toNat = v)

/-- Clock of a variant's profile, in units of 50 MHz. -/
def State.vMult (s : State) (v : VariantDecl) : Nat := max (s.profMult v.prof.toNat 0) (s.profMult v.prof.toNat 1)

/-- This module's logical index. -/
def State.ownLogical (s : State) : BitVec 14 := BitVec.ofNat 14 (s.fld .pySelfLogical 0 13 0)

/-- The modules whose energy this module's choice counts: those of a budget group that it leads, else its own (R364). -/
def State.ledModules (s : State) : Nat :=
  match s.fw.group with
  | some (_, members, lead) => if s.ownLogical = lead then members.length else 1
  | none => 1

/-- Energy of a step of a variant in units of 10 µJ: the mean of its last 8 steps, else the staged estimate; at the lead of a budget group
that of the group's total (R362, R364). -/
def State.vEnergy (s : State) (v : VariantDecl) : Nat :=
  let es := (s.fw.energies.filter (fun e => e.1 = v.index.toNat)).map (·.2)
  if es.isEmpty then v.energy * s.ledModules else es.sum / es.length

/-- A step's energy is recorded, the last 8 of its variant kept. -/
def keepEnergy (l : List (Nat × Nat)) (v e : Nat) : List (Nat × Nat) :=
  let mine := l.filter (fun q => q.1 = v)
  l.filter (fun q => q.1 ≠ v) ++ (mine ++ [(v, e)]).drop (mine.length + 1 - 8)

/-- A shorter step time. -/
def State.faster (s : State) (a b : VariantDecl) : Bool := decide (a.ticks * s.vMult b < b.ticks * s.vMult a)

/-- A lower power. -/
def State.cooler (s : State) (a b : VariantDecl) : Bool :=
  decide (s.vEnergy a * s.vMult a * b.ticks < s.vEnergy b * s.vMult b * a.ticks)

/-- The first of a list that no later one beats. -/
def firstBest (beats : VariantDecl → VariantDecl → Bool) : List VariantDecl → Option VariantDecl
  | [] => none
  | v :: vs =>
    match firstBest beats vs with
    | some w => if beats w v then some w else some v
    | none => some v

/-- Power cap of a profile in W (Tables 14-1, 14-3). -/
def State.profCap (s : State) (p : Nat) : Nat :=
  match p with
  | 2 => 1100
  | 3 => s.fld .pwrZenithCfg 0 25 16 * 10
  | _ => 1650

/-- The part of the energy interval that is left, in 10 ns units. -/
def State.intervalLeft (s : State) : Nat := s.fw.budget.2.2.1 * 100000 - (s.fw.refTime - s.fw.intStart)

/-- Steps of a variant that the rest of the interval takes. -/
def State.stepsLeft (s : State) (v : VariantDecl) : Nat :=
  if v.ticks = 0 then 0 else (s.intervalLeft * s.vMult v + 2 * v.ticks - 1) / (2 * v.ticks)

/-- A candidate passes the tests of the choice (R362); with no budget set only the profile's cap applies. -/
def State.affordable (s : State) (v : VariantDecl) : Bool :=
  let b := s.fw.budget
  let set_ := decide (b.2.2.1 ≠ 0)
  let cap := if set_ then min b.1 (s.profCap v.prof.toNat) else s.profCap v.prof.toNat
  let e := s.vEnergy v
  let hot := decide (105 < s.fld .govStatus 0 15 8 + b.2.2.2) && decide (max (s.profMult s.active 0) (s.profMult s.active 1) < s.vMult v)
  decide (e * s.vMult v * 500 ≤ cap * v.ticks) && !(set_ && hot) && !(set_ && decide (s.fw.allow < e * s.stepsLeft v))

/-- The staged variants of the work item's group, with the current class and the hinted rows. -/
def State.candidates (s : State) : List VariantDecl :=
  match s.fw.item with
  | none => []
  | some w =>
    s.fw.variants.filter (fun v => decide (v.group = w.group) && decide (v.rows = s.fw.rows) &&
      (match s.variantOf (s.fld .fwVariantStatus 0 29 24) with
       | some c => decide (c.classSig = v.classSig)
       | none => true))

/-- Sundial's choice, and whether the allowance does not even cover the lowest-power candidate (R362). -/
def State.choice (s : State) : Option Nat × Bool :=
  if s.fw.policy.1 = 1 then (some s.fw.policy.2, false)
  else
    match firstBest s.faster (s.candidates.filter s.affordable) with
    | some v => (some v.index.toNat, false)
    | none =>
      match firstBest s.cooler s.candidates with
      | some v => (some v.index.toNat, decide (s.fw.budget.2.2.1 ≠ 0) && decide (s.fw.allow < s.vEnergy v))
      | none => (none, false)

/-- Sundial writes FW_NEXT_VARIANT and arms the switch to the variant's profile where it differs. -/
def State.setNext (s : State) (v : Nat) : State :=
  match s.variantOf v with
  | none => s
  | some x =>
    let t := s.setReg .fwNextVariant 0 (2 ^ 31 + v)
    if x.prof.toNat = s.active || s.armed || s.fw.profWant.isSome || s.bit .clkStatus 0 28 then t else t.switchTo x.prof.toNat

/-- Sundial chooses the variant of the next step; a starved part will park until the next interval. -/
def State.chooseNext (s : State) : State :=
  let c := s.choice
  let t := s.fwUpd (fun f => { f with starved := c.2 })
  match c.1 with
  | some v => t.setNext v
  | none => t

/-! ### Budget groups (R364) -/

/-- The lead sends its choice for the step after the next to every member. -/
def State.leadChoice (s : State) (members : List (BitVec 14)) : State :=
  let c := s.choice
  let t := s.fwUpd (fun f => { f with starved := c.2 })
  match c.1 with
  | none => t
  | some v =>
    let n := s.fw.stepCnt + 2
    (members.filter (· ≠ s.ownLogical)).foldl (fun u m => u.sendCtrl 1 (0x8000 + m.toNat) 4 [n, v])
      (t.fwUpd (fun f => { f with choices := f.choices ++ [(n, v)] }))

/-- A member writes the choice it holds for the next step, or misses it. -/
def State.memberChoice (s : State) : State :=
  let n := s.fw.stepCnt + 1
  let t := s.fwUpd (fun f => { f with choices := f.choices.filter (fun q => n < q.1) })
  match s.fw.choices.find? (fun q => q.1 = n) with
  | some q => t.setNext q.2
  | none => t.event 0x8006 [n]

/-! ### Step start (R358, R360, R362) -/

/-- The variant that the copy engine copies, and whether it replaces the one named (R360). -/
def State.copyWhich (s : State) : Nat × Bool :=
  let v := s.fld .fwNextVariant 0 5 0
  match s.variantOf v with
  | some x =>
    if x.prof.toNat ≠ s.active && !(s.armed && decide (s.nextProf = x.prof.toNat)) then (s.fld .fwVariantStatus 0 29 24, true) else (v, false)
  | none => (s.fld .fwVariantStatus 0 29 24, true)

/-- The copy engine starts on a step start marker. -/
def State.copyStart (s : State) : State :=
  if !s.bit .fwNextVariant 0 31 then s
  else
    let q := s.copyWhich
    let t := (s.fwUpd (fun f => { f with copying := some q.1 })).setFld .fwVariantStatus 0 23 23 1
    if q.2 then (t.countFld .fwVariantStatus 0 15 0 1).event 0x8005 [s.fw.stepCnt, s.fld .fwNextVariant 0 5 0, q.1] else t

/-- STEP_START_MARKER: the step count advances, Sundial chooses, the copy starts. -/
def State.stepStart (s : State) : State :=
  let s1 := s.fwUpd (fun f => { f with stepCnt := f.stepCnt + 1 })
  let s2 := if !s1.sundialUp then s1
    else match s1.fw.group with
      | some (_, members, lead) => (if s1.ownLogical = lead then s1.leadChoice members else s1).memberChoice
      | none => s1.chooseNext
  s2.copyStart

def execStepStartMarker (s : State) : Host.Outcome State Fault Refusal := .next s.stepStart

/-- The map words of a variant go into the inactive set of every station that takes part. -/
def State.fillMaps (s : State) (maps : List (Nat × Word)) : State :=
  maps.foldl (fun t q =>
    let i := q.1 / 20
    t.setReg .stnOwnMap (40 * i + 20 * b2n (!(t.station i).ownSet) + q.1 % 20) q.2.toNat) s

/-- A bank of a variant goes into the inactive bank of its stream on every participating station it names. -/
def State.fillVariantBank (s : State) (k : BankDesc) : State :=
  let img := s.imageBytes k
  ((bankStns k).filter (fun i => s.participates i && s.present (segOf i))).foldl (fun t i => t.fillBank i k.strm (!(t.stream i k.strm).bank) img) s

/-- VARIANT_COPY_DONE: inactive banks and maps are filled and READY (R360). -/
def State.copyDone (s : State) : State :=
  match s.fw.copying with
  | none => s
  | some v =>
    let t := (s.fwUpd (fun f => { f with copying := none, current := v })).setFld .fwVariantStatus 0 23 23 0
    match s.variantOf v with
    | none => t
    | some x => (x.banks.foldl State.fillVariantBank t).fillMaps (x.maps.filter (fun q => s.participates (q.1 / 20) && s.present (segOf (q.1 / 20))))

def execVariantCopyDone (s : State) : Host.Outcome State Fault Refusal := .next s.copyDone

/-- CLASS_SWITCH_SUBMIT: where the variant of the pending switch has been copied and every closing swap is armed, the staged entries are
submitted on every die and CLASS_LOCK is set (R360). -/
def State.classSubmit (s : State) : State :=
  let armed := s.fw.copying.isNone && (List.range 4).all (fun d => (s.party d).all (fun i => decide ((s.station i).strmBits 0 (fun y => y.swap.isSome) ≠ 0)))
  match s.fw.classSw with
  | none => s
  | some (v, pairs) =>
  if s.bit .fwVariantStatus 0 22 && armed && decide (s.fw.current = v) then
    (let dies := (List.range 4).filter (fun d => s.regionOn (2 * d))
     let t := pairs.foldl (fun u q => dies.foldl (fun w d =>
        (w.csrWrite (.fp 0) (Reg.at .fmtTable (4096 * d + q.1.toNat)) 4 q.2.toNat).1) u) s
     (dies.foldl (fun u d => u.setFld .fmtPolicy d 31 31 1) t).fwUpd (fun f => { f with classSw := none }))
  else s

def execClassSwitchSubmit (s : State) : Host.Outcome State Fault Refusal := .next s.classSubmit

/-! ### Work items (R363) -/

/-- An item may not start: `DEFER`, and the allowance is below one step of its lowest-power variant. -/
def State.deferred (s : State) (w : WorkItem) : Bool :=
  w.defer &&
    match firstBest s.cooler (s.fw.variants.filter (fun v => v.group = w.group)) with
    | some v => decide (s.fw.allow < s.vEnergy v)
    | none => false

/-- The item of highest priority, the oldest among equals. -/
def topItem : List WorkItem → Option WorkItem
  | [] => none
  | w :: ws =>
    match topItem ws with
    | some x => if w.prio < x.prio then some x else some w
    | none => some w

/-- Take the first item that is not deferred. -/
def State.takeItem (s : State) : State :=
  match topItem (s.fw.work.filter (fun w => !s.deferred w)) with
  | some w => s.fwUpd (fun f => { f with item := some w, work := f.work.erase w })
  | none => s.fwUpd (fun f => { f with item := none })

/-- The next item is taken from the queue, where the current one has run its steps. -/
def State.nextItem (s : State) : State :=
  match s.fw.item with
  | some w => if 1 < w.steps then s.fwUpd (fun f => { f with item := some { w with steps := w.steps - 1 } }) else s.takeItem
  | none => s.takeItem

/-! ### The step boundary (R358, R363, R399) -/

/-- What the other members of a group that this module leads have last reported (R364). -/
def State.othersEnergy (s : State) : Nat := if s.ledModules = 1 then 0 else (s.fw.reported.map (fun q => q.2.2)).sum

/-- A step's energy, that of its entry in the phase ledger, is recorded, at the lead of a budget group with what the members report; another
member sends its own to the lead (R362, R364). -/
def State.closeEnergy (s : State) : State :=
  let v := s.fld .fwVariantStatus 0 29 24
  match s.fw.stepE with
  | none => s
  | some e =>
  let t := s.fwUpd (fun f => { f with energies := keepEnergy f.energies v (e + s.othersEnergy), stepE := none })
  match s.fw.group with
  | some (_, _, lead) => if s.ownLogical = lead then t else t.sendCtrl 1 (0x8000 + lead.toNat) 5 [s.fw.stepCnt, e]
  | none => t

/-- What happens on a step boundary beyond the epoch boundary itself. -/
def State.stepBoundary (s : State) : State :=
  let s1 := (s.closeEnergy).fwUpd (fun f => { f with closing := false })
  let s2 := s1.setFld .fwVariantStatus 0 29 24 s1.fw.current
  let s3 := if s2.fw.classSw.isNone then s2.setFld .fwVariantStatus 0 22 22 0 else s2
  let s4 := if s3.sundialUp then s3.nextItem else s3
  let s5 := s4.snapReach
  if s5.fw.starved then s5.holdAll true else s5

/-- The closing boundary of a step is decided: a switch is triggered on die 0, and a park of a lost host holds the schedule
(R356, R374, log entry 32). -/
def State.closingDecided (s : State) (d : Nat) : State :=
  let t := if d = 0 then s.closingSwitch else s
  if t.fw.parkDue && decide (t.fw.parkAt ≤ t.fw.stepCnt) then t.holdAll true else t

/-! ### Host loss (R356) -/

/-- A module parks at the closing boundary of step `n`. -/
def State.parkBy (s : State) (n : Nat) : State := s.fwUpd (fun f => { f with parkDue := true, parkAt := n })

/-- The lead of a budget group names the park boundary to every member: as with its choices, the end of the step after the next (R356,
R364, log entry 32). -/
def State.nameBoundary (s : State) (members : List (BitVec 14)) (lead : BitVec 14) : State :=
  let n := s.fw.stepCnt + 2
  (members.filter (· ≠ lead)).foldl (fun u m => u.sendCtrl 1 (0x8000 + m.toNat) 7 [n]) (s.parkBy n)

/-- A part whose host is lost lets the running step finish; in a budget group the loss is reported to the lead, which names the boundary
on which all members park. -/
def State.groupPark (s : State) : State :=
  match s.fw.group with
  | none => s.parkBy 0
  | some (_, members, lead) =>
    if s.ownLogical = lead then s.nameBoundary members lead else s.sendCtrl 1 (0x8000 + lead.toNat) 6 [s.fw.stepCnt]

/-- What Sundial does on a message of another member's: a loss reported to the lead, the boundary that the lead names (R356). Choices and
energies of a group come as commands of their own. -/
def State.groupMsg (s : State) (kind : Nat) (vals : List Nat) : State :=
  match s.fw.group with
  | none => s
  | some (_, members, lead) =>
    if s.ownLogical = lead then
      (if kind = 6 ∧ s.fw.parkDue = false then (if s.anyRunning then s.nameBoundary members lead else (s.nameBoundary members lead).holdAll true) else s)
    else if kind = 7 then
      (if s.anyRunning then s.parkBy (vals.getD 0 0) else (s.parkBy 0).holdAll true)
    else s

/-- CTRL: a firmware control message reaches its processor, which reads it while it runs. -/
def execCtrl (src : BitVec 16) (fp : Proc) (data : List Byte) (s : State) : Host.Outcome State Fault Refusal :=
  .next (let t := s.emit (.forFw fp src data)
    if fp = 1 ∧ t.sundialUp = true then
      (match Config.ctrlRead data with
       | some (kind, vals) => t.groupMsg kind vals
       | none => t)
    else t)

/-- HOST_LOSS_TIMEOUT. -/
def State.hostLost (s : State) : State :=
  if s.bit .mbxStatus 0 30 then s
  else
    let s1 := s.setFld .mbxStatus 0 30 30 1
    let s2 := if s1.anyRunning then s1.groupPark else (s1.parkBy 0).holdAll true
    if s2.bit .mbxCtrl 0 16 && s2.mirrorIdle then s2.snapArm (s2.rotate ownSlots) none else s2

def execHostLossTimeout (s : State) : Host.Outcome State Fault Refusal := .next (if bitOf s.pwr.on.toNat 12 then s.hostLost else s)

/-- HOST_LOSS_PARK: once the schedule stands still the part parks in Twilight. -/
def execHostLossPark (s : State) : Host.Outcome State Fault Refusal :=
  .next (if s.fw.parkDue && s.parkedStill then
      ((((if s.idleState = 0 then s.enterIdle .twilight 0 else s).setFld .mbxStatus 0 31 31 1).fwUpd (fun f => { f with parkDue := false })).event
        0x8004 [s.fw.stepCnt])
    else s)

/-- A park of the part ends: Twilight is left and the hold released (R357). -/
def State.unpark (s : State) : State :=
  (((if s.idleState = 1 then s.leaveIdle 0 else s).holdAll false).setFld .mbxStatus 0 31 31 0).fwUpd (fun f => { f with parkDue := false })

/-! ### The phase ledger (R365, R366, Table 13-9) -/

/-- The 32 bytes of an entry, as words. -/
def Ledger.words (e : Ledger) : List Nat :=
  let bs := leBytes 2 (e.pid.toNat + e.starts.toNat * 2 ^ 12) ++ leBytes 2 (e.ends.toNat + b2n e.isOpen * 16 + b2n e.ovfl * 32)
    ++ leBytes 6 e.tick0 ++ leBytes 6 e.tick1 ++ leBytes 8 e.ref0 ++ leBytes 4 (satTo 32 e.dur) ++ leBytes 4 (satTo 32 e.energy)
  (List.range 8).map (fun w => leNat ((bs.drop (4 * w)).take 4))

/-- Replace the last entry of a list that satisfies `p`. -/
def modLast (p : Ledger → Bool) (f : Ledger → Ledger) (l : List Ledger) : List Ledger :=
  (go l.reverse).reverse
where
  /-- Replace the first one. -/
  go : List Ledger → List Ledger
    | [] => []
    | e :: es => if p e then f e :: es else e :: go es

/-- Remove the first entry of a list that satisfies `p`. -/
def dropFirst (p : Ledger → Bool) : List Ledger → List Ledger
  | [] => []
  | e :: es => if p e then es else e :: dropFirst p es

/-- A new entry opens; a full ledger gives up its oldest closed entry, lost where it was not read or streamed. -/
def State.ledgerOpen (s : State) (e : Ledger) : State :=
  if s.fw.ledger.length < 256 then s.fwUpd (fun f => { f with ledger := f.ledger ++ [e] })
  else
    let t := s.fwUpd (fun f => { f with ledger := dropFirst (fun x => !x.isOpen) f.ledger ++ [e] })
    match s.fw.ledger.find? (fun x => !x.isOpen) with
    | some x => if x.seen then t else t.event 0x8007 [1]
    | none => t

/-- A start marker. -/
def State.ledgerStart (s : State) (d : Nat) (pid : BitVec 12) (x : MarkAt) : State :=
  let me := BitVec.ofNat 4 (2 ^ d)
  if s.fw.ledger.any (fun e => e.isOpen && decide (e.pid = pid)) then
    s.fwUpd (fun f => { f with ledger := modLast (fun e => e.isOpen && decide (e.pid = pid)) (fun e => { e with starts := e.starts ||| me }) f.ledger })
  else if 16 ≤ (s.fw.ledger.filter (·.isOpen)).length then
    s.fwUpd (fun f => { f with ledger := modLast (·.isOpen) (fun e => { e with ovfl := true }) f.ledger })
  else s.ledgerOpen ⟨pid, me, 0, true, false, x.tick, 0, x.time, 0, 0, false⟩

/-- A closed entry leaves for the collector (R366). -/
def State.ledgerSend (s : State) (e : Ledger) : State :=
  match s.fw.stream with
  | none => s
  | some (addr, n, k) =>
    let a := BitVec.ofNat 64 (addr.toNat + 32 * (k % 2 ^ n))
    let bs := e.words.flatMap (leBytes 4)
    let t := (s.fwUpd (fun f => { f with
      stream := some (addr, n, k + 1), ledger := modLast (fun x => x = e) (fun x => { x with seen := true }) f.ledger })).fwWrite 0x401 a bs
    match s.target (modOf a) with
    | .bad _ => t.event 0x8007 [1]
    | _ => t

/-- An end marker: the entry closes when an end has come from every die that sent a start; that of PID 0xFFF is the step's (R358, R362). -/
def State.ledgerEnd (s : State) (d : Nat) (pid : BitVec 12) (w : MarkAt) : State :=
  match s.fw.ledger.find? (fun e => e.isOpen && decide (e.pid = pid)) with
  | none => s
  | some e =>
    let x := { e with ends := e.ends ||| BitVec.ofNat 4 (2 ^ d), tick1 := w.tick }
    let shut := decide (x.ends &&& x.starts = x.starts)
    let y := if shut then { x with isOpen := false, dur := w.time - x.ref0 } else x
    let t := s.fwUpd (fun f => { f with
      ledger := modLast (fun z => z = e) (fun _ => y) f.ledger, closed := f.closed + b2n shut
      stepE := if shut && decide (pid = 0xFFF#12) then some y.energy else f.stepE })
    if shut then t.ledgerSend y else t

/-- LEDGER_MARKER; the end marker of PID 0xFFF announces the closing boundary of the step (R358). -/
def execLedgerMarker (die : Die) (pid : BitVec 12) (fin : Bool) (at_ : MarkAt) (s : State) : Host.Outcome State Fault Refusal :=
  .next (let t := if fin then s.ledgerEnd die pid at_ else s.ledgerStart die pid at_
    if fin && decide (pid = 0xFFF#12) then t.fwUpd (fun f => { f with closing := true }) else t)

/-! ### Energy (R362, R365) -/

/-- ENERGY_SAMPLE: 1 µs of module input energy, in units of 10 µJ; a starved part that stands still rests in Twilight. -/
def execEnergySample (energy : Nat) (s : State) : Host.Outcome State Fault Refusal :=
  .next (let t := s.fwUpd (fun f => { f with
      refTime := f.refTime + 100, allow := f.allow - energy
      ledger := f.ledger.map (fun e => if e.isOpen then { e with energy := e.energy + energy } else e) })
    if t.fw.starved && decide (t.idleState = 0) && t.anyLoaded && t.parkedStill then t.enterIdle .twilight 0 else t)

/-- BUDGET_INTERVAL_START: the allowance is renewed, and a part parked for want of it chooses again. -/
def execBudgetIntervalStart (s : State) : Host.Outcome State Fault Refusal :=
  .next (let t := s.fwUpd (fun f => { f with allow := f.budget.2.1 * 100000, intStart := f.refTime })
    if s.fw.starved && s.sundialUp then
      (((if t.idleState = 1 then t.leaveIdle 0 else t).holdAll false).chooseNext)
    else t)

/-- GROUP_ENERGY_REPORT: a member's step energy counts against the group's allowance at the lead (R364). -/
def execGroupEnergyReport (member : BitVec 14) (step energy : Nat) (s : State) : Host.Outcome State Fault Refusal :=
  .next (match s.fw.group with
    | some (_, members, lead) =>
      if s.ownLogical = lead ∧ members.contains member = true then
        s.fwUpd (fun f => { f with allow := f.allow - energy, reported := f.reported.filter (fun q => q.1 ≠ member.toNat) ++ [(member.toNat, step, energy)] })
      else s
    | none => s)

/-- GROUP_CHOICE: the lead's choice for a later step arrives (R364). -/
def execGroupChoice (step : Nat) (v : BitVec 6) (s : State) : Host.Outcome State Fault Refusal :=
  .next (if s.fw.group.isSome then s.fwUpd (fun f => { f with choices := f.choices.filter (fun q => q.1 ≠ step) ++ [(step, v.toNat)] }) else s)

end Sys2Proof.Machine
end

