-- ==== Sys2Proof/Machine/Epoch.lean ====
section
/-! DEFINITION. Start and epoch boundaries, the epoch unit, the ROM routines (R95 to R97, R172, R210 to R216, R223, R248, R289). -/

namespace Sys2Proof.Machine

/-! ### The start boundary (R210, R223, R248) -/

/-- The stash of a station holds nothing: every slot is free, the spill buffer is empty, no entry is live (R258). -/
def Station.noStash (x : Station) : Station := { x with stash := [], xfer := none, buf := [], unst := [], dropped := 0 }

/-- Every live Lens record of a station is posted (R87, R214). -/
def State.postLive (s : State) (i : Nat) : State := [Strm.F, .B, .U].foldl (fun t m => t.lensPost i m) s

/-- The start boundary of a die: reference counts 0, every crossing FIFO at occupancy 4, EID 0x0000, everything held applies, the live
Lens records of its running stations are posted, the stash is empty, and the landing caches are invalidated (R87, R210, R214, R215, R234,
R248, R258). -/
def State.startBoundary (s : State) (d : Nat) : State :=
  let s1 := { s with refc := Tbl.put (fun _ => 0) (Tbl.put (fun _ => 0) s.refc (2 * d) 0) (2 * d + 1) 0 }
  let s2 := (s1.setFld .shtFifo d 11 0 0x444).setFld .shtEpoch d 15 0 0
  let s3 := (s2.setFld .shtEpoch d 30 30 (b2n (s.bit .shtCtrl d 12))).modDie d (fun y => { y with hold := false, pkgN := 0 })
  let s4 := (s3.applyAll d).eachStation d (fun i t => if t.running i then (t.postLive i).modStation i Station.noStash else t)
  s4.modDie d DieSt.lcInvalidate

/-- A die resumes with its crossing FIFOs at occupancy 4 (R234); the resume that releases loaded stations is their start boundary. -/
def State.resumeDie (s : State) (x : Nat) : State :=
  let s1 := (s.recentred x).modDie x (fun y => { y with frozen := false, resumeIn := none, counted := true, recentre := none })
  if (s.die x).hold then s1.startBoundary x else s1

/-! ### The boundary of a station (R173, R175, R214) -/

/-- The bank that a swap makes active holds a checked image (R175). -/
def Station.otherReady (x : Station) (m : Strm) : Bool := bitOf x.ready.toNat (2 * m.idx + b2n (!(x.stream m).bank))

/-- The other bank becomes active, both stacks are emptied, the first word issues from `ENTRY` on this tick (R173). -/
def StreamSt.swapTo (y : StreamSt) (entry t : Nat) : StreamSt :=
  { y with bank := !y.bank, reps := [], rets := [], pc := entry, next := t, wait := none, rom := none, skip := none, swap := none }

/-- The armed swap of a stream takes effect, or is refused with IMEM_BUSY (R173, R175). -/
def State.swapStream (s : State) (i t : Nat) (m : Strm) : State :=
  let y := s.stream i m
  match y.swap with
  | none => s
  | some e =>
    if (s.station i).otherReady m then s.modStream i m (·.swapTo e t)
    else (s.modStream i m (fun z => { z with swap := none })).seqFault i 8 9 6 ⟨t, y.pc, y.bank, y.inRtn, m⟩

/-- A stream that waits for event 0x10 sees the boundary (R208, Table 7-11). -/
def StreamSt.seeBoundary (y : StreamSt) (t : Nat) : StreamSt :=
  match y.wait with
  | some w => if w.ev = 0x10#6 ∧ w.seen = none ∧ w.at_ < t then { y with wait := some { w with seen := some t } } else y
  | none => y

/-- What a boundary brings about at a station, in the order of R214. -/
def State.stnBoundary (s : State) (i : Nat) (b : Boundary) : State :=
  let s1 := (s.modStation i (fun x => { x with bounds := x.bounds.drop 1, passed := x.passed + 1 })).applyStation i
  let s2 := s1.modStation i (fun x => { x with ownSet := if x.ownPend then !x.ownSet else x.ownSet, ownPend := false })
  let s3 := [Strm.F, .B, .U].foldl (fun t m => t.swapStream i b.tick m) s2
  let s4 := s3.postLive i
  s4.modStation i (fun x => { x with f := x.f.seeBoundary b.tick, b := x.b.seeBoundary b.tick, u := x.u.seeBoundary b.tick })

/-! ### The boundary of a die (R215, R248) and of a step (R358) -/

/-- The last participating station of a die has passed a boundary (R215, R248). -/
def State.dieBoundary (s : State) (d n : Nat) (b : Boundary) : State :=
  let s1 := (s.applyDie d n).modDie d (fun y => { y.lcInvalidate with pkgN := y.pkgN + b2n b.pkg })
  ((s1.setFld .shtEpoch d 15 0 b.eid.toNat).setFld .shtEpoch d 30 30 (b2n b.pkg)).substAt d

/-- Every die of the scope has passed this boundary of die `d` (R226, R358). -/
def State.scopePassed (s : State) (d : Nat) : Bool :=
  (s.scope d).all (fun x => (s.party x).isEmpty || decide ((s.die d).pkgN ≤ (s.die x).pkgN))

/-- EPOCH_BOUNDARY of a station. -/
def State.epochBoundary (s : State) (i : Nat) : State :=
  match s.liveTick i, (s.station i).bounds with
  | some t, b :: _ =>
    if t < b.tick then s
    else
      let d := dieOf i
      let n := (s.station i).passed + 1
      let last := s.participates i && (s.party d).all (fun j => decide (j = i) || decide (n ≤ (s.station j).passed))
      let s1 := s.stnBoundary i b
      if !last then s1
      else
        let s2 := s1.dieBoundary d n b
        if s2.fw.closing && (b.pkg == s.bit .shtCtrl d 12) && s2.scopePassed d then s2.stepBoundary else s2
  | _, _ => s

def execEpochBoundary (stn : Stn) (s : State) : Host.Outcome State Fault Refusal := .next (s.epochBoundary stn)

/-! ### The epoch unit (R213) -/

/-- The participating stations of the scope of a boundary, by the segment masks: of the die, or of all four dies. -/
def State.masked (s : State) (d : Nat) (pkg : Bool) : List Nat :=
  (if pkg then List.range 1024 else (List.range 256).map (256 * d + ·)).filter (fun i => s.participates i && s.present (segOf i))

/-- A boundary is one of package scope: some flit of it says so. -/
def pkgFlits (g : List EpochFlit) : Bool := g.any (fun e => e.pkg)

/-- The flits of one boundary break R213. -/
def State.epochBad (s : State) (d : Nat) (g : List EpochFlit) (f : EpochFlit) : Bool :=
  (s.masked d (pkgFlits g)).any (fun i => !g.any (fun e => e.stn = i))
    || g.any (fun e => decide (e.eid ≠ f.eid) || decide (e.pkg ≠ f.pkg) || e.early || !s.participates e.stn
      || decide (2 ≤ (g.filter (fun h => h.stn = e.stn)).length))

/-- The last time for a decision on the EPOCH ops of local tick `t`: the last participating station has reached it, and its flit has had its
24 or 48 ticks (R213). -/
def State.epochLast (s : State) (d : Nat) (pkg : Bool) (t : Nat) : Nat :=
  (s.masked d pkg).foldl (fun n i => max n (s.tickLen (regionOf i) * (t + s.lag i))) (s.tickLen (s.netRegion d) * t)
    + s.tickLen (s.netRegion d) * (if pkg then 48 else 24)

/-- The unit may decide on the flits of a boundary: every participating station has sent one, or the last count for it has come. -/
def State.epochDue (s : State) (d : Nat) (g : List EpochFlit) (f : EpochFlit) : Bool :=
  let pkg := pkgFlits g
  (s.masked d pkg).all (fun i => g.any (fun e => e.stn = i)) || decide (s.epochLast d pkg f.tick ≤ s.dieTime d)

/-- The last reference count for a decision has come: TICK waits for it (R213, log entry 1). -/
def State.epochLate (s : State) (d : Nat) : Bool :=
  match (s.die d).epochs with
  | [] => false
  | f :: _ =>
    let pkg := pkgFlits ((s.die d).epochs.filter (fun e => e.tick = f.tick))
    decide (s.epochLast d pkg f.tick ≤ s.dieTime d)

/-- EPOCH_UNIT_DECISION on the oldest boundary of a die. -/
def State.epochDecide (s : State) (d : Nat) : State :=
  match (s.die d).epochs with
  | [] => s
  | f :: _ =>
    let g := (s.die d).epochs.filter (fun e => e.tick = f.tick)
    if !s.epochDue d g f then s
    else
      let s1 := s.modDie d (fun y => { y with epochs := y.epochs.filter (fun e => e.tick ≠ f.tick) })
      if s.epochBad d g f then (s1.setFld .shtEpoch d 31 31 1).sendFault d 14 true 0
      else if s1.fw.closing && (f.pkg == s.bit .shtCtrl d 12) then s1.closingDecided d
      else s1

def execEpochUnitDecision (die : Die) (s : State) : Host.Outcome State Fault Refusal := .next (s.epochDecide die)

/-! ### ROM routines (R172, Table 6-10) -/

/-- A stream issues the word of its ROM routine on tick `u`; with the last one the routine is over. -/
def StreamSt.romStep (y : StreamSt) (u : Nat) : StreamSt :=
  { y with rom := if y.next ≤ u + 1 then none else y.rom.map (fun r => { r with done := some u }),
           skip := if y.skips u then none else y.skip }

/-- The place of a word of a ROM routine (R179). -/
def StreamSt.romPlace (y : StreamSt) (m : Strm) (u off : Nat) : OpPlace := ⟨u, off, y.bank, true, m⟩

/-- A word of a ROM routine issues, is traced and counts on the break counter (R170, R180, R183). -/
def State.romIssue (s : State) (i : Nat) (m : Strm) (u : Nat) (w : BitVec 16 × Nat) : State :=
  (((s.modStream i m (·.romStep u)).traceWord i w.1 ((s.stream i m).romPlace m u w.2) false)).brkCount i m

/-- The routine `id` that a stream has called, on tick `u`: the word of this tick meets its break and the active map and issues; what the
routine does comes about with the last one, which waits for the pending Lens posts of the dies that `waits` lists (R87, R161, R170, R172,
R180, log entries 19 and 71). -/
def State.romRun (s : State) (i : Nat) (m : Strm) (id : Nat) (waits : RomSt → List Nat) (eff : RomSt → State → State) : State :=
  match s.issueTick i with
  | none => s
  | some u =>
    let y := s.stream i m
    match y.rom, y.romWord u with
    | some r, some w =>
      if r.id ≠ id ∨ (s.brkHits i m w.1 && !y.skips u) = true then s
      else
        match s.unowned i m w.1 u with
        | some sl =>
          ((s.modStream i m (fun z => { z with rom := none })).traceWord i w.1 (y.romPlace m u w.2) true).seqFault i 4 1 sl.idx
            (y.romPlace m u w.2)
        | none =>
          if u + 1 < y.next then s.romIssue i m u w
          else if (waits r).isEmpty then eff r (s.romIssue i m u w)
          else (waits r).foldl State.lensAsk s
    | _, _ => s

/-- TILES_ZERO: T0 to T31 to +0, VM1 to VM3 to 0. -/
def execTilesZero (stn : Stn) (strm : Strm) (s : State) : Host.Outcome State Fault Refusal :=
  .next (s.romRun stn strm 0x001 (fun _ => []) (fun _ t => t.modStation stn (fun x => { x with tiles := [], masks := [] })))

/-- LENS_CLEAR (R96): the F, B and U records of 256 tags from S0 become zero. Tags wrap at 4,096 where S0 runs past the last (DESIGN
CHOICE, log entry 72). -/
def State.lensClear (s : State) (d first : Nat) (xs : List XferAt) : State :=
  (List.range 256).foldl (fun t k => (List.range 3).foldl (fun u m =>
    u.wr0 (u.lensAddr d ((first + k) % 4096) m) (List.replicate 256 0) xs) t) s

/-- A post of some of the streams to a record of 256 tags from `first` on is pending on a die. -/
def State.blockPosts (s : State) (ms : List Strm) (d first : Nat) : Bool :=
  (s.die d).posts.any (fun p => ms.contains p.strm && decide ((p.tag.toNat + 4096 - first % 4096) % 4096 < 256))

/-- A record of 256 tags from `first` on, of a die's table, lies in a quarantined page group (R264). -/
def State.lensStale (s : State) (d first : Nat) : Bool :=
  (List.range 256).any (fun k => s.staleRange (s.lensAddr d ((first + k) % 4096) 0) 1024)

/-- What LENS_CLEAR does once no post to its records is pending (R87, R96): it zeroes them; that posts still pending are merged first, under a
request of bit 5, is the model's (DESIGN CHOICE, log entry 19). A quarantined record stops the station (R264). -/
def lensClearEff (i : Nat) (xs : List XferAt) (r : RomSt) (s : State) : State :=
  if s.lensStale (dieOf i) r.s0.toNat then s.staleStop i else s.lensClear (dieOf i) r.s0.toNat xs

/-- The posts that LENS_CLEAR waits for: those to its records that are pending merge before it zeroes them, under a request of bit 5,
although R87 holds only reads and R96 does not speak of them (DESIGN CHOICE, log entry 19). -/
def State.clearWaits (s : State) (i : Nat) (r : RomSt) : List Nat :=
  if s.lensStale (dieOf i) r.s0.toNat then [] else [dieOf i].filter (fun d => s.blockPosts [.F, .B, .U] d r.s0.toNat)

/-- LENS_CLEAR. -/
def execLensClear (stn : Stn) (w : RomWord) (s : State) : Host.Outcome State Fault Refusal :=
  .next (s.romRun stn w.strm 0x021 (s.clearWaits stn) (lensClearEff stn w.xs))

/-- Add one tile of gradient-buffer entries into another, in entry order (R77, R289). -/
def Station.tieSum (x : Station) (a b : Nat) : Station :=
  (List.range 1024).foldl (fun y k => y.setEntry (1024 * a + k) (addW48 (y.entry (1024 * a + k)) (v48 (y.entry (1024 * b + k))))) x

/-- TIE_SUM_TILE: tile S1 is added into tile S0; its reads are the L port's, where an uncorrectable error stops the station (R255, R256). -/
def execTieSumTile (stn : Stn) (w : RomWord) (s : State) : Host.Outcome State Fault Refusal :=
  .next (s.romRun stn w.strm 0x030 (fun _ => []) (fun r t =>
    t.withEcc stn w.ecc (fun u => u.modStation stn (fun x => x.tieSum (r.s0.toNat % 256) (r.s1.toNat % 256)))))

/-! ### LENS_SELECT (R94, R95, R97) -/

/-- The candidates of a width class in FMT_CAND order, empty slots left out. -/
def candidates (cand cls : Nat) : List Nat :=
  ((match cls with
    | 0 => [bitsOf cand 19 16, bitsOf cand 23 20]
    | 1 => [bitsOf cand 3 0, bitsOf cand 7 4, bitsOf cand 11 8, bitsOf cand 15 12]
    | 2 => [bitsOf cand 27 24]
    | _ => [])).filter (· ≠ 0)

/-- The widest format of a class. -/
def widest (cls : Nat) : Nat :=
  match cls with
  | 0 => 1
  | 1 => 4
  | _ => 10

/-- Values that a format with scale exponent `sc` would take below its smallest subnormal. -/
def LensRec.below (r : LensRec) (c : Nat) (ref sc : Int) : Nat :=
  (((List.range 31).map (· + 1)).filter (fun (b : Nat) => decide (ref - (b : Int) + sc < eminOf c))).foldl (fun n b => n + Tbl.get (fun _ => 0) r.hist b) 0

/-- What the selection makes of one entry: whether it is written, the new entry, whether headroom was raised, whether the widest format
was forced. -/
structure Pick where
  wr     : Bool
  entry  : Nat
  raised : Bool
  forced : Bool
  deriving DecidableEq, Repr

/-- The selection of R95 over one entry and one combined record. -/
def lensPick (policy cand entry : Nat) (r : LensRec) : Pick :=
  let cls := bitsOf entry 9 8
  if r.count = r.zero + r.nonfin ∨ cls = 3 then ⟨false, entry, false, false⟩
  else
    let ea := (v32 r.amax).floorLog2
    let raised := decide (bitsOf policy 23 16 * r.count < r.oflow * 65536)
    let m : Int := (bitsOf policy 11 8 + b2n raised : Nat)
    let n := r.count - r.zero - r.nonfin
    let sc := fun (c : Nat) => if isMx c then 0 else emaxOf c - ea - m
    let fits := fun (c : Nat) => isMx c || decide (r.below c (sgn8 (bitsOf entry 31 24)) (sc c) * 65536 ≤ bitsOf policy 7 0 * n)
    let put := fun (c : Nat) (v : Int) =>
      enc8 (clampI (-128) 127 ea) * 2 ^ 24 + enc8 (clampI (-128) 127 v) * 2 ^ 16 + bitsOf entry 15 4 * 2 ^ 4 + c
    match (candidates cand cls).find? fits with
    | some c => ⟨true, put c (sc c), raised, false⟩
    | none => ⟨true, put (widest cls) (emaxOf (widest cls) - ea - m), raised, true⟩

/-- The bytes that LENS_SELECT reads of a record; where they do not arrive usable, which R279 does not settle for it, they are open (DESIGN
CHOICE, log entry 19). -/
def State.selectRead (s : State) (a : Nat) (xs : List XferAt) : List Byte :=
  if s.readsOk xs a 160 then s.rd0 a 160 else (List.range 160).map (fun k => Config.freeByte s.free (a + k))

/-- The B records of a tag on all four dies together, in die order (R95). -/
def State.combined (s : State) (tag : Nat) (xs : List XferAt) : LensRec :=
  (List.range 4).foldl (fun r d => r.join (LensRec.ofBytes (s.selectRead (s.lensAddr d tag 1) xs))) LensRec.empty

/-- What the reads of the B records of a tag meet is counted and recorded (R278, R279). -/
def State.selectXfers (s : State) (tag : Nat) (xs : List XferAt) : State :=
  (List.range 4).foldl (fun t d => t.xfers xs false (s.lensAddr d tag 1) 160) s

/-- The 16 bytes of a Lens log record (Table 3-13). -/
def logBytes (step tag old : Nat) (p : Pick) (sel : Bool) (amax : Nat) : List Byte :=
  leBytes 4 step ++ leBytes 2 (0x1000 + tag) ++ leBytes 1 (bitsOf old 3 0 + 16 * bitsOf p.entry 3 0)
    ++ leBytes 1 (b2n (decide (p.entry ≠ old)) + 2 * b2n p.raised + 4 * b2n p.forced + 8 * b2n (!sel))
    ++ leBytes 1 (bitsOf old 23 16) ++ leBytes 1 (bitsOf p.entry 23 16) ++ leBytes 1 (bitsOf p.entry 31 24) ++ leBytes 1 0 ++ leBytes 4 amax

/-- Append a record to the Lens log of a die (R97). A NEXT at or past the number of records is taken modulo that number (DESIGN CHOICE, log
entry 72). -/
def State.lensLog (s : State) (d : Nat) (bs : List Byte) (xs : List XferAt) : State :=
  let cfg := s.reg .lensLogCfg d
  let n := 16384 * 2 ^ bitsOf cfg 18 16
  let k := s.fld .lensLogHead d 23 0 % n
  let s1 := (s.wr0 (bitsOf cfg 15 0 * 2 ^ 18 + 16 * k) bs xs).setFld .lensLogHead d 23 0 ((k + 1) % n)
  if k + 1 = n then s1.setFld .lensStatus d 17 17 1 else s1

/-- One tag of LENS_SELECT: its entry is written where the routine changes it, unless R93 refuses the write, and logged. The routine starts
from the entry in force at the calling station, also where a write of the entry is held (DESIGN CHOICE, log entry 72). -/
def State.selectTag (s : State) (i : Nat) (step tag : Nat) (xs : List XferAt) : State :=
  let d := dieOf i
  let old := s.fmtEntry i tag
  let r := s.combined tag xs
  let sel := bitOf old 7
  let p := if sel then lensPick (s.reg .fmtPolicy d) (s.reg .fmtCand d) old r else ⟨false, old, false, false⟩
  let s1 := if p.wr = true ∧ s.checkFmt (4096 * d + tag) p.entry = stOk then s.putReg .fmtTable (4096 * d + tag) false p.entry else s
  ((s1.selectXfers tag xs).fresh).lensLog d (logBytes step tag old p sel r.amax.toNat) xs

/-- Select for the listed tags, counted on from `first` as it stands, and modulo 4,096 (DESIGN CHOICE, log entry 72). -/
def State.selectTags (s : State) (i step first : Nat) (l : List Nat) (xs : List XferAt) : State :=
  l.foldl (fun t k => t.selectTag i step ((first + k) % 4096) xs) s

/-- LENS_SELECT (R95): 256 tags from S0, with the step number S1. -/
def State.lensSelect (s : State) (i : Nat) (first step : Nat) (xs : List XferAt) : State := s.selectTags i step first (List.range 256) xs

/-- A page group that LENS_SELECT reads or writes is quarantined (R264). -/
def State.selectStale (s : State) (i first : Nat) : Bool :=
  let cfg := s.reg .lensLogCfg (dieOf i)
  (List.range 4).any (fun d => s.lensStale d first) || s.staleRange (bitsOf cfg 15 0 * 2 ^ 18) (2 ^ 18 * 2 ^ bitsOf cfg 18 16)

def lensSelectEff (i : Nat) (xs : List XferAt) (r : RomSt) (s : State) : State :=
  if s.selectStale i r.s0.toNat then s.staleStop i else s.lensSelect i r.s0.toNat r.s1.toNat xs

/-- The dies whose posts LENS_SELECT waits for: its reads of the records are held until the posts to them have merged (R87). -/
def State.selectWaits (s : State) (i : Nat) (r : RomSt) : List Nat :=
  if s.selectStale i r.s0.toNat then [] else (List.range 4).filter (fun d => s.blockPosts [.B] d r.s0.toNat)

/-- LENS_SELECT. -/
def execLensSelect (stn : Stn) (w : RomWord) (s : State) : Host.Outcome State Fault Refusal :=
  .next (s.romRun stn w.strm 0x020 (s.selectWaits stn) (lensSelectEff stn w.xs))

end Sys2Proof.Machine
end

