-- ==== Sys2Proof/Machine/Mailbox.lean ====
section
/-! DEFINITION. Liaison's handling of a TCS command: checks, journal, commits, waiting (R348 to R355). -/

namespace Sys2Proof.Machine

/-! ### Receiving (R336, R350, R354, R356) -/

/-- Liaison receives a message: its mailbox entry is posted again, and events go to its port from now on. -/
def State.heard (s : State) (p : EthPort) : State :=
  let x := s.ethSt p
  (s.setEth p { x with entries := min 256 (x.entries + 1) }).fwUpd (fun f => { f with lastPort := p })

/-- A command waits for a processor (0 to 3), or for the part to be up (4). -/
def State.hold (s : State) (k : Nat) (c : Instr) : State := s.fwUpd (fun f => { f with held := f.held ++ [⟨k, none, c⟩] })

/-- A command waits for Liaison in the receive entry that its SEND has taken (R354). -/
def State.holdEntry (s : State) (p : EthPort) (c : Instr) : State := s.fwUpd (fun f => { f with held := f.held ++ [⟨0, some p, c⟩] })

/-! ### The journal (R350) -/

/-- E of a processor. -/
def State.expected (s : State) (p : Nat) : Nat := s.reg .mbxNextSeq p

def State.journal (s : State) (p : Nat) : List Done := Tbl.get (fun _ => []) s.fw.journal p

/-- A completion joins the journal, which keeps the last 256, and E advances. -/
def State.journalAdd (s : State) (p : Nat) (d : Done) : State :=
  (s.fwUpd (fun f => { f with journal := Tbl.put (fun _ => []) f.journal p ((s.journal p ++ [d]).drop ((s.journal p).length + 1 - 256)) })).setReg
    .mbxNextSeq p (s.expected p + 1)

/-- A completion with the part's current restart count, session and step count (Table 13-4). -/
def State.doneOf (s : State) (h : TcsHdr) (opc st : Nat) (load : List Nat) : Done :=
  ⟨h.seq, opc, s.fld .fwStatus (h.fp.toNat % 4) 15 0, st, BitVec.ofNat 32 (s.reg .mbxSession 0), s.fw.stepCnt % 2 ^ 32, load⟩

/-- Send a completion on the port of its command. -/
def State.sendDone (s : State) (h : TcsHdr) (d : Done) : State :=
  s.toHost (.completion h.port h.fp.toNat d.opc d.seq d.rcnt d.stat d.sess d.step d.load)

/-! ### The checks (R349) -/

/-- The outcome of checks 1 to 5. -/
inductive Verdict where
  | refuse (status : Nat) (load : List Nat)
  | again (d : Done)
  | wait (p : Nat)
  | pass (p : Nat)
  deriving DecidableEq, Repr

/-- Checks 1 and 2 (R349): the status with which they refuse, 0 where they pass. -/
def hdrStatus (h : TcsHdr) : Nat :=
  if h.vmaj ≠ 1 ∨ h.vmin ≠ 0 then 1
  else if h.typ ≠ 1 ∨ 3 < h.fp.toNat ∨ h.len.toNat < 32 ∨ 4096 < h.len.toNat ∨ h.len.toNat % 4 ≠ 0 ∨ h.len.toNat ≠ h.sendLen then 2
  else 0

/-- Check 4 where `SEQ` is not E: `b` is how far it lies below E, or 0 where it lies above. -/
def State.seqCheck (s : State) (p : Nat) (seq : Word) : Verdict :=
  let d := (seq.toNat + 2 ^ 32 - s.expected p) % 2 ^ 32
  if d < 2 ^ 31 then .refuse 4 [s.expected p]
  else if 256 < 2 ^ 32 - d then .refuse 5 []
  else
    match (s.journal p).find? (fun e => e.seq = seq) with
    | some e => .again e
    | none => .refuse 5 []

/-- Checks 1 to 5, a command for a processor that restarts waiting before check 5 (R349, R354); commands of a lost session are refused
under check 3 (R357). -/
def State.tcsCheck (s : State) (h : TcsHdr) : Verdict :=
  let p := h.fp.toNat
  if hdrStatus h ≠ 0 then .refuse (hdrStatus h) []
  else if h.session.toNat ≠ s.reg .mbxSession 0 ∨ s.bit .mbxStatus 0 30 = true then .refuse 3 []
  else if h.seq.toNat ≠ s.expected p then s.seqCheck p h.seq
  else if s.restarting p then .wait p
  else if h.rcnt.toNat ≠ s.fld .fwStatus p 15 0 then .refuse 6 [s.fld .fwStatus p 15 0, s.expected p]
  else .pass p

/-! ### Commits (R353) -/

/-- What a command comes to: the state, its status, its payload words. -/
abbrev Ran := State × Nat × List Nat

/-- Apply a staging list in order; the first write that errs makes the completion HW_ERROR with its offset. -/
def State.commit (s : State) (p : Proc) : List (Nat × Nat) → Ran
  | [] => (s, 0, [])
  | (o, v) :: ws =>
    let q := s.csrWrite (.fp p) o 4 v
    if q.2 = stOk then q.1.commit p ws else (q.1, 0x40, [o])

/-! ### Running a command -/

/-- How Liaison treats a command: its opcode, whether it is accepted in ROM state (R347), whether it needs compute (R388). -/
structure Kind where
  opc  : Nat
  rom  : Bool
  wake : Bool
  deriving DecidableEq, Repr

/-- Checks after check 5 that every command has (R347, R355). -/
def State.preStatus (s : State) (h : TcsHdr) (k : Kind) (p : Nat) : Nat :=
  if k.opc / 0x1000 ≠ p then 0x10
  else if !k.rom && (s.inRom 0 || s.inRom p) then 0x12
  else if h.rsvBad then 0x11
  else 0

/-- Record and send a completion. -/
def State.finish (s : State) (h : TcsHdr) (k : Kind) (p st : Nat) (load : List Nat) : State :=
  let d := s.doneOf h k.opc st load
  (s.journalAdd p d).sendDone h d

/-- Execute or refuse a command that Liaison has received; `after` happens once an accepted command has been answered. -/
def State.tcsRun (s : State) (h : TcsHdr) (k : Kind) (c : Instr) (run : State → Ran) (after : State → State) : State :=
  match s.tcsCheck h with
  | .refuse st load => s.sendDone h (s.doneOf h k.opc st load)
  | .again d => s.sendDone h d
  | .wait p => s.hold p c
  | .pass p =>
    let st := s.preStatus h k p
    if st ≠ 0 then s.finish h k p st []
    else if k.wake && decide (2 ≤ s.idleState) then (s.leaveIdle 0).hold 4 c
    else
      let q := run (if k.wake && decide (s.idleState = 1) then s.leaveIdle 0 else s)
      let t := q.1.finish h k p q.2.1 q.2.2
      if q.2.1 = 0 then after t else t

/-- A command arrives: nothing receives it while the firmware domain is off, or on a mailbox QP that is not connected (R334, R336); while
Liaison restarts it waits in its receive entry (R354). -/
def State.receive (s : State) (h : TcsHdr) (c : Instr) (go : State → State) : State :=
  if !bitOf s.pwr.on.toNat 12 || decide (s.qpState (qpKey h.port 0) ≠ 1) then s
  else if s.restarting 0 then s.holdEntry h.port c
  else go (s.heard h.port)

/-- A field of a command's payload is in its range, else the command is answered BAD_FIELD (R355). -/
def State.within (s : State) (ok : Bool) (run : State → Ran) : Ran := if ok then run s else (s, 0x11, [])

/-- The state of the target forbids a command. -/
def State.barIf (s : State) (bad : Bool) (run : State → Ran) : Ran := if bad then (s, 0x13, []) else run s

/-- Nothing more happens once a command has been answered. -/
def noMore (s : State) : State := s

/-- The words of a run of bytes. -/
def loadWords (bs : List Byte) : List Nat := (List.range (bs.length / 4)).map (fun w => leNat ((bs.drop (4 * w)).take 4))

end Sys2Proof.Machine
end

