-- ==== Sys2Proof/Machine/Tcs.lean ====
section
/-! DEFINITION. The commands of the Tharax Command Set (R337, R346, R347, R352, R355 to R366, R372, R388, R394, R399, R403, R406, R407, R435). -/

namespace Sys2Proof.Machine

/-! ### QUERY, HEARTBEAT, RECLAIM (R352, R357) -/

def State.queryWords (s : State) : List Nat :=
  [s.regRead .idPartInfo 0 false] ++ (List.range 4).map (fun p => s.reg .fwStatus p) ++ (List.range 4).map s.expected
    ++ [s.reg .mbxSession 0, s.regRead .mbxStatus 0 false]

def State.tcsQuery (s : State) (h : TcsHdr) : State :=
  s.tcsRun h ⟨0x0001, true, false⟩ (.query h) (fun t => (t, 0, t.queryWords)) noMore

def execQuery (h : TcsHdr) (s : State) : Host.Outcome State Fault Refusal := .next (s.receive h (.query h) (·.tcsQuery h))

def State.tcsHeartbeat (s : State) (h : TcsHdr) : State :=
  s.tcsRun h ⟨0x0002, true, false⟩ (.heartbeat h) (fun t => (t, 0, [])) noMore

def execHeartbeat (h : TcsHdr) (s : State) : Host.Outcome State Fault Refusal := .next (s.receive h (.heartbeat h) (·.tcsHeartbeat h))

/-- The new session: journal cleared, E set for every processor, the host no longer lost, what was queued sent or discarded (R352, R357). -/
def State.reclaim (s : State) (session : Word) (next : List Word) (flush : Bool) : State :=
  let s1 := (s.setReg .mbxSession 0 session.toNat).setFld .mbxStatus 0 30 30 0
  let s2 := (List.range 4).foldl (fun t p => t.setReg .mbxNextSeq p (next.getD p 0).toNat) s1
  let s3 := s2.fwUpd (fun f => { f with journal := [], queued := [] })
  if flush then s3 else s.fw.queued.foldl State.mail s3

/-- RECLAIM with `RESUME` 1: idle states are left, the hold is released (R357, R388). -/
def State.reclaimResume (s : State) : State := (if s.idleState = 2 then s.leaveIdle 0 else s).unpark

/-- RECLAIM: exempt from checks 3 to 5, so its completion is not journalled. -/
def State.tcsReclaim (s : State) (h : TcsHdr) (session : Word) (next : List Word) (resume flush : Bool) : State :=
  let answer := fun (t : State) (st : Nat) => t.sendDone h (t.doneOf h 0x0003 st [])
  if hdrStatus h ≠ 0 then answer s (hdrStatus h)
  else if h.fp.toNat ≠ 0 then answer s 0x10
  else if h.rsvBad || decide (next.length ≠ 4) then answer s 0x11
  else
    let t := answer (s.reclaim session next flush) 0
    if resume then t.reclaimResume else t

def execReclaim (h : TcsHdr) (session : Word) (next : List Word) (resume flush : Bool) (s : State) : Host.Outcome State Fault Refusal :=
  .next (s.receive h (.reclaim h session next resume flush) (·.tcsReclaim h session next resume flush))

/-! ### MKEY_SET (R337) -/

def mkeyWrites (port : EthPort) (entry : BitVec 6) (keyTag : BitVec 24) (rd wr : Bool) (base limit : BitVec 64) : List (Nat × Nat) :=
  let k := 64 * port.val + entry.toNat
  let b := Reg.at .ethMkeyBase k
  let l := Reg.at .ethMkeyLimit k
  [(b, base.toNat % 2 ^ 32), (b + 4, base.toNat / 2 ^ 32), (l, limit.toNat % 2 ^ 32), (l + 4, limit.toNat / 2 ^ 32),
   (Reg.at .ethMkeyCtrl k, 2 ^ 31 + b2n rd * 2 ^ 30 + b2n wr * 2 ^ 29 + keyTag.toNat)]

def State.tcsMkeySet (s : State) (h : TcsHdr) (port : EthPort) (entry : BitVec 6) (keyTag : BitVec 24) (rd wr : Bool) (base limit : BitVec 64) : State :=
  s.tcsRun h ⟨0x0004, true, false⟩ (.mkeySet h port entry keyTag rd wr base limit)
    (fun t => t.commit 0 (mkeyWrites port entry keyTag rd wr base limit)) noMore

def execMkeySet (h : TcsHdr) (port : EthPort) (entry : BitVec 6) (keyTag : BitVec 24) (rd wr : Bool) (base limit : BitVec 64) (s : State) :
    Host.Outcome State Fault Refusal :=
  .next (s.receive h (.mkeySet h port entry keyTag rd wr base limit) (·.tcsMkeySet h port entry keyTag rd wr base limit))

/-! ### IMAGE_COMMIT (R345 to R347) -/

/-- Every table of an image's body is known to the processor and lies within the body (Table 13-3, check 6). -/
def tablesOk (p : Proc) : Nat → List Byte → Bool
  | 0, _ => false
  | n + 1, bs =>
    if bs.isEmpty then true
    else
      decide (8 ≤ bs.length) && Config.tableKnown p (leNat (bs.take 4)) && decide (leNat ((bs.drop 4).take 4) + 8 ≤ bs.length)
        && tablesOk p n (bs.drop (8 + leNat ((bs.drop 4).take 4)))

/-- Bytes [lo, lo + n) of an image. -/
def imgSlice (bs : List Byte) (lo n : Nat) : List Byte := (bs.drop lo).take n

def imgNum (bs : List Byte) (lo n : Nat) : Nat := leNat (imgSlice bs lo n)

/-- Check 1 of Table 13-3. -/
def imgHeadOk (p : Proc) (bs : List Byte) : Bool :=
  decide (5632 ≤ bs.length) && decide (imgNum bs 0 4 = 0x53495854) && decide (imgNum bs 4 1 = p.val) && decide (imgNum bs 5 1 = 1)
    && decide (imgNum bs 6 2 = 1) && decide (imgNum bs 80 48 = 0) && decide (imgNum bs 5389 243 = 0)
    && decide (8 ≤ imgNum bs 12 4) && decide (imgNum bs 12 4 ≤ 786432) && decide (5632 + imgNum bs 12 4 = bs.length)

/-- The status of Table 13-3 for an image, 0 where it passes. -/
def State.imageStatus (s : State) (p : Proc) (bs : List Byte) : Nat :=
  let body := bs.drop 5632
  if !imgHeadOk p bs then 0x22
  else if takeN 64 (Config.shake256 (imgSlice bs 128 1952)) ≠ s.regBytes .idImgKeyDigest 16 then 0x20
  else if !Config.imageOk p bs then 0x20
  else if imgNum bs 8 4 < s.regRead .idMinSvn p false then 0x21
  else if takeN 64 (Config.shake256 body) ≠ imgSlice bs 16 64 then 0x22
  else if !tablesOk p body.length body then 0x22
  else 0

/-- Keeper writes the persisted spare positions, stamps the stations they move, and the persisted retirement list (R123, R280). -/
def State.keeperStart (s : State) : State :=
  let s1 := s.fw.spares.foldl (fun t q =>
    let p := t.sparePos q.1
    ((List.range 32).filter (fun k => decide (slotPos p k ≠ slotPos q.2 k))).foldl (fun u k => u.stampStn (32 * q.1 + k)) (t.spareTo q.1 q.2)) s
  s.fw.retired.foldl (fun t q => t.setReg .prismRetire (32 * q.1 + q.2.1) (2 ^ 31 + q.2.2)) s1

/-- The tables that a processor keeps in its own memory: Sundial's budget and policy, Keeper's flash parameters (R344). -/
def State.readTables (s : State) (p : Nat) (body : List Byte) : State :=
  match p with
  | 1 => s.fwUpd (fun f => { f with
      budget := (match Config.imgItem body 1, Config.imgItem body 2, Config.imgItem body 3, Config.imgItem body 4 with
        | some a, some b, some c, some d => (a, b, c, d)
        | _, _, _, _ => f.budget)
      policy := (match Config.imgItem body 5, Config.imgItem body 6 with
        | some a, some b => (a, b)
        | _, _ => f.policy) })
  | 3 => s.fwUpd (fun f => { f with nand := { f.nand with
      params := (match Config.imgItem body 9, Config.imgItem body 10 with
        | some a, some b => some (a, b)
        | _, _ => f.nand.params) } })
  | _ => s

/-- What a processor does with the tables of its image at start (R303, R344, R347). -/
def State.imageStart (s : State) (p : Proc) (body : List Byte) : State :=
  match p.val with
  | 0 => match Config.imgItem body 0 with
    | some v => if 10 ≤ v ∧ v ≤ 60000 then s.setFld .mbxCtrl 0 15 0 v else s
    | none => s
  | 1 => s.readTables 1 body
  | 2 => match Config.imgItem body 7 with
    | some m => (List.range 16).foldl (fun t k =>
        if bitOf m k then (t.csrWrite (.fp 2) (Reg.at .pyPortCtrl k) 4 (t.reg .pyPortCtrl k % 2 ^ 31 + 2 ^ 31)).1 else t) s.stewardRuns
    | none => s.stewardRuns
  | _ =>
    let t := (s.readTables 3 body).keeperStart
    match Config.imgItem body 8 with
    | some v => (t.csrWrite (.fp 3) (Reg.at .snapCtrl 0) 4 v).1
    | none => t

/-- The image is in force (R347). -/
def State.imageAccept (s : State) (p : Proc) (bs : List Byte) : State :=
  let s1 := s.fwUpd (fun f => { f with images := Tbl.put (fun _ => none) f.images p (some ⟨imgNum bs 8 4, imgSlice bs 16 64, bs.drop 5632⟩) })
  (if s.restarting p then s1 else s1.setFld .fwStatus p 31 30 2).imageStart p (bs.drop 5632)

def State.imageCommit (s : State) (p : Proc) (off len : Nat) : Ran :=
  s.barIf (s.image p).isSome (fun t =>
    t.within (decide (1 ≤ len) && decide (off % stackSize + len ≤ stackSize)) (fun u =>
      let bs := u.stackRdN (off / stackSize) (off % stackSize) len
      let st := u.imageStatus p bs
      if st = 0 then (u.imageAccept p bs, 0, []) else (u, st, [])))

def State.tcsImageCommit (s : State) (h : TcsHdr) (proc : Proc) (off : BitVec 34) (len : Nat) : State :=
  s.tcsRun h ⟨0x0005, true, false⟩ (.imageCommit h proc off len) (·.imageCommit proc off.toNat len) noMore

def execImageCommit (h : TcsHdr) (proc : Proc) (off : BitVec 34) (len : Nat) (s : State) : Host.Outcome State Fault Refusal :=
  .next (s.receive h (.imageCommit h proc off len) (·.tcsImageCommit h proc off len))

/-! ### BIN_LOAD and VARIANT_STAGE (R241, R353, R359) -/

/-- An activity of Liaison has been accepted: it is carried out until ACTIVITY_DONE. -/
def State.addTask (s : State) (h : TcsHdr) (c : Instr) : State := s.fwUpd (fun f => { f with tasks := f.tasks ++ [(h.seq.toNat, c)] })

/-- The start of BIN_LOAD is accepted or refused. -/
def State.binLoad (s : State) (h : TcsHdr) (c : Instr) (d : BinDecl) (banks : List BankDesc) : Ran :=
  s.within (banksOk banks) (fun t =>
    match t.declRefused d banks with
    | some q => (t, q.1, q.2)
    | none => (t.addTask h c, 0, []))

def State.tcsBinLoad (s : State) (h : TcsHdr) (d : BinDecl) (banks : List BankDesc) : State :=
  s.tcsRun h ⟨0x0006, false, true⟩ (.binLoad h d banks) (·.binLoad h (.binLoad h d banks) d banks) noMore

def execBinLoad (h : TcsHdr) (d : BinDecl) (banks : List BankDesc) (s : State) : Host.Outcome State Fault Refusal :=
  .next (s.receive h (.binLoad h d banks) (·.tcsBinLoad h d banks))

/-- A variant's declarations differ from the loaded binary's (R359). -/
def State.variantDiffers (s : State) (v : VariantDecl) : Bool :=
  match s.fw.binary with
  | some b => decide (b.decl.segMask ≠ v.decl.segMask) || b.decl.package != v.decl.package || decide (b.decl.seam ≠ v.decl.seam)
  | none => false

/-- The banks of a variant that the checks of a load look at: it names inactive banks of running stations only by its copies (R360). -/
def State.variantBanks (s : State) (v : VariantDecl) : List BankDesc := v.banks.filter (fun k => !(bankStns k).any s.running)

def State.variantStage (s : State) (h : TcsHdr) (c : Instr) (v : VariantDecl) : Ran :=
  s.within (banksOk v.banks && decide (800 * s.vMult v ≤ v.ticks) && !s.variantDiffers v) (fun t =>
    match t.declRefused v.decl (t.variantBanks v) with
    | some q => (t, q.1, q.2)
    | none => (t.addTask h c, 0, []))

def State.tcsVariantStage (s : State) (h : TcsHdr) (v : VariantDecl) : State :=
  s.tcsRun h ⟨0x0009, false, false⟩ (.variantStage h v) (·.variantStage h (.variantStage h v) v) noMore

def execVariantStage (h : TcsHdr) (v : VariantDecl) (s : State) : Host.Outcome State Fault Refusal :=
  .next (s.receive h (.variantStage h v) (·.tcsVariantStage h v))

/-- The staging of a variant has come to its end: kept as checked, or refused. -/
def State.variantDone (s : State) (v : VariantDecl) : Ran :=
  match s.codeRefused v.decl.profile.toNat v.banks with
  | some p => (s, 0x35, p)
  | none =>
    (s.fwUpd (fun f => { f with variants := f.variants.filter (fun x => x.index ≠ v.index) ++ [v]
                                energies := f.energies.filter (fun e => e.1 ≠ v.index.toNat) }), 0, [])

/-! ### STN_START and STN_STOP (R210, R435) -/

/-- The stations of a scope that lie in the segment mask of the loaded binary, in logical order. -/
def State.startSet (s : State) (dies : Nat) : List Nat :=
  match s.fw.binary with
  | some b => (s.maskStns b.decl).filter (fun i => bitOf dies (dieOf i))
  | none => []

/-- A station runs, stands at a break, or is held by a fault stop (R435, check 1). -/
def State.startBusy (s : State) (i : Nat) : Bool :=
  decide ((s.station i).run ≠ .stopped) || (s.die (dieOf i)).reqs.any (fun q => q.bit = 12)

/-- Some stream's active bank is not READY (R435, check 3). -/
def Station.unready (x : Station) : Bool :=
  [Strm.F, .B, .U].any (fun m => !bitOf x.ready.toNat (2 * m.idx + b2n (x.stream m).bank))

/-- A stream stands at offset 0 of its active bank, both stacks empty (R210). -/
def StreamSt.atStart (y : StreamSt) : StreamSt :=
  { y with pc := 0, reps := [], rets := [], swap := none, wait := none, next := 0, skip := none, word := none, rom := none }

/-- A station is loaded for its start: what is counted in ticks of an earlier run is gone. -/
def Station.load (x : Station) : Station :=
  { x with run := .running, f := x.f.atStart, b := x.b.atStart, u := x.u.atStart, grp := [], drain := none, portBusy := 0, vBusy := 0,
           ginj := [], stopAt := none, bounds := [], passed := 0, step := none, ownPend := false, settleAt := [], lastEpoch := none }

/-- The ops that a station issued before its stop complete, and it is loaded (R210, log entry 2). -/
def State.loadStation (s : State) (i : Nat) : State := (s.pipeOut i).modStation i Station.load

/-- A die holds its loaded stations at schedule tick 0 until the start boundary: an uncounted freeze, whose requests are recorded, and in
which the crossings stand at their slots again and off-centre FIFOs recentre (R210, R227, R234). -/
def State.holdDie (s : State) (d : Nat) : State :=
  let s1 := { s with refc := Tbl.put (fun _ => 0) (Tbl.put (fun _ => 0) s.refc (2 * d) 0) (2 * d + 1) 0 }
  let s2 := ((s1.realign (2 * d)).realign (2 * d + 1)).cause d
    ((s.scope d).foldl (fun n x => n ||| (s.die x).joined ||| s.pendBits x) 0)
  s2.modDie d (fun y =>
    { y with frozen := true, counted := false, hold := true, resumeIn := none, target := none, timed := [], joined := 0, epochs := [],
             recentre := if y.reqs.any (fun q => decide (q.bit ≤ 1)) then some 4 else y.recentre })

/-- Every check has passed: the stations are loaded, and every die of their scope is held (R210, R226). The step count starts at 0 (R358). -/
def State.startStations (s : State) (is_ : List Nat) : State :=
  let s1 := is_.foldl State.loadStation s
  let s2 := ((List.range 4).filter (fun d => is_.any (fun i => s.scope (dieOf i) |>.contains d))).foldl (fun t d => t.holdDie d) s1
  let s3 := s2.fwUpd (fun f => { f with stepCnt := 0, closing := false, stepE := none })
  if s3.bit .mbxStatus 0 31 then s3.unpark else s3

def State.stnStart (s : State) (dies : Nat) : Ran :=
  let is_ := s.startSet dies
  match is_.find? s.startBusy, is_.find? s.quarantined, is_.find? (fun i => (s.station i).unready) with
  | some i, _, _ => (s, 0x13, [i])
  | none, some i, _ => (s, 0x34, [i])
  | none, none, some i => (s, 0x36, [i])
  | none, none, none => (s.startStations is_, 0, [])

def State.tcsStnStart (s : State) (h : TcsHdr) (dies : DieMask) : State :=
  s.tcsRun h ⟨0x0007, false, true⟩ (.stnStart h dies) (·.stnStart dies.toNat) noMore

def execStnStart (h : TcsHdr) (dies : DieMask) (s : State) : Host.Outcome State Fault Refusal :=
  .next (s.receive h (.stnStart h dies) (·.tcsStnStart h dies))

/-- Every station of a die stops, and what was held for an epoch applies. -/
def State.stopAll (s : State) (d : Nat) : State := ((s.stopDie d).modDie d (fun y => { y with hold := false, epochs := [] })).applyAll d

/-- Every station of the scope of a die stands stopped. -/
def State.scopeStopped (s : State) (d : Nat) : Bool :=
  s.used.all (fun i => !(s.scope d).contains (dieOf i) || decide ((s.station i).run = .stopped))

/-- The requests of bits 0, 1, 8, 9 and 12 of a die are cleared with the last station of its scope (R210, R231). -/
def State.clearStops (s : State) (d : Nat) : State :=
  if s.scopeStopped d then s.modDie d (fun y => { y with reqs := y.reqs.filter (fun q => q.bit ∉ [0, 1, 8, 9, 12]), timed := [] }) else s

def State.stnStop (s : State) (dies : Nat) : Ran :=
  let t := ((List.range 4).filter (fun d => (s.scope d).any (fun x => bitOf dies x))).foldl State.clearStops (((List.range 4).filter (fun d => bitOf dies d)).foldl State.stopAll s)
  (if t.bit .mbxStatus 0 31 then t.unpark else t, 0, [])

def State.tcsStnStop (s : State) (h : TcsHdr) (dies : DieMask) : State :=
  s.tcsRun h ⟨0x0008, false, false⟩ (.stnStop h dies) (·.stnStop dies.toNat) noMore

def execStnStop (h : TcsHdr) (dies : DieMask) (s : State) : Host.Outcome State Fault Refusal :=
  .next (s.receive h (.stnStop h dies) (·.tcsStnStop h dies))

/-! ### CLASS_SWITCH (R361) -/

/-- The entries wait for the copy engine. -/
def State.classPend (q : Ran) (v : Nat) (pairs : List (BitVec 12 × Word)) : Ran :=
  if q.2.1 ≠ 0 then q else ((q.1.setFld .fwVariantStatus 0 22 22 1).fwUpd (fun f => { f with classSw := some (v, pairs) }), q.2)

def State.classSwitch (s : State) (v : BitVec 6) (pairs : List (BitVec 12 × Word)) : Ran :=
  s.within (decide (pairs.length ≤ 500) && pairs.all (fun q => fmtOk q.2.toNat) && (s.variantOf v.toNat).isSome) (fun t =>
    t.barIf (t.bit .fwVariantStatus 0 22 || (match t.variantOf v.toNat with | some x => !Config.classMatch x.classSig pairs | none => true)) (fun u =>
      let dies := (List.range 4).filter (fun d => u.regionOn (2 * d))
      State.classPend (u.commit 0 (dies.map (fun d => (Reg.at .fmtPolicy d, u.reg .fmtPolicy d % 2 ^ 31)) ++ [(Reg.at .fwNextVariant 0, 2 ^ 31 + v.toNat)]))
        v.toNat pairs))

def State.tcsClassSwitch (s : State) (h : TcsHdr) (v : BitVec 6) (pairs : List (BitVec 12 × Word)) : State :=
  s.tcsRun h ⟨0x000A, false, false⟩ (.classSwitch h v pairs) (·.classSwitch v pairs) noMore

def execClassSwitch (h : TcsHdr) (v : BitVec 6) (pairs : List (BitVec 12 × Word)) (s : State) : Host.Outcome State Fault Refusal :=
  .next (s.receive h (.classSwitch h v pairs) (·.tcsClassSwitch h v pairs))

/-! ### EVENT_READ and HOSTLOSS_SET -/

/-- An event as reply words: number; code, processor and length of its payload; restart count; session; step; payload (log entry 62). -/
def eventWords (e : EventRec) : List Nat :=
  [e.num, e.code + e.fp * 2 ^ 16 + e.load.length * 2 ^ 24, e.rcnt, e.sess.toNat, e.step] ++ e.load

def State.eventRead (s : State) (first count : Nat) : Ran :=
  s.within (decide (count ≤ 64)) (fun t =>
    let es := (t.fw.events.filter (fun e => first ≤ e.num)).take count
    match t.fw.events with
    | e :: _ => if first < e.num then (t, 5, []) else (t, 0, es.length :: es.flatMap eventWords)
    | [] => (t, 0, [0]))

def State.tcsEventRead (s : State) (h : TcsHdr) (first count : Nat) : State :=
  s.tcsRun h ⟨0x000B, false, false⟩ (.eventRead h first count) (·.eventRead first count) noMore

def execEventRead (h : TcsHdr) (first count : Nat) (s : State) : Host.Outcome State Fault Refusal :=
  .next (s.receive h (.eventRead h first count) (·.tcsEventRead h first count))

def State.tcsHostlossSet (s : State) (h : TcsHdr) (timeout : Nat) (snap : Bool) : State :=
  s.tcsRun h ⟨0x000C, false, false⟩ (.hostlossSet h timeout snap)
    (fun t => t.within (decide (10 ≤ timeout) && decide (timeout ≤ 60000)) (fun u =>
      u.commit 0 [(Reg.at .mbxCtrl 0, b2n snap * 2 ^ 16 + timeout)])) noMore

def execHostlossSet (h : TcsHdr) (timeout : Nat) (snap : Bool) (s : State) : Host.Outcome State Fault Refusal :=
  .next (s.receive h (.hostlossSet h timeout snap) (·.tcsHostlossSet h timeout snap))

/-! ### PROFILE_SET (R372, R381) -/

/-- A Pycia or an Ethernet port that a profile disables is in use. -/
def State.profPorts (s : State) (n : Nat) : Bool :=
  decide (n = 3) &&
    ((List.range 16).any (fun p => !s.bit .pwrZenithCfg 0 p && (decide (s.pyState p ≠ 0) || s.bit .pyPortCtrl p 31))
      || (List.range 2).any (fun p => !s.bit .pwrZenithCfg 0 (26 + p) && s.bit .ethPortCtrl p 31))

/-- A half that a profile gates holds a segment of the loaded binary. -/
def State.profGates (s : State) (n : Nat) : Bool :=
  match s.fw.binary with
  | some b => (List.range 32).any (fun g => bitOf b.decl.segMask.toNat g && decide (s.profMult n (g % 8 / 4) = 0))
  | none => false

/-- The cases of R372 and R381. -/
def State.profBarred (s : State) (n : Nat) : Bool :=
  (s.anyRunning && (s.profPkg n != s.pkgRing || decide (s.profSeam n ≠ s.ratio.toNat))) || s.profPorts n || s.profGates n
    || (decide (n = 3) && !s.bit .pwrZenithCfg 0 31)
    || (s.bit .clkStatus 0 28 && !(s.bit .clkStatus 0 31 && s.bit .clkStatus 0 29))

/-- PROFILE_SET: the write that arms the switch is refused by PWR_PROFILE where the profile is active already or too fast. -/
def State.profileSet (s : State) (n : Nat) : Ran :=
  s.barIf (s.profBarred n) (fun t =>
    if n = t.active ∨ t.armOver n = true then (t.csrRefused .pwrProfile (2 ^ 31 + n * 2 ^ 16), 0x40, [Reg.at .pwrProfile 0])
    else (t.switchTo n, 0, []))

def State.tcsProfileSet (s : State) (h : TcsHdr) (prof : BitVec 2) : State :=
  s.tcsRun h ⟨0x1001, false, false⟩ (.profileSet h prof) (·.profileSet prof.toNat) noMore

def execProfileSet (h : TcsHdr) (prof : BitVec 2) (s : State) : Host.Outcome State Fault Refusal :=
  .next (s.receive h (.profileSet h prof) (·.tcsProfileSet h prof))

/-! ### Sundial's settings (R297, R362 to R364) -/

def State.tcsBudgetSet (s : State) (h : TcsHdr) (cap allowance interval margin : Nat) : State :=
  s.tcsRun h ⟨0x1002, false, false⟩ (.budgetSet h cap allowance interval margin)
    (fun t => t.within (decide (1 ≤ interval)) (fun u =>
      (u.fwUpd (fun f => { f with budget := (cap, allowance, interval, margin), allow := allowance * 100000, intStart := f.refTime }), 0, []))) noMore

def execBudgetSet (h : TcsHdr) (cap allowance interval margin : Nat) (s : State) : Host.Outcome State Fault Refusal :=
  .next (s.receive h (.budgetSet h cap allowance interval margin) (·.tcsBudgetSet h cap allowance interval margin))

def State.tcsPolicySet (s : State) (h : TcsHdr) (mode v : BitVec 8) : State :=
  s.tcsRun h ⟨0x1003, false, false⟩ (.policySet h mode v)
    (fun t => t.within (decide (mode.toNat ≤ 1) && decide (v.toNat < 64)) (fun u =>
      (u.fwUpd (fun f => { f with policy := (mode.toNat, v.toNat) }), 0, []))) noMore

def execPolicySet (h : TcsHdr) (mode v : BitVec 8) (s : State) : Host.Outcome State Fault Refusal :=
  .next (s.receive h (.policySet h mode v) (·.tcsPolicySet h mode v))

def State.tcsStepHint (s : State) (h : TcsHdr) (rows : Nat) : State :=
  s.tcsRun h ⟨0x1004, false, false⟩ (.stepHint h rows)
    (fun t => t.within (decide (rows < 2 ^ 32)) (fun u => (u.fwUpd (fun f => { f with rows := rows }), 0, []))) noMore

def execStepHint (h : TcsHdr) (rows : Nat) (s : State) : Host.Outcome State Fault Refusal :=
  .next (s.receive h (.stepHint h rows) (·.tcsStepHint h rows))

def State.tcsGatherSet (s : State) (h : TcsHdr) (n : Nat) : State :=
  s.tcsRun h ⟨0x1005, false, false⟩ (.gatherSet h n)
    (fun t => t.within (decide (1 ≤ n) && decide (n ≤ 65535)) (fun u => (u.fwUpd (fun f => { f with gather := n }), 0, []))) noMore

def execGatherSet (h : TcsHdr) (hold : Nat) (s : State) : Host.Outcome State Fault Refusal :=
  .next (s.receive h (.gatherSet h hold) (·.tcsGatherSet h hold))

/-- A work item joins the queue; with none current it is taken at once. -/
def State.workQueue (s : State) (w : WorkItem) : Ran :=
  s.within (decide (w.prio ≤ 7)) (fun t =>
    if 32 ≤ t.fw.work.length then (t, 0x15, [])
    else
      let u := t.fwUpd (fun f => { f with work := f.work ++ [w] })
      (if u.fw.item.isNone then u.takeItem else u, 0, []))

def State.tcsWorkQueue (s : State) (h : TcsHdr) (item group steps prio : Nat) (defer : Bool) : State :=
  s.tcsRun h ⟨0x1006, false, false⟩ (.workQueue h item group steps prio defer) (·.workQueue ⟨item, group, steps, prio, defer⟩) noMore

def execWorkQueue (h : TcsHdr) (item group steps prio : Nat) (defer : Bool) (s : State) : Host.Outcome State Fault Refusal :=
  .next (s.receive h (.workQueue h item group steps prio defer) (·.tcsWorkQueue h item group steps prio defer))

/-- The lead of a budget group is its member with the lowest logical index (R364). -/
def leadOk (members : List (BitVec 14)) (lead : BitVec 14) : Bool := members.contains lead && members.all (fun m => decide (lead.toNat ≤ m.toNat))

def State.groupSet (s : State) (id : Nat) (members : List (BitVec 14)) (lead : BitVec 14) : Ran :=
  s.within (leadOk members lead) (fun t =>
    t.barIf (!(t.bit .pySelfLogical 0 31 && members.contains t.ownLogical)) (fun u =>
      (u.fwUpd (fun f => { f with group := some (id, members, lead), choices := [], reported := [] }), 0, [])))

def State.tcsGroupSet (s : State) (h : TcsHdr) (id : Nat) (members : List (BitVec 14)) (lead : BitVec 14) : State :=
  s.tcsRun h ⟨0x1007, false, false⟩ (.groupSet h id members lead) (·.groupSet id members lead) noMore

def execGroupSet (h : TcsHdr) (id : Nat) (members : List (BitVec 14)) (lead : BitVec 14) (s : State) : Host.Outcome State Fault Refusal :=
  .next (s.receive h (.groupSet h id members lead) (·.tcsGroupSet h id members lead))

/-! ### IDLE_ENTER (R388, R390) -/

/-- Whether IDLE_ENTER may start an entry. -/
def State.idleBarred (s : State) (st : Idle) : Bool := !s.idleOk st || s.waking || decide (2 ≤ s.idleState)

def State.tcsIdleEnter (s : State) (h : TcsHdr) (st : Idle) (wake asserted : BitVec 5) : State :=
  s.tcsRun h ⟨0x1008, false, false⟩ (.idleEnter h st wake asserted)
    (fun t => t.barIf (t.idleBarred st) (fun u =>
      u.commit 1 [(Reg.at .pwrWakeEn 0, b2n (u.bit .pwrWakeEn 0 31) * 2 ^ 31 + wake.toNat)])) (·.enterIdle st asserted.toNat)

def execIdleEnter (h : TcsHdr) (st : Idle) (wake asserted : BitVec 5) (s : State) : Host.Outcome State Fault Refusal :=
  .next (s.receive h (.idleEnter h st wake asserted) (·.tcsIdleEnter h st wake asserted))

/-! ### The phase ledger (R365, R366) -/

/-- Mark the ledger entries of a run as read. -/
def markSeen (first count : Nat) (l : List Ledger) : List Ledger :=
  l.zipIdx.map (fun q => if first ≤ q.2 ∧ q.2 < first + count then { q.1 with seen := true } else q.1)

def State.ledgerRead (s : State) (first count : Nat) : Ran :=
  s.within (decide (count ≤ 120)) (fun t =>
    let es := (t.fw.ledger.drop first).take count
    (t.fwUpd (fun f => { f with ledger := markSeen first count f.ledger }), 0, es.length :: es.flatMap Ledger.words))

def State.tcsLedgerRead (s : State) (h : TcsHdr) (first count : Nat) : State :=
  s.tcsRun h ⟨0x1009, false, false⟩ (.ledgerRead h first count) (·.ledgerRead first count) noMore

def execLedgerRead (h : TcsHdr) (first count : Nat) (s : State) : Host.Outcome State Fault Refusal :=
  .next (s.receive h (.ledgerRead h first count) (·.tcsLedgerRead h first count))

def State.tcsLedgerStream (s : State) (h : TcsHdr) (addr : BitVec 64) (logCount : Nat) (enable : Bool) : State :=
  s.tcsRun h ⟨0x100A, false, false⟩ (.ledgerStream h addr logCount enable)
    (fun t => t.within (decide (logCount < 32) && decide (addr.toNat % 32 = 0)) (fun u =>
      (u.fwUpd (fun f => { f with stream := if enable then some (addr, logCount, 0) else none }), 0, []))) noMore

def execLedgerStream (h : TcsHdr) (addr : BitVec 64) (logCount : Nat) (enable : Bool) (s : State) : Host.Outcome State Fault Refusal :=
  .next (s.receive h (.ledgerStream h addr logCount enable) (·.tcsLedgerStream h addr logCount enable))

/-! ### Steward's commands (R303, R312, R314, R315, R321) -/

def State.tcsModuleIdSet (s : State) (h : TcsHdr) (id : BitVec 16) : State :=
  s.tcsRun h ⟨0x2001, false, false⟩ (.moduleIdSet h id)
    (fun t => t.within (decide (id.toNat < 0x4000)) (fun u =>
      u.barIf ((List.range 16).any (fun p => decide (u.pyState p ≠ 0))) (fun w => w.commit 2 [(Reg.at .pyModuleId 0, 2 ^ 31 + id.toNat)]))) noMore

def execModuleIdSet (h : TcsHdr) (id : BitVec 16) (s : State) : Host.Outcome State Fault Refusal :=
  .next (s.receive h (.moduleIdSet h id) (·.tcsModuleIdSet h id))

/-- A role code of Table 11-5. -/
def roleOk (r : Nat) : Bool := decide (r ∈ [0, 1, 2, 3, 4, 5, 6, 8, 9, 10, 11])

def State.tcsPortSet (s : State) (h : TcsHdr) (mask : BitVec 16) (en : Bool) (role : BitVec 4) (half spare : Bool) : State :=
  s.tcsRun h ⟨0x2002, false, false⟩ (.portSet h mask en role half spare)
    (fun t => t.within (roleOk role.toNat) (fun u =>
      u.commit 2 (((List.range 16).filter (fun p => bitOf mask.toNat p)).map (fun p =>
        (Reg.at .pyPortCtrl p, b2n en * 2 ^ 31 + b2n half * 2 ^ 28 + b2n spare * 2 ^ 27 + role.toNat * 2 ^ 16))))) noMore

def execPortSet (h : TcsHdr) (mask : BitVec 16) (en : Bool) (role : BitVec 4) (half spare : Bool) (s : State) : Host.Outcome State Fault Refusal :=
  .next (s.receive h (.portSet h mask en role half spare) (·.tcsPortSet h mask en role half spare))

def State.tcsRouteSet (s : State) (h : TcsHdr) (first : Nat) (entries : List Word) : State :=
  s.tcsRun h ⟨0x2003, false, false⟩ (.routeSet h first entries)
    (fun t => t.within (decide (entries.length ≤ 1000) && decide (first + entries.length ≤ 16384)) (fun u =>
      u.commit 2 (entries.zipIdx.map (fun q => (Reg.at .pyRoute (first + q.2), q.1.toNat))))) noMore

def execRouteSet (h : TcsHdr) (first : Nat) (entries : List Word) (s : State) : Host.Outcome State Fault Refusal :=
  .next (s.receive h (.routeSet h first entries) (·.tcsRouteSet h first entries))

def State.tcsRemapSet (s : State) (h : TcsHdr) (own : BitVec 14) (pairs : List (BitVec 16 × BitVec 14)) : State :=
  s.tcsRun h ⟨0x2004, false, false⟩ (.remapSet h own pairs)
    (fun t => t.within (decide (pairs.length ≤ 1000) && pairs.all (fun q => decide (0x8000 ≤ q.1.toNat) && decide (q.1.toNat < 0xC000))) (fun u =>
      u.barIf u.anyRunning (fun w => w.commit 2 ((Reg.at .pySelfLogical 0, 2 ^ 31 + own.toNat)
        :: pairs.map (fun q => (Reg.at .pyRemap (q.1.toNat - 0x8000), 2 ^ 31 + q.2.toNat)))))) noMore

def execRemapSet (h : TcsHdr) (own : BitVec 14) (pairs : List (BitVec 16 × BitVec 14)) (s : State) : Host.Outcome State Fault Refusal :=
  .next (s.receive h (.remapSet h own pairs) (·.tcsRemapSet h own pairs))

/-- The entries of a group: its members in order, the rest invalid. -/
def mcastWrites (g : Nat) (members : List (BitVec 16)) : List (Nat × Nat) :=
  (List.range 64).map (fun i => (Reg.at .pyMcastMember (64 * g + i), match members[i]? with | some m => 2 ^ 31 + m.toNat | none => 0))

def State.tcsMcastSet (s : State) (h : TcsHdr) (g : BitVec 8) (members : List (BitVec 16)) : State :=
  s.tcsRun h ⟨0x2005, false, false⟩ (.mcastSet h g members)
    (fun t => t.within (decide (g.toNat ≤ 254) && decide (members.length ≤ 64)) (fun u =>
      if !(u.group g.toNat).msgs.isEmpty then (u, 0x15, []) else u.commit 2 (mcastWrites g.toNat members))) noMore

def execMcastSet (h : TcsHdr) (group : BitVec 8) (members : List (BitVec 16)) (s : State) : Host.Outcome State Fault Refusal :=
  .next (s.receive h (.mcastSet h group members) (·.tcsMcastSet h group members))

/-! ### Keeper's commands (R280, R394, R399, R402, R403, R406, R407) -/

/-- SNAP_TAKE arms a snapshot; a full one only while no station runs. -/
def State.snapTake (s : State) (h : TcsHdr) (slot : Nat) : Ran :=
  s.within (decide (slot ≤ 0x0F) || decide (slot = 0xFF)) (fun t =>
    if !t.mirrorIdle then (t, 0x15, [])
    else t.barIf (t.bit .snapCtrl 0 31 && t.anyRunning) (fun u =>
      (u.snapArm (if slot = 0xFF then u.rotate ownSlots else slot) (some h.seq.toNat), 0, [])))

def State.tcsSnapTake (s : State) (h : TcsHdr) (slot : BitVec 8) : State :=
  s.tcsRun h ⟨0x3001, false, false⟩ (.snapTake h slot) (·.snapTake h slot.toNat) noMore

def execSnapTake (h : TcsHdr) (slot : BitVec 8) (s : State) : Host.Outcome State Fault Refusal :=
  .next (s.receive h (.snapTake h slot) (·.tcsSnapTake h slot))

def State.snapRestore (s : State) (h : TcsHdr) (slot : Nat) : Ran :=
  s.within (decide (slot < 20)) (fun t =>
    if !t.mirrorIdle then (t, 0x15, [])
    else t.barIf (t.anyRunning || !(t.slot slot).good) (fun u => (u.restoreStart slot (some h.seq.toNat), 0, [])))

def State.tcsSnapRestore (s : State) (h : TcsHdr) (slot : BitVec 8) : State :=
  s.tcsRun h ⟨0x3002, false, false⟩ (.snapRestore h slot) (·.snapRestore h slot.toNat) noMore

def execSnapRestore (h : TcsHdr) (slot : BitVec 8) (s : State) : Host.Outcome State Fault Refusal :=
  .next (s.receive h (.snapRestore h slot) (·.tcsSnapRestore h slot))

def State.tcsSnapList (s : State) (h : TcsHdr) : State :=
  s.tcsRun h ⟨0x3003, false, false⟩ (.snapList h) (fun t => (t, 0, (List.range 20).flatMap (fun k => loadWords (t.slot k).head))) noMore

def execSnapList (h : TcsHdr) (s : State) : Host.Outcome State Fault Refusal := .next (s.receive h (.snapList h) (·.tcsSnapList h))

/-- ERR_READ: reports from a number on; bit 31 names those in configuration flash (R394). -/
def State.errRead (s : State) (first : Word) (count : Nat) : Ran :=
  s.within (decide (count ≤ 120)) (fun t =>
    let old := bitOf first.toNat 31
    let rs := ((if old then t.fw.saved else t.fw.reports).filter (fun r => decide (first.toNat % 2 ^ 31 ≤ r.num))).take count
    (t, 0, rs.length :: rs.flatMap (fun r => ({ r with num := r.num + (if old then 2 ^ 31 else 0) } : Report).words)))

def State.tcsErrRead (s : State) (h : TcsHdr) (first : Word) (count : Nat) : State :=
  s.tcsRun h ⟨0x3004, false, false⟩ (.errRead h first count) (·.errRead first count) noMore

def execErrRead (h : TcsHdr) (first : Word) (count : Nat) (s : State) : Host.Outcome State Fault Refusal :=
  .next (s.receive h (.errRead h first count) (·.tcsErrRead h first count))

/-- The retirement table of a stack is written anew. -/
def retireWrites (n : Nat) (pages : List (BitVec 13)) : List (Nat × Nat) :=
  (List.range 32).map (fun i => (Reg.at .prismRetire (32 * n + i), 0))
    ++ pages.zipIdx.map (fun q => (Reg.at .prismRetire (32 * n + q.2), 2 ^ 31 + q.1.toNat))

/-- An accepted retirement list is kept in configuration flash. -/
def State.retirePersist (q : Ran) (n : Nat) (pages : List (BitVec 13)) : Ran :=
  if q.2.1 ≠ 0 then q
  else (q.1.fwUpd (fun f => { f with retired := f.retired.filter (fun e => e.1 ≠ n) ++ pages.zipIdx.map (fun p => (n, p.2, p.1.toNat)) }), q.2)

def State.tcsRetireSet (s : State) (h : TcsHdr) (stack : Seg) (pages : List (BitVec 13)) : State :=
  s.tcsRun h ⟨0x3005, false, false⟩ (.retireSet h stack pages)
    (fun t => t.within (decide (pages.length ≤ 32) && decide pages.Nodup) (fun u =>
      u.barIf (u.dieRunning (stack.val / 8)) (fun w => State.retirePersist (w.commit 3 (retireWrites stack pages)) stack pages)))
    (fun t => if pages.length = 32 then t.report 3 1 ⟨3, BitVec.ofNat 12 stack.val⟩ 0 0 else t)

def execRetireSet (h : TcsHdr) (stack : Seg) (pages : List (BitVec 13)) (s : State) : Host.Outcome State Fault Refusal :=
  .next (s.receive h (.retireSet h stack pages) (·.tcsRetireSet h stack pages))

def State.tcsFlashHealth (s : State) (h : TcsHdr) : State :=
  s.tcsRun h ⟨0x3006, false, false⟩ (.flashHealth h) (fun t => (t, 0, t.flashHealth)) noMore

def execFlashHealth (h : TcsHdr) (s : State) : Host.Outcome State Fault Refusal := .next (s.receive h (.flashHealth h) (·.tcsFlashHealth h))

/-! ### Commands that waited (R354) -/

/-- Run a command that was held. -/
def State.runTcs (s : State) (c : Instr) : State :=
  match c with
  | .query h => s.tcsQuery h
  | .heartbeat h => s.tcsHeartbeat h
  | .reclaim h a b r f => s.tcsReclaim h a b r f
  | .mkeySet h p e k r w b l => s.tcsMkeySet h p e k r w b l
  | .imageCommit h p o l => s.tcsImageCommit h p o l
  | .binLoad h d b => s.tcsBinLoad h d b
  | .stnStart h d => s.tcsStnStart h d
  | .stnStop h d => s.tcsStnStop h d
  | .variantStage h v => s.tcsVariantStage h v
  | .classSwitch h v p => s.tcsClassSwitch h v p
  | .eventRead h f n => s.tcsEventRead h f n
  | .hostlossSet h t b => s.tcsHostlossSet h t b
  | .profileSet h p => s.tcsProfileSet h p
  | .budgetSet h a b c d => s.tcsBudgetSet h a b c d
  | .policySet h m v => s.tcsPolicySet h m v
  | .stepHint h r => s.tcsStepHint h r
  | .gatherSet h n => s.tcsGatherSet h n
  | .workQueue h i g n p d => s.tcsWorkQueue h i g n p d
  | .groupSet h i m l => s.tcsGroupSet h i m l
  | .idleEnter h st w a => s.tcsIdleEnter h st w a
  | .ledgerRead h f n => s.tcsLedgerRead h f n
  | .ledgerStream h a n e => s.tcsLedgerStream h a n e
  | .moduleIdSet h i => s.tcsModuleIdSet h i
  | .portSet h m e r a b => s.tcsPortSet h m e r a b
  | .routeSet h f e => s.tcsRouteSet h f e
  | .remapSet h o p => s.tcsRemapSet h o p
  | .mcastSet h g m => s.tcsMcastSet h g m
  | .snapTake h k => s.tcsSnapTake h k
  | .snapRestore h k => s.tcsSnapRestore h k
  | .snapList h => s.tcsSnapList h
  | .errRead h f n => s.tcsErrRead h f n
  | .retireSet h k p => s.tcsRetireSet h k p
  | .flashHealth h => s.tcsFlashHealth h
  | _ => s

/-- Liaison takes a command that waited: it hears it now, where it still stands in its receive entry, and runs it. -/
def State.runWaiting (s : State) (w : Waiting) : State :=
  (match w.entry with
   | some p => s.heard p
   | none => s).runTcs w.cmd

/-- Run the commands held under a key, oldest first; those that must wait again are held again. -/
def State.runHeld (s : State) (k : Nat) : State :=
  (s.fw.held.filter (fun w => w.key = k)).foldl State.runWaiting (s.fwUpd (fun f => { f with held := f.held.filter (fun w => w.key ≠ k) }))

end Sys2Proof.Machine
end

