-- ==== Sys2Proof/Machine/FwEvents.lean ====
section
/-! DEFINITION. Events of the firmware processors, error reports and polls (R353, R354, R393, R394, R396, R28). -/

namespace Sys2Proof.Machine

/-! ### Activities (R353) -/

/-- An activity of Liaison comes to its end. -/
def State.taskDone (s : State) (c : Instr) : Ran :=
  match c with
  | .binLoad _ d banks => s.loadDone d banks
  | .variantStage _ v => s.variantDone v
  | _ => (s, 0, [])

/-- ACTIVITY_DONE: the activity of a command ends, well (0) or with a status, and its outcome is sent. -/
def State.activityEnd (s : State) (seq fp status : Nat) : State :=
  match s.fw.tasks.find? (fun q => decide (q.1 = seq) && decide (fp = 0)), s.fw.snapCmd, s.fw.restCmd with
  | some q, _, _ =>
    let t := s.fwUpd (fun f => { f with tasks := f.tasks.erase q })
    if status ≠ 0 then t.activityDone (BitVec.ofNat 32 seq) 0 status []
    else
      let r := t.taskDone q.2
      r.1.activityDone (BitVec.ofNat 32 seq) 0 r.2.1 r.2.2
  | none, some k, _ => if fp = 3 ∧ k = seq then s.snapDone (decide (status = 0)) [] else s
  | none, none, some k => if fp = 3 ∧ k = seq then s.restoreDone [] (decide (status ≠ 0)) [] else s
  | none, none, none => s

def execActivityDone (seq : BitVec 32) (fp : Proc) (status : BitVec 16) (s : State) : Host.Outcome State Fault Refusal :=
  .next (s.activityEnd seq.toNat fp status.toNat)

/-! ### Restarts (R351, R354) -/

/-- A processor restarts by itself, where the firmware domain is powered. -/
def State.restartBy (s : State) (p cause : Nat) : State := if bitOf s.pwr.on.toNat 12 then s.restart p cause else s

def execWatchdogExpiry (p : Proc) (s : State) : Host.Outcome State Fault Refusal := .next (s.restartBy p 1)

/-- The code of a cause in FW_STATUS (Table 13-10). -/
def causeOf : RestartCause → Nat
  | .exception => 2
  | .memory => 4

def execProcessorRestart (p : Proc) (cause : RestartCause) (s : State) : Host.Outcome State Fault Refusal := .next (s.restartBy p (causeOf cause))

/-- Liaison reports the activities that its restart has abandoned (R353). -/
def State.lateDone (s : State) : State :=
  s.fw.late.foldl (fun t q => t.activityDone (BitVec.ofNat 32 q) 0 0x40 []) (s.fwUpd (fun f => { f with late := [] }))

/-- RESTART_COMPLETE: the processor runs its image again, with its tables read anew from the image store, or ROM code without one; the
event goes out and what waited goes on. -/
def State.restartDone (s : State) (p : Nat) : State :=
  if !s.restarting p then s
  else
    let s1 := (s.setFld .fwStatus p 31 30 (if (s.image p).isSome then 2 else 1)).event 0x8001
      [p, s.fld .fwStatus p 15 0, s.fld .fwStatus p 29 27]
    let s2 := match s.image p with
      | some im => s1.readTables p im.body
      | none => s1
    let s3 := if p = 0 then s2.lateDone else if p = 3 then s2.flushReports else if p = 2 ∧ (s.image p).isSome then s2.stewardRuns else s2
    s3.runHeld p

def execRestartComplete (p : Proc) (s : State) : Host.Outcome State Fault Refusal := .next (s.restartDone p)

/-! ### Error reports (R393, R394, R396) -/

/-- 24 hours in units of 10 ns. -/
def dayTicks : Nat := 24 * 3600 * 10 ^ 8

/-- Keeper notes the stations whose memories reported an uncorrectable error, and declares a station failed at the second report within 24
hours (R396). -/
def State.noteMem (s : State) (u : UnitRef) (off : Nat) : State :=
  match Reg.find off with
  | some (.stnMemErr, i, _) =>
    if u.kind = 1#4 then
      (let p := 33 * segOf i + s.posOf i
       let t := s.fwUpd (fun f => { f with memErrs := f.memErrs ++ [(p, (f.refTime : Int))] })
       if s.fw.memErrs.any (fun e => decide (e.1 = p) && decide ((s.fw.refTime : Int) ≤ e.2 + dayTicks)) then t.stationFailed i else t)
    else s
  | _ => s

/-- Keeper takes the report that a unit has raised, if it is one of these (R393). -/
def State.takeRaised (s : State) (cls off : Nat) : State :=
  match s.fw.raised.find? (fun q => decide (q.1 = cls) && decide (q.2.2 = off)) with
  | some q => s.fwUpd (fun f => { f with raised := f.raised.erase q })
  | none => s

/-- The class of a report whose capture register stands at `off`: that under which its unit has raised it, else that of the register, else,
where Table 15-1 names no capture register, that of the command (R393). -/
def State.reportClass (s : State) (cls off : Nat) : Nat :=
  match s.fw.raised.find? (fun q => q.2.2 = off), Reg.find off with
  | some q, _ => q.1
  | none, some (r, _, _) => r.classOf.getD cls
  | none, none => cls

/-- ERROR_REPORT of a unit, where the firmware domain is powered; `off` names its capture register, 0 where it has none. -/
def execErrorReport (cls : BitVec 4) (sev : BitVec 2) (u : UnitRef) (capOff : Nat) (cap1 : Word) (s : State) :
    Host.Outcome State Fault Refusal :=
  .next (if bitOf s.pwr.on.toNat 12 then
      ((s.takeRaised (s.reportClass cls.toNat capOff) capOff).reportIn
        ⟨0, s.reportClass cls.toNat capOff, sev.toNat, u, 0, cap1, s.fw.refTime, s.fw.stepCnt, capOff⟩).noteMem u capOff
    else s)

/-- The number under which a unit's corrected errors are kept. -/
def unitKey (u : UnitRef) : Nat := 4096 * u.kind.toNat + u.index.toNat

/-- The corrected-error counter of a unit (Table 15-1): its register, how many there are, and its field, none for a pair. -/
def ceReg (u : UnitRef) : Option (Reg × Nat × Option (Nat × Nat)) :=
  match u.kind with
  | 1#4 => some (.stnMemErr, 1024, some (23, 16))
  | 3#4 => some (.msErrCount, 32, some (31, 16))
  | 4#4 => some (.pyFecCorr, 16, none)
  | 5#4 => some (.ethFecCorr, 2, none)
  | _ => none

/-- What the counter reads. -/
def State.ceCount (s : State) (r : Reg) (i : Nat) : Option (Nat × Nat) → Nat
  | some q => s.fld r i q.1 q.2
  | none => s.pair r i

/-- The counter counts. -/
def State.ceAdd (s : State) (r : Reg) (i n : Nat) : Option (Nat × Nat) → State
  | some q => s.countFld r i q.1 q.2 n
  | none => s.addPair r i n

/-- Keeper reads a counter: what it has risen by since the last report, a cleared counter from 0 again, is reported from 1,024 on (R393). -/
def State.ceRead (s : State) (u : UnitRef) (n : Nat) : State :=
  let x := Tbl.get (fun _ => (0, 0)) s.fw.ceSeen (unitKey u)
  let rise := x.2 + (if n < x.1 then n else n - x.1)
  let note := fun (k : Nat) => s.fwUpd (fun f => { f with ceSeen := Tbl.put (fun _ => (0, 0)) f.ceSeen (unitKey u) (n, k) })
  if 1024 ≤ rise then (note 0).report 4 0 u n 0 else note rise

/-- CE_POLL: `count` errors that the unit has corrected beside those that its commands bring are counted, and Keeper, where it runs, reads
the counter. -/
def State.cePoll (s : State) (u : UnitRef) (count : Nat) : State :=
  match ceReg u with
  | none => s
  | some (r, n, f) =>
    if u.index.toNat < n then
      (let t := s.ceAdd r u.index.toNat count f
       if bitOf t.pwr.on.toNat 12 && !t.restarting 3 then t.ceRead u (t.ceCount r u.index.toNat f) else t)
    else s

def execCePoll (u : UnitRef) (count : Nat) (s : State) : Host.Outcome State Fault Refusal := .next (s.cePoll u count)

/-- PACKAGE_FAULT: the link monitor reports and the package is fault-stopped (R28, R393). -/
def execPackageFault (link : BitVec 12) (s : State) : Host.Outcome State Fault Refusal :=
  .next (let t := (List.range 4).foldl (fun u d => u.shutReq d 12 0) s
    if bitOf s.pwr.on.toNat 12 then t.report 0xC 2 ⟨0xA, link⟩ 0 0 else t)

end Sys2Proof.Machine
end

