-- ==== Sys2Proof/Machine/PowerCmds.lean ====
section
/-! DEFINITION. Commands of the power unit, the clocks, the governor, the sensors and the pins (R371, R381 to R392, R413 to R420). -/

namespace Sys2Proof.Machine

/-! ### Region stops and AVSBus (R375, R381, R382) -/

/-- REGION_STOP_DONE. -/
def execRegionStopDone (s : State) : Host.Outcome State Fault Refusal := .next s.regionStopDone

/-- AVS_STATUS_POLL: the slave's next reply to the transaction in progress. -/
def execAvsStatusPoll (r : AvsReply) (s : State) : Host.Outcome State Fault Refusal := .next (s.avsReply r)

/-- AVS_VDONE_TIMEOUT. -/
def execAvsVdoneTimeout (s : State) : Host.Outcome State Fault Refusal := .next s.avsLate

/-! ### The governor and the sensors (R386, R420) -/

/-- The sensor of index `k`: region * 16 + sensor. -/
def tempAt (ts : List Nat) (k : Nat) : Nat := ts.getD k 0

/-- The hottest sensor of a die. -/
def dieTemp (ts : List Nat) (d : Nat) : Nat := (List.range 32).foldl (fun n k => max n (tempAt ts (32 * d + k))) 0

/-- The first hottest sensor of the part. -/
def hottest (ts : List Nat) : Nat := (List.range 128).foldl (fun b k => if tempAt ts b < tempAt ts k then k else b) 0

/-- One die's request of bit 7: from 105 °C until every sensor reads below 100 °C. -/
def State.throttleDie (s : State) (t d : Nat) : State :=
  let hot := bitOf s.pwr.hot.toNat d
  if 105 ≤ t ∧ hot = false then ((s.pwrUpd (fun w => { w with hot := w.hot ||| BitVec.ofNat 4 (2 ^ d) })).shutReq d 7 0).alert 2
  else if t < 100 ∧ hot = true then (s.pwrUpd (fun w => { w with hot := w.hot &&& ~~~ BitVec.ofNat 4 (2 ^ d) })).shutRel d 7 0
  else s

/-- THERMAL_READING. -/
def State.thermal (s : State) (ts : List Nat) : State :=
  let h := hottest ts
  let s1 := (s.setFld .govStatus 0 15 8 (tempAt ts h)).setFld .govStatus 0 18 16 (h / 16)
  let s2 := (List.range 4).foldl (fun t d => t.throttleDie (dieTemp ts d) d) s1
  s2.setFld .govStatus 0 31 31 (b2n (decide (s2.pwr.hot ≠ 0)))

def execThermalReading (temps : List Nat) (s : State) : Host.Outcome State Fault Refusal := .next (s.onlyIf s.aonUp (·.thermal temps))

/-- THERMAL_TRIP: THERM_TRIP_L is asserted, TRIP_SEEN set, every regulator but the auxiliary converter's goes off (R386, R417). -/
def State.thermalTrip (s : State) (r : Nat) : State :=
  if s.regionOn r then
    (let t := (s.setFld .govStatus 0 30 30 1).allDown
     ({ t with pins := { t.pins with tripL := true } }.emit (.pin 7 true)))
  else s

def execThermalTrip (r : Region) (s : State) : Host.Outcome State Fault Refusal := .next (s.thermalTrip r)

/-- MODULE_SENSOR_READ (Tables 16-7, 16-8). -/
def execModuleSensorRead (outlet vreg nand board : BitVec 8) (s : State) : Host.Outcome State Fault Refusal :=
  .next (if !s.aonUp then s else
    let t := s.setReg .pwrModuleTemp 0 (outlet.toNat * 2 ^ 24 + vreg.toNat * 2 ^ 16 + nand.toNat * 2 ^ 8 + board.toNat)
    if 60 ≤ outlet.toNat ∨ 110 ≤ vreg.toNat ∨ 70 ≤ nand.toNat ∨ 85 ≤ board.toNat then t.alert 5 else t)

/-- INPUT_ALERT: the input as measured, its mean over 1 ms in PWR_INPUT, and its alerts (Tables 16-4, 16-5). -/
def execInputAlert (millivolts : Nat) (watts : Watts) (s : State) : Host.Outcome State Fault Refusal :=
  .next (if !s.aonUp then s else
    let t := s.setReg .pwrInput 0 (satTo 16 (millivolts / 10) * 2 ^ 16 + satTo 16 (watts.fast * 100000 / millivolts))
    let u := if millivolts < 42000 ∨ 58000 < millivolts then t.alert 4 else t
    if 1650 < watts.slow then u.alert 3 else u)

/-! ### Clocks (R381, R392) -/

/-- REF_LOSS. -/
def execRefLoss (s : State) : Host.Outcome State Fault Refusal := .next (s.onlyIf s.aonUp State.refLoss)

/-- REF_RESTORED: 1 ms of continuous reference. -/
def execRefRestored (s : State) : Host.Outcome State Fault Refusal := .next (s.onlyIf s.aonUp (·.setFld .clkStatus 0 31 31 1))

/-- PLL_LOCK: at a start the processors move to the PLL and stand in ROM state; after a reference loss the clocks stay where they are
until PROFILE_SET. -/
def State.pllLock (s : State) : State :=
  let s1 := s.setFld .clkStatus 0 29 29 1
  let s2 := if s.pwr.on.toNat % 256 = 0 ∧ s.idleState ≠ 2 then s1.setFld .clkStatus 0 28 28 0 else s1
  if bitOf s.pwr.on.toNat 12 then (List.range 4).foldl (fun t p => if t.fpState p = 0 then t.setFld .fwStatus p 31 30 1 else t) s2 else s2

def execPllLock (s : State) : Host.Outcome State Fault Refusal := .next (s.onlyIf s.aonUp State.pllLock)

/-! ### The start and wake order (R371, R392, R397) -/

/-- The part is starting or waking: its supplies are good and its firmware domain runs. Steps 4 and 5 of a start, or of a wake from Midnight,
come after the PLL has locked; a wake from Night begins at step 4 (R392). -/
def State.rising (s : State) : Bool :=
  bitOf s.pwr.on.toNat 12 && (decide (s.idleState = 0) || s.waking) && (decide (s.idleState = 2) || s.bit .clkStatus 0 29)

/-- STACKS_OUT_OF_RETENTION: the stacks of a die answer, die by die; its landing cache is empty. -/
def State.stacksRise (s : State) (d : Nat) : State :=
  if s.rising && !s.stacksUp d && (List.range d).all s.stacksUp then
    (((s.setFld .pwrState 0 d d 1).pwrUpd (fun w => { w with on := w.on ||| BitVec.ofNat 14 (2 ^ (8 + d)) })).setRail (8 + d) 750).modDie d
      DieSt.lcInvalidate
  else s

def execStacksOutOfRetention (die : Die) (s : State) : Host.Outcome State Fault Refusal := .next (s.stacksRise die)

/-- A register of the region's logic that Night loses (log entry 33). -/
def lostInNight (r : Nat) (p : Nat × Word) : Bool :=
  match Reg.find p.1 with
  | some (g, i, _) => decide (g.info.dom = .region) && decide (g.regionIx i = r) && !decide (g ∈ [.stnDieEpoch, .segSpare, .stnOwnMap])
  | none => false

/-- A station after Night: its store as retained, every other memory lost, its registers at reset (R130, R392, R398). -/
def Station.night (x : Station) (kept : Bool) (k : Nat) : Station :=
  { Station.reset with store := if kept then x.store else Memory.lost k, grad := Memory.lost (k + 1), imem := Memory.lost (k + 2),
                       sib := Memory.lost (k + 3), sibScale := Memory.lost (k + 4) }

/-- The logic and memories of a region after Night: its stations come back quarantined. The requests of the governor and of a region stop
stand: they come from the always-on domain. -/
def State.nightRegion (s : State) (r : Nat) : State :=
  let d := r / 2
  let s1 := { s with
    regs := s.regs.filter (fun p => !lostInNight r p)
    ring := s.ring.filter (fun p => decide (p.1 / 132 ≠ r))
    ringIn := s.ringIn.filter (fun p => decide (p.1 ≠ r))
    refc := s.refc.filter (fun p => decide (p.1 ≠ r))
    feeds := s.feeds.filter (fun p => decide (p.1 / 16 ≠ r))
    seam := s.seam.filter (fun p => decide (p.1 / 2 ≠ d))
    bridge := s.bridge.filter (fun p => decide (p.1 ≠ d)) }
  let reqs := (s.die d).reqs.filter (fun q => decide (q.bit ∈ [7, 10]))
  let s2 := if r % 2 = 0 then { s1.setDie d { DieSt.reset with rram := Memory.lost s1.free, reqs := reqs } with free := s1.free + 1 } else s1
  let k := s2.free
  { ((List.range 1024).filter (fun i => decide (regionOf i = r))).foldl (fun t i =>
      (t.modStation i (fun x => x.night (t.bit .pwrRetain (i / 32) (i % 32)) (k + 5 * i))).staleStn i) s2 with free := k + 5120 }

/-- Liaison writes the banks of the loaded binary and its declarations again, and Keeper stamps the stations (R392, Table 15-4, log
entry 33). -/
def State.nightReload (s : State) : State :=
  let t := match s.fw.binary with
    | some b => (s.fillAll b.banks).declSet b.decl
    | none => s
  ((List.range 1024).filter (fun i => t.present (segOf i))).foldl (fun u i => u.stampStn i) t

/-- Keeper's ROM code reads the Zenith record into its registers and checks it where the straps name Zenith; one that fails leaves VALID 0 and
the part at Dawn (R371). -/
def State.zenithStart (s : State) : State :=
  let clkv := Tbl.get (fun _ => 0) s.fw.flash 0
  let cfg := Tbl.get (fun _ => 0) s.fw.flash 1
  let t := (s.setReg .pwrZenithClkv 0 clkv).setReg .pwrZenithCfg 0 cfg
  if bitOf cfg 31 && zenithOk clkv cfg then t.switchTo 3
  else (((t.setFld .pwrZenithCfg 0 31 31 0).setFld .pwrProfile 0 30 30 1).setFld .pwrProfile 0 1 0 0).report 8 1 ⟨6, 3⟩ 0 0

/-- The last region is up: the part runs. -/
def State.risen (s : State) : State :=
  let night := decide (s.idleState = 2)
  let s1 := (s.setRing s.inForce).setGated s.inForce
  let s2 := if night then s1.nightReload else s1
  let s3 := (s2.setFld .pwrState 0 31 30 0).setFld .pwrState 0 28 28 0
  let s4 := if decide (s.active = 3) && decide (s.inForce ≠ 3) then s3.zenithStart else s3
  s4.runHeld 4

/-- REGION_POWER_UP: region by region, each at its profile's voltage and multiplier. -/
def State.regionRise (s : State) (r : Nat) : State :=
  if s.rising && !s.regionOn r && (List.range 4).all s.stacksUp && (List.range r).all s.regionOn then
    (let n := s.inForce
     let s1 := if s.idleState = 2 then s.nightRegion r else s
     let s2 := ((s1.pwrUpd (fun w => { w with on := w.on ||| BitVec.ofNat 14 (2 ^ r) })).setFld .pwrState 0 (8 + r) (8 + r) 1).setRail r (s.profMv n (r % 2))
     let fio := s.bit .clkStatus 0 28
     let s3 := s2.setMult r (if fio && decide (s.profMult n (r % 2) ≠ 0) then 8 else s.profMult n (r % 2)) (!fio)
     if r = 7 then s3.risen else s3)
  else s

def execRegionPowerUp (r : Region) (s : State) : Host.Outcome State Fault Refusal := .next (s.regionRise r)

/-! ### Wakes (R390, Table 14-17) -/

/-- WAKE_PIN: WAKE_L goes low. -/
def execWakePin (s : State) : Host.Outcome State Fault Refusal := .next s.wakeFall

/-- WAKE_TIMER. -/
def execWakeTimer (s : State) : Host.Outcome State Fault Refusal := .next (s.wakeBy 3)

/-- PYCIA_WAKE: not from Midnight. -/
def execPyciaWake (s : State) : Host.Outcome State Fault Refusal := .next (s.wakeBy 4)

/-! ### Input, PWR_OK and RESET_L (R414 to R417) -/

/-- INPUT_POWER_UP: the auxiliary converter powers the always-on domain, which stays in reset. -/
def State.inputRise (s : State) : State :=
  if s.pins.aux then s
  else
    let t := s.powerLoss
    { t with regs := [], attest := none, caps := [], smbAddr := 0, smbStat := 0
             pins := { resetL := false, pwrOk := false, tripL := false, wakeL := s.pins.wakeL, aux := true, input := false } }

def execInputPowerUp (s : State) : Host.Outcome State Fault Refusal := .next s.inputRise

/-- PWR_OK_RISE: the main input stage closes. -/
def execPwrOkRise (s : State) : Host.Outcome State Fault Refusal :=
  .next (if s.pins.aux then { s with pins := { s.pins with pwrOk := true, input := true } } else s)

/-- PWR_OK_FALL: every domain but always-on and Ethernet wake goes off; THERM_TRIP_L and what it left behind end (R386, R416, R417). -/
def State.pwrOkFall (s : State) : State :=
  let t := (s.setFld .govStatus 0 30 30 0).allDown
  let u := { t with pins := { t.pins with pwrOk := false, input := false, tripL := false } }
  if s.pins.tripL then u.emit (.pin 7 false) else u

def execPwrOkFall (s : State) : Host.Outcome State Fault Refusal := .next s.pwrOkFall

/-- The JTAG instruction loaded takes hold of the pins while RESET_L is low (R424). -/
def holdsPins (ir : BitVec 8) : Bool := decide (ir = 0x00#8) || decide (ir = 0x04#8) || decide (ir = 0x05#8)

/-- The registers that a reset leaves: TRIPPED, which survives while the auxiliary converter is powered (R414). -/
def State.tripped (s : State) : Tbl Word := s.regs.filter (fun p => decide (p.1 = Reg.at .pwrInputStatus 0) && s.pins.aux)

/-- RESET_ASSERT: all but always-on and Ethernet wake goes off, the always-on logic is held in reset (R416, R424). -/
def State.resetLow (s : State) : State :=
  { s.allDown with
    regs := s.tripped, attest := none, caps := [], smbAddr := 0, smbStat := 0
    pins := { s.pins with resetL := false, input := false }
    jtag := { s.jtag with pinsX := holdsPins s.jtag.ir } }

def execResetAssert (s : State) : Host.Outcome State Fault Refusal := .next s.resetLow

/-- The supplies let the part start. -/
def Pins.good (p : Pins) : Bool := p.pwrOk && p.aux && !p.tripL

/-- RESET_RELEASE: every register at its Reset value, the straps latched, Dawn's settings for Zenith's strap, the start order begun where the
supplies are good; the rings stand in die mode until the profile loads (R12, R31, R371, R392, R397, R415). -/
def State.resetHigh (s : State) (prof : BitVec 2) (smb : BitVec 3) : State :=
  if s.pins.resetL then s
  else
    let up := s.pins.good
    let run := if prof = 3 then 0#2 else prof
    let t := { State.reset with
      regs := s.tripped, stackMem := s.stackMem, fw := s.fw.kept
      pwr := { State.reset.pwr with prof := run, smb := smb, on := if up then 0x3000#14 else 0 }
      pins := { s.pins with resetL := true, input := up }
      jtag := { s.jtag with pinsX := false }
      fuses := s.fuses, pending := s.pending, out := s.out, free := s.free }
    t.setFld .pwrProfile 0 1 0 prof.toNat

def execResetRelease (prof : BitVec 2) (smb : BitVec 3) (s : State) : Host.Outcome State Fault Refusal := .next (s.resetHigh prof smb)

/-- INPUT_STAGE_TRIP: the main input stage opens, with the effect of a PWR_OK fall (R414, R416). -/
def execInputStageTrip (cause : InputTrip) (s : State) : Host.Outcome State Fault Refusal :=
  .next (let t := s.allDown
    let u := { t with pins := { t.pins with input := false } }
    if cause = .power then u.setFld .pwrInputStatus 0 0 0 1 else u)

end Sys2Proof.Machine
end

