-- ==== Sys2Proof/Machine/Mgmt.lean ====
section
/-! DEFINITION. The SMBus management port and the JTAG port (R419, R421 to R425). -/

namespace Sys2Proof.Machine

/-! ### SMBus (R419, R421, R422, Table 16-9) -/

/-- One byte into the PEC of the SMBus: CRC-8 of x^8 + x^2 + x + 1 (log entry 36). -/
def pecByte (c b : Nat) : Nat :=
  (List.range 8).foldl (fun n _ => if 128 ≤ n then (2 * n % 256) ^^^ 7 else 2 * n) (c ^^^ b)

/-- The PEC byte over the bytes of a transfer, addresses first. -/
def pec (bs : List Nat) : Byte := BitVec.ofNat 8 (bs.foldl pecByte 0)

/-- The port's address byte, with the read bit. -/
def State.smbHead (s : State) (rd : Bool) : Nat := 2 * (0x40 + s.pwr.smb.toNat) + b2n rd

/-- What the port sends on a block read of a command, with the PEC byte that it appends when the master clocks one (R421). -/
def State.smbSend (s : State) (cmd : Nat) (bs : List Byte) : State :=
  s.emit (.smb bs (pec ([s.smbHead false, cmd, s.smbHead true, bs.length] ++ bs.map (·.toNat))))

/-- STATUS of an access by its register response. -/
def smbCode (st : Nat) : Byte := if st = stOk then 0 else if st = stOff then 2 else 1

/-- A write of ADDR; a block of another length is not acknowledged (R421). -/
def State.smbSetAddr (s : State) (v : Word) (x : SmbEnd) : State :=
  if x.count ≠ 4 then s
  else if !x.pecOk then { s with smbStat := 3 }
  else if bitsOf v.toNat 1 0 ≠ 0 ∨ bitsOf v.toNat 31 26 ≠ 0 then { s with smbStat := 1 }
  else { s with smbAddr := v, smbStat := 0 }

/-- ADDR. -/
def execSmbAddr (wr : Option Word) (x : SmbEnd) (s : State) : Host.Outcome State Fault Refusal :=
  .next (if s.aonUp then
      (match wr with
       | some v => s.smbSetAddr v x
       | none => s.smbSend 1 (leBytes 4 s.smbAddr.toNat))
    else s)

/-- A read of DATA: the register's word, all ones where its domain is off, a free word on another error (log entry 8). -/
def State.smbRead (s : State) (cmd : Nat) : State :=
  let q := s.csrRead .smbus s.smbAddr.toNat 4
  let t := { q.1 with smbStat := smbCode q.2.1 }
  if q.2.1 = stOk then t.smbSend cmd (leBytes 4 q.2.2)
  else if q.2.1 = stOff then t.smbSend cmd (leBytes 4 0xFFFFFFFF)
  else t.fresh.smbSend cmd (leBytes 4 (Config.freeWord t.free).toNat)

/-- A write of DATA. -/
def State.smbWrite (s : State) (v : Word) : State :=
  let q := s.csrWrite .smbus s.smbAddr.toNat 4 v.toNat
  { q.1 with smbStat := smbCode q.2 }

/-- DATA and DATA_INC: the access at ADDR, after which ADDR advances by `step`; a write with a wrong PEC byte is discarded, a
block of another length is not acknowledged (R421). -/
def State.smbAccess (s : State) (wr : Option Word) (x : SmbEnd) (step : Nat) : State :=
  if !s.aonUp then s
  else
    match wr with
    | some v =>
      if x.count ≠ 4 then s
      else if !x.pecOk then { s with smbStat := 3 }
      else { s.smbWrite v with smbAddr := BitVec.ofNat 32 ((s.smbAddr.toNat + step) % 2 ^ 26) }
    | none => { s.smbRead (if step = 0 then 2 else 3) with smbAddr := BitVec.ofNat 32 ((s.smbAddr.toNat + step) % 2 ^ 26) }

/-- DATA. -/
def execSmbData (wr : Option Word) (x : SmbEnd) (s : State) : Host.Outcome State Fault Refusal := .next (s.smbAccess wr x 0)

/-- DATA_INC. -/
def execSmbDataInc (wr : Option Word) (x : SmbEnd) (s : State) : Host.Outcome State Fault Refusal := .next (s.smbAccess wr x 4)

/-- STATUS: a byte read. -/
def execSmbStatus (s : State) : Host.Outcome State Fault Refusal :=
  .next (if s.aonUp then s.emit (.smb [s.smbStat] (pec [s.smbHead false, 4, s.smbHead true, s.smbStat.toNat])) else s)

/-- SMBUS_ALERT_RESPONSE: while ALERT_L is asserted the port answers with its own address; the status bits stay. -/
def execSmbusAlertResponse (s : State) : Host.Outcome State Fault Refusal :=
  .next (if s.aonUp && s.alertOn then
      s.emit (.smb [BitVec.ofNat 8 (0x40 + s.pwr.smb.toNat)] (pec [0x19, 0x40 + s.pwr.smb.toNat])) else s)

/-! ### JTAG (R423 to R425, Tables 16-10, 16-11) -/

/-- An instruction is loaded; EXTEST, CLAMP and HIGHZ take hold of the pins only while RESET_L is low (R424). -/
def State.jtagLoad (s : State) (ir : BitVec 8) : State :=
  { s with jtag := { s.jtag with ir := ir, pinsX := !s.pins.resetL && holdsPins ir } }

/-- What a scan captures from the pins: a free value (log entry 8). -/
def State.jtagCapture (s : State) : State := s.fresh.emit (.jtag (Config.freeNat s.free))

/-- EXTEST: the boundary register drives the outputs; with RESET_L high it acts as BYPASS. -/
def execJtagExtest (outputs : BitVec 64) (s : State) : Host.Outcome State Fault Refusal :=
  .next (let t := s.jtagLoad 0x00#8
    if s.pins.resetL then t.emit (.jtag 0) else { t with jtag := { t.jtag with bsr := outputs } }.jtagCapture)

/-- The identification word (R423). -/
def State.idcode (s : State) : Nat :=
  (if s.fuses.stepping = 0x00#8 then 0 else 1) * 2 ^ 28 + s.fuses.part.toNat * 2 ^ 12 + 0x2B7 * 2 + 1

/-- IDCODE. -/
def execJtagIdcode (s : State) : Host.Outcome State Fault Refusal := .next ((s.jtagLoad 0x01#8).emit (.jtag s.idcode))

/-- SAMPLE/PRELOAD: the pins go on working. -/
def execJtagSamplePreload (load : BitVec 64) (s : State) : Host.Outcome State Fault Refusal :=
  .next (let t := s.jtagLoad 0x02#8
    { t with jtag := { t.jtag with bsr := load } }.jtagCapture)

/-- CLAMP, with the bypass register. -/
def execJtagClamp (s : State) : Host.Outcome State Fault Refusal := .next ((s.jtagLoad 0x04#8).emit (.jtag 0))

/-- HIGHZ, with the bypass register. -/
def execJtagHighz (s : State) : Host.Outcome State Fault Refusal := .next ((s.jtagLoad 0x05#8).emit (.jtag 0))

/-- BYPASS. -/
def execJtagBypass (s : State) : Host.Outcome State Fault Refusal := .next ((s.jtagLoad 0xFF#8).emit (.jtag 0))

/-- The captured DEBUG register (Table 16-11). -/
def JtagSt.word (j : JtagSt) : Nat := b2n j.done * 2 ^ 63 + b2n j.err * 2 ^ 62 + j.off.toNat * 2 ^ 32 + (if j.done then j.data.toNat else 0)

/-- The access of a DEBUG scan: its result stands in the register until the next; DEBUG_SEEN is set before it acts and whatever comes of it.
The data of a read that fails are a free word (log entry 8). -/
def State.debugAccess (s0 : State) (wr : Bool) (off : BitVec 24) (data : Word) : State :=
  let s := s0.setFld .idAttest 0 25 25 1
  let fin := fun (t : State) (st : Nat) (v : Word) =>
    { t with jtag := { t.jtag with done := true, err := decide (st ≠ stOk), off := off, data := v } }
  if !s.pins.resetL then
    (if wr then fin s stOff 0 else fin s.fresh stOff (Config.freeWord s.free))
  else if wr then
    (let q := s.csrWrite .debug (4 * off.toNat) 4 data.toNat
     fin q.1 q.2 0)
  else
    (let q := s.csrRead .debug (4 * off.toNat) 4
     if q.2.1 = stOk then fin q.1 stOk (BitVec.ofNat 32 q.2.2) else fin q.1.fresh q.2.1 (Config.freeWord q.1.free))

/-- DEBUG: Capture-DR returns the previous access, Update-DR makes the next (R425). -/
def execJtagDebug (wr : Bool) (off : BitVec 24) (data : Word) (s : State) : Host.Outcome State Fault Refusal :=
  .next (((s.jtagLoad 0x10#8).emit (.jtag s.jtag.word)).debugAccess wr off data)

end Sys2Proof.Machine
end

