-- ==== Sys2Proof/Machine/Rdma.lean ====
section
/-! DEFINITION. RDMA operations of the Ethernet ports, and the wake on LAN (R337 to R339, R342). -/

namespace Sys2Proof.Machine

/-! ### The key table (R337) -/

/-- The entry of a port that an R_Key names, where it is valid, its tag matches and it permits the operation. -/
def State.mkey (s : State) (p rkey : Nat) (wr : Bool) : Option Nat :=
  let i := rkey % 256
  let k := 64 * p + i
  let v := s.reg .ethMkeyCtrl k
  if i < 64 ∧ bitOf v 31 = true ∧ bitsOf v 23 0 = rkey / 256 ∧ bitOf v (if wr then 29 else 30) = true then some k else none

/-- An RDMA operation passes every check of R337. -/
def State.rdmaOk (s : State) (p rkey va len : Nat) (wr : Bool) : Bool :=
  match s.mkey p rkey wr with
  | none => false
  | some k =>
    decide (1 ≤ len) && decide (s.pair .ethMkeyBase k ≤ va) && decide (va + len - 1 ≤ s.pair .ethMkeyLimit k)
      && unitOk (bitsOf va 47 44) (bitsOf va 43 0) len

/-! ### Pieces (R338) -/

/-- Pieces of an operation: at most 4,096 bytes, none across a 4 KiB boundary. -/
def pieceCount (va len : Nat) : Nat := (va + len - 1) / 4096 - va / 4096 + 1

/-- First byte and length of piece `i`. -/
def pieceAt (va len i : Nat) : Nat × Nat :=
  let lo := max va ((va / 4096 + i) * 4096)
  (lo, min (va + len) ((va / 4096 + i + 1) * 4096) - lo)

/-- One piece leaves: over the package mesh for a local target, else as a Pycia READ or WRITE. -/
def State.rdmaPiece (s : State) (p : EthPort) (phys : Option Nat) (wr : Bool) (i lo len : Nat) (data : List Byte) : State :=
  let a := BitVec.ofNat 64 lo
  match phys with
  | none => s.emit (.req (BitVec.ofNat 12 (0x404 + p.val)) 0 (BitVec.ofNat 6 i) a len data)
  | some m =>
    s.enqueue (0x404 + p.val) m ⟨if wr then 2 else 1, 0, s.srcId, m, 0x404 + p.val, 0, i % 64, len, (withMod a m).toNat, 0, 0, 0, 0⟩ data

/-- Every piece of an accepted operation leaves. -/
def State.rdmaSplit (s : State) (p : EthPort) (phys : Option Nat) (wr : Bool) (va len : Nat) (data : List Byte) : State :=
  (List.range (pieceCount va len)).foldl (fun t i =>
    let q := pieceAt va len i
    t.rdmaPiece p phys wr i q.1 q.2 ((data.drop (q.1 - va)).take q.2)) s

/-- Bytes of a full packet under the path MTU that a QP has agreed (Table 12-8). -/
def State.qpMtu (s : State) (k : Nat) : Nat := 128 * 2 ^ s.fld .ethQpStatus k 29 27

/-- Packets of an operation, one PSN each. -/
def packets (mtu len : Nat) : Nat := max 1 ((len + mtu - 1) / mtu)

/-! ### Packet sequence numbers (R333, log entry 27)

Reliable Connected transport is the InfiniBand Architecture's (PRESUMED): an operation runs once, at the PSN that the QP expects. -/

/-- A PSN beside the one that a QP expects. -/
inductive PsnAt where
  | next | dup | ahead
  deriving DecidableEq, Repr

def psnAt (expected psn : BitVec 24) : PsnAt :=
  if psn = expected then .next else if (expected - psn).toNat < 2 ^ 23 then .dup else .ahead

/-- The last PSN before the first packet that is still unanswered. -/
def QpSt.acked (x : QpSt) : BitVec 24 :=
  match x.ops with
  | [] => x.psn - 1
  | o :: _ => o.psn + BitVec.ofNat 24 o.sent - 1

/-- An operation is in progress on a QP, and its packets have used their PSNs (R338). -/
def State.rdmaOpen (s : State) (k : Nat) (wr : Bool) (va len : Nat) (psn : BitVec 24) (again : Bool) : State :=
  let x := s.qp k
  s.setQp k { x with ops := x.ops ++ [⟨wr, psn, va, len, [], 0⟩]
                     psn := if again then x.psn else psn + BitVec.ofNat 24 (packets (s.qpMtu k) len), gap := false }

/-- A WRITE that has been taken before is not applied again: what is acknowledged so far is acknowledged again. -/
def State.rdmaAgain (s : State) (p : EthPort) (k qpn : Nat) : State := s.roceTx p (.ethAck p (BitVec.ofNat 24 qpn) (s.qp k).acked)

/-- A packet is missing: one NAK for a PSN sequence error (kind 0), and nothing is carried out until the expected PSN comes. -/
def State.rdmaGap (s : State) (p : EthPort) (k qpn : Nat) : State :=
  if (s.qp k).gap then s else (s.setQp k { s.qp k with gap := true }).roceTx p (.ethNak p (BitVec.ofNat 24 qpn) 0)

/-- An RDMA WRITE or READ request of a port that its QP carries out (R334, R337, R338): the mailbox QP supports none, a bulk QP 16 READs
at a time; a refused one is answered with a NAK Remote Access Error. -/
def State.rdmaGo (s : State) (p : EthPort) (k qpn : Nat) (wr : Bool) (rkey va len : Nat) (data : List Byte) (psn : BitVec 24)
    (again : Bool) : State :=
  if qpn = 0x10 ∨ (wr = false ∧ 16 ≤ ((s.qp k).ops.filter (fun o => !o.write)).length) then s.qpUnsupported p k qpn
  else if !s.rdmaOk p rkey va len wr then s.qpNak p k qpn 1
  else
    let t := s.rdmaOpen k wr va len psn again
    match s.target (bitsOf va 63 48) with
    | .loc => t.rdmaSplit p none wr va len data
    | .remote m => t.rdmaSplit p (some m) wr va len data
    | .group _ => if wr then t.rdmaSplit p none wr va len data else s.qpNak p k qpn 1
    | .bad st => (s.noteBad st (bitsOf va 63 48)).qpNak p k qpn 1

/-- An RDMA request reaches a QP: one at the expected PSN is carried out, and a READ once more where it repeats an earlier one (R333). -/
def State.rdmaStart (s : State) (p : EthPort) (qpn : Nat) (wr : Bool) (rkey va len : Nat) (data : List Byte) (psn : BitVec 24) : State :=
  match s.qpLive p qpn with
  | none => s
  | some k =>
    match psnAt (s.qp k).psn psn with
    | .next => s.rdmaGo p k qpn wr rkey va len data psn false
    | .dup => if wr then s.rdmaAgain p k qpn else s.rdmaGo p k qpn wr rkey va len data psn true
    | .ahead => s.rdmaGap p k qpn

/-- RDMA_WRITE: all the packets of one WRITE, `psn` that of the first. -/
def execRdmaWrite (p : EthPort) (qpn : BitVec 24) (rkey : Word) (va : BitVec 64) (data : List Byte) (psn : BitVec 24) (s : State) :
    Host.Outcome State Fault Refusal :=
  .next (s.rdmaStart p qpn.toNat true rkey.toNat va.toNat data.length data psn)

/-- RDMA_READ_REQUEST. -/
def execRdmaReadRequest (p : EthPort) (qpn : BitVec 24) (rkey : Word) (va : BitVec 64) (len : Nat) (psn : BitVec 24) (s : State) :
    Host.Outcome State Fault Refusal :=
  .next (s.rdmaStart p qpn.toNat false rkey.toNat va.toNat len [] psn)

/-! ### Answers (R338, R339, Table 12-3) -/

/-- The NAK of a failed piece: 1 Remote Access Error, 2 Remote Operational Error. -/
def pieceNak (status : Nat) : Nat := if status ∈ [stAddr, stAbsent, stImem, stUnreach] then 1 else 2

/-- The status and data of a piece that has been answered. -/
def RdmaOp.piece (o : RdmaOp) (i : Nat) : Option (Nat × List Byte) := (o.got.find? (fun q => q.1 = i)).map (·.2)

def RdmaOp.pieces (o : RdmaOp) : Nat := pieceCount o.va o.len

/-- The pieces in front of the first one that is not answered or has failed: how many they are, and their data. -/
def RdmaOp.prefix (o : RdmaOp) : Nat × List Byte := go o.pieces 0 []
where
  /-- At most `n` more pieces from piece `i` on. -/
  go : Nat → Nat → List Byte → Nat × List Byte
    | 0, i, bs => (i, bs)
    | n + 1, i, bs =>
      match o.piece i with
      | some (st, d) => if st = stOk then go n (i + 1) (bs ++ d) else (i, bs)
      | none => (i, bs)

/-- The packets whose every piece has been applied or read, where `m` pieces in front have: all of them once the last piece has. -/
def RdmaOp.whole (o : RdmaOp) (mtu m : Nat) : Nat :=
  if m = o.pieces then packets mtu o.len
  else if m = 0 then 0 else ((pieceAt o.va o.len (m - 1)).1 + (pieceAt o.va o.len (m - 1)).2 - o.va) / mtu

/-- The acknowledgement of a WRITE up to packet `n`, or the read responses that `n` adds, in order. -/
def State.opTx (s : State) (p : EthPort) (qpn mtu : Nat) (o : RdmaOp) (n : Nat) (data : List Byte) : State :=
  if n ≤ o.sent then s
  else if o.write then s.roceTx p (.ethAck p (BitVec.ofNat 24 qpn) (o.psn + BitVec.ofNat 24 n - 1))
  else (List.range (n - o.sent)).foldl (fun t j =>
    t.roceTx p (.ethData p (BitVec.ofNat 24 qpn) ((data.drop (mtu * (o.sent + j))).take mtu))) s

/-- A piece has failed: the QP enters Error behind what it has sent, with the NAK (R339). -/
def State.pieceFail (s : State) (p : EthPort) (k qpn nak : Nat) : State :=
  ((s.qpEnd k).ethErrCap p 2 nak qpn).roceTx p (.ethNak p (BitVec.ofNat 24 qpn) nak)

/-- Answer the operations of a QP in their order, as far as their pieces allow (R338, R339, log entry 27). -/
def State.qpAnswer (s : State) (p : EthPort) (k qpn : Nat) : List RdmaOp → State
  | [] => s.setQp k { s.qp k with ops := [] }
  | o :: rest =>
    let mtu := s.qpMtu k
    let m := o.prefix
    let n := o.whole mtu m.1
    let t := s.opTx p qpn mtu o n m.2
    if m.1 = o.pieces then t.qpAnswer p k qpn rest
    else
      match o.piece m.1 with
      | some (st, _) => t.pieceFail p k qpn (pieceNak st)
      | none => t.setQp k { t.qp k with ops := { o with sent := max o.sent n } :: rest }

/-- A piece of the operation at a PSN is answered: of the oldest one that still waits for it. -/
def takePiece (x : PieceEnd) (data : List Byte) : List RdmaOp → List RdmaOp
  | [] => []
  | o :: rest =>
    if o.psn = x.psn ∧ x.piece < o.pieces ∧ (o.piece x.piece).isNone then
      { o with got := o.got ++ [(x.piece, x.status.toNat, if o.write then [] else data)] } :: rest
    else o :: takePiece x data rest

/-- RDMA_PIECE_DONE: a piece of an operation in progress on a connected QP is answered. -/
def State.pieceDone (s : State) (p : EthPort) (qpn : Nat) (x : PieceEnd) (data : List Byte) : State :=
  match s.qpLive p qpn with
  | none => s
  | some k => s.qpAnswer p k qpn (takePiece x data (s.qp k).ops)

def execRdmaPieceDone (p : EthPort) (qpn : BitVec 24) (x : PieceEnd) (data : List Byte) (s : State) :
    Host.Outcome State Fault Refusal :=
  .next (s.pieceDone p qpn.toNat x data)

/-! ### Wake on LAN (R342) -/

/-- The 102 bytes of the pattern: 6 bytes of 0xFF and 16 copies of the MAC address, first byte first on the wire. -/
def wolPattern (mac : Nat) : List Byte :=
  List.replicate 6 0xFF#8 ++ (List.replicate 16 (leBytes 6 mac).reverse).flatten

/-- The pattern stands somewhere in a payload. -/
def holdsPattern (pat : List Byte) : List Byte → Bool
  | [] => pat.isEmpty
  | b :: bs => pat.isPrefixOf (b :: bs) || holdsPattern pat bs

/-- WAKE_ON_LAN: the wake logic of a port watches in every idle state, and latches the wake (R342, R388, R390). -/
def execWakeOnLan (p : EthPort) (payload : List Byte) (s : State) : Host.Outcome State Fault Refusal :=
  .next (if decide (s.idleState ≠ 0) && holdsPattern (wolPattern (s.mac p)) payload then s.wakeBy (1 + p.val) else s)

end Sys2Proof.Machine
end

