-- ==== Sys2Proof/Machine/Ahead.lean ====
section
/-! DEFINITION. The sequencers decode their streams ahead: a station in settle mode asks for the freeze of an early drain, and breaks are found
(R62, R180, R181, R225). -/

namespace Sys2Proof.Machine

/-- The bytes of the word that a stream issues next: of its bank, or of routine RAM (R155, R164). -/
def Station.codeAt (x : Station) (d : DieSt) (m : Strm) : List Byte :=
  let y := x.stream m
  if y.rets.isEmpty then x.imem.rdN (bankOff m y.bank + 2 * y.pc) 26 else d.rram.rdN (2 * y.pc) 26

/-- A stream at the start of tick `u`: a wait whose event has occurred ends on its tick, a ROM routine with its duration. -/
def StreamSt.lookOn (y : StreamSt) (u : Nat) : StreamSt :=
  let y1 := match y.wait with
    | some w => if w.ends u then { y with wait := none, next := u } else y
    | none => y
  if y1.rom.isSome && decide (y1.next ≤ u) then { y1 with rom := none } else y1

/-- What the C slot of a word decoded for tick `u` does to the streams; a WAITEV whose event has not occurred ends the look ahead (R62). -/
def State.lookC (s : State) (i : Nat) (x : Station) (m : Strm) (u c : Nat) : Station :=
  match bitsOf c 31 29 with
  | 1 => { x with bounds := x.bounds ++ [⟨u + (if bitOf c 28 then 64 else 32), bitOf c 28, 0, m, u⟩] }
  | 2 => x.modStream m (·.openLoop ⟨BitVec.ofNat 3 (bitsOf c 28 26), BitVec.ofNat 12 (bitsOf c 25 14), BitVec.ofNat 13 (bitsOf c 13 1)⟩)
  | 3 => x.modStream m (·.enter (bitsOf c 9 0) (s.rtn (dieOf i) (bitsOf c 9 0)) u)
  | 4 => x.modStream m StreamSt.leave
  | 6 => x.modStream m (fun y => { y with wait := some ⟨BitVec.ofNat 6 (bitsOf c 28 23), u, none⟩ })
  | 7 => [Strm.F, .B, .U].foldl (fun z k =>
      if bitOf (bitsOf c 28 26) k.idx then z.modStream k (fun y => { y with swap := some (bitsOf c 24 10) }) else z) x
  | _ => x

/-- A word found ahead: its tick, stream and header, and the bits of its M slot, if it has one. -/
structure Ahead where
  tick : Nat
  strm : Strm
  hdr  : BitVec 16
  m    : Option Nat
  deriving DecidableEq, Repr

/-- The word that a stream would issue on tick `u`, if any, put behind those found so far, with the station after it. -/
def State.lookWord (s : State) (i u : Nat) (q : Station × List Ahead) (m : Strm) : Station × List Ahead :=
  let x := q.1.modStream m (·.lookOn u)
  let y := x.stream m
  match y.rom, y.romWord u with
  | some _, some w => (x, q.2 ++ [⟨u, m, w.1, none⟩])
  | some _, none => (x, q.2)
  | none, _ =>
    if y.wait.isSome || decide (u < y.next) then (x, q.2)
    else
      let bs := x.codeAt (s.die (dieOf i)) m
      let h := BitVec.ofNat 16 (half bs 0)
      let x1 := x.modStream m (·.advance h u true)
      let w := (slotsAt bs 0).find? (fun p => p.1 == .m)
      ((if (slotsAt bs 0).any (fun p => p.1 == .c) then s.lookC i x1 m u (cSlotAt bs 0) else x1), q.2 ++ [⟨u, m, h, w.map (·.2)⟩])

/-- The boundary of tick `u`, if one falls on it: the armed swaps take effect (R173). -/
def Station.lookBoundary (x : Station) (u : Nat) : Station :=
  if x.boundaryDue u then
    [Strm.F, .B, .U].foldl (fun z m =>
      match (z.stream m).swap with
      | some e => if z.otherReady m then z.modStream m (·.swapTo e u) else z.modStream m (fun y => { y with swap := none })
      | none => z) { x with bounds := x.bounds.drop 1 }
  else x

/-- The words of the ticks from `u` on. -/
def State.lookAhead (s : State) (i : Nat) : Nat → Nat → Station → List Ahead
  | 0, _, _ => []
  | n + 1, u, x =>
    let q := [Strm.F, .B, .U].foldl (s.lookWord i u) (x.lookBoundary u, [])
    q.2 ++ s.lookAhead i n (u + 1) q.1

/-- A word found ahead has an M-slot op of this opcode. -/
def Ahead.isOp (w : Ahead) (opc : Nat) : Bool := w.m.any (fun b => decide (bitsOf b 31 30 = opc))

/-- The accumulation group that its M-slot op names. -/
def Ahead.group (w : Ahead) : Nat := bitsOf (w.m.getD 0) 29 28

/-- Some op of a list is an MMA of the group of a drain, and issues fewer than ACC_SETTLE ticks before it (R62). -/
def mmaBefore (l : List Ahead) (w : Ahead) : Bool :=
  l.any (fun e => e.isOp 1 && decide (e.group = w.group) && decide (e.tick < w.tick) && decide (w.tick ≤ e.tick + 4))

/-- A station in settle mode finds an early drain a freeze horizon ahead: the shutter is timed so that the freeze falls on its tick (R62,
R225). -/
def State.settleAsk (s : State) (i : Nat) : State :=
  match s.liveTick i with
  | none => s
  | some t =>
    if s.bit .stnArrayCtrl i 0 then
      let n := s.horizon (dieOf i)
      let l := s.lookAhead i (n + 1) t (s.station i)
      if l.any (fun w => decide (w.tick = t + n) && w.isOp 2 && mmaBefore l w) then
        (s.timedReq (dieOf i) 8 (s.tickLen (regionOf i) * (s.ref (regionOf i) + n))).modStation i (fun x =>
          { x with settleAt := x.settleAt.filter (fun u => decide (t ≤ u)) ++ [t + n] })
      else s
    else s

/-- The stations of a region in settle mode look ahead (R62). -/
def State.settleAsks (s : State) (r : Nat) : State :=
  (s.used.filter (fun i => decide (regionOf i = r))).foldl (fun t i => t.settleAsk i) s

/-- RESUME (R223): the announced tick has come, every die of the scope runs the schedule tick that was due at its freeze, from
which its stations in settle mode look ahead (R62). -/
def State.resume (s : State) (d : Nat) : State :=
  if (s.die d).frozen && decide ((s.die d).resumeIn = some 0) then
    ((s.scope d).filter (fun x => (s.die x).frozen && (s.die x).resumeIn.isSome)).foldl (fun t x => ((t.resumeDie x).settleAsks (2 * x)).settleAsks (2 * x + 1)) s
  else s

def execResume (die : Die) (s : State) : Host.Outcome State Fault Refusal := .next (s.resume die)

/-! ### Breaks (R180, R181, R225) -/

/-- Scope of a break register: 0 station, 1 die, 2 package (Table 6-14). -/
def State.brkScope (s : State) (stn : Nat) (m : Strm) : Nat := s.fld (brkReg m) stn 20 19

/-- The dies that a break of die or package scope stops, and the freeze horizon in force for it (R181, Table 6-14). -/
def brkDies (scope d : Nat) : List Nat := if scope = 2 then [0, 1, 2, 3] else [d]
def brkHorizon (scope : Nat) : Nat := if scope = 2 then 64 else 32

/-- The schedule tick on which a break of a station may hit: one on which it runs, or on which another stream's break of this tick has
stopped it already (R181). -/
def State.brkTick (s : State) (stn : Nat) : Option Nat :=
  match s.issueTick stn with
  | some t => some t
  | none =>
    match s.tickOf stn with
    | some t =>
      let x := s.station stn
      if x.run = .brk ∧ [Strm.F, .B, .U].any (fun m => decide ((x.stream m).skip = some t)) = true ∧ x.boundaryDue t = false then some t
      else none
    | none => none

/-- A stream has a word with this header to issue on tick `t`, its own or a ROM routine's. -/
def State.wordDue (s : State) (stn : Nat) (m : Strm) (h : BitVec 16) (t : Nat) : Bool :=
  s.ready stn m t || ((s.stream stn m).romWord t).any (fun w => decide (w.1 = h))

/-- The sequencer finds in its decode look ahead, `ahead` ticks from tick `t`, a word with this header at which a break hits: by its tag, or
by the count of the words that its stream issues before it (R180, R181). -/
def State.brkAhead (s : State) (stn : Nat) (m : Strm) (h : BitVec 16) (ahead t : Nat) : Bool :=
  let ws := (s.lookAhead stn (ahead + 1) t (s.station stn)).filter (fun w => decide (w.strm = m))
  let b := s.reg (brkReg m) stn
  let n := (ws.filter (fun w => decide (w.tick < t + ahead))).length
  ws.any (fun w => decide (w.tick = t + ahead) && decide (w.hdr = h)
    && ((bitOf b 17 && s.tagTest stn m h) || (bitOf b 18 && decide (s.reg (cntReg m) stn ≤ n))))

/-- A break hits at the word that a stream is to issue `ahead` ticks from now: in station scope the station stops on that
word's tick, else a shutter is requested whose freeze falls on it, and HIT is set with that freeze (R181, R225, log entry 12). -/
def State.breakAt (s : State) (i : Issue) (ahead t : Nat) : State :=
  let y := s.stream i.stn i.strm
  let d := dieOf i.stn
  let sc := s.brkScope i.stn i.strm
  let hits := if ahead = 0 then s.brkHits i.stn i.strm i.hdr && s.wordDue i.stn i.strm i.hdr t else s.brkAhead i.stn i.strm i.hdr ahead t
  if !hits || y.skip.isSome then s
  else if sc = 0 then
    (if ahead = 0 then
      ((s.modStream i.stn i.strm (fun z => { z with skip := some t })).stopStation i.stn .brk).setHit i.stn i.strm
     else s)
  else if ahead ≤ brkHorizon sc then
    (s.modStream i.stn i.strm (fun z => { z with skip := some (t + ahead) })).timedOn (brkDies sc d) 9
      (s.tickLen (regionOf i.stn) * (s.ref (regionOf i.stn) + ahead))
  else s

/-- BREAK_HIT. -/
def execBreakHit (i : Issue) (ahead : Nat) (s : State) : Host.Outcome State Fault Refusal :=
  .next (match s.brkTick i.stn with
    | some t => s.breakAt i ahead t
    | none => s)

end Sys2Proof.Machine
end

