-- ==== Sys2Proof/Machine/Time.lean ====
section
/-! DEFINITION. The tick of a clock region: the ring shifts one hop, the reference count advances (R102 to R104, R117, R120, R182, R183,
R209). -/

namespace Sys2Proof.Machine

/-! ### The end of a station's schedule tick -/

/-- The GINJ ops whose ring-side tick has come act in their order; a station that has stopped passes the word (R102, R110, R115). -/
def State.ginjDue (s : State) (i t : Nat) : State :=
  let due := (s.station i).ginj.filter (fun g => decide (g.due ≤ t))
  let s1 := s.modStation i (fun x => { x with ginj := x.ginj.filter (fun g => !decide (g.due ≤ t)) })
  if s.running i then due.foldl (fun u g => u.ringSide i g) s1 else s1

/-- A ROM routine called on tick `u` reads S0 and S1 on its first tick: as they stand at the end of `u` (R172). -/
def StreamSt.romReads (y : StreamSt) (u : Nat) : StreamSt :=
  { y with rom := match y.rom with | some r => some (if r.at_ = u then { r with s0 := y.sreg 0, s1 := y.sreg 1 } else r) | none => none }

/-- A stream whose station stands at a break in a ROM routine goes on with it as many ticks later (R170, R181, log entry 71). -/
def StreamSt.romLate (y : StreamSt) : StreamSt :=
  match y.rom with
  | some r => { y with rom := some { r with at_ := r.at_ + 1 }, next := y.next + 1 }
  | none => y

/-- The end of schedule tick `t` of a station: the ops in flight read and write, the ring-side ops act, ROM routines read their operands,
the waits see their events, and a spill tick moves 128 bytes of the stash (R102, R127, R163, R172, R208, R218). -/
def State.tickWork (s : State) (i t : Nat) : State :=
  let s0 := ((s.pipeTick i t).freeUnst i).ginjDue i t
  let late := decide ((s.station i).run = .brk)
  let s1 := [Strm.F, .B, .U].foldl (fun u m => u.modStation i (fun x => x.modStream m (fun y =>
    (if late then y.romLate else y.romReads t).seeEvent x t))) s0
  if s1.running i && s1.spillTick i t then s1.stashTick i else s1

/-- The end of the schedule tick of every station of a region that has left its reset state. -/
def State.endTick (s : State) (r : Nat) : State :=
  (s.used.filter (fun i => decide (regionOf i = r))).foldl (fun t i => match t.tickOf i with | some k => t.tickWork i k | none => t) s

/-- The stations whose stop falls on the new tick stop, at a break where a step of DBG_STEP ends (R182, R228). -/
def State.stopDue (s : State) (i : Nat) : State :=
  match (s.station i).stopAt, s.tickOf i with
  | some u, some t =>
    if u ≤ t then s.modStation i (fun x => { x.stop (if x.step = some u then .brk else .stopped) with step := none }) else s
  | _, _ => s

def State.stopsDue (s : State) (r : Nat) : State :=
  (s.used.filter (fun i => decide (regionOf i = r))).foldl (fun t i => t.stopDue i) s

/-! ### The ring (R102, R117, R120) -/

/-- Whether the local tick of a position is odd on reference tick `c` of its region. -/
def State.oddAt (s : State) (seg pos c : Nat) : Bool := decide ((c + s.lagAt seg pos) % 2 = 1)

/-- The words at the 132 positions of a region. -/
def State.ringWords (s : State) (r : Nat) : List RingWord := (List.range 132).map (fun k => s.slotAt (132 * r + k))

/-- The word that leaves the last position of a region enters the crossing. Toward a half that takes no word, and from the fast half on an
odd local tick, a valid word is discarded and SEAM_DOWN raised (R117 to R119). -/
def State.ringLeave (s : State) (r : Nat) (w : RingWord) : State :=
  let nx := s.leadsTo r
  let shut := s.bit .ringSeamStatus (nx / 2) (4 + nx % 2) || !s.ticking nx
  if shut || (s.fastHalf r && s.oddAt (4 * r + 3) 32 (s.ref r)) then
    (if w.valid then s.ringDieFault (r / 2) 5 10 (nx % 2 * 4) 0 else s)
  else s.setInQ nx (s.inQ nx ++ [w])

/-- The first position of a region takes a word on this tick, where the crossing delivers one on it (R117). -/
def State.ringTakes (s : State) (r : Nat) : Bool := !(s.fastHalf r && s.oddAt (4 * r) 0 (s.ref r + 1))

/-- The word that the first position of a region takes: the one that a crossing has delivered, else the empty slot at the head of the
crossing. A crossing whose sender does not tick goes on with empty slots. -/
def State.ringFirst (s : State) (r : Nat) : State × RingWord :=
  let fill := if s.ticking (s.feederOf r) then [] else [RingWord.empty]
  if !s.ringTakes r then (s, RingWord.empty)
  else
    match s.arriving r, s.inQ r with
    | w :: _, q => ((s.setInQ r (q ++ fill)).setArriving r [], w)
    | [], w :: q => (s.setInQ r (q ++ fill), w)
    | [], [] => (s, RingWord.empty)

/-- Every position passes its word one hop on. -/
def State.ringShift (s : State) (r : Nat) : State :=
  let ws := s.ringWords r
  let q := s.ringFirst r
  let s1 := q.1.ringLeave r (ws.getLastD RingWord.empty)
  { s1 with ring := Tbl.puts (fun _ => RingWord.empty) s1.ring (132 * r) (q.2 :: ws.take 131) }

/-- The next tick of a region waits for the crossing in front of it: its sender has still to tick, or a valid word stands at the head and
SEAM_CROSSING or BRIDGE_DELIVERY has to bring it; or for the receiver, which is far behind (R102, R117, R120, log entry 1). -/
def State.crossWaits (s : State) (r : Nat) : Bool :=
  (s.ringTakes r && (s.arriving r).isEmpty &&
    (match s.inQ r with
     | [] => s.ticking (s.feederOf r)
     | w :: _ => w.valid))
    || (s.ticking (s.leadsTo r) && decide ((if r % 2 = 1 ∧ s.pkgRing = true then 20 else 12) ≤ (s.inQ (s.leadsTo r)).length))

/-! ### Trace (R183, Table 6-16) -/

/-- The 16 bytes of a trace record. -/
def TraceRec.bytes (t : TraceRec) : List Byte :=
  leBytes 4 (t.tick % 2 ^ 32) ++ leBytes 2 (t.stn % 1024 + t.strm.code * 2 ^ 10 + b2n t.rtn * 2 ^ 12 + b2n t.bank * 2 ^ 13)
    ++ leBytes 3 (t.pc % 2 ^ 18) ++ [BitVec.ofNat 8 (hdrTag t.hdr), BitVec.ofNat 8 (bitsOf t.hdr.toNat 15 10), BitVec.ofNat 8 (b2n t.fault)]
    ++ leBytes 4 0

/-- The trace merge of a die takes one record a tick into its buffer of 64; one that finds it full is lost and counted (R183). -/
def State.traceMerge (s : State) (d : Nat) : State :=
  match (s.die d).traceIn with
  | [] => s
  | t :: ts =>
    let s1 := s.modDie d (fun x => { x with traceIn := ts })
    if (s.die d).trace.length < 64 then s1.modDie d (fun x => { x with trace := x.trace ++ [t] }) else s1.countFld .dbgTraceDrop d 31 0 1

/-- The oldest record of the die's buffer goes to the trace ring, whose index wraps at its size; one whose page group is quarantined is
not written, but lost and counted (R183, R264, R278, log entry 19). -/
def State.traceDrain (s : State) (d : Nat) (xs : List XferAt) : State :=
  match (s.die d).trace with
  | [] => s
  | t :: ts =>
    let cfg := s.reg .dbgTraceCfg d
    let n := 16384 * 2 ^ bitsOf cfg 18 16
    let h := s.fld .dbgTraceHead d 23 0 % n
    let off := bitsOf cfg 15 0 * 2 ^ 18 + 16 * h
    let s0 := s.modDie d (fun x => { x with trace := ts })
    if s.staleRange off 16 then s0.countFld .dbgTraceDrop d 31 0 1
    else
      let s2 := (s0.stackPut (off / stackSize) (off % stackSize) t.bytes xs).setFld .dbgTraceHead d 23 0 ((h + 1) % n)
      if h + 1 = n then s2.setFld .dbgTraceHead d 31 31 1 else s2

/-- What a die does on every tick of its control net, frozen or not: trace, feed requests, a spare substitution
that no boundary will let in, and a restore that waited for the stations to stop
(R108, R123, R183, R222). -/
def State.dieTick (s : State) (d : Nat) (xs : List XferAt) : State :=
  (((((s.traceDrain d xs).traceMerge d).feedReleases d).onlyIf (s.noBoundary d) (·.substAt d)).restoreDue).buddyFlush

/-! ### TICK -/

/-- The reference count of a region advances. -/
def State.refTick (s : State) (r : Nat) : State := { s with refc := Tbl.put (fun _ => 0) s.refc r (s.ref r + 1) }

/-- The feed-bus lanes of a region's segments are free again (R107). -/
def State.freeLanes (s : State) (r : Nat) : State := { s with injected := s.injected.filter (fun p => decide (p.1 / 4 ≠ r)) }

/-- An unfrozen tick of a region. -/
def State.runTick (s : State) (r : Nat) : State :=
  let s1 := (s.endTick r).ringShift r
  (((s1.refTick r).freeLanes r).stopsDue r).settleAsks r

/-- A frozen tick of a region (R209, R223, R246). -/
def State.coldTick (s : State) (r : Nat) : State :=
  let s1 := s.countFrozen r
  if r = s.netRegion (r / 2) then s1.frozenTick (r / 2) else s1

/-- What a station owes to its tick: a boundary, the end of a wait, a word of a ROM routine (R163, R170, R211, R212). -/
def State.stationDue (s : State) (i : Nat) : Bool :=
  match s.liveTick i with
  | some t =>
    let x := s.station i
    x.boundaryDue t || [Strm.F, .B, .U].any (fun m =>
      (match (x.stream m).wait with | some w => w.ends t | none => false) || ((x.stream m).romWord t).isSome)
  | none => false

/-- The next tick of a region waits for what falls on this one: the announcement of a resume, the resume, the freeze, a fault flit that has
arrived, what a station owes, a feed point's injection, the decision of the epoch unit, a crossing (log entry 1). -/
def State.tickWaits (s : State) (r : Nat) : Bool :=
  let d := r / 2
  let x := s.die d
  let net := decide (r = s.netRegion d)
  if x.frozen then s.announceDue d || decide (x.resumeIn = some 0) || (net && s.flitDue d)
  else s.halted r || (net && (s.flitDue d || s.epochLate d))
    || s.used.any (fun i => decide (regionOf i = r) && s.stationDue i)
    || (List.range 4).any (fun k => s.segDue (4 * r + k)) || s.crossWaits r

/-- The X ops of a region's stations come nearer to their requests (R202). -/
def State.xNearer (s : State) (r : Nat) : State :=
  (s.used.filter (fun i => decide (regionOf i = r))).foldl (fun t i => t.modStation i Station.xNearer) s

/-- TICK. -/
def State.tick (s : State) (r : Nat) (xs : List XferAt) : State :=
  if !s.ticking r || s.tickWaits r then s
  else
    let s1 := (if (s.die (r / 2)).frozen then s.coldTick r else s.runTick r).xNearer r
    if r = s.netRegion (r / 2) then (s1.flitsMove (r / 2)).dieTick (r / 2) xs else s1

def execTick (t : RegionTick) (s : State) : Host.Outcome State Fault Refusal := .next (s.tick t.region t.xs)

end Sys2Proof.Machine
end

