-- ==== Sys2Proof/Machine/Dispatch.lean ====
section
/-! DEFINITION. The dispatch of every command to its meaning. -/

namespace Sys2Proof.Machine

def exec (i : Instr) (s : State) : Host.Outcome State Fault Refusal :=
  match i with
  | .mld w o => Sys2Proof.Machine.execMld w o s
  | .mma w o => Sys2Proof.Machine.execMma w o s
  | .mdrn w o => Sys2Proof.Machine.execMdrn w o s
  | .mclr w mask => Sys2Proof.Machine.execMclr w mask s
  | .vadd w o => Sys2Proof.Machine.execVadd w o s
  | .vmul w o => Sys2Proof.Machine.execVmul w o s
  | .vfma w o => Sys2Proof.Machine.execVfma w o s
  | .vmax w o => Sys2Proof.Machine.execVmax w o s
  | .vexp w o => Sys2Proof.Machine.execVexp w o s
  | .vrsq w o => Sys2Proof.Machine.execVrsq w o s
  | .vcmp w o => Sys2Proof.Machine.execVcmp w o s
  | .vsel w o => Sys2Proof.Machine.execVsel w o s
  | .vcmpr w o => Sys2Proof.Machine.execVcmpr w o s
  | .vexpd w o => Sys2Proof.Machine.execVexpd w o s
  | .vredRow w o => Sys2Proof.Machine.execVredRow w o s
  | .vredCol w o => Sys2Proof.Machine.execVredCol w o s
  | .vnrm2 w o => Sys2Proof.Machine.execVnrm2 w o s
  | .vcvt w o => Sys2Proof.Machine.execVcvt w o s
  | .ginj w o => Sys2Proof.Machine.execGinj w o s
  | .gtap w o => Sys2Proof.Machine.execGtap w o s
  | .gej w o => Sys2Proof.Machine.execGej w o s
  | .gpass w o => Sys2Proof.Machine.execGpass w o s
  | .lld w o => Sys2Proof.Machine.execLld w o s
  | .lst w o => Sys2Proof.Machine.execLst w o s
  | .lstash w o => Sys2Proof.Machine.execLstash w o s
  | .stashFullStop stn => Sys2Proof.Machine.execStashFullStop stn s
  | .lunst w o => Sys2Proof.Machine.execLunst w o s
  | .xfetch w o => Sys2Proof.Machine.execXfetch w o s
  | .xfetchFeed w o => Sys2Proof.Machine.execXfetchFeed w o s
  | .xput w o => Sys2Proof.Machine.execXput w o s
  | .xcancel w grp => Sys2Proof.Machine.execXcancel w grp s
  | .xred w o => Sys2Proof.Machine.execXred w o s
  | .xnorm w o => Sys2Proof.Machine.execXnorm w o s
  | .epoch w pkg eid => Sys2Proof.Machine.execEpoch w pkg eid s
  | .rept w o => Sys2Proof.Machine.execRept w o s
  | .call w id => Sys2Proof.Machine.execCall w id s
  | .ret w => Sys2Proof.Machine.execRet w s
  | .phase w o => Sys2Proof.Machine.execPhase w o s
  | .waitev w ev => Sys2Proof.Machine.execWaitev w ev s
  | .waitevResume stn strm => Sys2Proof.Machine.execWaitevResume stn strm s
  | .swapbank w sm map entry => Sys2Proof.Machine.execSwapbank w sm map entry s
  | .waitWord w => Sys2Proof.Machine.execWaitWord w s
  | .breakHit w ahead => Sys2Proof.Machine.execBreakHit w ahead s
  | .tilesZero stn strm => Sys2Proof.Machine.execTilesZero stn strm s
  | .lensSelect stn strm => Sys2Proof.Machine.execLensSelect stn strm s
  | .lensClear stn strm => Sys2Proof.Machine.execLensClear stn strm s
  | .tieSumTile stn strm => Sys2Proof.Machine.execTieSumTile stn strm s
  | .feedPointInjection seg q => Sys2Proof.Machine.execFeedPointInjection seg q s
  | .feedDescriptorRead seg q ecc => Sys2Proof.Machine.execFeedDescriptorRead seg q ecc s
  | .feedQueueFill seg q ecc fails => Sys2Proof.Machine.execFeedQueueFill seg q ecc fails s
  | .seamCrossing die up err => Sys2Proof.Machine.execSeamCrossing die up err s
  | .bridgeDelivery die fails => Sys2Proof.Machine.execBridgeDelivery die fails s
  | .fifoDriftRequest die f up => Sys2Proof.Machine.execFifoDriftRequest die f up s
  | .crossingPoison die f => Sys2Proof.Machine.execCrossingPoison die f s
  | .clockStretch r => Sys2Proof.Machine.execClockStretch r s
  | .freeze die => Sys2Proof.Machine.execFreeze die s
  | .resumeAnnounce die => Sys2Proof.Machine.execResumeAnnounce die s
  | .resume die => Sys2Proof.Machine.execResume die s
  | .faultFlit die => Sys2Proof.Machine.execFaultFlit die s
  | .epochBoundary stn => Sys2Proof.Machine.execEpochBoundary stn s
  | .epochUnitDecision die => Sys2Proof.Machine.execEpochUnitDecision die s
  | .lensPostMerge die x => Sys2Proof.Machine.execLensPostMerge die x s
  | .stashTransferDone x => Sys2Proof.Machine.execStashTransferDone x s
  | .xQueueSend x => Sys2Proof.Machine.execXQueueSend x s
  | .xResponse stn m => Sys2Proof.Machine.execXResponse stn m s
  | .xnormResult stn tag gen total => Sys2Proof.Machine.execXnormResult stn tag gen total s
  | .fetchTimeout who tag => Sys2Proof.Machine.execFetchTimeout who tag s
  | .registerWrite who off width val => Sys2Proof.Machine.execRegisterWrite who off width val s
  | .pairLoRead who off => Sys2Proof.Machine.execPairLoRead who off s
  | .pairHiRead who off => Sys2Proof.Machine.execPairHiRead who off s
  | .arrayCntClr who stn val => Sys2Proof.Machine.execArrayCntClr who stn val s
  | .bridgeCntClr who die val => Sys2Proof.Machine.execBridgeCntClr who die val s
  | .shtCntClr who die val => Sys2Proof.Machine.execShtCntClr who die val s
  | .fwHoldSet who die val => Sys2Proof.Machine.execFwHoldSet who die val s
  | .fwHoldRelease who die val => Sys2Proof.Machine.execFwHoldRelease who die val s
  | .spareSubstitution who seg val => Sys2Proof.Machine.execSpareSubstitution who seg val s
  | .fmtTableWrite who die tag val => Sys2Proof.Machine.execFmtTableWrite who die tag val s
  | .stateEpochWrite who u val => Sys2Proof.Machine.execStateEpochWrite who u val s
  | .dbgStepFree who die val => Sys2Proof.Machine.execDbgStepFree who die val s
  | .dbgStepTicks who die val => Sys2Proof.Machine.execDbgStepTicks who die val s
  | .traceDropClr who die val => Sys2Proof.Machine.execTraceDropClr who die val s
  | .lcInv who die val => Sys2Proof.Machine.execLcInv who die val s
  | .lcCntClr who die val => Sys2Proof.Machine.execLcCntClr who die val s
  | .msCntClr who stack val => Sys2Proof.Machine.execMsCntClr who stack val s
  | .tgStart who ch val => Sys2Proof.Machine.execTgStart who ch val s
  | .tgStop who ch val => Sys2Proof.Machine.execTgStop who ch val s
  | .tgRunDone r => Sys2Proof.Machine.execTgRunDone r s
  | .patrolScrub ch corrected => Sys2Proof.Machine.execPatrolScrub ch corrected s
  | .portEnable who p val => Sys2Proof.Machine.execPortEnable who p val s
  | .portDisable who p val => Sys2Proof.Machine.execPortDisable who p val s
  | .portRetrain who p val => Sys2Proof.Machine.execPortRetrain who p val s
  | .pyCntClr who p val => Sys2Proof.Machine.execPyCntClr who p val s
  | .pyErrCountClr who val => Sys2Proof.Machine.execPyErrCountClr who val s
  | .trainComplete p locked => Sys2Proof.Machine.execTrainComplete p locked s
  | .trainTimeout p => Sys2Proof.Machine.execTrainTimeout p s
  | .alignComplete p => Sys2Proof.Machine.execAlignComplete p s
  | .alignTimeout p => Sys2Proof.Machine.execAlignTimeout p s
  | .probeExchange p modId port role => Sys2Proof.Machine.execProbeExchange p modId port role s
  | .laneLoss p lane => Sys2Proof.Machine.execLaneLoss p lane s
  | .laneFecLimit p lane => Sys2Proof.Machine.execLaneFecLimit p lane s
  | .retrainDone p third ack => Sys2Proof.Machine.execRetrainDone p third ack s
  | .linkUnitRx p e => Sys2Proof.Machine.execLinkUnitRx p e s
  | .nakRx p seq => Sys2Proof.Machine.execNakRx p seq s
  | .nakRepeat p => Sys2Proof.Machine.execNakRepeat p s
  | .flitSend p => Sys2Proof.Machine.execFlitSend p s
  | .read m => Sys2Proof.Machine.execRead m s
  | .write m => Sys2Proof.Machine.execWrite m s
  | .readRsp m => Sys2Proof.Machine.execReadRsp m s
  | .writeAck m => Sys2Proof.Machine.execWriteAck m s
  | .mcastSend group => Sys2Proof.Machine.execMcastSend group s
  | .mcWrite m => Sys2Proof.Machine.execMcWrite m s
  | .mcAck group member mseq status => Sys2Proof.Machine.execMcAck group member mseq status s
  | .mcastHoldRetry group member => Sys2Proof.Machine.execMcastHoldRetry group member s
  | .mcastLagExpiry group member => Sys2Proof.Machine.execMcastLagExpiry group member s
  | .mcastTimeout group mseq => Sys2Proof.Machine.execMcastTimeout group mseq s
  | .redUp m => Sys2Proof.Machine.execRedUp m s
  | .redDown m => Sys2Proof.Machine.execRedDown m s
  | .ctrl src fp data => Sys2Proof.Machine.execCtrl src fp data s
  | .ethFrameRx p f => Sys2Proof.Machine.execEthFrameRx p f s
  | .pfcRelease p drained => Sys2Proof.Machine.execPfcRelease p drained s
  | .pauseFrameRx p prio hold => Sys2Proof.Machine.execPauseFrameRx p prio hold s
  | .arpRequest p target => Sys2Proof.Machine.execArpRequest p target s
  | .neighborSolicitation p target => Sys2Proof.Machine.execNeighborSolicitation p target s
  | .icmpEcho p v6 len => Sys2Proof.Machine.execIcmpEcho p v6 len s
  | .rdmaWrite p qpn rkey va data psn => Sys2Proof.Machine.execRdmaWrite p qpn rkey va data psn s
  | .rdmaReadRequest p qpn rkey va len psn => Sys2Proof.Machine.execRdmaReadRequest p qpn rkey va len psn s
  | .rdmaPieceDone p qpn status data => Sys2Proof.Machine.execRdmaPieceDone p qpn status data s
  | .mailboxSendRx p len => Sys2Proof.Machine.execMailboxSendRx p len s
  | .mailboxRnrRetry p accepted => Sys2Proof.Machine.execMailboxRnrRetry p accepted s
  | .cmReq p qpn dest psn pmtu reads => Sys2Proof.Machine.execCmReq p qpn dest psn pmtu reads s
  | .cmRtu p qpn => Sys2Proof.Machine.execCmRtu p qpn s
  | .cmDreq p qpn => Sys2Proof.Machine.execCmDreq p qpn s
  | .cnpRx p qpn => Sys2Proof.Machine.execCnpRx p qpn s
  | .cnpRateRecovery p qpn => Sys2Proof.Machine.execCnpRateRecovery p qpn s
  | .ethLinkDown p => Sys2Proof.Machine.execEthLinkDown p s
  | .ethLinkUp p => Sys2Proof.Machine.execEthLinkUp p s
  | .ethPortEnable who p val => Sys2Proof.Machine.execEthPortEnable who p val s
  | .ethPortDisable who p val => Sys2Proof.Machine.execEthPortDisable who p val s
  | .ethCntClr who p val => Sys2Proof.Machine.execEthCntClr who p val s
  | .wakeOnLan p payload => Sys2Proof.Machine.execWakeOnLan p payload s
  | .query h => Sys2Proof.Machine.execQuery h s
  | .heartbeat h => Sys2Proof.Machine.execHeartbeat h s
  | .reclaim h session next resume flush => Sys2Proof.Machine.execReclaim h session next resume flush s
  | .mkeySet h port entry keyTag rd wr base limit => Sys2Proof.Machine.execMkeySet h port entry keyTag rd wr base limit s
  | .imageCommit h proc off len => Sys2Proof.Machine.execImageCommit h proc off len s
  | .binLoad h d banks => Sys2Proof.Machine.execBinLoad h d banks s
  | .stnStart h dies => Sys2Proof.Machine.execStnStart h dies s
  | .stnStop h dies => Sys2Proof.Machine.execStnStop h dies s
  | .variantStage h v => Sys2Proof.Machine.execVariantStage h v s
  | .classSwitch h v pairs => Sys2Proof.Machine.execClassSwitch h v pairs s
  | .eventRead h first count => Sys2Proof.Machine.execEventRead h first count s
  | .hostlossSet h timeout snap => Sys2Proof.Machine.execHostlossSet h timeout snap s
  | .profileSet h prof => Sys2Proof.Machine.execProfileSet h prof s
  | .budgetSet h cap allowance interval margin => Sys2Proof.Machine.execBudgetSet h cap allowance interval margin s
  | .policySet h mode v => Sys2Proof.Machine.execPolicySet h mode v s
  | .stepHint h rows => Sys2Proof.Machine.execStepHint h rows s
  | .gatherSet h hold => Sys2Proof.Machine.execGatherSet h hold s
  | .workQueue h item group steps prio defer => Sys2Proof.Machine.execWorkQueue h item group steps prio defer s
  | .groupSet h id members lead => Sys2Proof.Machine.execGroupSet h id members lead s
  | .idleEnter h st wake asserted => Sys2Proof.Machine.execIdleEnter h st wake asserted s
  | .ledgerRead h first count => Sys2Proof.Machine.execLedgerRead h first count s
  | .ledgerStream h addr logCount enable => Sys2Proof.Machine.execLedgerStream h addr logCount enable s
  | .moduleIdSet h id => Sys2Proof.Machine.execModuleIdSet h id s
  | .portSet h mask en role half spare => Sys2Proof.Machine.execPortSet h mask en role half spare s
  | .routeSet h first entries => Sys2Proof.Machine.execRouteSet h first entries s
  | .remapSet h own pairs => Sys2Proof.Machine.execRemapSet h own pairs s
  | .mcastSet h group members => Sys2Proof.Machine.execMcastSet h group members s
  | .snapTake h slot => Sys2Proof.Machine.execSnapTake h slot s
  | .snapRestore h slot => Sys2Proof.Machine.execSnapRestore h slot s
  | .snapList h => Sys2Proof.Machine.execSnapList h s
  | .errRead h first count => Sys2Proof.Machine.execErrRead h first count s
  | .retireSet h stack pages => Sys2Proof.Machine.execRetireSet h stack pages s
  | .flashHealth h => Sys2Proof.Machine.execFlashHealth h s
  | .activityDone seq fp status => Sys2Proof.Machine.execActivityDone seq fp status s
  | .watchdogExpiry p => Sys2Proof.Machine.execWatchdogExpiry p s
  | .processorRestart p cause => Sys2Proof.Machine.execProcessorRestart p cause s
  | .fwRestart who val => Sys2Proof.Machine.execFwRestart who val s
  | .restartComplete p => Sys2Proof.Machine.execRestartComplete p s
  | .hostLossTimeout => Sys2Proof.Machine.execHostLossTimeout s
  | .hostLossPark => Sys2Proof.Machine.execHostLossPark s
  | .stepStartMarker => Sys2Proof.Machine.execStepStartMarker s
  | .snapEveryArm => Sys2Proof.Machine.execSnapEveryArm s
  | .variantCopyDone => Sys2Proof.Machine.execVariantCopyDone s
  | .classSwitchSubmit => Sys2Proof.Machine.execClassSwitchSubmit s
  | .groupEnergyReport member step energy => Sys2Proof.Machine.execGroupEnergyReport member step energy s
  | .groupChoice step v => Sys2Proof.Machine.execGroupChoice step v s
  | .ledgerMarker die pid fin tick => Sys2Proof.Machine.execLedgerMarker die pid fin tick s
  | .energySample energy => Sys2Proof.Machine.execEnergySample energy s
  | .budgetIntervalStart => Sys2Proof.Machine.execBudgetIntervalStart s
  | .profileArm who val => Sys2Proof.Machine.execProfileArm who val s
  | .regionStopDone => Sys2Proof.Machine.execRegionStopDone s
  | .zenithRecordWrite who val => Sys2Proof.Machine.execZenithRecordWrite who val s
  | .avsWrite who val r => Sys2Proof.Machine.execAvsWrite who val r s
  | .avsRead who val r => Sys2Proof.Machine.execAvsRead who val r s
  | .avsStatusPoll r => Sys2Proof.Machine.execAvsStatusPoll r s
  | .avsVdoneTimeout => Sys2Proof.Machine.execAvsVdoneTimeout s
  | .thermalReading temps => Sys2Proof.Machine.execThermalReading temps s
  | .thermalTrip r => Sys2Proof.Machine.execThermalTrip r s
  | .moduleSensorRead outlet vreg nand board => Sys2Proof.Machine.execModuleSensorRead outlet vreg nand board s
  | .refLoss => Sys2Proof.Machine.execRefLoss s
  | .refRestored => Sys2Proof.Machine.execRefRestored s
  | .pllLock => Sys2Proof.Machine.execPllLock s
  | .stacksOutOfRetention die => Sys2Proof.Machine.execStacksOutOfRetention die s
  | .regionPowerUp r => Sys2Proof.Machine.execRegionPowerUp r s
  | .wakePin => Sys2Proof.Machine.execWakePin s
  | .wakeTimer => Sys2Proof.Machine.execWakeTimer s
  | .pyciaWake => Sys2Proof.Machine.execPyciaWake s
  | .idleHint who val => Sys2Proof.Machine.execIdleHint who val s
  | .inputPowerUp => Sys2Proof.Machine.execInputPowerUp s
  | .pwrOkRise => Sys2Proof.Machine.execPwrOkRise s
  | .pwrOkFall => Sys2Proof.Machine.execPwrOkFall s
  | .resetAssert => Sys2Proof.Machine.execResetAssert s
  | .resetRelease prof smb => Sys2Proof.Machine.execResetRelease prof smb s
  | .inputStageTrip cause => Sys2Proof.Machine.execInputStageTrip cause s
  | .errorReport cls sev u capOff cap1 => Sys2Proof.Machine.execErrorReport cls sev u capOff cap1 s
  | .cePoll u count => Sys2Proof.Machine.execCePoll u count s
  | .stationFailed stn => Sys2Proof.Machine.execStationFailed stn s
  | .copyAheadOfWrite die page scheduled => Sys2Proof.Machine.execCopyAheadOfWrite die page scheduled s
  | .copyAheadRelease die c => Sys2Proof.Machine.execCopyAheadRelease die c s
  | .snapshotComplete r => Sys2Proof.Machine.execSnapshotComplete r s
  | .buddyPageRx src addr data => Sys2Proof.Machine.execBuddyPageRx src addr data s
  | .buddyAck => Sys2Proof.Machine.execBuddyAck s
  | .buddyTimeout => Sys2Proof.Machine.execBuddyTimeout s
  | .restoreComplete failed refused => Sys2Proof.Machine.execRestoreComplete failed refused s
  | .buddyStamp src g => Sys2Proof.Machine.execBuddyStamp src g s
  | .retentionScan rewritten corrected uncorrectable => Sys2Proof.Machine.execRetentionScan rewritten corrected uncorrectable s
  | .readDisturbRefresh => Sys2Proof.Machine.execReadDisturbRefresh s
  | .nandProgramFail => Sys2Proof.Machine.execNandProgramFail s
  | .smbAddr wr pecOk => Sys2Proof.Machine.execSmbAddr wr pecOk s
  | .smbData wr pecOk => Sys2Proof.Machine.execSmbData wr pecOk s
  | .smbDataInc wr pecOk => Sys2Proof.Machine.execSmbDataInc wr pecOk s
  | .smbStatus => Sys2Proof.Machine.execSmbStatus s
  | .smbusAlertResponse => Sys2Proof.Machine.execSmbusAlertResponse s
  | .jtagExtest outputs => Sys2Proof.Machine.execJtagExtest outputs s
  | .jtagIdcode => Sys2Proof.Machine.execJtagIdcode s
  | .jtagSamplePreload load => Sys2Proof.Machine.execJtagSamplePreload load s
  | .jtagClamp => Sys2Proof.Machine.execJtagClamp s
  | .jtagHighz => Sys2Proof.Machine.execJtagHighz s
  | .jtagDebug wr off data => Sys2Proof.Machine.execJtagDebug wr off data s
  | .jtagBypass => Sys2Proof.Machine.execJtagBypass s
  | .attestGo who val => Sys2Proof.Machine.execAttestGo who val s
  | .attestDone => Sys2Proof.Machine.execAttestDone s
  | .tick r => Sys2Proof.Machine.execTick r s
  | .packageFault link => Sys2Proof.Machine.execPackageFault link s
  | .inputAlert millivolts watts => Sys2Proof.Machine.execInputAlert millivolts watts s

end Sys2Proof.Machine
end

