-- ==== Sys2Proof/Safety.lean ====
section
/-! DEFINITION. The terms in which the statements speak: when a slot of a word acts, what such a slot may change, where a stop
leaves a station, and the sound form of the register file. -/

namespace Sys2Proof.Machine

/-- The register file holds no word at its Reset value and no offset twice. -/
def State.regsWf (s : State) : Bool := Tbl.wf Reg.resetAt s.regs

/-! ### A slot that acts -/

/-- The stream's present word passed its checks and has not issued the slot yet. -/
def StreamSt.slotLeft (y : StreamSt) (sl : Slot) : Bool :=
  match y.word with
  | some w => w.ok && !w.done.contains sl
  | none => false

/-- The slot `sl` of the command's word acts on schedule tick `t`: the station may issue, the slot is present, the memories the op
reads are clean, and the word has issued on this tick with the slot still to come, or issues now and passes its checks. -/
def State.opens (s : State) (i : Issue) (sl : Slot) (t : Nat) : Bool :=
  let y := s.stream i.stn i.strm
  decide (s.issueTick i.stn = some t) && decide (sl ∈ hdrSlots i.hdr) && decide (i.ecc = .clean) &&
    (if y.sameWord i.hdr t then y.slotLeft sl
     else s.wordOpens i t && decide (s.wordFails i t = none))

/-- The command that issues a word of a ROM routine on a station, by the routine's ID (Table 6-10). -/
def romCmd (n : Stn) (w : RomWord) : Nat → Option Instr
  | 0x001 => some (.tilesZero n w.strm)
  | 0x020 => some (.lensSelect n w)
  | 0x021 => some (.lensClear n w)
  | 0x030 => some (.tieSumTile n w)
  | _ => none

/-- The stream once its word has issued, or had issued, with the slot marked. -/
def StreamSt.opened (y : StreamSt) (h : BitVec 16) (sl : Slot) (t : Nat) : StreamSt :=
  (if y.sameWord h t then y else y.advance h t true).markSlot sl

/-- The station when the op of a slot begins to act. -/
def Station.opened (x : Station) (i : Issue) (sl : Slot) (t : Nat) : Station :=
  x.modStream i.strm (fun y => y.opened i.hdr sl t)

/-- The word passing a station has passed the feed point in front of it: no injection is due there (R106). -/
def State.ringFree (s : State) (n : Nat) : Bool := !(decide (s.posOf n = 0) && s.segDue (segOf n))

/-- Where the word of a command stands. -/
def State.placeOf (s : State) (i : Issue) (t : Nat) : OpPlace :=
  let y := s.stream i.stn i.strm
  match y.word with
  | some w => if y.sameWord i.hdr t then ⟨t, w.pc, y.bank, w.rtn, i.strm⟩ else y.place i.strm t
  | none => y.place i.strm t

/-- From `s` to `u`, nothing differs but the command's own station, the records on their way to its die's trace buffer, the break counter
that any issue may count on, and the registers at the offsets listed: every other station, register, die, memory, queue and output is the
same. -/
structure State.WordFrame (s u : State) (i : Issue) (offs : List Nat) : Prop where
  others : ∀ j, j ≠ i.stn.val → u.station j = s.station j
  regs : ∀ (r : Reg) (o : Nat), o ∉ (cntReg i.strm).at i.stn :: offs → u.regAt r o = s.regAt r o
  dies : ∀ d, { u.die d with traceIn := (s.die d).traceIn } = s.die d
  rest : u = { s with stations := u.stations, regs := u.regs, dies := u.dies }

/-- From `s` to `u`, nothing differs but the station `n`. -/
def State.StationOnly (s u : State) (n : Nat) : Prop :=
  (∀ j, j ≠ n → u.station j = s.station j) ∧ u = { s with stations := u.stations }

/-- From `s` to `u`, no register differs but those at the offsets listed, and nothing that is no register differs. -/
def State.RegsOnly (s u : State) (offs : List Nat) : Prop :=
  (∀ (r : Reg) (o : Nat), o ∉ offs → u.regAt r o = s.regAt r o) ∧ u = { s with regs := u.regs }

/-! ### Writes of registers -/

/-- A write of `v` to instance `i` of a register (the low half of a pair) is accepted from a requester: the register is present and
answers, and the write passes the checks of its table. -/
def State.accepts (s : State) (who : Requester) (r : Reg) (i v : Nat) : Prop :=
  s.regLocate (r.at i) 4 = .ok (r, i, false) ∧ s.csrCheck who r i v = stOk

/-- A write of the register brings about more than its fields take (the tables of the registers). -/
def Reg.acts : Reg → Bool
  | .shtCtrl | .stnArrayCtrl | .ringBridge | .stnMemErr | .dbgStep | .dbgTraceDrop | .clkRegionStatus | .pyErrCount | .msCtrl
  | .msLcCtrl | .msTgCtrl | .pyPortCtrl | .ethPortCtrl | .fwRestart | .pwrProfile | .pwrAvsCmd | .pwrIdleHint | .pwrWakeEn | .idAttest => true
  | _ => false

/-- Bit `k` of the word that a field takes on a write: RW bits take the value, W1C bits written 1 clear, others stay. -/
def RegInfo.bitAfter (g : RegInfo) (old v k : Nat) : Bool :=
  (if g.rw.testBit k then v.testBit k else old.testBit k) && !(g.w1c.testBit k && v.testBit k)

/-! ### Commands of the Tharax Command Set -/

/-- The command of a header, its opcode, and whether a processor in ROM state takes it. RECLAIM, which is exempt from checks 3 to 5,
is not among them. -/
def tcsOf : Instr → Option (TcsHdr × Nat × Bool)
  | .query h => some (h, 0x0001, true)
  | .heartbeat h => some (h, 0x0002, true)
  | .mkeySet h .. => some (h, 0x0004, true)
  | .imageCommit h .. => some (h, 0x0005, true)
  | .binLoad h .. => some (h, 0x0006, false)
  | .stnStart h .. => some (h, 0x0007, false)
  | .stnStop h .. => some (h, 0x0008, false)
  | .variantStage h .. => some (h, 0x0009, false)
  | .classSwitch h .. => some (h, 0x000A, false)
  | .eventRead h .. => some (h, 0x000B, false)
  | .hostlossSet h .. => some (h, 0x000C, false)
  | .profileSet h .. => some (h, 0x1001, false)
  | .budgetSet h .. => some (h, 0x1002, false)
  | .policySet h .. => some (h, 0x1003, false)
  | .stepHint h .. => some (h, 0x1004, false)
  | .gatherSet h .. => some (h, 0x1005, false)
  | .workQueue h .. => some (h, 0x1006, false)
  | .groupSet h .. => some (h, 0x1007, false)
  | .idleEnter h .. => some (h, 0x1008, false)
  | .ledgerRead h .. => some (h, 0x1009, false)
  | .ledgerStream h .. => some (h, 0x100A, false)
  | .moduleIdSet h .. => some (h, 0x2001, false)
  | .portSet h .. => some (h, 0x2002, false)
  | .routeSet h .. => some (h, 0x2003, false)
  | .remapSet h .. => some (h, 0x2004, false)
  | .mcastSet h .. => some (h, 0x2005, false)
  | .snapTake h .. => some (h, 0x3001, false)
  | .snapRestore h .. => some (h, 0x3002, false)
  | .snapList h => some (h, 0x3003, false)
  | .errRead h .. => some (h, 0x3004, false)
  | .retireSet h .. => some (h, 0x3005, false)
  | .flashHealth h => some (h, 0x3006, false)
  | _ => none

/-- Liaison receives a command and every check that all commands have passes: the firmware domain is powered, the mailbox QP of the port is
connected, Liaison runs, checks 1 to 5 pass, the opcode belongs to the processor named, a command not for ROM state finds both processors
out of it, no reserved byte is set, and the part is in no idle state. -/
def State.tcsRuns (s : State) (h : TcsHdr) (opc : Nat) (rom : Bool) : Prop :=
  bitOf s.pwr.on.toNat 12 = true ∧ s.qpState (qpKey h.port 0) = 1 ∧ s.restarting 0 = false ∧ s.tcsCheck h = .pass (opc / 0x1000) ∧
  (rom = true ∨ (s.inRom 0 = false ∧ s.inRom (opc / 0x1000) = false)) ∧ h.rsvBad = false ∧ s.idleState = 0

/-- What a port has sent last: its newest output, or, while the switch holds it, the packet that waits last. -/
def State.lastSent (s : State) (p : EthPort) : Option Out :=
  if s.bit .ethPortStatus p 28 then (s.ethSt p).waiting.getLast? else s.out.head?

/-- From `s` to `u` the command has been answered with a status and payload words: the completion is what its port has sent last, it is the
newest entry of its processor's journal, and that processor's `E` has advanced by one. -/
def State.answered (s u : State) (h : TcsHdr) (opc st : Nat) (load : List Nat) : Prop :=
  (∃ rcnt sess step, u.lastSent h.port = some (.completion h.port h.fp.toNat opc h.seq rcnt st sess step load) ∧
    (u.journal (opc / 0x1000)).getLast? = some ⟨h.seq, opc, rcnt, st, sess, step, load⟩) ∧
  u.expected (opc / 0x1000) = (s.expected (opc / 0x1000) + 1) % 2 ^ 32

/-- Nothing of the stations, the rings, the dies or the stacks differs from `s` to `u`. -/
def State.computeSame (s u : State) : Prop :=
  u.stations = s.stations ∧ u.dies = s.dies ∧ u.ring = s.ring ∧ u.stackMem = s.stackMem ∧ u.refc = s.refc

/-- The word and the slot of the commands that issue one slot of a word. -/
def slotOf : Instr → Option (Issue × Slot)
  | .mld i _ | .mma i _ | .mdrn i _ | .mclr i _ => some (i, .m)
  | .vadd i _ | .vmul i _ | .vfma i _ | .vmax i _ | .vexp i _ | .vrsq i _ | .vcmp i _ | .vsel i _ | .vcmpr i _ | .vexpd i _
  | .vredRow i _ | .vredCol i _ | .vnrm2 i _ | .vcvt i _ => some (i, .v)
  | .ginj i _ | .gtap i _ | .gej i _ | .gpass i _ => some (i, .g)
  | .lld i _ | .lst i _ | .lstash i _ | .lunst i _ => some (i, .l)
  | .xfetch i _ | .xfetchFeed i _ | .xput i _ | .xcancel i _ | .xred i _ | .xnorm i _ => some (i, .x)
  | .epoch i _ _ | .rept i _ | .call i _ | .ret i | .phase i _ | .waitev i _ | .swapbank i _ _ _ => some (i, .c)
  | _ => none

end Sys2Proof.Machine
end

