-- ==== Sys2Proof/Certificates/Slice0/Obligations.lean ====
section
/-! DEFINITION. The statements for the provers: what each command of the part does, what it leaves alone, and what every step keeps. -/

open Sys2Proof Sys2Proof.Machine

/-! ### The machine -/

/-- A step takes the command at the front of the queue and runs it on the state with the queue's rest, and answers what that command answers.
With no command waiting the part idles: the step answers the same state (the model's choice, log entry 1). -/
def Obligations.StepRunsTheFrontCommandOrIdles : Prop :=
  (∀ (c : Instr) (q : List Instr) (s : State), step (s.withPending (c :: q)) = exec c (s.withPending q)) ∧
  (∀ s : State, step (s.withPending []) = .next (s.withPending []))

/-- No command ends a run: whatever the state, every command of the table answers a next state. -/
def Obligations.EveryCommandAnswers : Prop :=
  ∀ (c : Instr) (s : State), ∃ t, exec c s = .next t

/-- After reset every word of every register reads as its Reset value, except that a pair's value has two words; every station is stopped with
empty tile registers, accumulators, latches, loop and return stacks and nothing in flight, no ring position holds a word, and no schedule tick
has passed. The zeros of the memories and of the state the spec gives no reset value are the model's choice (log entries 4 and 5). -/
def Obligations.ResetState : Prop :=
  (∀ (r : Reg) (o : Nat), State.reset.regAt r o = r.info.reset % 2 ^ 32) ∧
  (∀ n, State.reset.station n = Station.reset ∧ (Station.reset.run = .stopped ∧ Station.reset.still = true ∧
    ∀ k, Station.reset.tile k = Tile.zero)) ∧
  (∀ k, State.reset.slotAt k = RingWord.empty) ∧
  (∀ r, State.reset.ref r = 0) ∧ (∀ r < 8, State.reset.regionOn r = false) ∧
  State.reset.pending = [] ∧ State.reset.stackMem.wf = true ∧ State.reset.regsWf = true

/-- No step of the part changes a fused value: identity, stepping, segments in service, spare state, digests and addresses. -/
def Obligations.StepKeepsFuses : Prop :=
  ∀ s t : State, step s = .next t → t.fuses = s.fuses

/-- Every step keeps the stacks' memory in its one canonical form: addresses strictly rising, no entry equal to what an unlisted address reads
as. The form is the model's own (log entry 5): the spec gives the stacks' bytes and no way to keep them. -/
def Obligations.StepKeepsStackMemoryForm : Prop :=
  ∀ s t : State, s.stackMem.wf = true → step s = .next t → t.stackMem.wf = true

/-! ### Words and their slots -/

/-- A station that does not run (stopped, at a break, quarantined or out of service), whose region's schedule stands still, or whose schedule has
not begun, issues nothing: every slot command, WAIT word, end of a wait and word of a ROM routine leaves the whole state as it was, and so does a
break unless the station stands at one. The same holds on the tick of an epoch boundary that has not been passed yet. -/
def Obligations.StationThatIsNotLiveIssuesNothing : Prop :=
  ∀ (s : State) (i : Issue),
    let dead := s.running i.stn = false ∨ s.halted (regionOf i.stn) = true ∨ s.tickOf i.stn = none
    dead ∨ (∃ t, s.tickOf i.stn = some t ∧ (s.station i.stn).boundaryDue t = true) →
      (∀ c sl, slotOf c = some (i, sl) → exec c s = .next s) ∧
      exec (.waitWord i) s = .next s ∧ exec (.waitevResume i.stn i.strm) s = .next s ∧
      ((s.station i.stn).run ≠ .brk → ∀ n, exec (.breakHit i n) s = .next s) ∧
      ∀ (w : RomWord) (id : Nat) (c : Instr), romCmd i.stn w id = some c → exec c s = .next s

/-- A word that fails its checks when it is to issue is suppressed whole: no slot of it acts, its stream does not move past it, the station
stops issuing on the next tick, and with VALID 0 the capture names the code, the cause, the slot and the word's place. -/
def Obligations.FailingWordIsSuppressed : Prop :=
  ∀ (s : State) (c : Instr) (i : Issue) (sl : Slot) (t code cause slot : Nat),
    slotOf c = some (i, sl) → s.issueTick i.stn = some t → sl ∈ hdrSlots i.hdr → (sl = .g → s.ringFree i.stn = true) →
    (s.stream i.stn i.strm).sameWord i.hdr t = false → s.ready i.stn i.strm t = true →
    (s.brkHits i.stn i.strm i.hdr = false ∨ (s.stream i.stn i.strm).skips t = true) →
    s.wordFails i t = some (code, cause, slot) →
    ∃ u, exec c s = .next u ∧
      u.station i.stn = { (s.station i.stn).modStream i.strm (fun y =>
          { y with next := t + 1, word := some ⟨t, i.hdr, false, [], y.pc, y.inRtn⟩ }) with
        stopAt := match (s.station i.stn).stopAt with | some v => some (min v (t + 1)) | none => some (t + 1) } ∧
      (∀ j, j ≠ i.stn.val → u.station j = s.station j) ∧
      (s.bit .stnSeqFault i.stn 31 = false →
        u.reg .stnSeqFault i.stn = 2 ^ 31 + b2n (s.stream i.stn i.strm).bank * 2 ^ 30 + i.strm.code * 2 ^ 28 + code * 2 ^ 24
          + cause * 2 ^ 20 + slot * 2 ^ 17 + b2n (s.stream i.stn i.strm).inRtn * 2 ^ 16 + t % 2 ^ 16) ∧
      (s.bit .stnSeqFault i.stn 31 = true → u.reg .stnSeqFault i.stn = s.reg .stnSeqFault i.stn)

/-- REPEAT opens a loop on the next word with its length, its further iterations and its counter register at 0; RET goes back to the word
after the call and closes the loops that the routine left open; WAITEV holds the stream for its event from this tick on; SWAPBANK arms the
swap of each stream of its mask, and with MAP that of the map. Nothing else changes. A WAIT word, which names no slot, occupies its stream
for TAG + 1 ticks and changes nothing else of its station but its place in the program, its loops and its counts. -/
def Obligations.SequencingOpsAndWaitWords : Prop :=
  (∀ (s : State) (i : Issue) (t : Nat), s.opens i .c t = true →
    let x := (s.station i.stn).opened i .c t
    let y := x.stream i.strm
    (∀ o : RepeatOp, ∃ u, exec (.rept i o) s = .next u ∧ s.WordFrame u i [] ∧
      u.station i.stn = x.setStream i.strm { y with
        reps := ⟨y.pc, o.len.toNat + 1, 0, o.cnt.toNat, o.kr.toNat⟩ :: y.reps, k := Tbl.put (fun _ => 0) y.k o.kr.toNat 0 }) ∧
    (∀ r rs, y.rets = r :: rs → ∃ u, exec (.ret i) s = .next u ∧ s.WordFrame u i [] ∧
      u.station i.stn = x.setStream i.strm { y with rets := rs, pc := r.pc, reps := y.reps.drop (y.reps.length - r.depth) }) ∧
    (∀ ev, ∃ u, exec (.waitev i ev) s = .next u ∧ s.WordFrame u i [] ∧
      u.station i.stn = x.setStream i.strm { y with wait := some ⟨ev, t, none⟩ }) ∧
    (∀ sm map entry, ∃ u, exec (.swapbank i sm map entry) s = .next u ∧ s.WordFrame u i [] ∧
      (u.station i.stn).ownPend = (x.ownPend || map) ∧
      (∀ m : Strm, (u.station i.stn).stream m =
        if bitOf sm.toNat m.idx then { x.stream m with swap := some entry.toNat } else x.stream m) ∧
      (let z := u.station i.stn
       z = { x with ownPend := z.ownPend, f := z.f, b := z.b, u := z.u }))) ∧
  (∀ (s : State) (i : Issue) (t : Nat),
    s.issueTick i.stn = some t → hdrSlots i.hdr = [] → (s.stream i.stn i.strm).sameWord i.hdr t = false →
    s.ready i.stn i.strm t = true → s.brkHits i.stn i.strm i.hdr = false → s.wordFails i t = none →
    ∃ u, exec (.waitWord i) s = .next u ∧
      u.station i.stn = (s.station i.stn).modStream i.strm (fun y => y.advance i.hdr t true) ∧
      (u.stream i.stn i.strm).next = t + 1 + hdrTag i.hdr ∧ s.WordFrame u i [])

/-- CALL enters its routine on the next tick: a ROM routine runs as one and the stream's next word waits for its declared duration, any other
pushes the return address and its loop depth. A word whose CALL names a routine with no valid entry, or with one that does not cover the
die's latency profile, and that passes its other checks, fails them with LATENCY_PROFILE: code 0x9, cause 0xA, slot C. -/
def Obligations.CallEntersOrFaults : Prop :=
  (∀ (s : State) (i : Issue) (id : BitVec 10) (t : Nat), s.opens i .c t = true →
    let x := (s.station i.stn).opened i .c t
    let y := x.stream i.strm
    let r := s.rtn (dieOf i.stn) id.toNat
    ∃ u, exec (.call i id) s = .next u ∧ s.WordFrame u i [] ∧
      u.station i.stn = x.setStream i.strm (if id.toNat < 256 then { y with rom := some ⟨id.toNat, t, 0, 0, none⟩, next := t + 1 + r.dur }
        else { y with rets := ⟨y.pc, y.reps.length⟩ :: y.rets, pc := r.entry })) ∧
  (∀ (s : State) (i : Issue) (id t : Nat), i.callId = some id → i.encOk = true →
    (hdrSchk i.hdr = 0 ∨ hdrSchk i.hdr = i.strm.code) → s.unowned i.stn i.strm i.hdr t = none →
    (s.wordFails i t = some (9, 10, 5) ↔
      ((s.rtn (dieOf i.stn) id).valid = false ∨
        (if id < 256 then (s.rtn (dieOf i.stn) id).profile.testBit (s.fld .shtCtrl (dieOf i.stn) 9 8 - 1) = false
         else (s.rtn (dieOf i.stn) id).profile ≠ s.fld .shtCtrl (dieOf i.stn) 9 8))))

/-- EPOCH marks a boundary of its station 32 ticks on in die scope, 64 in package scope, and sends the epoch unit of its die, in package scope
those of all four dies, one flit with the EID, the scope and the tick, which says whether an earlier boundary of the station was still to
come. PHASE sets the stream's layer tag and Lens enable at the end of its tick; with MK a marker leaves with the PID, END and the tick. Where
the tag changes, and only there, the live record is posted under the old tag and cleared, at once if no value of an op issued under it is
still on its way. -/
def Obligations.EpochAndPhaseMarkTheirStation : Prop :=
  (∀ (s : State) (i : Issue) (pkg : Bool) (eid : BitVec 16) (t : Nat), s.opens i .c t = true →
    let x := (s.station i.stn).opened i .c t
    ∃ u, exec (.epoch i pkg eid) s = .next u ∧
      u.station i.stn = { x with bounds := x.bounds ++ [⟨t + (if pkg then 64 else 32), pkg, eid, i.strm, t⟩] } ∧
      ((if pkg then [0, 1, 2, 3] else [dieOf i.stn]).foldl (fun v k => v.modDie k (fun d =>
        { d with epochs := d.epochs ++ [⟨i.stn, i.strm, t, pkg, eid, !(s.station i.stn).bounds.isEmpty⟩] })) s).WordFrame u i []) ∧
  (∀ (s : State) (i : Issue) (o : PhaseOp) (t : Nat), s.opens i .c t = true →
    let x := (s.station i.stn).opened i .c t
    ∃ u, exec (.phase i o) s = .next u ∧
      u.station i.stn = { x with late := x.late ++ [⟨t, .phase, .phase i.strm o.ltag o.le⟩] } ∧
      u.out = (if o.mark then [.marker (dieOf i.stn) o.pid o.fin t] else []) ++ s.out ∧
      (∀ j, j ≠ i.stn.val → u.station j = s.station j)) ∧
  (∀ (s : State) (n : Stn) (m : Strm) (tag : BitVec 12) (le : Bool),
    let u := s.land n (.phase m tag le)
    let x := s.station n
    let y := u.station n
    let old := (s.stream n m).ltag
    (u.stream n m).ltag = tag ∧ (u.stream n m).lens = le ∧ u.regs = s.regs ∧ (∀ j, j ≠ n.val → u.station j = s.station j) ∧
    (old = tag → u.dies = s.dies ∧ y = x.modStream m (fun z => { z with lens := le })) ∧
    (old ≠ tag → y.lensOf m = LensRec.empty ∧
      (x.owesLens m old = false → (u.die (dieOf n)).posts = (s.die (dieOf n)).posts ++ [⟨old, m, x.lensOf m⟩] ∧ y.lensOld = x.lensOld) ∧
      (x.owesLens m old = true → (∀ o ∈ x.lensOld, o.strm ≠ m ∨ o.tag ≠ old) →
        u.dies = s.dies ∧ y.lensOld = x.lensOld ++ [⟨m, old, x.lensOf m⟩])))

/-- A wait whose event has been seen ends on a tick that is a whole number of frames after its op's next tick: the stream's next word issues
from that tick. A break that hits at the word a stream is to issue stops the station, in station scope, on that word's tick, before it issues,
and sets HIT, also where another stream's break of the same tick has stopped the station already. In wider scopes, found up to the freeze
horizon ahead by the word's tag or by the count of the words before it, it asks for a freeze of the dies of the scope that falls on the word's
tick, and the freeze sets HIT. The word itself is not stopped a second time. -/
def Obligations.WaitsResumeAndBreaksStop : Prop :=
  (∀ (s : State) (n : Stn) (m : Strm) (u : Nat) (w : WaitSt), s.issueTick n = some u → (s.stream n m).wait = some w →
    (∃ v, w.seen = some v ∧ v < u) → w.at_ + 1 ≤ u → (u - (w.at_ + 1)) % 64 = 0 →
    ∃ t, exec (.waitevResume n m) s = .next t ∧ s.StationOnly t n ∧
      t.station n = (s.station n).modStream m (fun y => { y with wait := none, next := u })) ∧
  (∀ (s : State) (i : Issue) (ahead t : Nat), s.brkTick i.stn = some t → (s.stream i.stn i.strm).skip = none →
    (if ahead = 0 then s.brkHits i.stn i.strm i.hdr = true ∧ s.wordDue i.stn i.strm i.hdr t = true
      else s.brkAhead i.stn i.strm i.hdr ahead t = true) →
    (s.brkScope i.stn i.strm = 0 → ahead = 0 → ∃ u, exec (.breakHit i ahead) s = .next u ∧
      (u.station i.stn).run = .brk ∧ (u.stream i.stn i.strm).skip = some t ∧ (u.stream i.stn i.strm).pc = (s.stream i.stn i.strm).pc ∧
      u.reg (brkReg i.strm) i.stn = s.reg (brkReg i.strm) i.stn ||| 2 ^ 31) ∧
    (s.brkScope i.stn i.strm ≠ 0 → ahead ≤ brkHorizon (s.brkScope i.stn i.strm) → ∃ u, exec (.breakHit i ahead) s = .next u ∧
      u.station i.stn = (s.station i.stn).modStream i.strm (fun y => { y with skip := some (t + ahead) }) ∧ u.regs = s.regs ∧
      (∀ d, u.die d = if d ∈ brkDies (s.brkScope i.stn i.strm) (dieOf i.stn)
        then { s.die d with timed := (s.die d).timed ++ [(9, s.tickLen (regionOf i.stn) * (s.ref (regionOf i.stn) + ahead))] }
        else s.die d))) ∧
  (∀ (s : State) (n : Stn) (m : Strm) (t : Nat), s.tickOf n = some t → (s.station n).run ≠ .brk → (s.stream n m).skip = some t →
    (s.hitBreaks n).reg (brkReg m) n = s.reg (brkReg m) n ||| 2 ^ 31 ∧ (s.hitBreaks n).stations = s.stations)

/-- The word of a ROM routine that a live stream has to issue issues on its tick where the active map gives its stream the word's slots: it is
traced and counted. With the routine's last word, its effect comes about, with S0 and S1 as its first tick read them: TILES_ZERO sets every
tile register to +0 and VM1 to VM3 to 0; TIE_SUM_TILE adds, in entry order, tile S1 of the gradient buffer into tile S0; LENS_CLEAR and
LENS_SELECT act on the Lens table from the tag in S0, once no post that they wait for is pending, and until then ask for a shutter. A word
whose slot the map does not give to its stream fails on its own tick with the cause of R161, and the routine does nothing more. Which words a
routine has, and that its effect comes about with the last of them, is the model's choice (log entries 9, 19 and 71). -/
def Obligations.RomRoutinesRun : Prop :=
  ∀ (s : State) (n : Stn) (t : Nat) (z : RomWord) (r : RomSt) (w : BitVec 16 × Nat),
    let m := z.strm
    s.issueTick n = some t → (s.stream n m).rom = some r → (s.stream n m).romWord t = some w →
    (s.brkHits n m w.1 = false ∨ (s.stream n m).skips t = true) →
    let v := s.romIssue n m t w
    let x := (s.station n).modStream m (·.romStep t)
    (s.unowned n m w.1 t = none →
      v.station n = x ∧ (∀ j, j ≠ n.val → v.station j = s.station j) ∧ v.stackMem = s.stackMem ∧
      (t + 1 < (s.stream n m).next → ∀ c, romCmd n z r.id = some c → exec c s = .next v) ∧
      ((s.stream n m).next ≤ t + 1 →
        (r.id = 0x001 → ∃ u, exec (.tilesZero n m) s = .next u ∧ v.StationOnly u n ∧
          u.station n = { x with tiles := [], masks := [] } ∧
          (∀ k, (u.station n).tile k = Tile.zero) ∧ (∀ q k, q ≠ 0 → (u.station n).mask q k = false)) ∧
        (r.id = 0x030 → z.ecc = .clean → ∃ u, exec (.tieSumTile n z) s = .next u ∧ v.StationOnly u n ∧
          u.station n = x.tieSum (r.s0.toNat % 256) (r.s1.toNat % 256)) ∧
        (r.id = 0x021 → s.clearWaits n r = [] → v.lensStale (dieOf n) r.s0.toNat = false →
          exec (.lensClear n z) s = .next (v.lensClear (dieOf n) r.s0.toNat z.xs)) ∧
        (r.id = 0x020 → s.selectWaits n r = [] → v.selectStale n r.s0.toNat = false →
          exec (.lensSelect n z) s = .next (v.lensSelect n r.s0.toNat r.s1.toNat z.xs)) ∧
        (r.id = 0x021 → s.clearWaits n r ≠ [] → exec (.lensClear n z) s = .next ((s.clearWaits n r).foldl State.lensAsk s)) ∧
        (r.id = 0x020 → s.selectWaits n r ≠ [] → exec (.lensSelect n z) s = .next ((s.selectWaits n r).foldl State.lensAsk s)))) ∧
    (∀ sl : Slot, s.unowned n m w.1 t = some sl → ∀ c, romCmd n z r.id = some c →
      ∃ u, exec c s = .next u ∧ (u.station n).tiles = (s.station n).tiles ∧ (u.station n).grad = (s.station n).grad ∧
        u.stackMem = s.stackMem ∧ (u.stream n m).rom = none ∧ (u.station n).stopAt ≠ none ∧
        (s.bit .stnSeqFault n 31 = false → u.fld .stnSeqFault n 27 24 = 4 ∧ u.fld .stnSeqFault n 23 20 = 1 ∧
          u.fld .stnSeqFault n 19 17 = sl.idx ∧ u.fld .stnSeqFault n 15 0 = t % 2 ^ 16))

/-! ### The array -/

/-- MLD with a legal format and a free array port sets out to load its chunks from the address that its register holds, holds the port until the
last chunk is written, and changes nothing else. Its chunk j is read from the station store on tick t + j and written two ticks later under
profile 1, one under profile 2, if it is one of the op's. -/
def Obligations.MldLoadsChunks : Prop :=
  (∀ (s : State) (i : Issue) (o : MldOp) (t : Nat), s.opens i .m t = true → wclass o.fmt.toNat ≠ none →
    (s.station i.stn).portBusy ≤ t →
    let x := (s.station i.stn).opened i .m t
    ∃ u, exec (.mld i o) s = .next u ∧ s.WordFrame u i [] ∧
      u.station i.stn = { x with
        portBusy := t + (if s.profile1 (dieOf i.stn) then 3 else 2) + o.len.toNat
        mq := x.mq ++ [⟨t, s.sreg i.stn i.strm o.src.toNat, o.dst.toNat, o.len.toNat, o.kind, !o.kind && isFp6 o.fmt.toNat,
          s.profile1 (dieOf i.stn)⟩] }) ∧
  (∀ (x : Station) (f : MFlight) (j : Nat),
    (j ≤ f.len → (f.reads x (f.t + j)).map (·.wr) = f.chunk x j ∧ ∀ w ∈ f.reads x (f.t + j), w.due = f.t + j + (if f.p1 then 2 else 1)) ∧
    (f.len < j → f.reads x (f.t + j) = []) ∧ (f.done (f.t + j) = true ↔ f.len ≤ j))

/-- What the chunks of an MLD write when they land, from the store as it held when the chunk was read. The element chunks of a format that is
not MXFP6: byte b of lane i of chunk c is byte 256c + 16i + b from the source address, whose low eight bits are ignored, and lands at offset
16(DST + c) modulo 4,096 of the lane. Those of an MXFP6 format: lane i of chunk c takes the 12 bytes at 192c + 12i from the source address,
whose low six bits are ignored, and byte b written is its b-th six-bit element, zero extended. Scale chunks (KIND 1): the same bytes as the
elements of the other formats, at offset 16(DST + c) modulo 256 of the lane's scale area. Other bytes of the area written keep their values,
and the other area, the tile registers and the control registers keep all. -/
def Obligations.MldPlacesElements : Prop :=
  ∀ (s : State) (n : Stn) (x : Station) (f : MFlight) (c lane k : Nat), lane < 16 →
    let u := (f.chunk x c).foldl (fun v w => v.land n w) s
    (u.station n).tiles = (s.station n).tiles ∧ (u.station n).store = (s.station n).store ∧ u.regs = s.regs ∧
    (f.scale = false → f.six = false → k < 4096 →
      (u.station n).sib.rd (4096 * lane + k) =
        if k / 16 = (f.dst + c) % 256 then x.store.rd ((f.a / 256 * 256 + 256 * c + 16 * lane + k % 16) % storeSize)
        else (s.station n).sib.rd (4096 * lane + k)) ∧
    (f.scale = false → f.six = true → k < 4096 →
      (u.station n).sib.rd (4096 * lane + k) =
        if k / 16 = (f.dst + c) % 256 then
          (let v := leNat ((List.range 12).map (fun q => x.store.rd ((f.a / 64 * 64 + 192 * c + 12 * lane + q) % storeSize)))
           BitVec.ofNat 8 (v / 2 ^ (6 * (k % 16)) % 64))
        else (s.station n).sib.rd (4096 * lane + k)) ∧
    (f.scale = false → (u.station n).sibScale = (s.station n).sibScale) ∧
    (f.scale = true → f.six = false → k < 256 →
      (u.station n).sibScale.rd (256 * lane + k) =
        if k / 16 = (f.dst + c) % 16 then x.store.rd ((f.a / 256 * 256 + 256 * c + 16 * lane + k % 16) % storeSize)
        else (s.station n).sibScale.rd (256 * lane + k)) ∧
    (f.scale = true → (u.station n).sib = (s.station n).sib)

/-- MMA without a fault executes once: the array changes as R48 to R51 say, an enabled counter pair counts the MMA and its active rows, and
nothing else changes. -/
def Obligations.MmaExecutes : Prop :=
  ∀ (s : State) (i : Issue) (o : MmaOp) (t : Nat), s.opens i .m t = true → (s.station i.stn).mmaFault o i.strm t = none →
    ∃ u, exec (.mma i o) s = .next u ∧
      u.station i.stn = ((s.station i.stn).opened i .m t).mma o i.strm t ((wclass o.fmtW.toNat).getD 0) ∧
      s.WordFrame u i [Reg.at .stnMmaCount i.stn, Reg.at .stnMmaCount i.stn + 4, Reg.at .stnRowTicks i.stn,
        Reg.at .stnRowTicks i.stn + 4] ∧
      (s.bit .stnArrayCtrl i.stn 2 = true → u.pair .stnMmaCount i.stn = (s.pair .stnMmaCount i.stn + 1) % 2 ^ 64 ∧
        u.pair .stnRowTicks i.stn = (s.pair .stnRowTicks i.stn + o.rows.toNat + 1) % 2 ^ 64) ∧
      (s.bit .stnArrayCtrl i.stn 2 = false → u.pair .stnMmaCount i.stn = s.pair .stnMmaCount i.stn ∧
        u.pair .stnRowTicks i.stn = s.pair .stnRowTicks i.stn)

/-- What an MMA does to block registers and accumulators. Let b be the block register of a cell after the products of this MMA: those of an
active row of a valid word enter it. If the MMA does not end a block, b is the new block register and the accumulators stand. If it ends
one, each active row folds b into its accumulator and its block register becomes zero, and other rows keep both. -/
def Obligations.MmaProductsAndFold : Prop :=
  ∀ (x : Station) (o : MmaOp) (m : Strm) (t cls k : Nat), k < 1024 →
    let g := o.group.toNat
    let w := x.tap o.latch.toNat
    let old := (x.blks g).getD k Blk.zero
    let active := decide (k / 64 ≤ o.rows.toNat)
    let b := if w.valid && active then
        old.step o.fmtS.toNat o.fmtW.toNat cls (x.laneUnit (k / 64) o.kbase.toNat)
          (bitsOf w.data.toNat (16 * (k % 64) + 15) (16 * (k % 64)))
      else old
    let y := x.mma o m t cls
    let sc := (if w.valid && isMx o.fmtW.toNat then x.takeScales g cls o.kbase.toNat w else x).scales o cls (k / 64) (k % 64)
    (mmaEnds o cls = false → (y.blks g).getD k Blk.zero = b ∧ y.group g = x.group g) ∧
    (mmaEnds o cls = true → active = true → (y.blks g).getD k Blk.zero = Blk.zero ∧
      (y.group g).el k = foldAcc ((x.group g).el k) b (sc.1 == 255 || sc.2 == 255) (scaleExp sc.1 + scaleExp sc.2)) ∧
    (mmaEnds o cls = true → active = false → (y.blks g).getD k Blk.zero = old ∧ (y.group g).el k = (x.group g).el k) ∧
    (∀ g', g' ≠ g → y.group g' = x.group g' ∧ y.blks g' = x.blks g')

/-- MDRN that is neither early nor meets a held window drains its group: the drain path is held for 16 ticks, the group's values go into the
drain with the destination and the fused operation, CLR clears the group, and nothing else changes. Row i then reads its row of TS on tick
t + 1 + i and is written, with the flags of its operations, on tick t + 2 + i (profile 2: t + 1 + i) to a tile register, on the tick after
that to the gradient buffer. In settle mode a station that finds, a freeze horizon ahead, an MDRN that would be early asks for a freeze on
that tick, and the MDRN of that tick is not early. -/
def Obligations.MdrnDrainsOrSettles : Prop :=
  (∀ (s : State) (i : Issue) (o : MdrnOp) (t : Nat), s.opens i .m t = true →
    (s.station i.stn).mdrnFault o (s.bit .stnArrayCtrl i.stn 0) t = none →
    let x := (s.station i.stn).opened i .m t
    let g := o.group.toNat
    ∃ u, exec (.mdrn i o) s = .next u ∧ s.WordFrame u i [] ∧
      u.station i.stn = { (if o.clr then x.clearGroup g else x) with
        drain := some (g, t + 16)
        dq := x.dq ++ [⟨t, x.group g, o.dk, if o.dk then o.dst.toNat else o.dst.toNat % 32, o.fuse.toNat, o.ts.toNat,
          s.profile1 (dieOf i.stn), s.lensSrc i.stn i.strm, [], []⟩] }) ∧
  (∀ (f : DFlight) (xs : Nat → Station) (i : Nat), i < 16 → f.tsv = [] → f.ent = [] →
    let d := (if f.p1 then 2 else 1) + (if f.grad then 1 else 0) + i
    let h := (List.range (d + 1)).foldl (fun h k => h.capture (xs k) (f.t + k)) f
    let val := fun (j : Nat) => fuseVal f.fuse (f.vals.el (64 * i + j)) (((xs (i + 1)).tile f.ts).el (64 * (if f.fuse = 3 then 0 else i) + j))
    let vs := (List.range 64).map val
    let e := if f.p1 then i + 1 else i
    (h.writes (f.t + d)).map (·.wr) =
      [if f.grad then .grad ((List.range 64).map (fun j => (1024 * f.dst + 64 * i + j,
          addW48 ((xs e).entry (1024 * f.dst + 64 * i + j)) (fp32.decode (val j).1))))
       else .els f.dst ((List.range 64).map (fun j => (64 * i + j, BitVec.ofNat 32 (val j).1))),
       .flags f.src.strm (orFlags vs).code, .drained f.src (vs.map (·.1))]) ∧
  (∀ (x : Station) (o : MdrnOp) (t : Nat), x.drainHeld t = false → x.settleAt.contains t = true →
    ((x.win o.group.toNat).cls = none ∨ (x.win o.group.toNat).till ≠ none) → x.mdrnFault o true t = none) ∧
  (∀ (s : State) (n : Stn) (t : Nat), s.liveTick n = some t → s.bit .stnArrayCtrl n 0 = true →
    let h := s.horizon (dieOf n)
    let l := s.lookAhead n (h + 1) t (s.station n)
    (∃ e ∈ l, e.tick = t + h ∧ e.isOp 2 = true ∧ mmaBefore l e = true) →
    ((s.settleAsk n).station n).settleAt.contains (t + h) = true ∧
    ∀ d ∈ s.scope (dieOf n), ((s.settleAsk n).die d).timed = (s.die d).timed ++
        [(8, s.tickLen (regionOf n) * (s.ref (regionOf n) + h))])

/-- MCLR of groups that no chain and no drain holds sets every accumulator, block register and column-scale latch of each group in its mask to
zero and ends its open block; other groups and everything else keep their values. MCLR of a group that a chain or a drain holds raises
ACC_CONFLICT, code 1, and clears nothing. -/
def Obligations.MclrClearsGroups : Prop :=
  ∀ (s : State) (i : Issue) (mask : BitVec 4) (t : Nat), s.opens i .m t = true →
    let held := ∃ g ∈ maskGroups mask, ((s.station i.stn).win g).chain t = true ∨ (s.station i.stn).draining g t = true
    let x := (s.station i.stn).opened i .m t
    (¬ held → ∃ u, exec (.mclr i mask) s = .next u ∧ s.WordFrame u i [] ∧
      (let y := u.station i.stn
       y = { x with acc := y.acc, blk := y.blk, cscale := y.cscale, grp := y.grp } ∧
       (∀ g < 4, bitOf mask.toNat g = true →
         y.group g = Tile.zero ∧ y.blks g = blkZeros ∧ (∀ j < 64, y.colScale g j = 0) ∧ y.win g = Grp.free) ∧
       (∀ g < 4, bitOf mask.toNat g = false →
         y.group g = x.group g ∧ y.blks g = x.blks g ∧ (∀ j < 64, y.colScale g j = x.colScale g j) ∧ y.win g = x.win g))) ∧
    (held → ∃ u, exec (.mclr i mask) s = .next u ∧ (∀ j, j ≠ i.stn.val → u.station j = s.station j) ∧ u.ring = s.ring ∧
      (let y := u.station i.stn
       y = { x with stopAt := y.stopAt } ∧ y.stopAt ≠ none) ∧
      (s.bit .stnArrayFault i.stn 31 = false → u.fld .stnArrayFault i.stn 27 24 = 1))

/-- An array op that its checks suppress changes no array state: the fault is captured if VALID is 0, with its code, stream, group, op and
tick, and the station stops issuing on the next tick. A V op that finds the engine occupied is suppressed: no tile, mask, scalar or flag
changes and nothing is in flight for it, SLOT_CONFLICT with cause 0x3 is captured while VALID is 0, and the station stops issuing on the next
tick. GTAP, GEJ with TAP and GPASS that meet a word that fails its parity or carries POISON latch and copy nothing: the word passes on
poisoned, RING_ERR captures it while VALID is 0 (kind 1 for parity, else 2 for POISON; which of the two where both hold is the model's choice,
log entry 72), and the station stops issuing on the next tick. -/
def Obligations.FaultsSuppressTheirOp : Prop :=
  (∀ (s : State) (i : Issue) (t : Nat), s.opens i .m t = true →
    let stopped := fun (u : State) (code group op : Nat) =>
      u.station i.stn = { (s.station i.stn).opened i .m t with
        stopAt := match (s.station i.stn).stopAt with | some v => some (min v (t + 1)) | none => some (t + 1) } ∧
      (s.bit .stnArrayFault i.stn 31 = false → u.reg .stnArrayFault i.stn =
        2 ^ 31 + (code * 2 ^ 24 + i.strm.code * 2 ^ 22 + group * 2 ^ 20 + op * 2 ^ 18 + t % 2 ^ 16) % 2 ^ 31) ∧
      (s.bit .stnArrayFault i.stn 31 = true → u.reg .stnArrayFault i.stn = s.reg .stnArrayFault i.stn)
    (∀ o : MldOp, wclass o.fmt.toNat = none → ∃ u, exec (.mld i o) s = .next u ∧ stopped u 3 0 0) ∧
    (∀ o : MldOp, wclass o.fmt.toNat ≠ none → t < (s.station i.stn).portBusy → ∃ u, exec (.mld i o) s = .next u ∧ stopped u 1 0 0) ∧
    (∀ (o : MmaOp) (code : Nat), (s.station i.stn).mmaFault o i.strm t = some code →
      ∃ u, exec (.mma i o) s = .next u ∧ stopped u code o.group.toNat 1) ∧
    (∀ (o : MdrnOp) (code : Nat), (s.station i.stn).mdrnFault o (s.bit .stnArrayCtrl i.stn 0) t = some code →
      ∃ u, exec (.mdrn i o) s = .next u ∧ stopped u code o.group.toNat 2) ∧
    (∀ (mask : BitVec 4) (g : Nat),
      (maskGroups mask).find? (fun g => ((s.station i.stn).win g).chain t || (s.station i.stn).draining g t) = some g →
      ∃ u, exec (.mclr i mask) s = .next u ∧ stopped u 1 g 3)) ∧
  (∀ (s : State) (c : Instr) (i : Issue) (t : Nat), slotOf c = some (i, .v) → s.opens i .v t = true →
    t < (s.station i.stn).vBusy →
    ∃ u, exec c s = .next u ∧
      u.station i.stn = { (s.station i.stn).opened i .v t with
        stopAt := match (s.station i.stn).stopAt with | some v => some (min v (t + 1)) | none => some (t + 1) } ∧
      u.reg .vecFlags i.stn = s.reg .vecFlags i.stn ∧
      (s.bit .stnSeqFault i.stn 31 = false → u.bit .stnSeqFault i.stn 31 = true ∧ u.fld .stnSeqFault i.stn 27 24 = 4 ∧
        u.fld .stnSeqFault i.stn 23 20 = 3 ∧ u.fld .stnSeqFault i.stn 19 17 = 1 ∧ u.fld .stnSeqFault i.stn 15 0 = t % 2 ^ 16)) ∧
  (∀ (s : State) (i : Issue) (t : Nat), s.opens i .g t = true → s.ringFree i.stn = true →
    let k := s.stnKey i.stn
    let w := s.slotAt k
    let halts := fun (c : Instr) => ∃ u, exec c s = .next u ∧ u.slotAt k = w.poisoned ∧
      (u.station i.stn).latch = (s.station i.stn).latch ∧ (u.station i.stn).store = (s.station i.stn).store ∧
      (∀ l ∈ (u.station i.stn).late, l ∉ (s.station i.stn).late → ∃ m n v, l.wr = .sreg m n v) ∧
      (u.station i.stn).stopAt =
        (match (s.station i.stn).stopAt with | some v => some (min v (t + 1)) | none => some (t + 1)) ∧
      (s.bit .ringErr (dieOf i.stn) 31 = false → u.bit .ringErr (dieOf i.stn) 31 = true ∧
        u.fld .ringErr (dieOf i.stn) 30 28 = if w.ok then 2 else 1)
    w.bad = true →
    (∀ o, halts (.gtap i o)) ∧ (∀ o : GejOp, o.tap = true → halts (.gej i o)) ∧ (∀ o, halts (.gpass i o)))

/-! ### The vector engine -/

/-- The element-wise ops VADD, VMUL, VFMA, VMAX, VEXP and VRSQ on a free engine occupy it for four ticks and set out with their sources; nothing
else changes on their issue tick. Pass r, on tick t + r, reads quad r of the sources under their stride modes (VFMA's third source at full
stride) and of the mask register. Quad r is written on tick t + 4 + r under profile 1 and t + 3 + r under profile 2, for VEXP and VRSQ t + 8 + r
and t + 6 + r: each lane that the mask selects gets the op's result on the elements read for it, no other lane is written, and the flags of
the lanes written are added to the stream's. -/
def Obligations.ElementwiseOpsWriteSelectedLanes : Prop :=
  (∀ (s : State) (i : Issue) (o : VOp) (t : Nat), s.opens i .v t = true → (s.station i.stn).vBusy ≤ t →
    let x := (s.station i.stn).opened i .v t
    let does := fun (c : Instr) (k : VKind) =>
      ∃ u, exec c s = .next u ∧ s.WordFrame u i [] ∧
        u.station i.stn = { x with
          vBusy := t + 4
          vq := x.vq ++ [s.vFlight i t k o.dst.toNat 0 o.sa.toNat o.sb.toNat (o.x.toNat % 32) o.sta.toNat o.stb.toNat o.msk.toNat
            (o.x.toNat % 16) false] }
    does (.vadd i o) (.add (bitOf o.x.toNat 0)) ∧ does (.vmul i o) .mul ∧ does (.vfma i o) (.fma (bitOf o.x.toNat 5)) ∧
    does (.vmax i o) (.max (bitOf o.x.toNat 0)) ∧ does (.vexp i o) (.exp (bitOf o.x.toNat 0)) ∧
    does (.vrsq i o) (.rsq (bitOf o.x.toNat 0))) ∧
  (∀ (f : VFlight) (xs : Nat → Station) (r : Nat), r < 4 → f.a = [] → f.b = [] → f.c = [] → f.m = [] →
    let opA := fun (k : Nat) => (((xs (k / 256)).tile f.sa).el (strideAt f.sta k)).toNat
    let opB := fun (k : Nat) => (((xs (k / 256)).tile f.sb).el (strideAt f.stb k)).toNat
    let opC := fun (k : Nat) => (((xs (k / 256)).tile f.sc).el k).toNat
    let ks := ((List.range 256).map (256 * r + ·)).filter (fun k => (xs r).mask f.msk k)
    let gives := fun (w : Nat) (g : Nat → Res) =>
      (((List.range (w + r + 1)).foldl (fun h k => h.capture (xs k) (f.t + k)) f).writes (f.t + (w + r))).map (·.wr) =
        [.els f.dst (ks.map (fun k => (k, BitVec.ofNat 32 (g k).1))), .flags f.src.strm (orFlags (ks.map g)).code]
    let w := if f.p1 then 4 else 3
    (∀ sub, f.kind = .add sub → gives w (fun k => addRes sub (opA k) (opB k))) ∧
    (f.kind = .mul → gives w (fun k => mul32 (opA k) (opB k))) ∧
    (∀ neg, f.kind = .fma neg → gives w (fun k => fmaRes neg (opA k) (opB k) (opC k))) ∧
    (∀ mn, f.kind = .max mn → gives w (fun k => (maxBits mn (opA k) (opB k), Flg.none))) ∧
    (∀ b2, f.kind = .exp b2 → gives (2 * w) (fun k => expRes b2 (opA k))) ∧
    (∀ rcp, f.kind = .rsq rcp → gives (2 * w) (fun k => rsqRes rcp (opA k))))

/-- VCMP writes quad r of the mask register that its destination names on tick t + 3 + r, or t + 2 + r under profile 2: a lane that the mask does
not select writes 0, and a write to VM0 is discarded. VSEL writes every lane of its destination from the source its mask selects, on the ticks
of VADD. VCMPR packs the selected elements, in position order, into its destination from the position its scalar register holds at issue on,
and VEXPD takes elements from that position on to the selected positions, +0 past the tile's end. Both write on the one tick t + 14, or t + 12,
leave every other element alone, advance the register by the number of selected positions, at most to 1,024, set CPX where it would pass
1,024, and hold the engine for eight ticks. -/
def Obligations.CompareSelectCompressExpand : Prop :=
  (∀ (s : State) (i : Issue) (o : VOp) (t : Nat), s.opens i .v t = true → (s.station i.stn).vBusy ≤ t →
    let x := (s.station i.stn).opened i .v t
    let does := fun (c : Instr) (k : VKind) (dst occ : Nat) =>
      ∃ u, exec c s = .next u ∧ s.WordFrame u i [] ∧
        u.station i.stn = { x with
          vBusy := t + occ
          vq := x.vq ++ [s.vFlight i t k dst 0 o.sa.toNat o.sb.toNat (o.x.toNat % 32) o.sta.toNat o.stb.toNat o.msk.toNat
            (o.x.toNat % 16) false] }
    does (.vcmp i o) (.cmp (o.x.toNat % 8)) (o.dst.toNat % 4) 4 ∧ does (.vsel i o) .sel o.dst.toNat 4 ∧
    does (.vcmpr i o) .compress o.dst.toNat 8 ∧ does (.vexpd i o) .expand o.dst.toNat 8 ∧
    ((s.vFlight i t .compress o.dst.toNat 0 o.sa.toNat o.sb.toNat (o.x.toNat % 32) o.sta.toNat o.stb.toNat o.msk.toNat
      (o.x.toNat % 16) false).pos = s.sreg i.stn i.strm (o.x.toNat % 16) % 2048)) ∧
  (∀ (f : VFlight) (xs : Nat → Station) (r : Nat), r < 4 → f.a = [] → f.b = [] → f.c = [] → f.m = [] →
    let a := fun (k : Nat) => ((xs (k / 256)).tile f.sa).el (strideAt f.sta k)
    let b := fun (k : Nat) => ((xs (k / 256)).tile f.sb).el (strideAt f.stb k)
    let m := fun (k : Nat) => (xs (k / 256)).mask f.msk k
    let seen := fun (w : Nat) => (List.range (w + 1)).foldl (fun h k => h.capture (xs k) (f.t + k)) f
    (∀ pred, f.kind = .cmp pred → let w := (if f.p1 then 3 else 2) + r
      ((seen w).writes (f.t + w)).map (·.wr) = [.mask f.dst ((List.range 256).map (fun q =>
        (256 * r + q, m (256 * r + q) && predOf pred (a (256 * r + q)).toNat (b (256 * r + q)).toNat)))]) ∧
    (f.kind = .sel → let w := (if f.p1 then 4 else 3) + r
      ((seen w).writes (f.t + w)).map (·.wr) = [.els f.dst ((List.range 256).map (fun q =>
        (256 * r + q, if m (256 * r + q) then a (256 * r + q) else b (256 * r + q)))), .flags f.src.strm 0]) ∧
    (let w := if f.p1 then 14 else 12
     let sel := (List.range 1024).filter m
     let n := sel.length
     let packs := fun (ok : Nat → Word → Prop) => ∃ els, ((seen w).writes (f.t + w)).map (·.wr) =
        [.els f.dst els, .sreg f.src.strm f.so (BitVec.ofNat 32 (min (f.pos + n) 1024)),
         .flags f.src.strm (if 0 < n ∧ 1024 < f.pos + n then 16 else 0)] ∧ ∀ k v, (k, v) ∈ els ↔ ok k v
     (f.kind = .compress → packs (fun k v => f.pos ≤ k ∧ k < f.pos + n ∧ k < 1024 ∧ v = a (sel.getD (k - f.pos) 0))) ∧
     (f.kind = .expand → packs (fun k v => k < 1024 ∧ m k = true ∧
        v = if f.pos + ((List.range k).filter m).length < 1024 then a (f.pos + ((List.range k).filter m).length) else 0)))) ∧
  (∀ (x : Station) (n r k : Nat) (g : Nat → Bool), k < 1024 → r < 4 →
    let y := x.setMask n ((List.range 256).map (fun q => (256 * r + q, g q)))
    y.tiles = x.tiles ∧ (n = 0 → y = x ∧ y.mask 0 k = true) ∧ (n ≠ 0 → y.mask n k = if k / 256 = r then g (k % 256) else x.mask n k)) ∧
  (∀ (s : State) (n : Stn) (r k : Nat) (vs : List (Nat × Word)),
    let y := (s.land n (.els r vs)).station n
    ((∀ p ∈ vs, p.1 ≠ k) → (y.tile r).el k = ((s.station n).tile r).el k) ∧ (r ≠ k → y.tile k = (s.station n).tile k))

/-- VRED.ROW writes the tree reduction of each row to column 0 of its destination, four rows on each of the ticks t + 8 to t + 11, or t + 7 to
t + 10 under profile 2; VRED.COL writes that of each column to row 0, on tick t + 10, or t + 9. Other elements are not written, and a lane
the mask does not select contributes the identity of the reduction. VNRM2 adds the row sums of the squares of its elements, in W48 and in row
order, into the stream's NACC on tick t + 16, or t + 14, from +0 if it clears. Their flags are added to the stream's. That a pair whose sum W48
does not hold exactly is rounded to W48 before it is squared, without a flag, is the model's choice (log entry 72). -/
def Obligations.ReductionsAndNorms : Prop :=
  (∀ (s : State) (i : Issue) (o : VOp) (t : Nat), s.opens i .v t = true → (s.station i.stn).vBusy ≤ t →
    let x := (s.station i.stn).opened i .v t
    let does := fun (c : Instr) (k : VKind) =>
      ∃ u, exec c s = .next u ∧ s.WordFrame u i [] ∧
        u.station i.stn = { x with
          vBusy := t + 4
          vq := x.vq ++ [s.vFlight i t k o.dst.toNat 0 o.sa.toNat o.sb.toNat (o.x.toNat % 32) o.sta.toNat o.stb.toNat o.msk.toNat
            (o.x.toNat % 16) false] }
    does (.vredRow i o) (.redRow (o.x.toNat % 4)) ∧ does (.vredCol i o) (.redCol (o.x.toNat % 4)) ∧
    does (.vnrm2 i o) (.nrm2 (bitOf o.x.toNat 0) (bitOf o.x.toNat 1))) ∧
  (∀ (f : VFlight) (xs : Nat → Station), f.a = [] → f.b = [] → f.c = [] → f.m = [] →
    let a := fun (k : Nat) => ((xs (k / 256)).tile f.sa).el (strideAt f.sta k)
    let b := fun (k : Nat) => ((xs (k / 256)).tile f.sb).el (strideAt f.stb k)
    let m := fun (k : Nat) => (xs (k / 256)).mask f.msk k
    let seen := fun (w : Nat) => (List.range (w + 1)).foldl (fun h k => h.capture (xs k) (f.t + k)) f
    let lane := fun (rop k : Nat) => ((if m k then (a k).toNat else redIdent rop), Flg.none)
    let row := fun (rop i : Nat) => treeOf (redNode rop) 6 ((List.range 64).map (fun j => lane rop (64 * i + j)))
    let col := fun (rop j : Nat) => treeOf (redNode rop) 4 ((List.range 16).map (fun i => lane rop (64 * i + j)))
    (∀ rop r, f.kind = .redRow rop → r < 4 → let w := (if f.p1 then 8 else 7) + r
      ((seen w).writes (f.t + w)).map (·.wr) = [.els f.dst ((List.range 4).map (fun i =>
        (64 * (4 * r + i), BitVec.ofNat 32 (row rop (4 * r + i)).1))),
        .flags f.src.strm (orFlags ((List.range 4).map (fun i => row rop (4 * r + i)))).code]) ∧
    (∀ rop, f.kind = .redCol rop → let w := if f.p1 then 10 else 9
      ((seen w).writes (f.t + w)).map (·.wr) = [.els f.dst ((List.range 64).map (fun j => (j, BitVec.ofNat 32 (col rop j).1))),
        .flags f.src.strm (orFlags ((List.range 64).map (col rop))).code]) ∧
    (∀ pair clr, f.kind = .nrm2 pair clr → let w := if f.p1 then 16 else 14
      let val := fun (k : Nat) => if pair then v48 (w48.encode (FV.add (v32 (a k)) (v32 (b k)))) else v32 (a k)
      let sq := fun (k : Nat) => if m k then w48.arith ((v32 (a k)).isNan || (pair && (v32 (b k)).isNan)) (FV.mul (val k) (val k))
        else (0, Flg.none)
      let rs := (List.range 16).map (fun i => treeOf addW48Res 6 ((List.range 64).map (fun j => sq (64 * i + j))))
      ((seen w).writes (f.t + w)).map (·.wr) = [.naccAdd f.src.strm clr (rs.map (·.1)), .flags f.src.strm (orFlags rs).code])) ∧
  (∀ (s : State) (n : Stn) (m : Strm) (clr : Bool) (rows : List Nat),
    let r := rows.foldl (fun r v => addW48Res r (v, Flg.none)) ((if clr then 0 else (s.stream n m).nacc.toNat), Flg.none)
    let u := s.land n (.naccAdd m clr rows)
    (u.stream n m).nacc = BitVec.ofNat 48 r.1 ∧ u.reg .vecFlags n = s.reg .vecFlags n ||| r.2.code * 2 ^ flagBase m ∧
    (u.station n).tiles = (s.station n).tiles ∧ (u.stream n m).s = (s.stream n m).s) ∧
  (∀ (s : State) (n : Stn) (r k : Nat) (vs : List (Nat × Word)),
    let y := (s.land n (.els r vs)).station n
    ((∀ p ∈ vs, p.1 ≠ k) → (y.tile r).el k = ((s.station n).tile r).el k) ∧ (r ≠ k → y.tile k = (s.station n).tile k))

/-- VCVT with a legal descriptor on a free engine holds it for four ticks, or eight where it narrows columns, and sets out with the conversion
that the descriptor, or with TBL the table entry of the stream's layer tag, gives at issue. A narrowing one writes image, scales and counts on
one tick: t + 12 or t + 10 in row form, t + 16 or t + 14 in column form, where the second half of each column comes from SB, read on four
more ticks; a masked element enters as +0. With FMT 0x0 the elements stay FP32, scaled by 2^E. A widening one writes quad r on tick t + 6 + r,
or t + 5 + r, from SA and row 0 of DS as they stood on tick t: with FMT 0x0 the FP32 elements scaled by 2^-E; with an array format the element
of the image at its lane and k, times its block's scale in an MX format, times 2^-E, and NaN, 0x7FC00000, where the scale byte is 255. -/
def Obligations.VcvtConverts : Prop :=
  (∀ (s : State) (i : Issue) (o : VcvtOp) (t : Nat), s.opens i .v t = true → (s.station i.stn).vBusy ≤ t →
    let x := (s.station i.stn).opened i .v t
    let d := s.sreg i.stn i.strm o.cd.toNat
    let e := s.fmtEntry i.stn (s.stream i.stn i.strm).ltag.toNat
    let c := cvtOf d e o.tbl
    d % 2 ^ 13 = 0 → (o.tbl = true ∨ bitsOf d 23 20 ≤ 10) →
    ∃ u, exec (.vcvt i o) s = .next u ∧ s.WordFrame u i [] ∧
      u.station i.stn = { x with
        vBusy := t + (if c.widen = false ∧ c.ax = true ∧ c.fmt ≠ 0 then 8 else 4)
        vq := x.vq ++ [{
          t := t, kind := if c.widen then .widen else if c.fmt = 0 then .scale else .narrow, dst := o.dst.toNat,
          ds := o.ds.toNat, sa := o.sa.toNat, sb := o.sb.toNat, sc := 0, sta := 0, stb := 0, msk := o.msk.toNat, so := o.cd.toNat,
          tbl := o.tbl, scal := d, fmte := e, p1 := s.profile1 (dieOf i.stn), src := s.lensSrc i.stn i.strm, a := [],
          b := [], c := [], m := [] }] }) ∧
  (∀ (f : VFlight) (xs : Nat → Station), f.a = [] → f.b = [] → f.c = [] → f.m = [] → f.sta = 0 →
    let c := cvtOf f.scal f.fmte f.tbl
    let seen := fun (w : Nat) => (List.range (w + 1)).foldl (fun h k => h.capture (xs k) (f.t + k)) f
    let a := fun (k : Nat) => v32 (((xs (k / 256)).tile f.sa).el k)
    let b := fun (k : Nat) => v32 (((xs (4 + k / 256)).tile f.sb).el k)
    let zero := FV.fin false 0 0
    (f.kind = .narrow →
      let w := if c.ax then (if f.p1 then 16 else 14) else if f.p1 then 12 else 10
      let elem := fun (i k : Nat) =>
        if c.ax then
          (let p := 64 * (k % 16) + i
           if k < 16 then (if (xs (p / 256)).mask f.msk p then a p else zero) else if (xs (4 + p / 256)).mask f.msk p then b p else zero)
        else if (xs ((64 * i + k) / 256)).mask f.msk (64 * i + k) then a (64 * i + k) else zero
      let lanes := (List.range (if c.ax then 64 else 16)).map (fun i =>
        narrowLane c ((List.range (if c.ax then 32 else 64)).map (elem i)))
      ((seen w).writes (f.t + w)).map (·.wr) =
        [.els f.dst (imageEls c lanes)] ++ (if isMx c.fmt then [.bytes f.ds (scaleBytes c lanes)] else []) ++
          [.counts f.src ((lanes.flatMap (·.2)).filter (·.2.1)).length ((lanes.flatMap (·.2)).filter (·.2.2)).length]) ∧
    (f.kind = .scale →
      let w := if f.p1 then 12 else 10
      let out := fun (k : Nat) => if (xs (k / 256)).mask f.msk k then to32 (FV.scale c.e (a k)) else 0
      let count := fun (g : FV → FV → Bool) => ((List.range 1024).filter (fun k =>
        (xs (k / 256)).mask f.msk k && (a k).isFin && g (a k) (v32 (out k)))).length
      ((seen w).writes (f.t + w)).map (·.wr) = [.els f.dst ((List.range 1024).map (fun k => (k, out k))),
        .counts f.src (count (fun v w => !v.isZero && w.isZero)) (count (fun _ w => !w.isFin))]) ∧
    (f.kind = .widen → ∀ r < 4, let w := (if f.p1 then 6 else 5) + r
      let ks := ((List.range 256).map (256 * r + ·)).filter (fun k => (xs r).mask f.msk k)
      let img := fun (k : Nat) =>
        let lane := if c.ax then k % 64 else k / 64
        let kk := if c.ax then 16 * b2n c.half + k / 64 else k % 64
        let v := elemVal c.fmt (Tile.bitsAt ((xs 0).tile f.sa) (imgPos c.fmt c.ax lane kk) (imgBits c.fmt))
        let sc := (Tile.byte (((xs 0).tile f.ds).take 64) (scalePos c.fmt c.ax c.kpos lane (kk / 32))).toNat
        if isMx c.fmt = true ∧ sc = 255 then BitVec.ofNat 32 nan32
        else to32 (FV.scale ((if isMx c.fmt then scaleExp sc else 0) - c.e) v)
      let val := fun (k : Nat) => if c.fmt = 0 then to32 (FV.scale (-c.e) (v32 (((xs 0).tile f.sa).el k))) else img k
      ((seen w).writes (f.t + w)).map (·.wr) = [.els f.dst (ks.map (fun k => (k, val k))), .flags f.src.strm 0]))

/-! ### The ring and the station memories -/

/-- GTAP of a sound passing word that its CHK test lets by sends the word to the named latch, where it stands from the end of the tick on, and
counts it; the word passes on. GEJ that its CHK test lets by empties the slot, and with TAP latches the sound word too. GPASS that its CHK test
lets by sends a sound valid word's DATA to the station store at the register's address with its low seven bits 0 and SCALE with its low three
bits 0, to land two ticks on under profile 1 and one under profile 2, copies nothing of an empty slot, and leaves the slot alone; INC adds 128
and 8 at the end of the tick (where DR and SR name one register, SR's stands: the model's choice, log entry 16). -/
def Obligations.RingOpsLatchEjectAndCopy : Prop :=
  (∀ (s : State) (i : Issue) (o : GtapOp) (t : Nat), s.opens i .g t = true → s.ringFree i.stn = true →
    let w := s.slotAt (s.stnKey i.stn)
    let x := (s.station i.stn).opened i .g t
    w.bad = false → w.misses o.chk o.tag = false →
    ∃ u, exec (.gtap i o) s = .next u ∧
      s.WordFrame u i [Reg.at .ringTapCount i.stn, Reg.at .ringTapCount i.stn + 4] ∧
      u.station i.stn = { x with late := x.late ++ [⟨t, .ring, .tap (b2n o.latch) w⟩] } ∧
      u.pair .ringTapCount i.stn = (s.pair .ringTapCount i.stn + 1) % 2 ^ 64) ∧
  (∀ (s : State) (i : Issue) (o : GejOp) (t : Nat), s.opens i .g t = true → s.ringFree i.stn = true →
    let k := s.stnKey i.stn
    let w := s.slotAt k
    let x := (s.station i.stn).opened i .g t
    (o.tap = true → w.bad = false) → w.misses o.chk o.tag = false →
    ∃ u, exec (.gej i o) s = .next u ∧ u.slotAt k = RingWord.empty ∧
      (s.setSlot k RingWord.empty).WordFrame u i [Reg.at .ringTapCount i.stn, Reg.at .ringTapCount i.stn + 4] ∧
      (o.tap = true → u.station i.stn = { x with late := x.late ++ [⟨t, .ring, .tap (b2n o.latch) w⟩] } ∧
        u.pair .ringTapCount i.stn = (s.pair .ringTapCount i.stn + 1) % 2 ^ 64) ∧
      (o.tap = false → u.station i.stn = x ∧ u.pair .ringTapCount i.stn = s.pair .ringTapCount i.stn)) ∧
  (∀ (s : State) (i : Issue) (o : GpassOp) (t : Nat), s.opens i .g t = true → s.ringFree i.stn = true →
    let w := s.slotAt (s.stnKey i.stn)
    let a := s.sreg i.stn i.strm o.dr.toNat
    let b := s.sreg i.stn i.strm o.sr.toNat
    let x := (s.station i.stn).opened i .g t
    let due := t + (if s.profile1 (dieOf i.stn) then 2 else 1)
    w.bad = false → w.misses o.chk o.tag = false →
    ∃ u, exec (.gpass i o) s = .next u ∧ s.WordFrame u i [] ∧
      u.station i.stn = { x with late := x.late ++
        (if o.inc then [⟨t, .gInc, .sreg i.strm o.dr.toNat (BitVec.ofNat 32 (a + 128))⟩,
          ⟨t, .gInc, .sreg i.strm o.sr.toNat (BitVec.ofNat 32 (b + 8))⟩] else []) ++
        (if w.valid then [⟨due, .ring, .store (a / 128 * 128) (leBytes 128 w.data.toNat)⟩,
          ⟨due, .ring, .store (b / 8 * 8) (leBytes 8 w.scale.toNat)⟩] else []) }) ∧
  (∀ (s : State) (n : Stn) (l : Nat) (w : RingWord), ((s.land n (.tap l w)).station n) = (s.station n).setTap l w ∧
    ((s.land n (.tap l w)).station n).tap l = w)

/-- GINJ of a legal form waits for its ring-side tick: with SK 0 the word read now from the station store, two ticks on under profile 2 and
three under profile 1, with INC advancing the three registers at the end of the tick (where they name one register, the last stands: the
model's choice, log entry 16); with SK 1 the head of the feed queue, taken then. On the ring-side tick the word enters the empty slot of the
station's position, or with LOC none, and with TAP or LOC the named latch; it is counted: with SK 0 the word read at issue, with SK 1 the head of
the feed queue, which leaves it and takes a lane of the segment's feed bus. A slot that is occupied, without LOC, is SLOT_CONFLICT of cause 0x4;
a thirteenth lane is SLOT_CONFLICT of cause 0x6; an empty feed queue is a ring error of kind 6. Each is captured where nothing is, moves no
word, and stops the station from its next tick on. -/
def Obligations.GinjWaitsForItsRingSideTick : Prop :=
  (∀ (s : State) (i : Issue) (o : GinjOp) (t : Nat), s.opens i .g t = true →
    let x := (s.station i.stn).opened i .g t
    let a := s.sreg i.stn i.strm o.src.toNat
    let b := s.sreg i.stn i.strm o.ssc.toNat
    let c := s.sreg i.stn i.strm o.tr.toNat
    let fmt := o.fmt.toNat
    (o.sk = 0 → wclass fmt ≠ none → ∃ u, exec (.ginj i o) s = .next u ∧ s.WordFrame u i [] ∧
      u.station i.stn = { x with
        ginj := x.ginj ++ [⟨t + (if s.profile1 (dieOf i.stn) then 3 else 2), o, some (x.storeWord fmt a b c), s.placeOf i t⟩]
        late := x.late ++ (if o.inc then [⟨t, .gInc, .sreg i.strm o.src.toNat (BitVec.ofNat 32 (a + (if isFp6 fmt then 96 else 128)))⟩,
          ⟨t, .gInc, .sreg i.strm o.ssc.toNat (BitVec.ofNat 32 (b + 8))⟩,
          ⟨t, .gInc, .sreg i.strm o.tr.toNat (BitVec.ofNat 32 (c + 1))⟩] else []) }) ∧
    (o.sk = 1 → ∃ u, exec (.ginj i o) s = .next u ∧ s.WordFrame u i [] ∧
      u.station i.stn = { x with ginj := x.ginj ++ [⟨t + 2, o, none, s.placeOf i t⟩] })) ∧
  (∀ (s : State) (n : Stn) (g : GPend) (w : RingWord), g.word = some w →
    (g.op.loc = true ∨ (s.slotAt (s.stnKey n)).valid = false) →
    let u := s.ringSide n g
    (∀ k, u.slotAt k = if g.op.loc = false ∧ k = s.stnKey n then w else s.slotAt k) ∧
    u.station n = (if g.op.tap || g.op.loc then (s.station n).setTap (b2n g.op.latch) w else s.station n) ∧
    u.pair .ringInjCount n = (s.pair .ringInjCount n + 1) % 2 ^ 64 ∧
    u.pair .ringTapCount n = (s.pair .ringTapCount n + (if g.op.tap || g.op.loc then 1 else 0)) % 2 ^ 64) ∧
  (∀ (s : State) (n : Stn) (g : GPend), g.word = none → (g.op.loc = true ∨ (s.slotAt (s.stnKey n)).valid = false) →
    let q := g.op.src.toNat % 4
    let u := s.ringSide n g
    ∀ w rest, s.lanesUsed (segOf n) < 12 → (s.feed (segOf n) q).words = w :: rest →
      (∀ k, u.slotAt k = if g.op.loc = false ∧ k = s.stnKey n then w else s.slotAt k) ∧
      u.station n = (if g.op.tap || g.op.loc then (s.station n).setTap (b2n g.op.latch) w else s.station n) ∧
      u.pair .ringInjCount n = (s.pair .ringInjCount n + 1) % 2 ^ 64 ∧
      u.pair .ringTapCount n = (s.pair .ringTapCount n + (if g.op.tap || g.op.loc then 1 else 0)) % 2 ^ 64 ∧
      u.lanesUsed (segOf n) = s.lanesUsed (segOf n) + 1 ∧ (u.feed (segOf n) q).words = rest ∧
      (∀ seg p, p < 4 → (seg ≠ segOf n ∨ p ≠ q) → u.feed seg p = s.feed seg p)) ∧
  (∀ (s : State) (n : Stn) (g : GPend),
    let q := g.op.src.toNat % 4
    let full := g.op.loc = false ∧ (s.slotAt (s.stnKey n)).valid = true
    let u := s.ringSide n g
    let stops := u.ring = s.ring ∧ u.feeds = s.feeds ∧ (u.station n).stopAt = match (s.station n).stopAt with
      | some v => some (min v (s.tick0 n + 1)) | none => some (s.tick0 n + 1)
    let conflict := fun (cause : Nat) => stops ∧ (s.bit .stnSeqFault n 31 = false → u.bit .stnSeqFault n 31 = true ∧
      u.fld .stnSeqFault n 27 24 = 4 ∧ u.fld .stnSeqFault n 23 20 = cause ∧ u.fld .stnSeqFault n 19 17 = 2)
    (full → conflict 4) ∧ (¬ full → g.word = none → 12 ≤ s.lanesUsed (segOf n) → conflict 6) ∧
    (¬ full → g.word = none → s.lanesUsed (segOf n) < 12 → (s.feed (segOf n) q).words = [] → stops ∧
      (s.bit .ringErr (dieOf n) 31 = false → u.bit .ringErr (dieOf n) 31 = true ∧ u.fld .ringErr (dieOf n) 30 28 = 6 ∧
        u.fld .ringErr (dieOf n) 24 22 = segOf n % 8 ∧ u.fld .ringErr (dieOf n) 21 16 = s.posOf n % 64)))

/-- LLD reads from the address of its register now and writes three ticks on under profile 1, two under profile 2: a row of bytes, a row of W48
entries rounded to FP32, a row of entries split into high and low FP32 parts, a scalar, or NACC. INC adds the access size to the register at
the end of the issue tick. -/
def Obligations.LldLoads : Prop :=
  ∀ (s : State) (i : Issue) (o : LOp) (t : Nat), s.opens i .l t = true →
    let x := (s.station i.stn).opened i .l t
    let a := s.sreg i.stn i.strm o.ar.toNat
    let row := o.row.toNat
    let due := t + (if s.profile1 (dieOf i.stn) then 3 else 2)
    let entry := fun (j : Nat) => x.entry (bitsOf a 17 6 * 64 + j)
    let els := fun (n : Nat) (f : Nat → Word) => (⟨due, .lPort, .els n ((List.range 64).map (fun j => (64 * row + j, f j)))⟩ : Late)
    let incs : List Late := if o.inc then
        [⟨t, .lInc, .sreg i.strm o.ar.toNat (BitVec.ofNat 32 (a + (if o.sp = 0 then 256 else if o.sp = 3 then (if o.nacc then 8 else 4) else 64)))⟩]
      else []
    ∃ u, exec (.lld i o) s = .next u ∧ s.WordFrame u i [] ∧
      (o.sp = 0 → u.station i.stn = { x with late := x.late ++ incs ++
        [els o.t.toNat (fun j => BitVec.ofNat 32 (leNat (x.rdStore (bitsOf a 20 8 * 256 + 4 * j) 4)))] }) ∧
      (o.sp = 1 → u.station i.stn = { x with late := x.late ++ incs ++ [els o.t.toNat (fun j => to32 (v48 (entry j)))] }) ∧
      (o.sp = 2 → u.station i.stn = { x with late := x.late ++ incs ++
        [els o.t.toNat (fun j => (pair48 (entry j)).1), els o.tb.toNat (fun j => (pair48 (entry j)).2)] }) ∧
      (o.sp = 3 → o.nacc = false → u.station i.stn = { x with late := x.late ++ incs ++
        [⟨due, .lReg, .sreg i.strm (o.t.toNat % 16) (BitVec.ofNat 32 (leNat (x.rdStore (bitsOf a 20 2 * 4) 4)))⟩] }) ∧
      (o.sp = 3 → o.nacc = true → u.station i.stn = { x with late := x.late ++ incs ++
        [⟨due, .lReg, .nacc i.strm (BitVec.ofNat 48 (leNat (x.rdStore (bitsOf a 20 3 * 8) 6)))⟩] })

/-- LST reads its row, or scalar, and the address of its register at issue, and stores one tick on under profile 1, on the issue tick under
profile 2: a row of a tile as bytes, or a scalar, or NACC as eight bytes, to the station store, and no byte outside those changes. INC adds the
access size to the register at the end of the issue tick. LST to the gradient buffer writes the 64 entries at the register's address, each the
exact W48 value of its element, or with SP 2 the sum of the two tiles' elements rounded once, and no byte outside those entries changes. -/
def Obligations.LstStores : Prop :=
  (∀ (s : State) (i : Issue) (o : LOp) (t : Nat), s.opens i .l t = true →
    let x := (s.station i.stn).opened i .l t
    let a := s.sreg i.stn i.strm o.ar.toNat
    let y := s.stream i.stn i.strm
    let n := bitsOf a 17 6 * 64
    let w : Wr := if o.sp = 0 then .store (bitsOf a 20 8 * 256) ((x.tile o.t.toNat).bytes (256 * o.row.toNat) 256)
      else if o.sp = 3 then (if o.nacc then .store (bitsOf a 20 3 * 8) (leBytes 8 y.nacc.toNat)
        else .store (bitsOf a 20 2 * 4) (leBytes 4 (y.sreg (o.t.toNat % 16)).toNat))
      else .grad ((List.range 64).map (fun j =>
        let hi := v32 ((x.tile o.t.toNat).el (64 * o.row.toNat + j))
        (n + j, w48.encode (if o.sp = 2 then FV.add hi (v32 ((x.tile o.tb.toNat).el (64 * o.row.toNat + j))) else hi))))
    let incs : List Late := if o.inc then
        [⟨t, .lInc, .sreg i.strm o.ar.toNat (BitVec.ofNat 32 (a + (if o.sp = 0 then 256 else if o.sp = 3 then (if o.nacc then 8 else 4) else 64)))⟩]
      else []
    ∃ u, exec (.lst i o) s = .next u ∧ s.WordFrame u i [] ∧
      u.station i.stn = { x with late := x.late ++ incs ++ [⟨t + (if s.profile1 (dieOf i.stn) then 1 else 0), .lPort, w⟩] }) ∧
  (∀ (s : State) (n : Stn) (a : Nat) (bs : List Byte), a + bs.length ≤ storeSize →
    let u := s.land n (.store a bs)
    ∃ m, u.station n = { s.station n with store := m } ∧ s.StationOnly u n ∧ (∀ k < bs.length, m.rd (a + k) = bs.getD k 0) ∧
      (∀ b, (b < a ∨ a + bs.length ≤ b) → m.rd b = (s.station n).store.rd b)) ∧
  (∀ (s : State) (n : Stn) (e : Nat) (f : Nat → Nat),
    let u := s.land n (.grad ((List.range 64).map (fun j => (e + j, f j))))
    ∃ m, u.station n = { s.station n with grad := m } ∧ s.StationOnly u n ∧ (∀ j < 64, (u.station n).entry (e + j) = f j % 2 ^ 48) ∧
      (∀ b, (b < 6 * e ∨ 6 * (e + 64) ≤ b) → m.rd b = (s.station n).grad.rd b))

/-- The first LSTASH of an entry allocates it at issue, by tiers: a free window slot; else the empty spill buffer, where spilling is enabled, its
slot of the spill region is free and the map has spill ticks; else, with a recipe, as dropped. The row of the tile is read then and written as
an LST writes, to where the entry stands; of a dropped entry it goes nowhere. A later LSTASH of the entry allocates nothing. An LSTASH that no
tier can place raises STASH_FULL: the op is captured while VALID is 0, nothing is stored, and the station stops at the start of its next
frame. -/
def Obligations.LstashAllocatesByTiers : Prop :=
  (∀ (s : State) (i : Issue) (o : StashOp) (t : Nat), s.opens i .l t = true →
    let x := (s.station i.stn).opened i .l t
    let e := s.sreg i.stn i.strm o.se.toNat
    let n := bitsOf e 15 0
    let row := o.row.toNat
    let bs := (x.tile o.t.toNat).bytes (256 * row) 256
    let buffers := s.spillEn i.stn && (s.station i.stn).bufEmpty && s.spillFree i.stn n && s.hasSpillTick i.stn
    let late := x.late ++ [⟨t + (if s.profile1 (dieOf i.stn) then 1 else 0), .lPort, .stash n row bs⟩]
    ((s.station i.stn).ent n ≠ none ∨ bitsOf e 27 16 ≠ 0 ∨ s.winFull i.stn n = false ∨ buffers = true) →
    ∃ u, exec (.lstash i o) s = .next u ∧ s.WordFrame u i [] ∧
      ((s.station i.stn).ent n ≠ none → u.station i.stn = { x with late := late }) ∧
      ((s.station i.stn).ent n = none →
        (s.winFull i.stn n = false → u.station i.stn = { x with late := late, stash := x.stash ++ [⟨n, .resident, 0, 0⟩] }) ∧
        (s.winFull i.stn n = true → buffers = true →
          u.station i.stn = { x with late := late, stash := x.stash ++ [⟨n, .buffered true, 0, 0⟩] }) ∧
        (s.winFull i.stn n = true → buffers = false →
          u.station i.stn = { x with late := late, dropped := satTo 12 (x.dropped + 1), stash := x.stash ++ [⟨n, .dropped, 0, 0⟩] }))) ∧
  (∀ (s : State) (i : Issue) (o : StashOp) (t : Nat), s.opens i .l t = true →
    let e := s.sreg i.stn i.strm o.se.toNat
    let n := bitsOf e 15 0
    (s.station i.stn).ent n = none → s.winFull i.stn n = true → bitsOf e 27 16 = 0 →
    (s.spillEn i.stn && (s.station i.stn).bufEmpty && s.spillFree i.stn n && s.hasSpillTick i.stn) = false →
    ∃ u, exec (.lstash i o) s = .next u ∧
      u.station i.stn = { (s.station i.stn).opened i .l t with
        stopAt := match (s.station i.stn).stopAt with
          | some v => some (min v ((t / 64 + 1) * 64)) | none => some ((t / 64 + 1) * 64) } ∧
      (s.bit .stnLxFault i.stn 31 = false → u.bit .stnLxFault i.stn 31 = true ∧ u.fld .stnLxFault i.stn 27 24 = 7 ∧
        u.fld .stnLxFault i.stn 15 0 = t % 2 ^ 16)) ∧
  (∀ (s : State) (n : Stn) (k row : Nat) (bs : List Byte) (e : StashEnt), (s.station n).ent k = some e →
    let u := s.land n (.stash k row bs)
    let note := fun (y : StashEnt) => { y with wrote := y.wrote ||| BitVec.ofNat 16 (2 ^ row) }
    (e.at_ = .resident → u.station n = ((s.station n).wrStore (s.winAddr n k + 256 * row) bs).setEnt k note) ∧
    (∀ out, e.at_ = .buffered out → (u.station n).store = (s.station n).store ∧
      (u.station n).buf = Tbl.puts (fun _ => (0 : Byte)) (s.station n).buf (256 * row) bs) ∧
    (e.at_ = .dropped → u = s))

/-- LUNST completes whatever its entry: of a spilled one, or one on its way back, it is held and requests a shutter of kind 4; of one that the
station holds it reads the row now and writes it into the tile on the tick on which an LLD writes, and counts the row as read, releasing the entry
with its last row; of a dropped entry it counts the row and leaves the tile; of an entry that is not allocated it does nothing. -/
def Obligations.LunstReadsOrWaits : Prop :=
  ∀ (s : State) (i : Issue) (o : StashOp) (t : Nat), s.opens i .l t = true →
    let x := (s.station i.stn).opened i .l t
    let n := bitsOf (s.sreg i.stn i.strm o.se.toNat) 15 0
    let row := o.row.toNat
    let due := t + (if s.profile1 (dieOf i.stn) then 3 else 2)
    let els := fun (f : Nat → Byte) => (⟨due, .lPort, .els o.t.toNat ((List.range 64).map (fun j =>
      (64 * row + j, BitVec.ofNat 32 (leNat ((List.range 4).map (fun b => f (4 * j + b)))))))⟩ : Late)
    let read := fun (e : StashEnt) => e.readB ||| BitVec.ofNat 16 (2 ^ row)
    let counts := fun (u : State) (e : StashEnt) => (u.station i.stn).ent n =
      if read e = BitVec.allOnes 16 then none else some { e with readB := read e }
    ∃ u, exec (.lunst i o) s = .next u ∧ (∀ j, j ≠ i.stn.val → u.station j = s.station j) ∧ u.stackMem = s.stackMem ∧
      (x.ent n = none → u.station i.stn = x) ∧
      (∀ e, x.ent n = some e →
        (e.at_ = .spilled ∨ e.at_ = .returning → u.station i.stn = { x with unst := x.unst ++ [(n, o, s.placeOf i t)] } ∧
          (u.die (dieOf i.stn)).reqs.contains ⟨4, i.stn⟩ = true) ∧
        (e.at_ = .resident ∨ e.at_ = .spilling → s.WordFrame u i [] ∧ counts u e ∧
          (u.station i.stn).late = x.late ++ [els (fun b => x.store.rd ((s.winAddr i.stn n + 256 * row + b) % storeSize))]) ∧
        (∀ out, e.at_ = .buffered out → s.WordFrame u i [] ∧ counts u e ∧
          (u.station i.stn).late = x.late ++ [els (fun b => Tbl.get (fun _ => (0 : Byte)) x.buf (256 * row + b))]) ∧
        (e.at_ = .dropped → s.WordFrame u i [] ∧ counts u e ∧ (u.station i.stn).late = x.late ∧ (u.station i.stn).tiles = x.tiles))

/-- STASH_FULL_STOP completes at a station that runs, has raised STASH_FULL and whose next frame has come: the station stops.
STASH_TRANSFER_DONE completes where a transfer's copy is due: its 32 spill ticks have passed, or a freeze lets it complete. An entry on its way
out, whose bytes in the window are sound, then lies in the spill region; where the stack takes every line of them and no snapshot waits for the
page, its bytes are those of its spill slot, and no other byte of the stacks has changed. The bytes of an entry on its way back that arrive
usable land in its window slot, if that is free, with the ring writes of the tick under way, or at once where the station has none; else in the
spill buffer, if that is empty; the stacks keep theirs. A slot in a quarantined page group stops the station and moves nothing (when a copy
lands, and that it stops: the model's choice, log entry 15). -/
def Obligations.StashEventsComplete : Prop :=
  (∀ (s : State) (n : Stn), s.running n = true → s.halted (regionOf n) = false → s.stashStops n = true →
    ∃ u, exec (.stashFullStop n) s = .next u ∧ s.StationOnly u n ∧ u.station n = (s.station n).stop .stopped) ∧
  (∀ (s : State) (w : StashXfer) (e : StashEnt) (r : StashEnd), s.xferDue r.stn = some w → (s.station r.stn).ent w.n = some e →
    (∀ f ∈ (s.station r.stn).stash, f.n = w.n → f = e) → (s.station r.stn).unst = [] →
    let n := r.stn.val
    let sp := s.spillAddr n w.n
    let ms := sp / stackSize
    let a := sp % stackSize
    ∃ u, exec (.stashTransferDone r) s = .next u ∧ (∀ j, j ≠ n → u.station j = s.station j) ∧
      (s.staleRange sp 4096 = true → (u.station n).run = .stopped ∧ u.stackMem = s.stackMem) ∧
      (s.staleRange sp 4096 = false → w.back = false → (e.inWin = true → ∀ m b, r.ecc ≠ .bad m b) →
        (u.station n).isSpilled w.n = true ∧
        (s.xferOk ms r.fails = true → s.lostLines r.xs sp 4096 = [] → (s.changedPages ms a 4096).any s.isUncopied = false →
          (∀ k, (∀ b < 4096, k ≠ s.stackKey ms (a + b)) → u.stackMem.rd k = s.stackMem.rd k) ∧
          ((∀ b < 4096, ∀ c < 4096, s.stackKey ms (a + b) = s.stackKey ms (a + c) → b = c) →
            u.stackRdN ms a 4096 = s.entBytes n e))) ∧
      (s.staleRange sp 4096 = false → w.back = true → s.readOk ms r.fails r.ecc = true →
        let bs := s.stackRdN ms a 4096
        u.stackMem = s.stackMem ∧
        (s.winFull n w.n = false → s.openTick n = none →
          (u.station n).isSpilled w.n = false ∧ (u.station n).rdStore (s.winAddr n w.n) 4096 = bs) ∧
        (∀ t, s.winFull n w.n = false → s.openTick n = some t →
          (u.station n).late = (s.station n).late ++ [⟨t, .ring, .back w.n (s.winAddr n w.n) bs⟩] ∧ (u.station n).store = (s.station n).store) ∧
        (s.winFull n w.n = true → (s.station n).bufEmpty = true →
          (u.station n).isSpilled w.n = false ∧ Tbl.gets (fun _ => (0 : Byte)) (u.station n).buf 0 4096 = bs ∧
          (u.station n).store = (s.station n).store))) ∧
  (∀ (s : State) (n : Stn) (k a : Nat) (bs : List Byte) (e : StashEnt), (s.station n).ent k = some e → bs.length ≤ storeSize →
    let u := s.land n (.back k a bs)
    (u.station n).ent k = some { e with at_ := .resident } ∧ (u.station n).rdStore a bs.length = bs)

/-! ### The X queue -/

/-- XFETCH (all forms), XPUT, XRED and XNORM take their operands at issue into the X queue, behind the ops already there; INC updates the
registers at the end of the tick (where LA and a register of the pair are one, the pair's value stands: the model's choice, log entry 16). With
32 ops or more in the queue the station holds the request of bit 3, with fewer it does not. -/
def Obligations.XOpsEnterTheQueue : Prop :=
  ∀ (s : State) (i : Issue) (t : Nat), s.opens i .x t = true →
    let x := (s.station i.stn).opened i .x t
    let p := s.placeOf i t
    let queues := fun (c : Instr) (e : XEntry) (incs : List (Nat × Word)) =>
      ∃ u, exec c s = .next u ∧
        u.station i.stn = { x with
          xq := x.xq ++ [e], late := x.late ++ incs.map (fun q => ⟨t, .xInc, .sreg i.strm q.1 q.2⟩) } ∧
        (∀ j, j ≠ i.stn.val → u.station j = s.station j) ∧
        ((u.die (dieOf i.stn)).reqs.contains ⟨3, i.stn⟩ = decide (32 ≤ x.xq.length + 1)) ∧ u.stackMem = s.stackMem ∧ u.out = s.out
    let apInc := fun (o : XOp) => if o.inc then
        (let n := 64 * (o.len.toNat + 1)
         let a := (s.apAddr i.stn i.strm o.ap.toNat).toNat + n
         [(o.la.toNat, BitVec.ofNat 32 (s.sreg i.stn i.strm o.la.toNat + n)), (2 * o.ap.toNat, BitVec.ofNat 32 (a % 2 ^ 32)),
          (2 * o.ap.toNat + 1, BitVec.ofNat 32 (a / 2 ^ 32 % 2 ^ 32))])
      else []
    let entry := fun (o : XOp) (k : XKind) => { XEntry.base k o.tag.toNat p with
      bypass := o.bypass, addr := s.apAddr i.stn i.strm o.ap.toNat, la := s.sreg i.stn i.strm o.la.toNat / 64 * 64, len := o.len.toNat + 1 }
    (∀ o, queues (.xfetch i o) (entry o .fetch) (apInc o)) ∧
    (∀ o, queues (.xput i o) (entry o .put) (apInc o)) ∧
    (∀ o : FeedOp, queues (.xfetchFeed i o) { XEntry.base .feed (o.queue.toNat + 4 * b2n o.absent) p with
        absent := o.absent, la := s.sreg i.stn i.strm o.la.toNat / 32 * 32 }
      (if o.inc then [(o.la.toNat, BitVec.ofNat 32 (s.sreg i.stn i.strm o.la.toNat + 32))] else [])) ∧
    (∀ o : XredOp, queues (.xred i o) { XEntry.base .red o.tag.toNat p with
        dt := o.dt, la := s.sreg i.stn i.strm o.la.toNat / 64 * 64, len := o.len.toNat + 1, rd := s.sreg i.stn i.strm o.rd.toNat } []) ∧
    (∀ o : XnormOp, queues (.xnorm i o) { XEntry.base .norm o.tag.toNat p with
        rd := s.sreg i.stn i.strm o.rd.toNat, sd := o.sd.toNat, nacc := (s.stream i.stn i.strm).nacc } [])

/-- XCANCEL removes the XFETCH and XPUT ops of its group that wait in the X queue and marks the group's busy XFETCH and XPUT tags as
cancelled; other ops and other tags stay as they are. The op at the head of the X queue is sent once its tag is free, and not before the second
tick after its issue: an op enters the queue two ticks from its request and comes one nearer on each tick of the station's clock (in a freeze on
its frozen ticks: the model's choice, log entry 2). A fetch or put leaves the queue and takes its tag with the next generation number, with the
operands captured at issue. One to this module goes out as one request of the station; one to another module enters the output queue of the port
that its route names, as one message; a read through the landing cache that lies in one line lands the line's bytes and frees its tag where the
cache holds the line, joins the fill in flight where there is one, and else starts a fill, which reads the 256 bytes of the line. A feed post
leaves the queue and enters the descriptor queue that it names, which has room. A reduction whose descriptor is sound sends its operand to the
reduce engine, with the rank of this module; one whose descriptor is not is an address error of its tag. An XNORM contributes the NACC captured at
issue to its key, and the last contribution of the module sends the total of all in FP64 to the engine. -/
def Obligations.XQueueSendsAndCancels : Prop :=
  (∀ (s : State) (i : Issue) (g : BitVec 3) (t : Nat), s.opens i .x t = true →
    let x := (s.station i.stn).opened i .x t
    let moves := fun (e : XEntry) => decide (e.kind = .fetch) || decide (e.kind = .put)
    ∃ u, exec (.xcancel i g) s = .next u ∧
      (let y := u.station i.stn
       y = { x with tags := y.tags, xq := y.xq } ∧
       y.xq = x.xq.filter (fun e => !(moves e && decide (e.tag / 8 = g.toNat))) ∧
       (∀ k < 64, ∀ e, (x.tag k).op = some e → k / 8 = g.toNat → moves e = true → y.tag k = { x.tag k with cancel := true }) ∧
       (∀ k < 64, (k / 8 ≠ g.toNat ∨ (x.tag k).op = none ∨ ∃ e, (x.tag k).op = some e ∧ moves e = false) → y.tag k = x.tag k)) ∧
      (∀ j, j ≠ i.stn.val → u.station j = s.station j)) ∧
  (∀ (s : State) (n : Stn) (e : XEntry) (rest : List XEntry) (c : Ecc) (fails : Nat), (s.station n).xq = e :: rest → s.xReady n e = true →
    ((e.kind = .fetch ∨ e.kind = .put) → s.target (modOf e.addr) = .loc →
      ∃ u bs, exec (.xQueueSend ⟨⟨c, fails⟩, n⟩) s = .next u ∧
        u.station n = { s.station n with xq := rest, tags := (u.station n).tags } ∧
        (u.station n).tag e.tag = ⟨((s.station n).tag e.tag).gen + 1, some e, false⟩ ∧
        (∀ k, k ≠ e.tag → (u.station n).tag k = (s.station n).tag k) ∧
        u.out = .req (BitVec.ofNat 12 n) (((s.station n).tag e.tag).gen + 1) (BitVec.ofNat 6 e.tag) e.addr (64 * e.len) bs :: s.out ∧
        (∀ d, e.data = some d → bs = d) ∧ (e.data = none → e.kind = .fetch → bs = []) ∧
        (e.data = none → e.kind = .put → s.openTick n = none → bs = (s.station n).rdStore e.la (64 * e.len)) ∧
        (∀ j, j ≠ n.val → u.station j = s.station j) ∧ u.stackMem = s.stackMem ∧
        (∀ (r : Reg) (o : Nat), (∀ d < 4, o ≠ Reg.at .shtCause d) → u.regAt r o = s.regAt r o)) ∧
    (∀ g, e.kind = .feed → s.feedSeg n e = some g →
      ∃ u d, exec (.xQueueSend ⟨⟨c, fails⟩, n⟩) s = .next u ∧ u.station n = { s.station n with xq := rest } ∧
        u.feed g (e.tag % 4) = { s.feed g (e.tag % 4) with descs := (s.feed g (e.tag % 4)).descs ++ [d] } ∧
        d.stn = n ∧ d.place = e.place ∧ d.la = e.la ∧ d.isRead = false ∧
        (∀ j, j ≠ n.val → u.station j = s.station j) ∧ u.ring = s.ring ∧ u.stackMem = s.stackMem)) ∧
  (∀ (s : State) (n : Stn) (e : XEntry) (rest : List XEntry) (c : Ecc) (fails : Nat), (s.station n).xq = e :: rest → s.xReady n e = true →
    let d := dieOf n
    let k := e.tag
    let gen := ((s.station n).tag k).gen + 1
    let t := ((s.modStation n (fun y => { y with xq := rest })).xHold n).takeTag n e
    let queued := fun (u : State) (agent p : Nat) (h : Hdr) (bs : List Byte) =>
      u.port (s.outPort agent p) = { s.port (s.outPort agent p) with
        outq := (s.port (s.outPort agent p)).outq ++ [⟨vcOf h.opc, false, 0, 16 + agent, false, false, msgFlits h bs⟩] }
    let cached := e.kind = .fetch ∧ e.bypass = false ∧ s.bit .msLcCtrl d 0 = true
    let does := fun (P : State → Prop) => ∃ u, exec (.xQueueSend ⟨⟨c, fails⟩, n⟩) s = .next u ∧ (u.station n).xq = rest ∧
      (∀ j, j ≠ n.val → u.station j = s.station j) ∧ u.stackMem = s.stackMem ∧ P u
    (∀ p, (e.kind = .fetch ∨ e.kind = .put) → s.target (modOf e.addr) = .remote p →
      (¬ cached → does (fun u => (u.station n).tag k = ⟨gen, some e, false⟩ ∧ u.out = s.out ∧
        queued u n p ⟨if e.kind = .put then 2 else 1, 0, s.srcId, p, n, gen.toNat, k, 64 * e.len, (withMod e.addr p).toNat, 0, 0, 0, 0⟩
          (t.putBytes n e))) ∧
      (cached →
        let a := (withMod e.addr p).toNat
        let line := lcLine a
        let w : LcWait := ⟨n, k, BitVec.ofNat 64 a, 64 * e.len, e.la⟩
        0 < e.len → 64 * e.len ≤ 256 - a % 256 →
        (∀ l, (s.die d).lcFind line = some l → s.readOk (lcStack d a) fails c = true → (s.die d).owes n k = false →
          let bs := (l.data.drop (a % 256)).take (64 * e.len)
          does (fun u => (u.station n).tag k = ⟨gen, none, false⟩ ∧ u.pair .msLcHits d = (s.pair .msLcHits d + 1) % 2 ^ 64 ∧
            (s.openTick n = none → (u.station n).store = ((s.station n).wrStore e.la bs).store) ∧
            (∀ q, s.openTick n = some q → (u.station n).late = (s.station n).late ++ [⟨q, .landing, .store e.la bs⟩]))) ∧
        ((s.die d).lcFind line = none → (s.die d).fills.any (fun f => decide (f.line = line) && !f.stale) = true →
          does (fun u => (u.station n).tag k = ⟨gen, some e, false⟩ ∧ u.ports = s.ports ∧
            (u.die d).fills = (s.die d).fills.map (fun f => if f.line = line ∧ f.stale = false then { f with waits := f.waits ++ [w] } else f))) ∧
        ((s.die d).lcFind line = none → (s.die d).fills.any (fun f => decide (f.line = line) && !f.stale) = false →
          ((s.die d).homeFills (lcHome a)).length < 128 →
          does (fun u => (u.station n).tag k = ⟨gen, some e, false⟩ ∧ (u.die d).fills = (s.die d).fills ++ [⟨line, [w], false⟩] ∧
            u.pair .msLcMiss d = (s.pair .msLcMiss d + 1) % 2 ^ 64 ∧
            queued u (0x408 + d) p ⟨1, 0, s.srcId, p, 0x408 + d, 0, 0, 256, (withMod (BitVec.ofNat 64 (256 * line)) p).toNat, 0, 0, 0, 0⟩ [])))) ∧
    (c = .clean →
      let desc := (t.portView n).rdStore e.rd 64
      ((e.kind = .red ∨ e.kind = .norm) → s.descBad desc e = true →
        does (fun u => (u.station n).run = .stopped ∧ ((u.station n).tag k).op = none ∧
          (s.bit .stnLxFault n 31 = false → u.fld .stnLxFault n 27 24 = 11))) ∧
      (e.kind = .red → s.descBad desc e = false →
        let q := redParams desc e.dt (64 * e.len)
        does (fun u => (u.station n).tag k = ⟨gen, some e, false⟩ ∧ u.out = .redUp ((s.rankOf q).getD 0) ⟨q, (s.rankOf q).getD 0, 0, true, false,
          BitVec.ofNat 12 n, gen, BitVec.ofNat 6 k, (t.portView n).rdStore e.la (64 * e.len)⟩ :: s.out)) ∧
      (e.kind = .norm → s.descBad desc e = false →
        let q := redParams desc 2 8
        let vals := s.norm ++ [(q.key.toNat, n.val, e.nacc)]
        let all := s.normMembers.all (fun i => vals.any (fun v => decide (v.1 = q.key.toNat) && decide (v.2.1 = i)))
        does (fun u => (u.station n).tag k = ⟨gen, some { e with la := q.key.toNat }, false⟩ ∧
          (all = false → u.norm = vals ∧ u.out = s.out) ∧
          (all = true → u.norm = vals.filter (fun v => v.1 ≠ q.key.toNat) ∧
            u.out = .redUp ((s.rankOf q).getD 0) ⟨q, (s.rankOf q).getD 0, 0, true, false, 0x40C, 0, 0,
              leBytes 8 (fp64.encode (v48 (normTotal (vals.filter (fun v => s.normMembers.contains v.2.1)) q.key.toNat)))⟩ :: s.out))))) ∧
  (∀ (k : XKind) (g : Nat) (p : OpPlace), (XEntry.base k g p).wait = 2) ∧
  (∀ (s : State) (n : Stn) (e : XEntry) (rest : List XEntry) (c : Ecc) (fails : Nat), (s.station n).xq = e :: rest → e.wait ≠ 0 →
    exec (.xQueueSend ⟨⟨c, fails⟩, n⟩) s = .next s) ∧
  (∀ x : Station, x.xNearer = { x with xq := x.xq.map (fun e => { e with wait := e.wait - 1 }) })

/-- A response to a busy tag frees it. An OK response lands the data of a fetch or a reduction in the station store where the op named, at the
end of the tick under way or at once where none is, and of a put nothing; a cancelled op lands nothing and raises nothing; a response of
another generation changes only the count of discarded responses; an error status other than IMEM_BUSY stops the station and is captured with
its code. The total of an XNORM that a station waits for frees its tag and lands: in W48 in the issuing stream's NACC, rounded to FP32 in its
scalar register. A tag whose time has passed frees, its generation moves on, and an op that was not cancelled stops the station with
TAG_TIMEOUT, code 0xC; a fill whose time has passed is not installed, and the ops that wait for it end; a request of the host is answered with
status 3, which its port reports as Remote Operational Error, and one of the firmware with one of the reserved codes 5 and 6 (the model's choice,
log entry 25); a ledger write that has timed out raises LEDGER_LOST besides. -/
def Obligations.ResponsesTotalsAndTimeouts : Prop :=
  (∀ (s : State) (n : Stn) (m : RspMsg) (e : XEntry), m.agent.toNat = n →
    let k := m.tag.toNat
    let freed := (s.station n).setTag k { (s.station n).tag k with op := none, cancel := false }
    (((s.station n).tag k).gen ≠ m.gen → ∃ u, exec (.xResponse n m) s = .next u ∧ s.RegsOnly u [Reg.at .pyErrCount 0] ∧
      u.fld .pyErrCount 0 31 16 = satTo 16 (s.fld .pyErrCount 0 31 16 + 1)) ∧
    (((s.station n).tag k).gen = m.gen → ((s.station n).tag k).op = some e →
      (((s.station n).tag k).cancel = true → ∃ u, exec (.xResponse n m) s = .next u ∧ u.station n = freed ∧ u.regs = s.regs) ∧
      (((s.station n).tag k).cancel = false → m.status = 0 → (e.kind = .fetch ∨ e.kind = .red) →
        ∃ u, exec (.xResponse n m) s = .next u ∧ u.regs = s.regs ∧
          (s.openTick n = none → u.station n = freed.wrStore e.la m.data) ∧
          (∀ q, s.openTick n = some q → u.station n = { freed with late := freed.late ++ [⟨q, .landing, .store e.la m.data⟩] })) ∧
      (((s.station n).tag k).cancel = false → m.status = 0 → e.kind = .put →
        ∃ u, exec (.xResponse n m) s = .next u ∧ u.station n = freed ∧ u.regs = s.regs) ∧
      (((s.station n).tag k).cancel = false → m.status ≠ 0 → m.status ≠ 4 →
        ∃ u, exec (.xResponse n m) s = .next u ∧ (u.station n).run = .stopped ∧ ((u.station n).tag k).op = none ∧
          (u.station n).store = (s.station n).store ∧
          (s.bit .stnLxFault n 31 = false → u.fld .stnLxFault n 27 24 = lxCode m.status.toNat)))) ∧
  (∀ (s : State) (n : Stn) (k : BitVec 6) (g : BitVec 4) (total : BitVec 64) (e : XEntry),
    ((s.station n).tag k.toNat).gen = g → ((s.station n).tag k.toNat).op = some e → e.kind = .norm →
    ((s.station n).tag k.toNat).cancel = false →
    let freed := (s.station n).setTag k.toNat { (s.station n).tag k.toNat with op := none, cancel := false }
    let v := fp64.decode total.toNat
    let nacc := BitVec.ofNat 48 (w48.encode v)
    let sd := BitVec.ofNat 32 (fp32.encode v)
    ∃ u, exec (.xnormResult n k g total) s = .next u ∧ u.regs = s.regs ∧
      (s.openTick n = none → u.station n = freed.modStream e.place.strm (fun y => { y with nacc := nacc }.setSreg e.sd sd)) ∧
      (∀ q, s.openTick n = some q → u.station n = { freed with late := freed.late ++
        [⟨q, .norm, .nacc e.place.strm nacc⟩, ⟨q, .norm, .sreg e.place.strm e.sd sd⟩] })) ∧
  (∀ (s : State) (n : Stn) (k : BitVec 6) (e : XEntry), ((s.station n).tag k.toNat).op = some e →
    ∃ u, exec (.fetchTimeout (.stn n) k) s = .next u ∧
      (u.station n).tag k.toNat = ⟨((s.station n).tag k.toNat).gen + 1, none, false⟩ ∧
      (((s.station n).tag k.toNat).cancel = false → (u.station n).run = .stopped) ∧
      ((e.kind = .fetch ∨ e.kind = .put ∨ s.redWait = []) → (u.station n).store = (s.station n).store ∧
        (((s.station n).tag k.toNat).cancel = true → (u.station n).run = (s.station n).run ∧ u.regs = s.regs) ∧
        (((s.station n).tag k.toNat).cancel = false → s.bit .stnLxFault n 31 = false → u.fld .stnLxFault n 27 24 = 12))) ∧
  (∀ (s : State) (d : Die) (line : Nat) (k : BitVec 6) (f : LcFill), (s.die d).fills.find? (fun f => f.line = line) = some f →
    ∃ u, exec (.fetchTimeout (.fill d line) k) s = .next u ∧ (u.die d).lines = (s.die d).lines ∧
      ∀ w ∈ f.waits, ((u.station w.stn).tag w.tag).op = none) ∧
  (∀ (s : State) (a : BitVec 12) (g : BitVec 4) (k : BitVec 6) (wr : Bool), ∃ u st, exec (.fetchTimeout (.agent a g wr) k) s = .next u ∧
    (let t := s.emit (.rsp (BitVec.ofNat 16 s.srcId) a g k wr st [])
     u = if a = 0x401 ∧ wr = true then t.event 0x8007 [1] else t) ∧
    (if a = 0x404 ∨ a = 0x405 then st = 3 else st = 5 ∨ st = 6))

/-! ### Feeds, crossings, the Shutter, time -/

/-- The commands of a feed queue, each on its ordinary path. FEED_DESCRIPTOR_READ reads the first unread descriptor of the queue from the
posting station's store and accepts it, or refuses it: then it leaves the queue, its poster stops, and the capture has code 0xB.
FEED_QUEUE_FILL appends the next word of the first descriptor with words still to fetch, poisoned where its data arrive unusable; one that lies
in a quarantined page group is not fetched. FEED_POINT_INJECTION, on the tick that names the head word of the queue, moves it into the empty
slot of position 0 and counts it; with no word there, the poster stops with a feed underrun, kind 6. -/
def Obligations.FeedQueuesReadFillAndInject : Prop :=
  ∀ (s : State) (g : Seg) (q : Fin 4) (pre post : List Desc) (d : Desc),
    let x := s.feed g q
    (x.descs = pre ++ d :: post → (∀ e ∈ pre, e.isRead = true) → d.isRead = false → d.stn < 1024 →
      let bs := (s.portView d.stn).rdStore d.la 32
      (s.descRefused g (d.parse bs) bs = false → ∃ u, exec (.feedDescriptorRead g q .clean) s = .next u ∧
        u.feed g q = { x with descs := pre ++ d.parse bs :: post } ∧ u.stations = s.stations ∧ u.regs = s.regs ∧ u.ring = s.ring) ∧
      (s.descRefused g (d.parse bs) bs = true → ∃ u, exec (.feedDescriptorRead g q .clean) s = .next u ∧
        u.feed g q = { x with descs := pre ++ post } ∧ (u.station d.stn).run = .stopped ∧
        (s.bit .stnLxFault d.stn 31 = false → u.fld .stnLxFault d.stn 27 24 = 11))) ∧
    (∀ r e n, x.descs = pre ++ d :: post → (∀ e ∈ pre, e.isRead = true ∧ e.total ≤ e.fetched) →
      d.isRead = true → d.fetched < d.total → (s.rgns g).find? (fun r => r.base = d.origin) = some r → x.words.length < 1024 →
      (s.feedStale g d r d.fetched = false → ∃ u, exec (.feedQueueFill g q e n) s = .next u ∧
        u.feed g q = { x with
          words := x.words ++ [s.feedWord g d r d.fetched (!s.readOk g n e)], descs := pre ++ { d with fetched := d.fetched + 1 } :: post } ∧
        (∀ g' q', 4 * g' + q' ≠ 4 * g.val + q.val → u.feed g' q' = s.feed g' q') ∧ u.ring = s.ring ∧ u.stations = s.stations) ∧
      (s.feedStale g d r d.fetched = true → ∃ u, exec (.feedQueueFill g q e n) s = .next u ∧ (u.feed g q).words = x.words ∧
        (u.station d.stn).run = .stopped ∧ (d.stn < 1024 → s.bit .stnLxFault d.stn 31 = false → u.fld .stnLxFault d.stn 27 24 = 6))) ∧
    (∀ t, x.descs = d :: post → s.feedTick g = some t → x.acted ≠ some (s.ref (segRegion g)) → d.isRead = true → d.missed = false →
      d.named t = some d.used → (∀ e ∈ post, (s.descFull e).named t = none ∨ e.missed = true) →
      (∀ w ws, x.words = w :: ws → (s.slotAt (posKey g 0)).valid = false →
        ∃ u, exec (.feedPointInjection g q) s = .next u ∧ u.slotAt (posKey g 0) = w ∧
          (∀ k, k ≠ posKey g 0 → u.slotAt k = s.slotAt k) ∧
          u.feed g q = ⟨ws, if d.used + 1 < d.total then { d with used := d.used + 1 } :: post else post, some (s.ref (segRegion g))⟩ ∧
          u.pair .segFeedInjCount g = (s.pair .segFeedInjCount g + 1) % 2 ^ 64 ∧ u.stations = s.stations) ∧
      (x.words = [] → d.stn < 1024 → ∃ u, exec (.feedPointInjection g q) s = .next u ∧ u.ring = s.ring ∧
        (u.station d.stn).stopAt ≠ none ∧ (s.bit .ringErr (dieOf d.stn) 31 = false → u.fld .ringErr (dieOf d.stn) 30 28 = 6)))

/-- The crossings, each on its ordinary path and on its error. The next word of a seam or bridge is brought to the half it leads to, which takes
it on its next tick; a word that fails there arrives poisoned and RING_ERR captures it; a bridge that repeats transmissions counts the retry.
A drift changes a crossing FIFO's occupancy by one and requests a shutter at 1 or less and at 7 or more. A read of an empty FIFO brings the
poisoned word in place of the one that is not there; a write into a full one loses the word written and poisons the word that the FIFO delivers
next, its head. Both stop the scope by the fault of a clock. -/
def Obligations.CrossingsDeliverOrPoison : Prop :=
  ∀ (s : State) (d : Die),
    (∀ (up err : Bool) w q, let r := 2 * d.val + b2n up
      (s.pkgRing = false ∨ up = true) → s.halted r = false → s.arriving r = [] → s.seamQ (2 * d + b2n (!up)) = w :: q →
      ((w.valid = true → err = false ∧ w.ok = true) → ∃ u, exec (.seamCrossing d up err) s = .next u ∧
        u = (s.setSeamQ (2 * d + b2n (!up)) q).setArriving r [w]) ∧
      (w.valid = true → (err = true ∨ w.ok = false) → ∃ u, exec (.seamCrossing d up err) s = .next u ∧
        u.arriving r = [w.poisoned] ∧ u.seamQ (2 * d + b2n (!up)) = q ∧
        (s.bit .ringErr d 31 = false → u.fld .ringErr d 30 28 = 3))) ∧
    (∀ w q, s.pkgRing = true → s.arriving (2 * d) = [] → s.bridgeQ d = w :: q → w.valid = true → w.ok = true →
      (∃ u, exec (.bridgeDelivery d 0) s = .next u ∧ u = (s.setBridgeQ d q).setArriving (2 * d) [w]) ∧
      (s.bit .ringBridge d 0 = true → ∃ u, exec (.bridgeDelivery d 1) s = .next u ∧ u.arriving (2 * d) = [w] ∧ u.bridgeQ d = q ∧
        u.fld .ringBridge d 31 16 = satTo 16 (s.fld .ringBridge d 31 16 + 1)) ∧
      (∃ u, exec (.bridgeDelivery d 2) s = .next u ∧ u.arriving (2 * d) = [w.poisoned] ∧ u.bridgeQ d = q ∧
        u.fld .ringBridge d 15 8 = satTo 8 (s.fld .ringBridge d 15 8 + 1) ∧
        (s.bit .ringErr d 31 = false → u.fld .ringErr d 30 28 = 4))) ∧
    (∀ (f : Fifo) (up : Bool),
      let n := if up then min 8 (s.occ d f + 1) else s.occ d f - 1
      ∃ u, exec (.fifoDriftRequest d f up) s = .next u ∧ u.occ d f = n ∧
        (1 < n → n < 7 → u = s.setOcc d f n) ∧
        (n ≤ 1 ∨ 7 ≤ n → (u.die d).reqs.contains ⟨fifoBit f, fifoLo f⟩ = true)) ∧
    (∀ f : Fifo, let r := 2 * d.val + (if f = .s01 then 1 else 0)
      s.halted r = false →
      (s.occ d f = 0 → ∃ u, exec (.crossingPoison d f) s = .next u ∧ u.arriving r = [RingWord.lost] ∧ u.stations = s.stations ∧
        (u.die d).reqs.contains ⟨12, 0⟩ = true ∧ (s.bit .ringErr d 31 = false → u.fld .ringErr d 30 28 = if f = .br then 4 else 3)) ∧
      (8 ≤ s.occ d f → ∃ u, exec (.crossingPoison d f) s = .next u ∧ u.stations = s.stations ∧ u.ring = s.ring ∧
        (let words := fun (v : State) => if f = .br then v.bridgeQ d else v.seamQ (2 * d + (if f = .s01 then 0 else 1))
         (∀ w v q, words s = w :: (q ++ [v]) → words u = RingWord.lost :: (q ++ [RingWord.empty])) ∧
         (∀ w, words s = [w] → words u = [RingWord.lost])) ∧
        (u.die d).reqs.contains ⟨12, 0⟩ = true ∧ (s.bit .ringErr d 31 = false → u.fld .ringErr d 30 28 = if f = .br then 4 else 3)))

/-- FREEZE, RESUME_ANNOUNCE and RESUME of a scope. A freeze that is due freezes every die of the scope that a request stops, counts it once and
adds the kinds of all requests that joined; no station, ring word or count changes, and dies out of scope do not. A frozen scope without requests
announces its resume a resume lead ahead. On the announced tick every die resumes with its crossing FIFOs at occupancy 4; one that holds loaded
stations passes its start boundary, with its reference counts 0; stations in settle mode look ahead from there, and nothing else of a station
changes. FAULT_FLIT: the flits that have reached the die are taken together, and the first of them in the order of R247 that is no memory error is
captured in SHT_FAULT while VALID is 0; none of them is taken twice. -/
def Obligations.FreezesResumesAndFaultFlits : Prop :=
  (∀ (s : State) (d : Die),
    (s.freezeDue d = true → ∃ u, exec (.freeze d) s = .next u ∧
      (∀ x ∈ s.scope d, s.dieDue x = true → (u.die x).frozen = true ∧
        u.reg .shtCount x = satTo 32 (s.reg .shtCount x + 1) ∧ u.reg .shtCause x = s.reg .shtCause x ||| s.joining d % 2 ^ 13) ∧
      (∀ x, x ∉ s.scope d ∨ s.dieDue x = false → u.die x = s.die x) ∧ (∀ r, u.ref r = s.ref r) ∧ u.stations = s.stations ∧
      u.ring = s.ring ∧ u.stackMem = s.stackMem) ∧
    ((s.die d).frozen = true → (s.die d).resumeIn = none → s.scopePending d = false →
      ∃ u, exec (.resumeAnnounce d) s = .next u ∧ u = { s with dies := u.dies } ∧
        (∀ x ∈ s.scope d, (s.die x).frozen = true → (s.die x).resumeIn = none →
          u.die x = { s.die x with resumeIn := some (s.horizon d) }) ∧
        (∀ x, x ∉ s.scope d → u.die x = s.die x)) ∧
    ((s.die d).frozen = true → (s.die d).resumeIn = some 0 →
      ∃ u, exec (.resume d) s = .next u ∧
        (∀ x ∈ s.scope d, (s.die x).frozen = true → (s.die x).resumeIn ≠ none →
          (u.die x).frozen = false ∧ (u.die x).resumeIn = none ∧ (u.die x).hold = false ∧ (∀ f, u.occ x f = 4) ∧
          (∀ h < 2, u.ref (2 * x + h) = if (s.die x).hold then 0 else s.ref (2 * x + h))) ∧
        ((∀ x ∈ s.scope d, (s.die x).hold = false) →
          u.ring = s.ring ∧ (∀ i, u.station i = { s.station i with settleAt := (u.station i).settleAt }) ∧
          ((∀ i ∈ s.used, dieOf i ∈ s.scope d → s.bit .stnArrayCtrl i 0 = false) →
            u.stations = s.stations ∧ (∀ x, x ∉ s.scope d → u.die x = s.die x))))) ∧
  (∀ (s : State) (d : Die) (f : FaultFlit),
    let due := (s.die d).flits.filter (fun f => decide (f.left = 0))
    firstFlit (due.filter (fun f => f.code ≠ 0)) = some f →
    ∃ u, exec (.faultFlit d) s = .next u ∧
      (u.die d).flits = (s.die d).flits.filter (fun f => decide (f.left ≠ 0)) ∧
      (s.bit .shtFault d 31 = false → u.reg .shtFault d = 2 ^ 31 + f.word % 2 ^ 31) ∧
      (s.bit .shtFault d 31 = true → u.reg .shtFault d = s.reg .shtFault d) ∧
      u.stations = s.stations ∧ u.ring = s.ring)

/-- TICK and CLOCK_STRETCH. A tick of a region whose schedule runs and which waits for nothing advances its reference count, moves every word of
its ring positions one hop, and lands in each of its stations what the ops in flight write on the tick that ends; other regions' counts and words
stay. A tick of a frozen region advances no count: every station but for its X ops, which come nearer to their requests, and every ring word
stands, and an announced resume comes one tick nearer on the region of the die's control net. On that region's ticks, frozen or not, every fault
flit on its way to the die comes one tick nearer. A tick waits for a resume that is to be announced or has come, a freeze, a fault flit that has
arrived, and for a boundary, the end of a wait or a word of a ROM routine that falls on this tick. A clock stretch is counted and advances no
count. Ops in flight read the station as the tick before left it, also where a write of this tick changes what they read. Of the writes that land,
those of one scalar register or of one tile element stand in the order L over V over INC, and L, V, drain: a write that comes after every other
write of its target, by that order, is what the target holds then; a write whose tick has not come stays on its way. The order of what happens
within one tick is the model's (log entries 1, 2 and 11). -/
def Obligations.TicksMoveTheRing : Prop :=
  (∀ (s : State) (r : Region) (xs : List XferAt),
    let net := r = s.netRegion (r / 2)
    let nearer := fun (u : State) => ∀ f ∈ (s.die (r / 2)).flits, (if net then { f with left := f.left - 1 } else f) ∈ (u.die (r / 2)).flits
    (s.ticking r = true → s.tickWaits r = false → (s.die (r / 2)).frozen = false →
      ∃ u, exec (.tick ⟨r, xs⟩) s = .next u ∧ u.ref r = s.ref r + 1 ∧ (∀ r', r' ≠ r.val → u.ref r' = s.ref r') ∧ nearer u ∧
        (∀ k < 131, u.slotAt (132 * r + k + 1) = (s.endTick r).slotAt (132 * r + k)) ∧
        (∀ k, k / 132 ≠ r.val → u.slotAt k = (s.endTick r).slotAt k) ∧
        (∀ w, (s.endTick r).arriving r = [w] → (s.endTick r).ringTakes r = true → u.slotAt (132 * r) = w) ∧
        (s.used.Nodup → ∀ i k, i ∈ s.used → regionOf i = r → s.tickOf i = some k → (s.station i).unst = [] →
          (u.station i).tiles = ((s.pipeTick i k).station i).tiles) ∧
        (∀ i, regionOf i ≠ r.val → (u.station i).tiles = (s.station i).tiles)) ∧
    (s.ticking r = true → s.tickWaits r = false → (s.die (r / 2)).frozen = true →
      ∃ u, exec (.tick ⟨r, xs⟩) s = .next u ∧ (∀ r', u.ref r' = s.ref r') ∧ u.ring = s.ring ∧ nearer u ∧
        (s.used.Nodup → (∀ i ∈ s.fw.subst, dieOf i ≠ r / 2) →
          ∀ i, u.station i = if regionOf i = r.val then (s.station i).xNearer else s.station i) ∧
        (u.die (r / 2)).resumeIn = (if net then (s.die (r / 2)).resumeIn.map (· - 1) else (s.die (r / 2)).resumeIn)) ∧
    (s.ticking r = false ∨ s.tickWaits r = true → exec (.tick ⟨r, xs⟩) s = .next s) ∧
    ((s.die (r / 2)).frozen = true → (s.announceDue (r / 2) = true ∨ (s.die (r / 2)).resumeIn = some 0) → s.tickWaits r = true) ∧
    ((s.die (r / 2)).frozen = false → s.halted r = true → s.tickWaits r = true) ∧
    (net → s.flitDue (r / 2) = true → s.tickWaits r = true) ∧
    (∀ (i t : Nat), i ∈ s.used → regionOf i = r → s.liveTick i = some t →
      ((∃ b, (s.station i).bounds.head? = some b ∧ b.tick ≤ t) ∨ (∃ m w, (s.stream i m).wait = some w ∧ w.ends t = true) ∨
        (∃ m w, (s.stream i m).romWord t = some w)) → s.tickWaits r = true) ∧
    (∃ u, exec (.clockStretch r) s = .next u ∧ s.RegsOnly u [Reg.at .clkRegionStatus r] ∧
      u.fld .clkRegionStatus r 15 0 = satTo 16 (s.fld .clkRegionStatus r 15 0 + 1))) ∧
  (∀ (s : State) (n : Stn) (u : Nat),
    let x := s.station n
    let y := (s.pipeTick n u).station n
    (∀ f ∈ y.vq, ∃ g ∈ x.vq, f = g.capture x u ∧ f.done u = false) ∧
    (∀ f ∈ y.dq, ∃ g ∈ x.dq, f = g.capture x u ∧ f.done u = false) ∧
    (∀ f ∈ y.mq, f ∈ x.mq ∧ f.done u = false) ∧
    (∀ w ∈ y.late, u < w.due ∧ (w ∈ x.late ∨ ∃ f ∈ x.mq, w ∈ f.reads x u)) ∧
    (∀ w ∈ x.late, u < w.due → w ∈ y.late)) ∧
  (∀ (s : State) (n : Stn) (ws : List Late) (w : Late) (m : Strm) (k : Nat) (v : Word), w ∈ ws → w.wr = .sreg m k v →
    (∀ z ∈ ws, z ≠ w → ∀ v', z.wr = .sreg m k v' → z.pri.rank < w.pri.rank) →
    ((s.landAll n ws).stream n m).sreg k = v) ∧
  (∀ (s : State) (n : Stn) (ws : List Late) (w : Late) (r k : Nat) (vs : List (Nat × Word)) (v : Word), w ∈ ws → w.wr = .els r vs →
    (k, v) ∈ vs → (∀ p ∈ vs, p.1 = k → p.2 = v) → k < ((s.station n).tile r).length →
    (∀ z ∈ ws, z ≠ w → (∀ bs, z.wr = .bytes r bs → z.pri.rank < w.pri.rank) ∧
      ∀ vs', z.wr = .els r vs' → (∃ p ∈ vs', p.1 = k) → z.pri.rank < w.pri.rank) →
    (((s.landAll n ws).station n).tile r).el k = v) ∧
  (Pri.gInc.rank < Pri.v.rank ∧ Pri.xInc.rank < Pri.v.rank ∧ Pri.v.rank < Pri.lReg.rank ∧ Pri.lInc.rank < Pri.lReg.rank ∧
    Pri.lPort.rank < Pri.v.rank ∧ Pri.v.rank < Pri.drain.rank ∧ Pri.lPort.rank < Pri.ring.rank ∧ Pri.drain.rank < Pri.landing.rank)

/-- EPOCH_BOUNDARY and EPOCH_UNIT_DECISION. A station that reaches a boundary it has marked, while another participating station of its die
has not passed it, leaves it behind, toggles its ownership map if that is armed, enters every armed bank that holds a checked image at its
entry, and posts its three live Lens records. The epoch unit takes the flits of its oldest boundary once it may decide; where they break R213 it
sets the mismatch bit and requests the fault shutter. -/
def Obligations.EpochBoundariesAndDecisions : Prop :=
  (∀ (s : State) (n : Stn) (t : Nat) (b : Boundary) (bs : List Boundary),
    s.liveTick n = some t → (s.station n).bounds = b :: bs → b.tick ≤ t →
    (s.participates n = false ∨ ∃ j ∈ s.party (dieOf n), j ≠ n.val ∧ (s.station j).passed ≤ (s.station n).passed) →
    ∃ u, exec (.epochBoundary n) s = .next u ∧ (u.station n).bounds = bs ∧
      (u.station n).passed = (s.station n).passed + 1 ∧ (u.station n).ownPend = false ∧
      (u.station n).ownSet = (if (s.station n).ownPend then !(s.station n).ownSet else (s.station n).ownSet) ∧
      (∀ (m : Strm) e, (s.stream n m).swap = some e → (s.station n).otherReady m = true →
        u.stream n m = (s.stream n m).swapTo e b.tick) ∧
      (∀ (m : Strm) e, (s.stream n m).swap = some e → (s.station n).otherReady m = false →
        (u.stream n m).swap = none ∧ (u.stream n m).bank = (s.stream n m).bank ∧ (u.stream n m).pc = (s.stream n m).pc) ∧
      (∀ m, (u.station n).lensOf m = LensRec.empty) ∧
      (u.die (dieOf n)).posts = (s.die (dieOf n)).posts ++
        [Strm.F, .B, .U].map (fun m => ⟨(s.stream n m).ltag, m, (s.station n).lensOf m⟩) ∧
      (∀ j, j ≠ n.val → u.station j = s.station j)) ∧
  (∀ (s : State) (d : Die) (f : EpochFlit) (fs : List EpochFlit), (s.die d).epochs = f :: fs →
    let g := (f :: fs).filter (fun e => e.tick = f.tick)
    let left := (f :: fs).filter (fun e => e.tick ≠ f.tick)
    s.epochDue d g f = true →
    (s.epochBad d g f = true → ∃ u, exec (.epochUnitDecision d) s = .next u ∧ (u.die d).epochs = left ∧
      u.bit .shtEpoch d 31 = true ∧ (u.die d).reqs.contains ⟨12, 0⟩ = true) ∧
    (s.epochBad d g f = false → s.fw.closing = false → ∃ u, exec (.epochUnitDecision d) s = .next u ∧
      u = s.modDie d (fun y => { y with epochs := left })))

/-! ### Registers -/

/-- A read of the lower half of a pair answers it and captures the upper half for its requester alone; that requester's next read of the upper
half answers and consumes the capture, and with no capture answers the current half. A read that finds no register, a segment out of
service or an unpowered domain answers that status and changes nothing. -/
def Obligations.PairReadsCaptureTheUpperHalf : Prop :=
  ∀ (s : State) (who : Requester),
    (∀ (r : Reg) (i : Nat), r.info.pair = true → s.regLocate (r.at i) 4 = .ok (r, i, false) →
      ∃ u, exec (.pairLoRead who (r.at i)) s = .next u ∧ u = { s with caps := u.caps, out := u.out } ∧
        u.out = .reg who (r.at i) 0 (BitVec.ofNat 32 (s.regRead r i false)) :: s.out ∧
        u.capOf who (r.at i) = some (s.regRead r i true % 2 ^ 32) ∧ (∀ w o, w ≠ who → u.capOf w o = s.capOf w o)) ∧
    (∀ (r : Reg) (i : Nat), r.info.pair = true → s.regLocate (r.at i + 4) 4 = .ok (r, i, true) →
      ∃ u, exec (.pairHiRead who (r.at i + 4)) s = .next u ∧ u = { s with caps := u.caps, out := u.out } ∧
        u.out = .reg who (r.at i + 4) 0 (BitVec.ofNat 32 ((s.capOf who (r.at i)).getD (s.regRead r i true))) :: s.out ∧
        u.capOf who (r.at i) = none ∧ (∀ w o, w ≠ who → u.capOf w o = s.capOf w o)) ∧
    (∀ off st, s.regLocate off 4 = .error st →
      exec (.pairLoRead who off) s = .next (s.emit (.reg who off st 0)) ∧
      exec (.pairHiRead who off) s = .next (s.emit (.reg who off st 0)))

/-- REGISTER_WRITE by field type, for a register whose write does no more than its fields take. An accepted write takes its RW bits, clears
the W1C bits written 1 and discards the rest; its RWE bits take effect at once while their owner is stopped, else they are held for the
boundary they join; the answer is OK. No memory changes, unless the write ends or moves a region's twin: its bytes then stay where it lay (the
model's choice, log entry 13). A refused write changes no register and answers its status; where it is a Zenith record beyond the governor's
limits, GOV_STATUS.REFUSED and the alert of the governor note it. -/
def Obligations.RegisterWritesFollowTheirFieldTypes : Prop :=
  ∀ (s : State) (who : Requester) (off width : Nat) (val : Word),
    (∀ st, s.regLocate off width = .error st →
      exec (.registerWrite who off width val) s = .next (s.emit (.reg who off st 0))) ∧
    (∀ (r : Reg) (i : Nat) (hi : Bool), s.regLocate off width = .ok (r, i, hi) → r.acts = false →
      let v := val.toNat
      let o := r.at i + (if hi then 4 else 0)
      (s.csrCheck who r i v ≠ stOk → r ≠ .pwrZenithClkv → r ≠ .pwrZenithCfg →
        exec (.registerWrite who off width val) s = .next (s.emit (.reg who off (s.csrCheck who r i v) 0))) ∧
      (s.csrCheck who r i v ≠ stOk → r = .pwrZenithClkv ∨ r = .pwrZenithCfg →
        ∃ u, exec (.registerWrite who off width val) s = .next u ∧ u.out.head? = some (.reg who off (s.csrCheck who r i v) 0) ∧
          (∀ (q : Reg) (p : Nat), p ≠ Reg.at .govStatus 0 → p ≠ Reg.at .pwrAlertStatus 0 → u.regAt q p = s.regAt q p) ∧
          ((r = .pwrZenithClkv ∧ (40 < bitsOf v 31 26 ∨ 40 < bitsOf v 25 20)) ∨
              (r = .pwrZenithCfg ∧ bitOf v 31 = true ∧ zenithOver (s.reg .pwrZenithClkv 0) = true) →
            u.bit .govStatus 0 29 = true ∧ u.bit .pwrAlertStatus 0 6 = true)) ∧
      (s.csrCheck who r i v = stOk → r.info.rwe = 0 → ∃ u, exec (.registerWrite who off width val) s = .next u ∧
        (∀ k < 32, (u.regAt r o).testBit k = r.info.bitAfter (s.regAt r o) v k) ∧
        (∀ (q : Reg) (p : Nat), p ≠ o → u.regAt q p = s.regAt q p) ∧
        u = { s with regs := u.regs, out := u.out, stackMem := u.stackMem } ∧
        (r ≠ .prismRgnBase ∧ r ≠ .prismRgnShape ∧ r ≠ .prismRgnScale ∧ r ≠ .prismRgnTwin → u.stackMem = s.stackMem) ∧
        u.out.head? = some (.reg who off 0 0)) ∧
      (s.csrCheck who r i v = stOk → r.info.rwe ≠ 0 → r ≠ .segSpare → s.ownerStopped r i = true →
        ∃ u, exec (.registerWrite who off width val) s = .next u ∧
        (∀ k < 32, r.info.rwe.testBit k = true → (u.regAt r (r.at i)).testBit k = v.testBit k) ∧
        (∀ (q : Reg) (p : Nat), p ≠ o → p ≠ r.at i → u.regAt q p = s.regAt q p)) ∧
      (s.csrCheck who r i v = stOk → r.info.rwe ≠ 0 → s.ownerStopped r i = false →
        ∃ u, exec (.registerWrite who off width val) s = .next u ∧
        (∀ k < 32, (u.regAt r o).testBit k = r.info.bitAfter (s.regAt r o) v k) ∧
        (∀ (q : Reg) (p : Nat), p ≠ o → u.regAt q p = s.regAt q p) ∧
        (∀ n, r.stn i = some n → (r.at i, BitVec.ofNat 32 (only v r.info.rwe)) ∈ (u.station n).rwe) ∧
        (∀ d, r.stn i = none → r.dieIx i = some d →
          (⟨r.at i, BitVec.ofNat 32 (only v r.info.rwe), s.maxPassed d + 1⟩ : DieRwe) ∈ (u.die d).rwe)))

/-- The counter-clear commands: with the write accepted, the counters that the bit clears read 0 afterwards, whatever its other bits. -/
def Obligations.CounterClearsClear : Prop :=
  ∀ (s : State) (who : Requester) (val : Word),
    let v := val.toNat
    (∀ n : Stn, s.accepts who .stnArrayCtrl n (v ||| 2 ^ 1) → ∃ u, exec (.arrayCntClr who n val) s = .next u ∧
      u.pair .stnMmaCount n = 0 ∧ u.pair .stnRowTicks n = 0) ∧
    (∀ d : Die, s.accepts who .ringBridge d (v ||| 2 ^ 1) → ∃ u, exec (.bridgeCntClr who d val) s = .next u ∧
      u.fld .ringBridge d 31 8 = 0) ∧
    (∀ d : Die, s.accepts who .shtCtrl d (v ||| 2 ^ 13) → ∃ u, exec (.shtCntClr who d val) s = .next u ∧
      u.reg .shtCount d = 0 ∧ u.pair .shtTicks d = 0 ∧ u.fld .shtFifo d 31 16 = 0) ∧
    (∀ d : Die, s.accepts who .dbgTraceDrop d v → ∃ u, exec (.traceDropClr who d val) s = .next u ∧ u.reg .dbgTraceDrop d = 0) ∧
    (∀ d : Die, s.accepts who .msLcCtrl d (v ||| 2 ^ 2) → ∃ u, exec (.lcCntClr who d val) s = .next u ∧
      u.pair .msLcHits d = 0 ∧ u.pair .msLcMiss d = 0) ∧
    (∀ k : Seg, s.accepts who .msCtrl k (v ||| 2 ^ 3) → ∃ u, exec (.msCntClr who k val) s = .next u ∧ u.reg .msErrCount k = 0) ∧
    (∀ p : PyPort, s.accepts who .pyPortCtrl p (v ||| 2 ^ 29) → ∃ u, exec (.pyCntClr who p val) s = .next u ∧
      u.reg .pyPortErrs p = 0 ∧ u.pair .pyFecCorr p = 0 ∧ u.pair .pyTxFlits p = 0 ∧ u.pair .pyRxFlits p = 0) ∧
    (s.accepts who .pyErrCount 0 v → ∃ u, exec (.pyErrCountClr who val) s = .next u ∧ u.reg .pyErrCount 0 = 0) ∧
    (∀ p : EthPort, s.accepts who .ethPortCtrl p (v ||| 2 ^ 30) → ∃ u, exec (.ethCntClr who p val) s = .next u ∧
      u.reg .ethErrCount p = 0 ∧ u.pair .ethRxFrames p = 0 ∧ u.pair .ethTxFrames p = 0 ∧ u.pair .ethRxBytes p = 0 ∧
      u.pair .ethFecCorr p = 0)

/-- The accepted control writes of a die and its stations: FW_HOLD held and released as a shutter request; a spare substitution that
quarantines every station whose slot moves; a format-table entry; a unit's state epoch; and DBG_STEP, which resumes a station at its break
for good, or for TICKS + 1 ticks. The accepted control writes of the stacks, and what the stacks do by themselves: LC_INV leaves no valid
line, and no fill in flight will be installed; a channel test starts with its error count 0; STOP is noted of one that runs, which then ends
where its run has come to, and one that nothing stops ends with its range, where one that repeats goes on; a test that only checks changes no
memory; a patrol scrub of an enabled stack counts the corrected lines. -/
def Obligations.DieAndStackControlWrites : Prop :=
  (∀ (s : State) (who : Requester) (d : Die) (val : Word),
    let v := val.toNat
    (s.accepts who .shtCtrl d (v ||| 2 ^ 14) → ∃ u, exec (.fwHoldSet who d val) s = .next u ∧
      u.bit .shtCtrl d 14 = true ∧ (u.die d).reqs.contains ⟨11, 0⟩ = true) ∧
    (s.accepts who .shtCtrl d (only v (2 ^ 32 - 1 - 2 ^ 14)) → ∃ u, exec (.fwHoldRelease who d val) s = .next u ∧
      u.bit .shtCtrl d 14 = false ∧ (u.die d).reqs = (s.die d).reqs.filter (fun q => q ≠ ⟨11, 0⟩)) ∧
    (∀ g : Seg, s.accepts who .segSpare g v → s.ownerStopped .segSpare g = true →
      ∃ u, exec (.spareSubstitution who g val) s = .next u ∧ u.sparePos g = bitsOf v 5 0 ∧ u.stations = s.stations ∧
        (∀ k < 32, slotPos (s.sparePos g) k ≠ slotPos (bitsOf v 5 0) k → u.quarantined (32 * g + k) = true) ∧
        (∀ k < 32, slotPos (s.sparePos g) k = slotPos (bitsOf v 5 0) k →
          u.quarantined (32 * g + k) = s.quarantined (32 * g + k))) ∧
    (∀ tag : BitVec 12, s.accepts who .fmtTable (4096 * d + tag.toNat) v →
      (s.dieRunning d = false → ∃ u, exec (.fmtTableWrite who d tag val) s = .next u ∧
        u.reg .fmtTable (4096 * d + tag.toNat) = mix (s.reg .fmtTable (4096 * d + tag.toNat)) v 0xFFFF038F) ∧
      (s.dieRunning d = true → ∃ u, exec (.fmtTableWrite who d tag val) s = .next u ∧
        u.reg .fmtTable (4096 * d + tag.toNat) = s.reg .fmtTable (4096 * d + tag.toNat) ∧
        (⟨Reg.at .fmtTable (4096 * d + tag.toNat), BitVec.ofNat 32 (only v 0xFFFF038F), s.maxPassed d + 1⟩ : DieRwe) ∈ (u.die d).rwe)) ∧
    (∀ n : Stn, s.accepts who .stnStateEpoch n v → ∃ u, exec (.stateEpochWrite who (.station n) val) s = .next u ∧
      u.fld .stnStateEpoch n 15 0 = v % 2 ^ 16) ∧
    (∀ g : Fin 4096, s.accepts who .msPgEpoch g v → ∃ u, exec (.stateEpochWrite who (.pageGroup g) val) s = .next u ∧
      u.fld .msPgEpoch g 15 0 = v % 2 ^ 16) ∧
    (bitsOf v 25 24 = 0 →
      let n := 256 * d.val + bitsOf v 23 16
      (s.accepts who .dbgStep d (v ||| (2 ^ 31 + 2 ^ 30)) → ∃ u, exec (.dbgStepFree who d val) s = .next u ∧
        u.station n = { s.station n with run := .running, stopAt := none, step := none } ∧ (∀ j, j ≠ n → u.station j = s.station j)) ∧
      (s.accepts who .dbgStep d (only v (2 ^ 30 - 1) + 2 ^ 31) → ∃ u, exec (.dbgStepTicks who d val) s = .next u ∧
        u.station n = { s.station n with run := .running, stopAt := some (s.tick0 n + bitsOf v 15 0 + 1),
                                         step := some (s.tick0 n + bitsOf v 15 0 + 1) } ∧
        (∀ j, j ≠ n → u.station j = s.station j)))) ∧
  (∀ (s : State) (who : Requester) (val : Word) (ch : Fin 128),
    let v := val.toNat
    (∀ d : Die, s.accepts who .msLcCtrl d (v ||| 2 ^ 1) → ∃ u, exec (.lcInv who d val) s = .next u ∧
      (u.die d).lines = [] ∧ (u.die d).fills = (s.die d).fills.map (fun f => if (s.die d).sent f then { f with stale := true } else f)) ∧
    (s.accepts who .msTgCtrl ch (v ||| 2 ^ 31) → bitOf v 30 = false → ∃ u, exec (.tgStart who ch val) s = .next u ∧
      u.reg .msTgErrs ch = 0 ∧ u.bit .msTgStatus ch 31 = true ∧ u.stackMem = s.stackMem) ∧
    (s.accepts who .msTgCtrl ch (v ||| 2 ^ 30) → s.bit .msTgStatus ch 31 = true → ∃ u, exec (.tgStop who ch val) s = .next u ∧
      u.tgStops.contains ch.val = true ∧ u.bit .msTgStatus ch 31 = true ∧ u.stations = s.stations ∧ u.stackMem = s.stackMem) ∧
    (∀ upto bad, s.bit .msTgStatus ch 31 = true → ∃ u, exec (.tgRunDone ⟨ch, upto, bad⟩) s = .next u ∧ u.stations = s.stations ∧
      u.bit .msTgStatus ch 31 = (decide (s.fld .msTgCtrl ch 29 28 = 3) && !s.tgStops.contains ch.val) ∧ u.tgStops.contains ch.val = false ∧
      (s.fld .msTgCtrl ch 29 28 = 2 → u.stackMem = s.stackMem)) ∧
    (∀ n, s.bit .msCtrl (ch.val / 4) 2 = true → ∃ u, exec (.patrolScrub ch n) s = .next u ∧
      s.RegsOnly u [Reg.at .msErrCount (ch.val / 4)] ∧
      u.fld .msErrCount (ch.val / 4) 31 16 = satTo 16 (s.fld .msErrCount (ch.val / 4) 31 16 + n)))

/-- The accepted control writes of ports, power and attestation. PORT_ENABLE starts TRAIN once the module has an ID, PORT_DISABLE turns the
port off, PORT_RETRAIN sends an active port to RETRAIN and a downed one to TRAIN; an Ethernet port is enabled, or disabled with its QPs in
Reset; PROFILE_ARM in native mode arms the switch, which goes at once where no station runs; IDLE_HINT notes its pending bit; AVS frames go out and
their replies come back, a write of the target voltage waiting on for its end; an attestation captures its report, and its end replaces ID_REPORT. -/
def Obligations.PortPowerAndAttestWrites : Prop :=
  ∀ (s : State) (who : Requester) (val : Word),
    let v := val.toNat
    (∀ p : PyPort, s.accepts who .pyPortCtrl p (v ||| 2 ^ 31) → s.bit .pyPortCtrl p 31 = false → s.pyState p = 0 →
      s.ownId ≠ none → ∃ u, exec (.portEnable who p val) s = .next u ∧ u.pyState p = 1 ∧ u.bit .pyPortCtrl p 31 = true) ∧
    (∀ p : PyPort, s.accepts who .pyPortCtrl p (only v (2 ^ 32 - 1 - 2 ^ 31)) →
      ∃ u, exec (.portDisable who p val) s = .next u ∧ u.pyState p = 0 ∧ u.bit .pyPortCtrl p 31 = false) ∧
    (∀ p : PyPort, s.accepts who .pyPortCtrl p (v ||| 2 ^ 30) → bitOf v 31 = true → s.bit .pyPortCtrl p 31 = true →
      ∃ u, exec (.portRetrain who p val) s = .next u ∧
        (s.pyState p = 4 → u.pyState p = 5) ∧ (s.pyState p = 6 → u.pyState p = 1)) ∧
    (∀ p : EthPort, s.accepts who .ethPortCtrl p (v ||| 2 ^ 31) → ∃ u, exec (.ethPortEnable who p val) s = .next u ∧
      u.bit .ethPortCtrl p 31 = true ∧ u.qps = s.qps) ∧
    (∀ p : EthPort, s.accepts who .ethPortCtrl p (only v (2 ^ 32 - 1 - 2 ^ 31)) → ∃ u, exec (.ethPortDisable who p val) s = .next u ∧
      u.bit .ethPortCtrl p 31 = false ∧ u.fld .ethPortStatus p 31 30 = 0 ∧
      (∀ n < 65, u.qpState (qpKey p n) = 0 ∧ u.qp (qpKey p n) = QpSt.reset)) ∧
    (s.accepts who .pwrProfile 0 (v ||| 2 ^ 31) → s.legacyMode = false → ∃ u, exec (.profileArm who val) s = .next u ∧
      u.armed = true ∧ u.nextProf = bitsOf v 17 16 ∧ u.active = s.active ∧
      (s.anyRunning = false → u.pwr.trigger = true)) ∧
    (s.accepts who .pwrZenithCfg 0 (v ||| 2 ^ 31) → ∃ u, exec (.zenithRecordWrite who val) s = .next u ∧
      u.reg .pwrZenithCfg 0 = v ||| 2 ^ 31) ∧
    (s.accepts who .pwrIdleHint 0 v → ∃ u, exec (.idleHint who val) s = .next u ∧
      u.bit .pwrIdleHint 0 31 = (!bitOf v 31) ∧ u.fld .pwrIdleHint 0 11 0 = v % 2 ^ 12) ∧
    (∀ r : AvsReply, s.accepts who .pwrAvsCmd 0 (only v (2 ^ 30 - 1) + 2 ^ 31) → s.legacyMode = false → s.pwr.avs = none →
      s.pwr.legacy = [] → s.pwr.avsWait = [] → s.avsRefused ⟨true, bitsOf v 27 24, bitsOf v 23 20, bitsOf v 15 0, 0, false, .command⟩ = false →
      r.crcOk = true → r.acked = true → ∃ u, exec (.avsWrite who val r) s = .next u ∧ u.pwr.rails = s.pwr.rails ∧
        (bitsOf v 23 20 = 0 → u.pwr.avs = some ⟨true, bitsOf v 27 24, 0, bitsOf v 15 0, 0, true, .command⟩ ∧ u.bit .pwrAvsResult 0 31 = true) ∧
        (bitsOf v 23 20 ≠ 0 → u.pwr.avs = none ∧ u.fld .pwrAvsResult 0 31 28 = 0)) ∧
    (∀ r : AvsReply, s.accepts who .pwrAvsCmd 0 (v ||| (2 ^ 31 + 2 ^ 30)) → s.pwr.avs = none → s.pwr.legacy = [] → s.pwr.avsWait = [] →
      r.crcOk = true → r.acked = true → ∃ u, exec (.avsRead who val r) s = .next u ∧ u.pwr.avs = none ∧
        u.fld .pwrAvsResult 0 30 28 = 0 ∧ u.fld .pwrAvsResult 0 15 0 = r.data.toNat) ∧
    (s.accepts who .idAttest 0 (v ||| 2 ^ 31) → ∃ u, exec (.attestGo who val) s = .next u ∧
      u.bit .idAttest 0 30 = true ∧ u.fld .idAttest 0 28 26 = originOf who ∧ u.attest.isSome = true) ∧
    (∀ body sig, s.attest = some (body, sig) → ∃ u, exec .attestDone s = .next u ∧ u.attest = none ∧
      u.bit .idAttest 0 30 = false ∧ u.bit .idAttest 0 29 = true ∧
      (∀ w < 1024, u.reg .idReport w = leNat (((takeN 4096 (body ++ takeN 3309 (Config.sign body))).drop (4 * w)).take 4)))

/-! ### Pycia and Ethernet -/

/-- How a Pycia port comes up and stays up. TRAIN ends with eight lanes mapped around a failed one, or with half width where that is allowed,
and the far end is told the map; ALIGN leads to PROBE, in which the port says who it is; matching roles make the port ACTIVE, others hold it
with MISMATCH and are reported to Steward; a time-out leads to DOWN, counted. A lane in use that fails is replaced by a free spare, and the
port tells its far end, and retrains where it was ACTIVE; without one it drops to half width, where that is allowed, or goes down. A map that
the far end imposes is taken where all its lanes work. A retrain replays what the far end has not acknowledged; the third within a second
ends in DOWN. Which lanes stay in use at half width is the model's choice (log entry 59), as is the layout of a link-control unit (log
entry 25). -/
def Obligations.PortsTrainAndRecover : Prop :=
  ∀ (s : State) (p : PyPort),
    let down := fun (c : Instr) => ∃ u, exec c s = .next u ∧ u.pyState p = 6 ∧ (u.port p).replay = [] ∧
      u.fld .pyPortErrs p 7 0 = satTo 8 (s.fld .pyPortErrs p 7 0 + 1)
    let reported := fun (r : List Out) => r = [] ∨ ∃ v, r = [.steward v]
    let tells := fun (u : State) (kind val : Nat) =>
      ∃ w r r', u.out = r ++ .linkCtl p kind val w :: (r' ++ s.out) ∧ reported (r ++ r')
    let after := if s.pyState p = 4 then 5 else s.pyState p
    (∀ locked : BitVec 9, s.pyState p = 1 →
      let n := ((List.range 9).filter (fun l => bitOf locked.toNat l)).length
      (8 ≤ n → ∃ u, exec (.trainComplete p locked) s = .next u ∧ u.pyState p = 2 ∧ u.bit .pyPortStatus p 27 = false ∧
        tells u 2 (u.reg .pyLaneMap p) ∧ (∀ k < 8, u.laneOf p k = if bitOf locked.toNat k then k else 8)) ∧
      (4 ≤ n → n < 8 → s.bit .pyPortCtrl p 28 = true → ∃ u, exec (.trainComplete p locked) s = .next u ∧ u.pyState p = 2 ∧
        tells u 2 (u.reg .pyLaneMap p) ∧ u.bit .pyPortStatus p 27 = true) ∧
      ((n < 4 ∨ (n < 8 ∧ s.bit .pyPortCtrl p 28 = false)) → exec (.trainComplete p locked) s = .next s)) ∧
    (s.pyState p = 1 → down (.trainTimeout p)) ∧
    (s.pyState p = 2 → (∃ u, exec (.alignComplete p) s = .next u ∧ u.pyState p = 3 ∧
        tells u 3 (s.fld .pyModuleId 0 15 0 + s.role p * 2 ^ 16 + p.val * 2 ^ 20) ∧ (u.port p).replay = (s.port p).replay) ∧
      down (.alignTimeout p)) ∧
    (∀ (m : BitVec 16) (port role : BitVec 4), s.pyState p = 3 → ∃ u, exec (.probeExchange p m port role) s = .next u ∧
      u.reg .pyNeighbor p = port.toNat * 2 ^ 20 + role.toNat * 2 ^ 16 + m.toNat ∧
      (rolesMatch (s.role p) role.toNat = true → u.pyState p = 4 ∧ u.bit .pyPortStatus p 25 = false) ∧
      (rolesMatch (s.role p) role.toNat = false → u.pyState p = 3 ∧ u.bit .pyPortStatus p 25 = true ∧
        (bitOf s.pwr.on.toNat 12 = true → ∃ v : Word, bitsOf v.toNat 30 27 = 5 ∧
          (if s.fld .fwStatus 2 31 30 = 2 then u.out = .steward v :: s.out else u.fw.steward = s.fw.steward ++ [v])))) ∧
    (∀ lane : Fin 9, s.lanesLive p = true → lane.val ∈ s.lanesUsedOf p →
      let t := s.killLane p lane
      (∀ sp, t.spareLane p = some sp → s.bit .pyPortCtrl p 27 = true →
        let swaps := fun (c : Instr) => ∃ u, exec c s = .next u ∧ u.pyState p = after ∧ tells u 2 (u.reg .pyLaneMap p) ∧
          (∀ k < 8, u.laneOf p k = if s.laneOf p k = lane.val then sp else s.laneOf p k)
        swaps (.laneLoss p lane) ∧ (s.pyState p = 4 → swaps (.laneFecLimit p lane))) ∧
      ((t.spareLane p = none ∨ s.bit .pyPortCtrl p 27 = false) →
        (s.bit .pyPortCtrl p 28 = true → 4 ≤ ((t.port p).working).length →
          ∃ u, exec (.laneLoss p lane) s = .next u ∧ u.pyState p = after ∧ u.bit .pyPortStatus p 27 = true ∧
            tells u 2 (u.reg .pyLaneMap p) ∧ ∀ k < 4, u.laneOf p k ≠ lane.val) ∧
        (s.bit .pyPortCtrl p 28 = false → down (.laneLoss p lane)) ∧ exec (.laneFecLimit p lane) s = .next s)) ∧
    (∀ (e : LinkRx) (ls : List (Fin 9)), s.lanesLive p = true → let w := e.unit
      unitIntact w = true → (trailerOf w.trailer).kind = 3 → (∀ l ∈ ls, l.val ∈ (s.port p).working) →
      e.lanes = some ls → ls.length = 8 → ls.map (·.val) ≠ s.lanesUsedOf p →
      ∃ u, exec (.linkUnitRx p e) s = .next u ∧ u.pyState p = after ∧ ∀ k < 8, some (u.laneOf p k) = (ls.map (·.val))[k]?) ∧
    (∀ ack : BitVec 12, s.pyState p = 5 → down (.retrainDone p true ack) ∧
      ∃ u, exec (.retrainDone p false ack) s = .next u ∧ u.pyState p = 4 ∧
        (u.port p).again = ((s.port p).acked ack).replay ∧ (u.port p).replay = ((s.port p).acked ack).replay ∧
        (u.port p).outq = (s.port p).outq)

/-- Link units of an active port. Every unit counts what FEC met. A unit that fails its CRC, or is out of sequence, is discarded and counted, and
asks once for the expected number; one in sequence is accepted and moves it on. A NAK has the units replayed from the number it names; the
eighth for one number retrains the port. A flit leaves with the next sequence number and is kept for replay; what is to be sent again goes first;
with nothing to send an idle unit goes, which takes no number. That the credits of a sequenced unit count once it is accepted is the model's
choice (log entry 25). -/
def Obligations.LinkUnitsAreSequencedAndReplayed : Prop :=
  ∀ (s : State) (p : PyPort), s.pyState p = 4 →
    (∀ e : LinkRx,
      let w := e.unit
      let t := trailerOf w.trailer
      let takes := fun (P : State → Prop) => ∃ v, exec (.linkUnitRx p e) s = .next v ∧ P v ∧
        v.pair .pyFecCorr p = (s.pair .pyFecCorr p + e.corr) % 2 ^ 64 ∧
        v.fld .pyPortErrs p 15 8 = satTo 8 (s.fld .pyPortErrs p 15 8 + e.uncorr)
      let naks := takes (fun v => (v.port p).rxSeq = (s.port p).rxSeq ∧ (v.port p).skip = true ∧
        v.fld .pyPortErrs p 31 16 = satTo 16 (s.fld .pyPortErrs p 31 16 + 1) ∧
        ∃ c, v.out = (if (s.port p).skip then [] else [.linkCtl p 1 (s.port p).rxSeq.toNat c]) ++ s.out)
      (unitIntact w = false → naks) ∧
      (unitIntact w = true → (t.kind = 1 ∨ t.kind = 2) → BitVec.ofNat 12 t.seq ≠ (s.port p).rxSeq → naks) ∧
      (unitIntact w = true → (t.kind = 1 ∨ t.kind = 2) → BitVec.ofNat 12 t.seq = (s.port p).rxSeq →
        takes (fun v => (v.port p).rxSeq = (s.port p).rxSeq + 1 ∧ (v.port p).lastAck = (s.port p).rxSeq ∧
          (v.port p).skip = false ∧ (v.port p).replay = ((s.port p).acked (BitVec.ofNat 12 t.ack)).replay ∧
          v.pair .pyRxFlits p = (s.pair .pyRxFlits p + 1) % 2 ^ 64)) ∧
      (unitIntact w = true → (t.kind = 0 ∨ (t.kind = 3 ∧ e.lanes = none)) →
        takes (fun v => v.port p = ((s.port p).acked (BitVec.ofNat 12 t.ack)).credited t ∧ v = { s with ports := v.ports, regs := v.regs }))) ∧
    (∀ seq : BitVec 12,
      let n := if (s.port p).nakSeq = seq then (s.port p).naks + 1 else 1
      (n < 8 → ∃ v, exec (.nakRx p seq) s = .next v ∧ v.pyState p = 4 ∧ (v.port p).naks = n ∧
        ((∃ q ∈ (s.port p).replay, q.1 = seq) → (v.port p).again = (s.port p).replay.dropWhile (fun q => q.1 ≠ seq))) ∧
      (8 ≤ n → ∃ v, exec (.nakRx p seq) s = .next v ∧ v.pyState p = 5)) ∧
    ((s.port p).skip = true → ∃ v c, exec (.nakRepeat p) s = .next v ∧ v.out = .linkCtl p 1 (s.port p).rxSeq.toNat c :: s.out ∧
      v.regs = s.regs) ∧
    ((s.port p).skip = false → exec (.nakRepeat p) s = .next s) ∧
    (∀ q rest, (s.port p).again = q :: rest →
      exec (.flitSend p) s = .next ((s.setPort p { s.port p with again := rest }).emit (.unit p q.2))) ∧
    (let next := (s.port p).choose (s.flitClass p) (decide (s.role p ≠ 0))
     (∀ (q : QMsg) f rest, (s.port p).again = [] → (s.port p).replay.length < 2048 → next = some q → q.flits = f :: rest →
       ∃ v w, exec (.flitSend p) s = .next v ∧ v.out = .unit p w :: s.out ∧ w.flit = f ∧ (v.port p).txSeq = (s.port p).txSeq + 1 ∧
         (v.port p).replay = (s.port p).replay ++ [((s.port p).txSeq, w)] ∧ (v.port p).outq = shrink q (s.port p).outq ∧
         v.pair .pyTxFlits p = (s.pair .pyTxFlits p + 1) % 2 ^ 64) ∧
     ((s.port p).again = [] → (next = none ∨ 2048 ≤ (s.port p).replay.length) → ∃ v w, exec (.flitSend p) s = .next v ∧
       v.out = .unit p w :: s.out ∧ w.flit = zeros 64 ∧ (v.port p).txSeq = (s.port p).txSeq ∧ (v.port p).replay = (s.port p).replay))

/-- A multicast group at its issuing unit. A send lets the next new message leave for every member when all are on the common path; Hold takes
a member off that path; an acknowledgement is kept, and the last one of a message, all of them OK, answers it OK and drops it; a held
member is tried again; a lagging member leaves the common path and is sent the message anew; a message that times out is recorded, dropped
and answered with status 5; where a station issued it, its tag is free, the fault is captured with code 0xD and the station stops. None of
the five touches another group. The status of an agent's failed multicast is the model's choice (log entry 58). -/
def Obligations.MulticastIsPacedAndAcknowledged : Prop :=
  ∀ (s : State) (g : BitVec 8) (i : BitVec 6),
    let x := s.group g.toNat
    let gives := fun (c : Instr) (P : State → Prop) => ∃ u, exec c s = .next u ∧ (∀ g', g' ≠ g.toNat → u.group g' = s.group g') ∧ P u
    let ok := fun (m : McMsg) (st : Nat) =>
      Out.rsp (BitVec.ofNat 16 s.srcId) (BitVec.ofNat 12 m.agent) m.gen (BitVec.ofNat 6 m.tag) true st []
    gives (.mcastSend g) (fun u =>
      ∀ m, x.msgs.find? (fun m => !m.left) = some m → (∀ j ∈ s.members g.toNat, hasBit x.off j = false ∧ x.outOf j < 16) →
        s.mcBuffered + m.data.length ≤ 2 ^ 21 → ∀ y ∈ (u.group g.toNat).msgs, y.mseq = m.mseq →
          y.left = true ∧ ∀ j ∈ s.members g.toNat, hasBit y.sent j = true) ∧
    (∀ (q : BitVec 32) (st : BitVec 4), gives (.mcAck g i q st) (fun u =>
      ((∀ y ∈ x.msgs, y.mseq ≠ q) → u = s) ∧
      ((∃ y ∈ x.msgs, y.mseq = q) → st = 8 → hasBit (u.group g.toNat).off i.toNat = true ∧ u.out = s.out ∧
        ∀ y ∈ (u.group g.toNat).msgs, y.mseq = q → hasBit y.held i.toNat = true ∧ hasBit y.sent i.toNat = false) ∧
      (st ≠ 8 → (∃ j ∈ s.members g.toNat, j ≠ i.toNat ∧ ∀ y ∈ x.msgs, hasBit y.ackd j = false) →
        u.out = s.out ∧ (u.group g.toNat).msgs.length = x.msgs.length ∧
        ∀ y ∈ (u.group g.toNat).msgs, y.mseq = q → hasBit y.ackd i.toNat = true ∧ (st = 0 → hasBit y.good i.toNat = true)) ∧
      (∀ m, x.msgs = [m] → m.mseq = q → m.left = true → st = 0 → i.toNat ∈ s.members g.toNat → 1024 ≤ m.agent →
        (∀ j ∈ s.members g.toNat, j ≠ i.toNat → hasBit m.ackd j = true ∧ hasBit m.good j = true) →
        (u.group g.toNat).msgs = [] ∧ u.out = ok m 0 :: s.out) ∧
      (∀ m, x.msgs = [m] → m.mseq = q → m.left = true → st = 0 → i.toNat ∈ s.members g.toNat → m.agent < 1024 →
        ((s.station m.agent).tag m.tag).gen = m.gen →
        (∀ j ∈ s.members g.toNat, j ≠ i.toNat → hasBit m.ackd j = true ∧ hasBit m.good j = true) →
        (u.group g.toNat).msgs = [] ∧ ((u.station m.agent).tag m.tag).op = none))) ∧
    gives (.mcastHoldRetry g i) (fun u =>
      (x.msgs.find? (fun m => hasBit m.held i.toNat) = none → u = s) ∧
      ∀ m, x.msgs.find? (fun m => hasBit m.held i.toNat) = some m → ∀ y ∈ (u.group g.toNat).msgs, y.mseq = m.mseq →
        hasBit y.held i.toNat = false ∧ hasBit y.sent i.toNat = true) ∧
    gives (.mcastLagExpiry g i) (fun u =>
      (¬ (i.toNat ∈ s.onPath g.toNat ∧ s.mcLags g.toNat i.toNat = true) → u = s) ∧
      (i.toNat ∈ s.onPath g.toNat → s.mcLags g.toNat i.toNat = true → hasBit (u.group g.toNat).off i.toNat = true ∧
        (∀ y ∈ (u.group g.toNat).msgs, hasBit y.ackd i.toNat = false → hasBit y.sent i.toNat = false) ∧ u = { s with mcast := u.mcast })) ∧
    (∀ q : BitVec 32, gives (.mcastTimeout g q) (fun u =>
      (x.msgs.find? (fun y => y.mseq = q) = none → u = s) ∧
      ∀ m, x.msgs.find? (fun y => y.mseq = q) = some m →
        (u.group g.toNat).msgs = x.msgs.filter (fun y => y.mseq ≠ q) ∧
        (s.bit .pyMcastFail 0 31 = false → u.fld .pyMcastFail 0 30 23 = g.toNat ∧ u.pair .pyMcastFailMap 0 = m.good.toNat) ∧
        (1024 ≤ m.agent → ok m 5 ∈ u.out ∧ (m.agent ≠ 0x401 → u.out.head? = some (ok m 5))) ∧
        (m.agent < 1024 → ∀ e, (s.station m.agent).tag m.tag = ⟨m.gen, some e, false⟩ →
          ((u.station m.agent).tag m.tag).op = none ∧ (u.station m.agent).run = .stopped ∧
          (s.bit .stnLxFault m.agent 31 = false → u.fld .stnLxFault m.agent 27 24 = 0xD))))

/-- A reduction at its engine, with nothing waiting outside. An arrival that leaves something missing is held under its key, and with every
slot held one for a new key waits outside. Once a rank has all it needs, its combined value, in the fixed order, goes up to the next rank; at
the root it is the result, the key is given up and the result lands at the agent that contributed here; a mismatch lands in its place with
status 7. In a chain the partial is the left operand, in a tree the rank's own, and a node with two children combines with the nearer one
first. An arrival that disagrees marks its key, and a second own operand is answered with the mismatch at once. A descending result lands and
gives its key up. That an arrival waits outside as such, and that a mismatch waits for the rest, is the model's choice (log entry 26). -/
def Obligations.ReductionsCombineInOrder : Prop :=
  ∀ (s : State) (m : RedMsg) (r : Nat), s.rankOf m.par = some r → 1024 ≤ m.agent.toNat → s.redWait = [] →
    let k := (⟨m.par, none, 0, 0, 0, [], false, false⟩ : RedKey).arrive m
    let known := s.redKeys.find? (fun k => k.par.key = m.par.key)
    let lands := fun (agent : BitVec 12) (mism : Bool) (v : List Byte) =>
      Out.rsp (BitVec.ofNat 16 s.srcId) agent 0 0 false (if mism then 7 else 0) (if mism then [] else v)
    (known = none → 2048 ≤ s.redHeld m.par → exec (.redUp m) s = .next { s with redWait := [m] }) ∧
    (known = none → s.redHeld m.par < 2048 →
      (k.ready r = none → exec (.redUp m) s = .next { s with redKeys := s.redKeys ++ [k] }) ∧
      (∀ v, k.ready r = some v → r ≠ redRoot m.par → s.target (0x8000 + redLogical m.par (redUpTo m.par r)) = .loc →
        ∃ u, exec (.redUp m) s = .next u ∧ u.redKeys = s.redKeys ++ [{ k with sentUp := true }] ∧ u.out = .redUp (redUpTo m.par r)
          ⟨m.par, r, redLevel r, false, m.mism, BitVec.ofNat 12 (redAgent m.par), 0, 0, v⟩ :: s.out) ∧
      (∀ v, k.ready r = some v → r = redRoot m.par → m.own = true →
        ∃ u, exec (.redUp m) s = .next u ∧ u.redKeys = s.redKeys ∧ u.out.head? = some (lands m.agent m.mism v))) ∧
    (∀ q : RedKey, known = some q → m.own = true → q.own.isSome = true →
      ∃ u, exec (.redUp m) s = .next u ∧ lands m.agent true [] ∈ u.out) ∧
    (∀ q : RedKey, known = some q → (q.par ≠ m.par ∨ m.mism = true ∨ (m.own = true ∧ q.own.isSome = true)) →
      ∃ u, exec (.redUp m) s = .next u ∧ ∀ y ∈ u.redKeys, y.par.key = m.par.key → y.mism = true) ∧
    (∀ (q : RedKey) (a b : List Byte) (c : Nat), known = some q → q.par = m.par → q.par.tree = true → q.mism = false → q.sentUp = false →
      m.mism = false → m.own = false → q.own = some a → redChildren r (redSize q.par) = [c, m.rank] → q.part c = some b →
      q.part m.rank = none →
      let v := q.op (q.op a b) m.data
      ∃ u, exec (.redUp m) s = .next u ∧
        (r = 0 → 1024 ≤ q.agent → u.out.head? = some (lands (BitVec.ofNat 12 q.agent) false v)) ∧
        (r ≠ 0 → s.target (0x8000 + redLogical m.par (redParent r)) = .loc → u.out = .redUp (redParent r)
          ⟨m.par, r, redLevel r, false, false, BitVec.ofNat 12 (redAgent m.par), 0, 0, v⟩ :: s.out)) ∧
    (∀ (q : RedKey) (a b : List Byte), q.own = some a →
      (q.par.tree = false → r ≠ 0 → q.part (r - 1) = some b → q.value r = some (q.op b a)) ∧
      (∀ c, q.par.tree = true → redChildren r (redSize q.par) = [c] → q.part c = some b → q.value r = some (q.op a b)) ∧
      (∀ c c' b', q.par.tree = true → redChildren r (redSize q.par) = [c, c'] → q.part c = some b → q.part c' = some b' →
        q.value r = some (q.op (q.op a b) b'))) ∧
    (∀ q : RedKey, known = some q → q.own.isSome = true → 1024 ≤ q.agent →
      ∃ u, exec (.redDown m) s = .next u ∧ u.redKeys = s.redKeys.filter (fun y => y.par.key ≠ q.par.key) ∧
        u.out.head? = some (lands (BitVec.ofNat 12 q.agent) (q.mism || m.mism) m.data)) ∧
    (known = none → exec (.redDown m) s = .next s)

/-- Messages at their target, for an agent that is no station and no landing cache, of this module or of another one. One that comes over a port
without a module ID is refused. A refused access answers its status and changes nothing; a READ answers the bytes of a station store or a stack; a
WRITE stores its bytes in a station store or a stack and is acknowledged; a write to a multicast group joins the group's messages; a write to an
uncopied page is held and counted, a READ that meets it waits behind it, and a READ of a Lens record waits for the posts to it. A response reaches
its agent; a control message reaches its processor; an MC_WRITE is stored and acknowledged, or put off with Hold when every receive slot is taken.
A write of a Mirror processor of another module outside the inbound areas, while a station runs, is answered with status 9. -/
def Obligations.MessagesReachTheirTargets : Prop :=
  (∀ (s : State) (m : ReqMsg), ReqMsgBad m = false → s.restoreRefused m = true → exec (.write m) s = .next
    (s.enqueue m.agent.toNat m.src.toNat
      ⟨4, 9, s.srcId, m.src.toNat, m.agent.toNat, m.gen.toNat, m.tag.toNat, 0, m.addr.toNat, 0, 0, 0, 0⟩ [])) ∧
  ∀ (s : State) (m : ReqMsg), 0x40C ≤ m.agent.toNat →
    let rgn := regionOfAddr m.addr
    let off := offsetOf m.addr
    let i := off / 2 ^ 21
    let reply := fun (t : State) (wr : Bool) (st : Nat) (data : List Byte) => match m.via with
      | none => t.emit (.rsp (BitVec.ofNat 16 t.srcId) m.agent m.gen m.tag wr st data)
      | some _ => t.enqueue m.agent.toNat m.src.toNat ⟨if wr then 4 else 3, st, t.srcId, m.src.toNat, m.agent.toNat, m.gen.toNat, m.tag.toNat,
          data.length, m.addr.toNat, 0, 0, 0, 0⟩ data
    let acks := fun (t : State) (st : Nat) => match m.via with
      | none => t.emit (.mcAck m.src m.mseq st)
      | some _ => t.enqueue m.agent.toNat m.src.toNat ⟨6, st, t.srcId, m.src.toNat, m.agent.toNat, m.gen.toNat, m.tag.toNat, 0, m.addr.toNat,
          0, 0, 0, m.mseq.toNat⟩ []
    let grouped := m.via = none ∧ 0xFF00 ≤ modOf m.addr ∧ modOf m.addr < 0xFFFF
    let rd := s.refusedAt m.agent.toNat rgn off m.len
    let wr := s.refusedAt m.agent.toNat rgn off m.data.length
    let put := s.arrive i .landing (.store (off % 2 ^ 21) m.data)
    let stored := (s.xfer (off / stackSize) (off % stackSize) 3 0 .clean).stackWrN (off / stackSize) (off % stackSize) m.data
    (ReqMsgBad m = true → exec (.read m) s = .next (reply s false 1 []) ∧ exec (.write m) s = .next (reply s true 1 []) ∧
      exec (.mcWrite m) s = .next (acks s 1)) ∧
    (ReqMsgBad m = false →
      (s.behind m = false → s.readPosts m = 0 →
        (rd ≠ 0 → exec (.read m) s = .next (reply s false rd [])) ∧
        (rd = 0 → rgn = 1 → m.ecc = .clean →
          exec (.read m) s = .next (reply s false 0 ((s.portView i).store.rdN (off % 2 ^ 21) m.len))) ∧
        (rd = 0 → rgn = 0 → m.ecc = .clean → m.fails = 0 → exec (.read m) s = .next
          (reply (s.xfer (off / stackSize) (off % stackSize) 2 0 .clean) false 0 (s.stackRdN (off / stackSize) (off % stackSize) m.len)))) ∧
      (s.behind m = true → s.readPosts m = 0 → ∃ u, exec (.read m) s = .next u ∧ u.out = s.out ∧
        u.fw.heldWr = s.fw.heldWr ++ [⟨.read, 0, m⟩]) ∧
      (∀ n, s.readPosts m = n + 1 → ∃ u, exec (.read m) s = .next u ∧ u.out = s.out ∧
        u.fw.heldWr = s.fw.heldWr ++ [⟨.read, n + 1, m⟩] ∧ u.stackMem = s.stackMem) ∧
      (¬ grouped → s.holds m = false →
        (wr ≠ 0 → exec (.write m) s = .next (reply s true wr [])) ∧
        (wr = 0 → rgn = 1 → m.ecc = .clean → exec (.write m) s = .next (reply put true 0 [])) ∧
        (wr = 0 → rgn = 0 → m.fails = 0 → exec (.write m) s = .next (reply stored true 0 []))) ∧
      (¬ grouped → s.holds m = true → ∃ u, exec (.write m) s = .next u ∧ u.stackMem = s.stackMem ∧
        u.out = s.out ∧ u.fw.heldWr = s.fw.heldWr ++ [⟨.write, 0, m⟩] ∧
        u.fld .snapStatus 0 15 0 = satTo 16 (s.fld .snapStatus 0 15 0 + 1)) ∧
      (grouped → s.members (modOf m.addr - 0xFF00) ≠ [] →
        let x := s.group (modOf m.addr - 0xFF00)
        let y : McMsg := ⟨x.next, m.agent.toNat, m.gen, m.tag.toNat, m.addr, m.data, false, 0, 0, 0, 0⟩
        exec (.write m) s = .next (s.setGroup' (modOf m.addr - 0xFF00) { x with next := x.next + 1, msgs := x.msgs ++ [y] })) ∧
      (64 ≤ s.mcSlots → exec (.mcWrite m) s = .next (acks s 8)) ∧
      (s.mcSlots < 64 → s.holds m = false →
        (wr ≠ 0 → exec (.mcWrite m) s = .next (acks s wr)) ∧
        (wr = 0 → rgn = 1 → m.ecc = .clean → exec (.mcWrite m) s = .next (acks put 0)) ∧
        (wr = 0 → rgn = 0 → m.fails = 0 → exec (.mcWrite m) s = .next (acks stored 0)))) ∧
    (∀ q : RspMsg, 0x40C ≤ q.agent.toNat →
      exec (.readRsp q) s = .next (s.emit (.rsp (BitVec.ofNat 16 s.srcId) q.agent q.gen q.tag false q.status.toNat q.data)) ∧
      exec (.writeAck q) s = .next (s.emit (.rsp (BitVec.ofNat 16 s.srcId) q.agent q.gen q.tag true q.status.toNat []))) ∧
    (∀ src fp data, exec (.ctrl src fp data) s = .next
      (match (if fp = 1 ∧ s.sundialUp = true then Config.ctrlRead data else none) with
       | some q => (s.emit (.forFw fp src data)).groupMsg q.1 q.2
       | none => s.emit (.forFw fp src data)))

/-- Frames and the state of an Ethernet port. A good RoCEv2 frame is counted and enters the receive buffer, and above 1,536 KiB the port
pauses its priority; one that does not fit, or fails a check, is counted and dropped. Draining below 1,024 KiB releases the pause. The
port honours pauses of its priority: its RoCEv2 traffic waits, and leaves in order at the release. It answers for its own addresses. A link
that drops puts every queue pair of the port in Error; in an idle state the wake pattern starts a wake where its source is enabled, and is
latched where it is not. What a frame that is dropped counts on is the model's reading (log entry 27). -/
def Obligations.EthernetPortsReceiveAndAnswer : Prop :=
  ∀ (s : State) (p : EthPort),
    let x := s.ethSt p
    let replies := fun (c : Instr) (o : Out) => ∃ u, exec c s = .next u ∧ u.out = o :: s.out ∧
      u.pair .ethTxFrames p = (s.pair .ethTxFrames p + 1) % 2 ^ 64 ∧ u.eth = s.eth
    (s.ethUp p = false → ∀ f, exec (.ethFrameRx p f) s = .next s) ∧
    (∀ n qpn icrc supp ce corr uncorr, s.ethUp p = true → 64 ≤ n → n ≤ 9216 →
      let f := EthFrame.mk n true corr uncorr (.roce qpn icrc supp ce)
      (icrc = true → x.fill + n ≤ ethBuf → (s.qpLive p qpn.toNat = none ∨ (supp = true ∧ ce = false)) →
        ∃ u, exec (.ethFrameRx p f) s = .next u ∧
        (u.ethSt p).fill = x.fill + n ∧ u.pair .ethRxFrames p = (s.pair .ethRxFrames p + 1) % 2 ^ 64 ∧
        u.pair .ethRxBytes p = (s.pair .ethRxBytes p + n) % 2 ^ 64 ∧
        (x.fill + n ≤ pauseHigh → u.out = s.out) ∧
        (pauseHigh < x.fill + n → s.bit .ethPortCtrl p 29 = true → s.bit .ethPortStatus p 29 = false →
          u.out = .ethPause p true :: s.out ∧ u.bit .ethPortStatus p 29 = true)) ∧
      (∀ k, icrc = true → x.fill + n ≤ ethBuf → s.qpLive p qpn.toNat = some k → supp = true → ce = true →
        ((s.qp k).cnp = none → ∃ u, exec (.ethFrameRx p f) s = .next u ∧ u.lastSent p = some (.ethCnp p qpn) ∧
          (u.qp k).cnp = some s.fw.refTime) ∧
        (∀ t, (s.qp k).cnp = some t → s.fw.refTime < t + 5000 → ∃ u, exec (.ethFrameRx p f) s = .next u ∧ u.qps = s.qps)) ∧
      (ethBuf < x.fill + n → ∃ u, exec (.ethFrameRx p f) s = .next u ∧ u.eth = s.eth ∧ u.out = s.out ∧
        u.fld .ethErrCount p 7 0 = satTo 8 (s.fld .ethErrCount p 7 0 + 1)) ∧
      (icrc = false → x.fill + n ≤ ethBuf → ∃ u, exec (.ethFrameRx p f) s = .next u ∧ u.eth = s.eth ∧ u.out = s.out ∧
        u.fld .ethErrCount p 15 8 = satTo 8 (s.fld .ethErrCount p 15 8 + 1)) ∧
      (∃ u, exec (.ethFrameRx p { f with fcsOk := false }) s = .next u ∧ u.eth = s.eth ∧ u.out = s.out ∧
        u.fld .ethErrCount p 31 24 = satTo 8 (s.fld .ethErrCount p 31 24 + 1) ∧
        u.fld .ethErrCount p 23 16 = satTo 8 (s.fld .ethErrCount p 23 16 + uncorr) ∧
        u.pair .ethFecCorr p = (s.pair .ethFecCorr p + corr) % 2 ^ 64)) ∧
    (∀ n, ∃ u, exec (.pfcRelease p n) s = .next u ∧ (u.ethSt p).fill = x.fill - n ∧
      (x.fill - n < pauseLow → s.bit .ethPortStatus p 29 = true → u.out = .ethPause p false :: s.out ∧ u.bit .ethPortStatus p 29 = false) ∧
      (pauseLow ≤ x.fill - n → u.out = s.out ∧ u.regs = s.regs)) ∧
    (∀ prio : BitVec 3, s.ethUp p = true →
      (prio.toNat = s.fld .ethPortCtrl p 18 16 →
        (∃ u, exec (.pauseFrameRx p prio true) s = .next u ∧ s.RegsOnly u [Reg.at .ethPortStatus p] ∧ u.bit .ethPortStatus p 28 = true) ∧
        (∃ u, exec (.pauseFrameRx p prio false) s = .next u ∧ u.bit .ethPortStatus p 28 = false ∧ (u.ethSt p).waiting = [] ∧
          u.out = x.waiting.reverse ++ s.out ∧
          u.pair .ethTxFrames p = (s.pair .ethTxFrames p + x.waiting.length) % 2 ^ 64)) ∧
      (prio.toNat ≠ s.fld .ethPortCtrl p 18 16 → ∀ hold, exec (.pauseFrameRx p prio hold) s = .next s)) ∧
    (s.ethUp p = true →
      (∀ t : BitVec 32, t ≠ 0 → t.toNat = s.reg .ethIpv4Addr p → replies (.arpRequest p t) (.ethReply p 0 0)) ∧
      (∀ t : BitVec 128, t.toNat = s.linkLocal p ∨ (t ≠ 0 ∧ t.toNat = s.ipv6 p) → replies (.neighborSolicitation p t) (.ethReply p 1 0)) ∧
      (∀ v6 n, n ≤ 1500 → replies (.icmpEcho p v6 n) (.ethReply p (if v6 then 3 else 2) n))) ∧
    (s.bit .ethPortStatus p 31 = true → ∃ u, exec (.ethLinkDown p) s = .next u ∧ u.fld .ethPortStatus p 31 30 = 0 ∧
      u.fld .ethPortStatus p 15 0 = satTo 16 (s.fld .ethPortStatus p 15 0 + 1) ∧
      (∀ n < 65, u.qpState (qpKey p n) = 2 ∧ (u.qp (qpKey p n)).ops = []) ∧
      (s.bit .ethErr p 31 = false → u.fld .ethErr p 30 28 = 1)) ∧
    (s.bit .ethPortCtrl p 31 = true → ∃ u, exec (.ethLinkUp p) s = .next u ∧ s.RegsOnly u [Reg.at .ethPortStatus p] ∧
      u.fld .ethPortStatus p 31 30 = 3) ∧
    (∀ payload, s.idleState ≠ 0 → holdsPattern (wolPattern (s.mac p)) payload = true →
      let others := s.wakeLevels &&& s.fld .pwrWakeEn 0 4 0
      (s.bit .pwrWakeEn 0 (1 + p.val) = true → s.waking = false → s.pins.resetL = true → s.pins.pwrOk = true →
        (∀ i < 1 + p.val, bitOf others i = false) →
        ∃ u, exec (.wakeOnLan p payload) s = .next u ∧ u.fld .pwrWakeLast 0 4 0 = 2 ^ (1 + p.val) ∧ u.pwr.latch = 0 ∧
          (s.idleState = 1 → u.idleState = 0) ∧ (s.idleState ≠ 1 → u.waking = true ∧ u.idleState = s.idleState) ∧
          (s.idleState = 3 → u.pwr.on = 0x3000#14)) ∧
      (s.bit .pwrWakeEn 0 (1 + p.val) = false → (∀ i < 5, bitOf others i = false) →
        exec (.wakeOnLan p payload) s =
          .next { s with pwr := { s.pwr with latch := s.pwr.latch ||| BitVec.ofNat 5 (2 ^ (1 + p.val)) } }))

/-- Queue pairs of a port whose link is up. CM connects a QP that is in Reset, with the path MTU limited, and disconnects it to Reset; other
requests are rejected. A SEND to the mailbox takes an entry or meets an RNR NAK; an RNR NAK of the host has the SENDs that it left sent again
in their order. An RDMA operation at the expected PSN leaves in pieces that cross no 4 KiB boundary; its answers come back in any order and
are passed on in the order of the pieces and of the operations: read data in packets of the path MTU, an acknowledgement for the packets of a
write that are applied; a refused one, a seventeenth READ and a failed piece end in a NAK and Error, behind what has been sent. A write taken
before is acknowledged again, a READ is carried out again, and a missing packet is asked for once: the transport's own rules, presumed (log
entry 27). A CNP halves the rate of a QP that sends read responses, and it recovers in steps. The tag of a piece and the cutting of read data
are the model's choice (log entry 63). -/
def Obligations.QueuePairsConnectAndCarry : Prop :=
  ∀ (s : State) (p : EthPort) (qpn : BitVec 24) (n : Nat), qpNum qpn.toNat = some n → s.ethUp p = true →
    let k := qpKey p n
    let x := s.qp k
    (∀ (dest psn : BitVec 24) (pmtu : BitVec 3) reads,
      (s.qpState k = 0 → 3 ≤ pmtu.toNat → reads ≤ 16 → ∃ u, exec (.cmReq p qpn dest psn pmtu reads) s = .next u ∧
        u.reg .ethQpStatus k = min pmtu.toNat (s.fld .ethPortCtrl p 3 0) * 2 ^ 27 + dest.toNat ∧
        u.qp k = { QpSt.reset with peer := dest, psn := psn, rtu := true } ∧ u.lastSent p = some (.cm p 0 qpn)) ∧
      ((s.qpState k ≠ 0 ∨ pmtu.toNat < 3 ∨ 16 < reads) → ∃ u, exec (.cmReq p qpn dest psn pmtu reads) s = .next u ∧ u.qps = s.qps ∧
        u.lastSent p = some (.cm p 1 qpn) ∧ (s.bit .ethErr p 31 = false → u.fld .ethErr p 30 28 = 4))) ∧
    (x.rtu = true → ∃ u, exec (.cmRtu p qpn) s = .next u ∧ u.qpState k = 1 ∧ u.qp k = { x with rtu := false } ∧ u.out = s.out) ∧
    (∃ u, exec (.cmDreq p qpn) s = .next u ∧ u.qpState k = 0 ∧ u.qp k = QpSt.reset ∧ u.lastSent p = some (.cm p 2 qpn)) ∧
    (s.qpState k = 1 →
      let naks := fun (c : Instr) (nak : Nat) => ∃ u, exec c s = .next u ∧ u.qpState k = 2 ∧ (u.qp k).ops = [] ∧
        u.lastSent p = some (.ethNak p qpn nak) ∧ u.stackMem = s.stackMem
      ((∃ o ∈ x.ops, o.write = false) → ∃ u, exec (.cnpRx p qpn) s = .next u ∧ u.qp k = { x with rate := max 1000 (x.rate / 2) } ∧
        u = { s with qps := u.qps }) ∧
      ((∀ o ∈ x.ops, o.write = true) → exec (.cnpRx p qpn) s = .next s) ∧
      (∃ u, exec (.cnpRateRecovery p qpn) s = .next u ∧ u.qp k = { x with rate := min 400000 (x.rate + 20000) } ∧
        u = { s with qps := u.qps }) ∧
      (qpn = 0x10 →
        (∀ len, len ≤ 4096 → 0 < (s.ethSt p).entries → ∃ u, exec (.mailboxSendRx p len) s = .next u ∧
          u.ethSt p = { s.ethSt p with entries := (s.ethSt p).entries - 1 } ∧ u.out = s.out) ∧
        (∀ len, len ≤ 4096 → (s.ethSt p).entries = 0 → exec (.mailboxSendRx p len) s = .next (s.roceTx p (.rnrNak p))) ∧
        (∀ len, 4096 < len → naks (.mailboxSendRx p len) 3) ∧
        (∀ acked, let left := (s.ethSt p).sends.drop acked
          ∃ u, exec (.mailboxRnrRetry p acked) s = .next u ∧ (u.ethSt p).sends = left ∧
            (s.bit .ethPortStatus p 28 = false → u.out = left.reverse ++ s.out) ∧
            (s.bit .ethPortStatus p 28 = true → u.out = s.out ∧ (u.ethSt p).waiting = (s.ethSt p).waiting ++ left))) ∧
      (∀ (rkey : Word) (va : BitVec 64) (psn : BitVec 24),
        let unable := fun (wr : Bool) => qpn = 0x10 ∨ (wr = false ∧ 16 ≤ (x.ops.filter (fun o => !o.write)).length)
        let starts := fun (c : Instr) (wr : Bool) (len : Nat) (data : List Byte) (after : BitVec 24) =>
          (unable wr → naks c 3) ∧
          (¬ unable wr → s.rdmaOk p rkey.toNat va.toNat len wr = true → s.target (modOf va) = .loc → ∃ u, exec c s = .next u ∧
            u.qp k = { x with ops := x.ops ++ [⟨wr, psn, va.toNat, len, [], 0⟩], psn := after, gap := false } ∧
            u.out = ((List.range (pieceCount va.toNat len)).map (fun i =>
              let q := pieceAt va.toNat len i
              Out.req (BitVec.ofNat 12 (0x404 + p.val)) 0 (BitVec.ofNat 6 i) (BitVec.ofNat 64 q.1) q.2
                ((data.drop (q.1 - va.toNat)).take q.2))).reverse ++ s.out) ∧
          (¬ unable wr → s.rdmaOk p rkey.toNat va.toNat len wr = false → naks c 1)
        let past := fun (len : Nat) => psn + BitVec.ofNat 24 (packets (s.qpMtu k) len)
        let asks := fun (c : Instr) =>
          (x.gap = false → ∃ u, exec c s = .next u ∧ u.qp k = { x with gap := true } ∧ u.lastSent p = some (.ethNak p qpn 0) ∧
            u.qpState k = 1) ∧
          (x.gap = true → exec c s = .next s)
        (∀ data, let c := Instr.rdmaWrite p qpn rkey va data psn
          (psnAt x.psn psn = .next → starts c true data.length data (past data.length)) ∧
          (psnAt x.psn psn = .dup → exec c s = .next (s.roceTx p (.ethAck p qpn x.acked))) ∧
          (psnAt x.psn psn = .ahead → asks c)) ∧
        (∀ len, let c := Instr.rdmaReadRequest p qpn rkey va len psn
          (psnAt x.psn psn = .next → starts c false len [] (past len)) ∧
          (psnAt x.psn psn = .dup → starts c false len [] x.psn) ∧
          (psnAt x.psn psn = .ahead → asks c))) ∧
      (∀ o rest (e : PieceEnd) data, x.ops = o :: rest →
        let mtu := s.qpMtu k
        let waits := fun (q : RdmaOp) => q.prefix.1 < q.pieces ∧ q.piece q.prefix.1 = none
        (o.psn = e.psn → e.piece < o.pieces → o.piece e.piece = none →
          let q := { o with got := o.got ++ [(e.piece, e.status.toNat, if o.write then [] else data)] }
          let n := q.whole mtu q.prefix.1
          let sent : List Out := if n ≤ o.sent then [] else if o.write then [.ethAck p qpn (o.psn + BitVec.ofNat 24 n - 1)]
            else (List.range (n - o.sent)).map (fun j => Out.ethData p qpn ((q.prefix.2.drop (mtu * (o.sent + j))).take mtu))
          let gives := fun (ops : List RdmaOp) (st : Nat) (last : List Out) => ∃ u, exec (.rdmaPieceDone p qpn e data) s = .next u ∧
            (u.qp k).ops = ops ∧ u.qpState k = st ∧ (s.bit .ethPortStatus p 28 = false → u.out = last ++ sent.reverse ++ s.out)
          (waits q → gives ({ q with sent := max o.sent n } :: rest) 1 []) ∧
          (q.prefix.1 = q.pieces → rest = [] → gives [] 1 []) ∧
          (∀ st d, q.prefix.1 < q.pieces → q.piece q.prefix.1 = some (st, d) → gives [] 2 [.ethNak p qpn (pieceNak st)])) ∧
        (o.psn ≠ e.psn → waits o → o.whole mtu o.prefix.1 ≤ o.sent →
          ∃ u, exec (.rdmaPieceDone p qpn e data) s = .next u ∧ u.out = s.out ∧ (u.qp k).ops.head? = some o)))

/-! ### The Tharax Command Set and the firmware -/

/-- How Liaison treats a command before it executes it. With the firmware domain off, or the mailbox QP of its port not connected, nothing
receives it; while Liaison restarts it waits in its receive entry. A command that checks 1 to 5 refuse is answered with their status and is
not journalled; one below E that is still journalled is answered with its stored completion and not executed again; one for a restarting
processor waits. One that passes them is answered, and journalled, with BAD_OPCODE for another processor's opcode, STATE for ROM state,
BAD_FIELD for a reserved byte. -/
def Obligations.TcsChecksComeInOrder : Prop :=
  ∀ (s : State) (c : Instr) (h : TcsHdr) (opc : Nat) (rom : Bool), tcsOf c = some (h, opc, rom) →
    let heard := bitOf s.pwr.on.toNat 12 = true ∧ s.qpState (qpKey h.port 0) = 1
    let refused := fun (u : State) => s.computeSame u ∧ (∀ p < 4, u.expected p = s.expected p) ∧ u.fw.journal = s.fw.journal
    (¬ heard → exec c s = .next s) ∧
    (heard → s.restarting 0 = true → exec c s = .next (s.holdEntry h.port c)) ∧
    (heard → s.restarting 0 = false →
      (∀ st load, s.tcsCheck h = .refuse st load → ∃ u rcnt sess step, exec c s = .next u ∧ refused u ∧
        (s.bit .mbxStatus 0 30 = false → u.lastSent h.port = some (.completion h.port h.fp.toNat opc h.seq rcnt st sess step load))) ∧
      (∀ d, s.tcsCheck h = .again d → s.bit .mbxStatus 0 30 = false → ∃ u, exec c s = .next u ∧ refused u ∧
        u.lastSent h.port = some (.completion h.port h.fp.toNat d.opc d.seq d.rcnt d.stat d.sess d.step d.load)) ∧
      (∀ p, s.tcsCheck h = .wait p → exec c s = .next ((s.heard h.port).hold p c)) ∧
      (∀ p, s.tcsCheck h = .pass p →
        let bad := fun (st : Nat) => ∃ u rcnt sess step, exec c s = .next u ∧ s.computeSame u ∧
          u.lastSent h.port = some (.completion h.port h.fp.toNat opc h.seq rcnt st sess step []) ∧
          u.expected p = (s.expected p + 1) % 2 ^ 32
        (opc / 0x1000 ≠ p → bad 0x10) ∧
        (opc / 0x1000 = p → rom = false → (s.inRom 0 = true ∨ s.inRom p = true) → bad 0x12) ∧
        (opc / 0x1000 = p → (rom = true ∨ (s.inRom 0 = false ∧ s.inRom p = false)) → h.rsvBad = true → bad 0x11)))

/-- Commands that read what the processors keep, or set what Sundial works by. Each is answered with status 0 and the words it asks for,
touches nothing of the stations, rings, dies and stacks, and sets the fields named. The layouts of the EVENT_READ and LEDGER_READ replies
and the moment a first item is taken are the model's choices (log entries 43 and 44). -/
def Obligations.TcsReadsAndSettings : Prop :=
  ∀ (s : State) (h : TcsHdr),
    (s.tcsRuns h 0x0001 true → ∃ u, exec (.query h) s = .next u ∧ s.answered u h 0x0001 0 s.queryWords ∧ s.computeSame u) ∧
    (s.tcsRuns h 0x0002 true → ∃ u, exec (.heartbeat h) s = .next u ∧ s.answered u h 0x0002 0 [] ∧ s.computeSame u) ∧
    (∀ first count, s.tcsRuns h 0x000B false → count ≤ 64 →
      (∀ e es, s.fw.events = e :: es → e.num ≤ first → ∃ u, exec (.eventRead h first count) s = .next u ∧ s.computeSame u ∧
        (let l := ((e :: es).filter (fun e => first ≤ e.num)).take count
         s.answered u h 0x000B 0 (l.length :: l.flatMap eventWords))) ∧
      (∀ e es, s.fw.events = e :: es → first < e.num → ∃ u, exec (.eventRead h first count) s = .next u ∧
        s.answered u h 0x000B 5 []) ∧
      (s.fw.events = [] → ∃ u, exec (.eventRead h first count) s = .next u ∧ s.computeSame u ∧ s.answered u h 0x000B 0 [0])) ∧
    (∀ (first : Word) count, s.tcsRuns h 0x3004 false → count ≤ 120 →
      ∃ u, exec (.errRead h first count) s = .next u ∧ s.computeSame u ∧
        (let old := bitOf first.toNat 31
         let l := ((if old then s.fw.saved else s.fw.reports).filter (fun r => decide (first.toNat % 2 ^ 31 ≤ r.num))).take count
         s.answered u h 0x3004 0 (l.length :: l.flatMap (fun r =>
           ({ r with num := r.num + (if old then 2 ^ 31 else 0) } : Report).words)))) ∧
    (s.tcsRuns h 0x3003 false → ∃ u, exec (.snapList h) s = .next u ∧ s.computeSame u ∧
      s.answered u h 0x3003 0 ((List.range 20).flatMap (fun k => loadWords (s.slot k).head))) ∧
    (s.tcsRuns h 0x3006 false → ∃ u, exec (.flashHealth h) s = .next u ∧ s.computeSame u ∧ s.answered u h 0x3006 0 s.flashHealth) ∧
    (∀ first count, s.tcsRuns h 0x1009 false → count ≤ 120 → ∃ u, exec (.ledgerRead h first count) s = .next u ∧ s.computeSame u ∧
      u.fw.ledger = markSeen first count s.fw.ledger ∧
      (let l := (s.fw.ledger.drop first).take count
       s.answered u h 0x1009 0 (l.length :: l.flatMap Ledger.words))) ∧
    (∀ cap allowance interval margin, s.tcsRuns h 0x1002 false → 1 ≤ interval →
      ∃ u, exec (.budgetSet h cap allowance interval margin) s = .next u ∧ s.computeSame u ∧ s.answered u h 0x1002 0 [] ∧
        u.fw.budget = (cap, allowance, interval, margin) ∧ u.fw.allow = allowance * 100000 ∧ u.fw.intStart = s.fw.refTime) ∧
    (∀ mode v : BitVec 8, s.tcsRuns h 0x1003 false → mode.toNat ≤ 1 → v.toNat < 64 → ∃ u, exec (.policySet h mode v) s = .next u ∧
      s.computeSame u ∧ s.answered u h 0x1003 0 [] ∧ u.fw.policy = (mode.toNat, v.toNat)) ∧
    (∀ rows, s.tcsRuns h 0x1004 false → rows < 2 ^ 32 → ∃ u, exec (.stepHint h rows) s = .next u ∧ s.computeSame u ∧
      s.answered u h 0x1004 0 [] ∧ u.fw.rows = rows) ∧
    (∀ n, s.tcsRuns h 0x1005 false → 1 ≤ n → n ≤ 65535 → ∃ u, exec (.gatherSet h n) s = .next u ∧ s.computeSame u ∧
      s.answered u h 0x1005 0 [] ∧ u.fw.gather = n) ∧
    (∀ item group steps prio defer, s.tcsRuns h 0x1006 false → prio ≤ 7 → s.fw.work.length < 32 → s.fw.item ≠ none →
      ∃ u, exec (.workQueue h item group steps prio defer) s = .next u ∧ s.computeSame u ∧ s.answered u h 0x1006 0 [] ∧
        u.fw.work = s.fw.work ++ [⟨item, group, steps, prio, defer⟩]) ∧
    (∀ id members lead, s.tcsRuns h 0x1007 false → leadOk members lead = true → s.bit .pySelfLogical 0 31 = true →
      members.contains s.ownLogical = true → ∃ u, exec (.groupSet h id members lead) s = .next u ∧ s.computeSame u ∧
        s.answered u h 0x1007 0 [] ∧ u.fw.group = some (id, members, lead) ∧ u.fw.choices = []) ∧
    (∀ (a : BitVec 64) n en, s.tcsRuns h 0x100A false → n < 32 → a.toNat % 32 = 0 → ∃ u, exec (.ledgerStream h a n en) s = .next u ∧
      s.computeSame u ∧ s.answered u h 0x100A 0 [] ∧ u.fw.stream = if en then some (a, n, 0) else none)

/-- Commands of Liaison and Sundial that act on the part, each accepted: the mailbox timeout, an R_Key entry, an image put in force, a load
and a staging begun as activities, stations loaded and held for their start boundary, every station of a die stopped, a class switch
submitted, a profile armed, an idle state entered or abandoned, a session taken over. That a start with nothing loaded starts nothing, and
what RECLAIM leaves out of the journal, are the model's choices (log entries 39 and 46). -/
def Obligations.TcsLiaisonAndSundialCommands : Prop :=
  ∀ (s : State) (h : TcsHdr),
    (∀ timeout snap, s.tcsRuns h 0x000C false → 10 ≤ timeout → timeout ≤ 60000 →
      ∃ u, exec (.hostlossSet h timeout snap) s = .next u ∧ s.answered u h 0x000C 0 [] ∧ s.computeSame u ∧
        u.fld .mbxCtrl 0 15 0 = timeout ∧ u.bit .mbxCtrl 0 16 = snap) ∧
    (∀ (p : EthPort) (e : BitVec 6) (tag : BitVec 24) rd wr (base limit : BitVec 64), s.tcsRuns h 0x0004 true →
      bitOf s.pwr.on.toNat 13 = true → s.rdmaBusy p = false →
      ∃ u, exec (.mkeySet h p e tag rd wr base limit) s = .next u ∧ s.answered u h 0x0004 0 [] ∧ s.computeSame u ∧
        (let k := 64 * p.val + e.toNat
         u.pair .ethMkeyBase k = base.toNat ∧ u.pair .ethMkeyLimit k = limit.toNat ∧
         u.bit .ethMkeyCtrl k 31 = true ∧ u.bit .ethMkeyCtrl k 30 = rd ∧ u.bit .ethMkeyCtrl k 29 = wr ∧
         u.fld .ethMkeyCtrl k 23 0 = tag.toNat)) ∧
    (∀ (p : Proc) (off : BitVec 34) len, s.tcsRuns h 0x0005 true → s.image p = none → 1 ≤ len →
      off.toNat % stackSize + len ≤ stackSize → s.imageStatus p (s.stackRdN (off.toNat / stackSize) (off.toNat % stackSize) len) = 0 →
      ∃ u, exec (.imageCommit h p off len) s = .next u ∧ s.answered u h 0x0005 0 [] ∧ u.image p ≠ none ∧ u.stackMem = s.stackMem ∧
        (s.restarting p = false → u.fpState p = 2)) ∧
    (∀ d banks, s.tcsRuns h 0x0006 false → banksOk banks = true → s.declRefused d banks = none →
      ∃ u, exec (.binLoad h d banks) s = .next u ∧ s.answered u h 0x0006 0 [] ∧ s.computeSame u ∧
        u.fw.tasks = s.fw.tasks ++ [(h.seq.toNat, .binLoad h d banks)]) ∧
    (∀ v, s.tcsRuns h 0x0009 false → banksOk v.banks = true → 800 * s.vMult v ≤ v.ticks → s.variantDiffers v = false →
      s.declRefused v.decl (s.variantBanks v) = none →
      ∃ u, exec (.variantStage h v) s = .next u ∧ s.answered u h 0x0009 0 [] ∧ s.computeSame u ∧
        u.fw.tasks = s.fw.tasks ++ [(h.seq.toNat, .variantStage h v)]) ∧
    (∀ dies : DieMask, s.tcsRuns h 0x0007 false → s.bit .mbxStatus 0 31 = false →
      (∀ i ∈ s.startSet dies.toNat, s.startBusy i = false ∧ s.quarantined i = false ∧ (s.station i).unready = false ∧ dieOf i < 4) →
      ∃ u, exec (.stnStart h dies) s = .next u ∧ s.answered u h 0x0007 0 [] ∧
        (∀ i ∈ s.startSet dies.toNat, u.station i = (u.station i).load ∧
          ((s.station i).still = true → u.station i = (s.station i).load) ∧ (u.die (dieOf i)).frozen = true ∧
          (u.die (dieOf i)).hold = true ∧ u.ref (2 * dieOf i) = 0 ∧ u.ref (2 * dieOf i + 1) = 0) ∧
        (∀ i, i ∉ s.startSet dies.toNat → u.station i = s.station i) ∧ u.fw.stepCnt = 0) ∧
    (∀ dies : DieMask, s.tcsRuns h 0x0008 false → s.bit .mbxStatus 0 31 = false →
      ∃ u, exec (.stnStop h dies) s = .next u ∧ s.answered u h 0x0008 0 [] ∧
        (∀ i, dieOf i < 4 → bitOf dies.toNat (dieOf i) = true → (u.station i).run = .stopped) ∧
        (∀ i, dieOf i < 4 → bitOf dies.toNat (dieOf i) = false → u.station i = s.station i)) ∧
    (∀ (v : BitVec 6) pairs x, s.tcsRuns h 0x000A false → pairs.length ≤ 500 → (∀ q ∈ pairs, fmtOk q.2.toNat = true) →
      s.variantOf v.toNat = some x →
      s.bit .fwVariantStatus 0 22 = false → Config.classMatch x.classSig pairs = true →
      ∃ u, exec (.classSwitch h v pairs) s = .next u ∧ s.answered u h 0x000A 0 [] ∧ u.fw.classSw = some (v.toNat, pairs) ∧
        u.bit .fwVariantStatus 0 22 = true ∧ u.fld .fwNextVariant 0 5 0 = v.toNat) ∧
    (∀ n : BitVec 2, s.tcsRuns h 0x1001 false → s.profBarred n.toNat = false → n.toNat ≠ s.active → s.armOver n.toNat = false →
      s.legacyMode = false → s.railLow n.toNat = false → (∀ r < 8, s.profMult n.toNat (r % 2) = 0 ∨ s.profMv n.toNat (r % 2) ≤ s.rail r) →
      ∃ u, exec (.profileSet h n) s = .next u ∧ s.answered u h 0x1001 0 [] ∧ u.armed = true ∧ u.nextProf = n.toNat ∧
        u.active = s.active ∧ u.stations = s.stations) ∧
    (∀ (st : Idle) (wake asserted : BitVec 5), s.tcsRuns h 0x1008 false → s.idleBarred st = false → s.aonUp = true →
      let wakes := wakeable (idleCode st) ((asserted.toNat ||| s.wakeLevels) &&& wake.toNat)
      (wakes = 0 → ∃ u, exec (.idleEnter h st wake asserted) s = .next u ∧
        u.idleState = idleCode st ∧ (st ≠ .midnight → s.answered u h 0x1008 0 [] ∧ u.fld .pwrWakeEn 0 4 0 = wake.toNat)) ∧
      (wakes ≠ 0 → ∃ u, exec (.idleEnter h st wake asserted) s = .next u ∧
        s.answered u h 0x1008 0 [] ∧ u.idleState = 0 ∧ u.bit .pwrWakeLast 0 30 = true)) ∧
    (∀ (session : Word) (next : List Word) flush, bitOf s.pwr.on.toNat 12 = true → s.restarting 0 = false → hdrStatus h = 0 →
      s.qpState (qpKey h.port 0) = 1 → h.fp = 0 → h.rsvBad = false → next.length = 4 → s.fw.queued = [] →
      ∃ u, exec (.reclaim h session next false flush) s = .next u ∧ s.computeSame u ∧ u.reg .mbxSession 0 = session.toNat ∧
        u.bit .mbxStatus 0 30 = false ∧ u.fw.journal = [] ∧ (∀ p < 4, u.expected p = (next.getD p 0).toNat) ∧
        ∃ rcnt sess step, u.lastSent h.port = some (.completion h.port 0 0x0003 h.seq rcnt 0 sess step []))

/-- Commands of Steward and Keeper that act on the part, each accepted with the I/O domain powered: the module ID, the ports' settings,
routes, logical index and remap, a multicast group's members, a snapshot armed, a restore begun with its quarantines, a stack's retired
pages. When a role is checked and what RETIRE_SET rewrites are the model's choices (log entries 42 and 54). -/
def Obligations.TcsStewardAndKeeperCommands : Prop :=
  ∀ (s : State) (h : TcsHdr), bitOf s.pwr.on.toNat 13 = true →
    (∀ id : BitVec 16, s.tcsRuns h 0x2001 false → id.toNat < 0x4000 → (∀ p < 16, s.pyState p = 0) →
      ∃ u, exec (.moduleIdSet h id) s = .next u ∧ s.answered u h 0x2001 0 [] ∧ s.computeSame u ∧ u.ownId = some id.toNat) ∧
    (∀ (mask : BitVec 16) en (role : BitVec 4) half spare, s.tcsRuns h 0x2002 false → roleOk role.toNat = true →
      (∀ p < 16, bitOf mask.toNat p = true → s.pyState p = 0 ∨ s.role p = role.toNat) →
      ∃ u, exec (.portSet h mask en role half spare) s = .next u ∧ s.answered u h 0x2002 0 [] ∧ s.computeSame u ∧
        (∀ p < 16, bitOf mask.toNat p = true → u.role p = role.toNat ∧ u.bit .pyPortCtrl p 31 = en ∧
          u.bit .pyPortCtrl p 28 = half ∧ u.bit .pyPortCtrl p 27 = spare) ∧
        (∀ p < 16, bitOf mask.toNat p = false → u.reg .pyPortCtrl p = s.reg .pyPortCtrl p)) ∧
    (∀ first (entries : List Word), s.tcsRuns h 0x2003 false → entries.length ≤ 1000 → first + entries.length ≤ 16384 →
      ∃ u, exec (.routeSet h first entries) s = .next u ∧ s.answered u h 0x2003 0 [] ∧ s.computeSame u ∧
        (∀ k < entries.length, u.bit .pyRoute (first + k) 31 = (entries.getD k 0).getLsbD 31 ∧
          u.fld .pyRoute (first + k) 7 0 = (entries.getD k 0).toNat % 256)) ∧
    (∀ (own : BitVec 14) pairs, s.tcsRuns h 0x2004 false → pairs.length ≤ 1000 → s.anyRunning = false →
      (∀ q ∈ pairs, 0x8000 ≤ q.1.toNat ∧ q.1.toNat < 0xC000) → (pairs.map (fun q => q.1)).Nodup →
      ∃ u, exec (.remapSet h own pairs) s = .next u ∧ s.answered u h 0x2004 0 [] ∧ s.computeSame u ∧
        u.bit .pySelfLogical 0 31 = true ∧ u.fld .pySelfLogical 0 13 0 = own.toNat ∧
        (∀ q ∈ pairs, u.bit .pyRemap (q.1.toNat - 0x8000) 31 = true ∧ u.fld .pyRemap (q.1.toNat - 0x8000) 13 0 = q.2.toNat)) ∧
    (∀ (g : BitVec 8) (members : List (BitVec 16)), s.tcsRuns h 0x2005 false → g.toNat ≤ 254 → members.length ≤ 64 →
      (s.group g.toNat).msgs = [] → ∃ u, exec (.mcastSet h g members) s = .next u ∧ s.answered u h 0x2005 0 [] ∧ s.computeSame u ∧
        u.members g.toNat = List.range members.length ∧
        (∀ k < members.length, u.fld .pyMcastMember (64 * g.toNat + k) 15 0 = (members.getD k 0).toNat)) ∧
    (∀ slot : BitVec 8, s.tcsRuns h 0x3001 false → slot.toNat ≤ 15 → s.mirrorIdle = true → s.bit .snapCtrl 0 31 = false →
      s.anyRunning = true → ∃ u, exec (.snapTake h slot) s = .next u ∧ s.answered u h 0x3001 0 [] ∧ s.computeSame u ∧
        u.fld .snapStatus 0 31 30 = 1 ∧ u.fld .snapStatus 0 29 24 = slot.toNat ∧ u.fw.snapCmd = some h.seq.toNat) ∧
    (∀ slot : BitVec 8, s.tcsRuns h 0x3002 false → slot.toNat < 20 → s.mirrorIdle = true → s.anyRunning = false →
      (s.slot slot.toNat).good = true → ∃ u, exec (.snapRestore h slot) s = .next u ∧ s.answered u h 0x3002 0 [] ∧ s.computeSame u ∧
        u.fld .snapStatus 0 31 30 = 3 ∧ u.fw.restSlot = slot.toNat ∧
        (∀ d < 4, u.fld .stnDieEpoch d 15 0 = nextEpoch (s.fld .stnDieEpoch d 15 0)) ∧
        (∀ i < 1024, u.quarantined i = true) ∧ (∀ g < 4096, u.pgQuarantined g =
          ((s.slot slot.toNat).holds g || (decide (16 ≤ slot.toNat) && (s.relocHere (s.slot slot.toNat)).contains g)))) ∧
    (∀ (k : Seg) (pages : List (BitVec 13)), s.tcsRuns h 0x3005 false → pages.length < 32 → pages.Nodup →
      s.dieRunning (k.val / 8) = false → s.stacksUp (k.val / 8) = true →
      ∃ u, exec (.retireSet h k pages) s = .next u ∧ s.answered u h 0x3005 0 [] ∧ s.computeSame u ∧
        (∀ i < 32, u.bit .prismRetire (32 * k + i) 31 = decide (i < pages.length)) ∧
        (∀ i < pages.length, u.fld .prismRetire (32 * k + i) 12 0 = (pages.getD i 0).toNat))

/-- Activities, restarts, error reports and the loss of the host, with the firmware domain powered. An activity that ends is reported with its
status, and a load that passes its checks takes force. A restart is counted with its cause, changes no other processor and abandons what
Liaison carried out, which makes no bank READY; when it is complete the processor runs its image, or stands in ROM state. A report is
numbered, recorded under the class of its capture register and sent, and waits while Keeper restarts. A counter of corrected errors that has
risen by 1,024 is reported. A package fault stops every die. A lost host has the part park, or its group's lead told, and the event waits for
a session. That a parked part holds its dies from the closing decision on is the model's choice (log entry 32), as is how reports arrive (log
entry 28). -/
def Obligations.ProcessorsRestartReportAndPark : Prop :=
  ∀ (s : State), bitOf s.pwr.on.toNat 12 = true →
    let sends := fun (u : State) (code : Nat) (load : List Nat) => s.bit .mbxStatus 0 30 = false →
      s.qpState (qpKey s.fw.lastPort 0) = 1 → ∃ e, u.lastSent s.fw.lastPort = some (.event s.fw.lastPort e) ∧ e.code = code ∧
        e.load = load ∧ e.fp = eventFp code load ∧ e.sess = BitVec.ofNat 32 (s.reg .mbxSession 0) ∧ e.step = s.fw.stepCnt % 2 ^ 32
    let leaves := fun (u : State) (p : Nat) => u.dies = s.dies ∧ u.ring = s.ring ∧ u.stackMem = s.stackMem ∧ u.refc = s.refc ∧
      (∀ i, (u.station i).ready &&& ~~~ (s.station i).ready = 0) ∧ ((p ≠ 0 ∨ s.fw.tasks = []) → s.computeSame u)
    let restarts := fun (c : Instr) (p cause : Nat) => ∃ u, exec c s = .next u ∧ leaves u p ∧ u.fpState p = 3 ∧
      u.fld .fwStatus p 29 27 = cause ∧ u.fld .fwStatus p 15 0 = (s.fld .fwStatus p 15 0 + 1) % 2 ^ 16 ∧
      (∀ q < 4, q ≠ p → u.reg .fwStatus q = s.reg .fwStatus q) ∧
      u.fw.raised = s.fw.raised ++ [(9, ⟨6, BitVec.ofNat 12 p⟩, Reg.at .fwStatus p)] ∧
      (p = 0 → u.fw.tasks = [] ∧ u.fw.late = s.fw.late ++ s.fw.tasks.map (·.1)) ∧ (p ≠ 0 → u.fw = { s.fw with raised := u.fw.raised })
    let reports := fun (c : Instr) (cls sev : Nat) (unit : UnitRef) => ∃ u q, exec c s = .next u ∧ u.fw.reports.getLast? = some q ∧
      u.fw.repNext = s.fw.repNext + 1 ∧ q.num = s.fw.repNext ∧ q.cls = cls ∧ q.sev = sev ∧ q.unit = unit ∧ q.step = s.fw.stepCnt ∧
      (2 ≤ sev → u.fw.saved.getLast? = some q) ∧ sends u 0x8003 q.words
    (∀ (seq : BitVec 32) c, s.fw.tasks.find? (fun q => q.1 = seq.toNat) = some (seq.toNat, c) →
      let t := s.fwUpd (fun f => { f with tasks := f.tasks.erase (seq.toNat, c) })
      (∀ st : BitVec 16, st ≠ 0 → ∃ u, exec (.activityDone seq 0 st) s = .next u ∧ s.computeSame u ∧
        u.fw.tasks = t.fw.tasks ∧ sends u 0x8002 [seq.toNat, 0, st.toNat]) ∧
      (∀ h d banks, c = .binLoad h d banks →
        (∀ r, t.declRefused d banks = some r →
          ∃ u, exec (.activityDone seq 0 0) s = .next u ∧ s.computeSame u ∧ u.fw.binary = s.fw.binary ∧
          sends u 0x8002 ([seq.toNat, 0, r.1] ++ r.2)) ∧
        (t.declRefused d banks = none → t.codeRefused d.profile.toNat banks = none → ∃ u, exec (.activityDone seq 0 0) s = .next u ∧
          u.fw.binary = some ⟨d, banks⟩ ∧ u.stations = (t.fillAll banks).stations ∧ sends u 0x8002 [seq.toNat, 0, 0]))) ∧
    (∀ p : Proc, restarts (.watchdogExpiry p) p 1 ∧ restarts (.processorRestart p .exception) p 2 ∧
      restarts (.processorRestart p .memory) p 4) ∧
    (∀ (who : Requester) (v : Word), s.accepts who .fwRestart 0 v.toNat → ∃ u, exec (.fwRestart who v) s = .next u ∧
      leaves u (if bitOf v.toNat 0 then 0 else 1) ∧
      (∀ p < 4, bitOf v.toNat p = true → u.fpState p = 3 ∧ u.fld .fwStatus p 29 27 = 3 ∧
        u.fld .fwStatus p 15 0 = (s.fld .fwStatus p 15 0 + 1) % 2 ^ 16) ∧
      (∀ p < 4, bitOf v.toNat p = false → u.reg .fwStatus p = s.reg .fwStatus p)) ∧
    (∀ p : Proc, (∀ q ∈ s.fw.held, q.key ≠ p.val) → s.restarting p = true → (p.val = 3 → s.fw.errQ = []) →
      (p.val = 2 → s.fw.steward = []) →
      ∃ u, exec (.restartComplete p) s = .next u ∧ s.computeSame u ∧ u.fpState p = (if (s.image p).isSome then 2 else 1) ∧
        (p.val = 0 → u.fw.late = []) ∧ (s.fw.late = [] →
          sends u 0x8001 [p.val, s.fld .fwStatus p 15 0, s.fld .fwStatus p 29 27])) ∧
    (∀ cls (sev : BitVec 2) unit off cap, (∀ i hi, Reg.find off ≠ some (.stnMemErr, i, hi)) →
      (s.restarting 3 = false → reports (.errorReport cls sev unit off cap) (s.reportClass cls.toNat off) sev.toNat unit) ∧
      (s.restarting 3 = true → ∃ u, exec (.errorReport cls sev unit off cap) s = .next u ∧ u.out = s.out ∧
        u.fw.reports = s.fw.reports ∧
        (s.fw.errQ.length < 256 → ∃ r, u.fw.errQ = s.fw.errQ ++ [r] ∧ r.cls = s.reportClass cls.toNat off ∧
          r.sev = sev.toNat ∧ r.unit = unit) ∧
        (256 ≤ s.fw.errQ.length → u.fw.errQ = s.fw.errQ ∧ u.fld .fwStatus 3 23 16 = satTo 8 (s.fld .fwStatus 3 23 16 + 1)))) ∧
    (∀ (i : Stn) sev cap, s.restarting 3 = false → let place := 33 * segOf i + s.posOf i
      (∀ e ∈ s.fw.memErrs, e.1 ≠ place) → let unit : UnitRef := ⟨1, BitVec.ofNat 12 i.val⟩
      let off := Reg.at .stnMemErr i
      reports (.errorReport 1 sev unit off cap) (s.reportClass 1 off) sev.toNat unit ∧
      ∃ u, exec (.errorReport 1 sev unit off cap) s = .next u ∧ u.fw.memErrs = s.fw.memErrs ++ [(place, (s.fw.refTime : Int))] ∧
        u.fw.subst = s.fw.subst) ∧
    (∀ unit n, ceReg unit = none → exec (.cePoll unit n) s = .next s) ∧
    (∀ unit n r k q, ceReg unit = some (r, k, q) → unit.index.toNat < k → s.restarting 3 = false →
      let c := (s.ceAdd r unit.index.toNat n q).ceCount r unit.index.toNat q
      let seen := Tbl.get (fun _ => (0, 0)) s.fw.ceSeen (unitKey unit)
      let rise := seen.2 + (if c < seen.1 then c else c - seen.1)
      (rise < 1024 → ∃ u, exec (.cePoll unit n) s = .next u ∧ u.ceCount r unit.index.toNat q = c ∧
        Tbl.get (fun _ => (0, 0)) u.fw.ceSeen (unitKey unit) = (c, rise) ∧ u.out = s.out) ∧
      (1024 ≤ rise → reports (.cePoll unit n) 4 0 unit)) ∧
    (∀ link, (∃ u, exec (.packageFault link) s = .next u ∧ ∀ d < 4, (u.die d).reqs.contains ⟨12, 0⟩ = true) ∧
      (s.restarting 3 = false → reports (.packageFault link) 0xC 2 ⟨0xA, link⟩)) ∧
    (s.bit .mbxStatus 0 30 = false → ∃ u, exec .hostLossTimeout s = .next u ∧ u.bit .mbxStatus 0 30 = true ∧
      ((s.anyRunning = false ∨ s.fw.group = none) → u.fw.parkDue = true) ∧
      (∀ id members lead, s.anyRunning = true → s.fw.group = some (id, members, lead) →
        (s.ownLogical = lead → u.fw.parkDue = true ∧ u.fw.parkAt = s.fw.stepCnt + 2 ∧
          ∀ m ∈ members, m ≠ lead → Out.ctrl (BitVec.ofNat 16 (0x8000 + m.toNat)) 7 [s.fw.stepCnt + 2] ∈ u.out) ∧
        (s.ownLogical ≠ lead → u.fw.parkDue = s.fw.parkDue ∧ Out.ctrl (BitVec.ofNat 16 (0x8000 + lead.toNat)) 6 [s.fw.stepCnt] ∈ u.out)) ∧
      (s.anyRunning = false → ∀ d < 4, s.regionOn (2 * d) = true → u.bit .shtCtrl d 14 = true) ∧
      (s.bit .mbxCtrl 0 16 = true → s.mirrorIdle = true → (s.bit .snapCtrl 0 31 = false ∨ s.anyRunning = false) →
        u.fld .snapStatus 0 31 30 ≠ 0)) ∧
    (s.fw.parkDue = true → s.parkedStill = true → ∃ u, exec .hostLossPark s = .next u ∧ u.bit .mbxStatus 0 31 = true ∧
      u.fw.parkDue = false ∧ (s.idleState = 0 → s.wakeLevels &&& s.fld .pwrWakeEn 0 4 0 = 0 → u.idleState = 1) ∧
      (s.bit .mbxStatus 0 30 = true → s.fw.queued.length < 4096 → ∃ e, u.fw.queued = s.fw.queued ++ [.event s.fw.lastPort e] ∧
        e.code = 0x8004 ∧ e.num = s.fw.evNext ∧ e.load = [s.fw.stepCnt])) ∧
    ((s.fw.parkDue = false ∨ s.parkedStill = false) → exec .hostLossPark s = .next s)

/-- Steps, work groups, the phase ledger and energy. A step start marker counts the step and, with Sundial up, writes the choice and starts
its copy; a variant that cannot run is replaced and counted; a member uses the choice it holds, or reports the miss; the lead sends its
own. A finished copy leaves the inactive banks READY. A phase opens an entry at its time, and an end from every die that began it closes
the entry; that of PID 0xFFF gives the step's energy. Energy is counted on the allowance and the open entries; a starved part rests in Twilight
until an interval renews the allowance. Units of time and energy and the resting of a starved part are the model's choices (log entries 44
and 66). -/
def Obligations.StepsChoicesLedgerAndEnergy : Prop :=
  ∀ (s : State),
    let s1 := s.fwUpd (fun f => { f with stepCnt := f.stepCnt + 1 })
    let mails := s.bit .mbxStatus 0 30 = false ∧ s.qpState (qpKey s.fw.lastPort 0) = 1
    (∃ u, exec .stepStartMarker s = .next u ∧ u.fw.stepCnt = s.fw.stepCnt + 1 ∧ u.fw.ledger = s.fw.ledger) ∧
    (∀ v x st, s.sundialUp = true → s.fw.group = none → s1.choice = (some v, st) → s.variantOf v = some x → v < 64 →
      x.prof.toNat = s.active → ∃ u, exec .stepStartMarker s = .next u ∧ u.reg .fwNextVariant 0 = 2 ^ 31 + v ∧ u.fw.copying = some v ∧
        u.fw.starved = st ∧ u.bit .fwVariantStatus 0 23 = true ∧ s.computeSame u) ∧
    (∀ v, s.sundialUp = false → s.bit .fwNextVariant 0 31 = true → s1.copyWhich = (v, true) → mails →
      ∃ u e, exec .stepStartMarker s = .next u ∧ u.fw.copying = some v ∧ s.computeSame u ∧
        u.fld .fwVariantStatus 0 15 0 = satTo 16 (s.fld .fwVariantStatus 0 15 0 + 1) ∧
        u.lastSent s.fw.lastPort = some (.event s.fw.lastPort e) ∧ e.code = 0x8005 ∧
        e.load = [s.fw.stepCnt + 1, s.fld .fwNextVariant 0 5 0, v]) ∧
    (s.sundialUp = false → s.bit .fwNextVariant 0 31 = false → exec .stepStartMarker s = .next s1) ∧
    (∀ id members lead, s.sundialUp = true → s.fw.group = some (id, members, lead) →
      (∀ v x, s.ownLogical ≠ lead → s.fw.choices.find? (fun q => q.1 = s.fw.stepCnt + 2) = some (s.fw.stepCnt + 2, v) → v < 64 →
        s.variantOf v = some x → x.prof.toNat = s.active → ∃ u, exec .stepStartMarker s = .next u ∧
          u.reg .fwNextVariant 0 = 2 ^ 31 + v ∧ u.fw.copying = some v) ∧
      (s.fw.choices.find? (fun q => q.1 = s.fw.stepCnt + 2) = none → s.bit .fwNextVariant 0 31 = false → mails →
        ∃ u e, exec .stepStartMarker s = .next u ∧ u.fw.copying = s.fw.copying ∧
          u.lastSent s.fw.lastPort = some (.event s.fw.lastPort e) ∧ e.code = 0x8006 ∧ e.load = [s.fw.stepCnt + 2] ∧
          (∀ v st, s.ownLogical = lead → s1.choice = (some v, st) → ∀ m ∈ members, m ≠ s.ownLogical →
            Out.ctrl (BitVec.ofNat 16 (0x8000 + m.toNat)) 4 [s.fw.stepCnt + 3, v] ∈ u.out))) ∧
    (let n := s.fld .snapCtrl 0 15 0
     ((n = 0 ∨ s.fw.stepCnt % n ≠ 0 ∨ s.fld .snapStatus 0 31 30 = 1) → exec .snapEveryArm s = .next s) ∧
     (n ≠ 0 → s.fw.stepCnt % n = 0 → s.mirrorIdle = true → s.anyRunning = true → s.bit .snapCtrl 0 31 = false →
       ∃ u, exec .snapEveryArm s = .next u ∧ u.fld .snapStatus 0 31 30 = 1 ∧ u.fld .snapStatus 0 29 24 = s.rotate ownSlots ∧
         s.computeSame u) ∧
     (n ≠ 0 → s.fw.stepCnt % n = 0 → s.fld .snapStatus 0 31 30 = 2 → s.restarting 3 = false → ∃ u q, exec .snapEveryArm s = .next u ∧
       u.fw.reports.getLast? = some q ∧ q.cls = 0xB ∧ u.fld .snapStatus 0 31 30 = 2 ∧ s.computeSame u)) ∧
    (∀ v x, s.fw.copying = some v → s.variantOf v = some x → ∃ u, exec .variantCopyDone s = .next u ∧ u.fw.copying = none ∧
      u.fw.current = v ∧ u.bit .fwVariantStatus 0 23 = false ∧
      (∀ k ∈ x.banks, ∀ i ∈ bankStns k, s.participates i = true → s.present (segOf i) = true →
        bitOf (u.station i).ready.toNat (2 * k.strm.idx + b2n (!(s.stream i k.strm).bank)) = true) ∧
      (∀ i, (u.station i).f = (s.station i).f ∧ (u.station i).b = (s.station i).b ∧ (u.station i).u = (s.station i).u) ∧
      (∀ q, x.maps = [q] → s.participates (q.1 / 20) = true → s.present (segOf (q.1 / 20)) = true →
        u.reg .stnOwnMap (40 * (q.1 / 20) + 20 * b2n (!(s.station (q.1 / 20)).ownSet) + q.1 % 20) = q.2.toNat)) ∧
    (s.fw.copying = none → exec .variantCopyDone s = .next s) ∧
    (let armed := ∀ d < 4, ∀ i ∈ s.party d, (s.station i).strmBits 0 (fun y => y.swap.isSome) ≠ 0
     (∀ v pairs, s.bit .fwVariantStatus 0 22 = true → s.fw.classSw = some (v, pairs) → s.fw.current = v → s.fw.copying = none → armed →
       ∃ u, exec .classSwitchSubmit s = .next u ∧ u.fw.classSw = none ∧
       ∀ d < 4, s.regionOn (2 * d) = true → u.bit .fmtPolicy d 31 = true) ∧
     (∀ v pairs, s.fw.classSw = some (v, pairs) → s.fw.current ≠ v → exec .classSwitchSubmit s = .next s) ∧
     (s.fw.copying ≠ none → exec .classSwitchSubmit s = .next s) ∧
     (¬ armed → exec .classSwitchSubmit s = .next s)) ∧
    (∀ id members lead (m : BitVec 14) n e, s.fw.group = some (id, members, lead) → s.ownLogical = lead → members.contains m = true →
      ∃ u, exec (.groupEnergyReport m n e) s = .next u ∧ u = { s with fw := u.fw } ∧ u.fw.allow = s.fw.allow - e ∧
        u.fw.reported.getLast? = some (m.toNat, n, e)) ∧
    (∀ n (v : BitVec 6), (s.fw.group ≠ none → ∃ u, exec (.groupChoice n v) s = .next u ∧ u = { s with fw := u.fw } ∧
        u.fw.choices = s.fw.choices.filter (fun q => q.1 ≠ n) ++ [(n, v.toNat)]) ∧
      (s.fw.group = none → exec (.groupChoice n v) s = .next s)) ∧
    (∀ (d : Die) pid (w : MarkAt), (∀ e ∈ s.fw.ledger, e.isOpen = true → e.pid ≠ pid) →
      (s.fw.ledger.length < 256 → (s.fw.ledger.filter (·.isOpen)).length < 16 → ∃ u, exec (.ledgerMarker d pid false w) s = .next u ∧
        u = { s with fw := u.fw } ∧
        u.fw.ledger = s.fw.ledger ++ [⟨pid, BitVec.ofNat 4 (2 ^ d.val), 0, true, false, w.tick, 0, w.time, 0, 0, false⟩]) ∧
      ∃ u, exec (.ledgerMarker d pid true w) s = .next u ∧ u.fw.ledger = s.fw.ledger ∧
        u.fw.closing = (s.fw.closing || decide (pid = 0xFFF))) ∧
    (∀ (d : Die) pre e post (w : MarkAt), s.fw.ledger = pre ++ e :: post → e.isOpen = true →
      (∀ x ∈ pre ++ post, x.isOpen = true → x.pid ≠ e.pid) → s.fw.stream = none →
      (∃ u, exec (.ledgerMarker d e.pid false w) s = .next u ∧ u = { s with fw := u.fw } ∧
        u.fw.ledger = pre ++ { e with starts := e.starts ||| BitVec.ofNat 4 (2 ^ d.val) } :: post) ∧
      (let ends := e.ends ||| BitVec.ofNat 4 (2 ^ d.val)
       ∃ u, exec (.ledgerMarker d e.pid true w) s = .next u ∧ u = { s with fw := u.fw } ∧
        (ends &&& e.starts = e.starts → u.fw.closed = s.fw.closed + 1 ∧ u.fw.ledger = pre ++
          { e with ends := ends, tick1 := w.tick, isOpen := false, dur := w.time - e.ref0 } :: post ∧
          u.fw.stepE = (if e.pid = 0xFFF then some e.energy else s.fw.stepE)) ∧
        (ends &&& e.starts ≠ e.starts → u.fw.closed = s.fw.closed ∧ u.fw.stepE = s.fw.stepE ∧
          u.fw.ledger = pre ++ { e with ends := ends, tick1 := w.tick } :: post))) ∧
    (∀ e, ∃ u, exec (.energySample e) s = .next u ∧ u.fw.refTime = s.fw.refTime + 100 ∧ u.fw.allow = s.fw.allow - e ∧
      u.fw.ledger = s.fw.ledger.map (fun x => if x.isOpen then { x with energy := x.energy + e } else x) ∧
      (s.fw.starved = false → u = { s with fw := u.fw }) ∧
      (s.fw.starved = true → s.idleState = 0 → s.anyLoaded = true → s.parkedStill = true →
        s.wakeLevels &&& s.fld .pwrWakeEn 0 4 0 = 0 → u.idleState = 1)) ∧
    (∃ u, exec .budgetIntervalStart s = .next u ∧ u.fw.allow = s.fw.budget.2.1 * 100000 ∧ u.fw.intStart = s.fw.refTime ∧
      ((s.fw.starved = false ∨ s.sundialUp = false) → u = { s with fw := u.fw }) ∧
      (s.fw.starved = true → s.sundialUp = true → (∀ d < 4, s.regionOn (2 * d) = true → u.bit .shtCtrl d 14 = false) ∧
        (s.idleState = 1 → s.waking = false → u.idleState = 0)))

/-- Snapshots, restores, copies for a buddy, spares and the NAND store. A copy that completes has every page in its slot and frees what it
held; one that fails leaves the slot incomplete, and Lens posts to pages that wait hold it. A restore writes back the slot's pages, stores and
registers, and takes every station out of quarantine, and every page group but those of failed pages. A buddy's page enters its slot and is
acknowledged; a copy that stops is reported. A failed station is replaced by its segment's spare, or reported. A block that fails is bad and
takes no data, a read-disturbed one is moved, a codeword that fails is reported and its page is lost. Writes behind a snapshot's copy, and Lens
posts: a write to an uncopied page on a scheduled path is counted and requests the shutter with bit 6; once the page is copied ahead it is
uncopied no more and the request is gone, and with its reserve full it waits. The oldest post of a die merges into the table by saturating
sums and leaves the die's posts. -/
def Obligations.SnapshotsRestoresAndMerges : Prop :=
  (∀ (s : State),
    let mails := s.bit .mbxStatus 0 30 = false ∧ s.qpState (qpKey s.fw.lastPort 0) = 1
    let sends := fun (u : State) (code : Nat) (load : List Nat) => ∃ e, u.lastSent s.fw.lastPort = some (.event s.fw.lastPort e) ∧
      e.code = code ∧ e.load = load
    let reports := fun (u : State) (cls sev : Nat) => ∃ q, u.fw.reports.getLast? = some q ∧ q.cls = cls ∧ q.sev = sev
    (∀ ok xs, s.fld .snapStatus 0 31 30 ≠ 2 → exec (.snapshotComplete ⟨ok, xs⟩) s = .next s) ∧
    (∀ ok xs, s.fld .snapStatus 0 31 30 = 2 → let good := ok && !s.nandReadOnly
      (good = true → s.copyWaits ≠ [] → ∃ u, exec (.snapshotComplete ⟨ok, xs⟩) s = .next u ∧ u.fld .snapStatus 0 31 30 = 2 ∧
        u.fw = s.fw ∧ u.stackMem = s.stackMem) ∧
      ((good = true → s.copyWaits = []) → s.fw.heldWr = [] → s.fw.heldBit = [] → s.fld .snapStatus 0 29 24 = s.fw.snapSlot →
        (s.slot s.fw.snapSlot).state = 2 →
        ∃ u, exec (.snapshotComplete ⟨ok, xs⟩) s = .next u ∧ u.fld .snapStatus 0 31 30 = 0 ∧ u.fw.uncopied = [] ∧ u.fw.snapCmd = none ∧
          (u.slot s.fw.snapSlot).state = (if good then 1 else 2) ∧ u.stackMem = s.stackMem ∧ u.stations = s.stations ∧
          (good = true → ∀ q ∈ s.fw.uncopied, ∀ b < 64, q.2.testBit b = true → let p := 64 * q.1 + b
            (p, s.stackRdN (p / 8192) (p % 8192 * 65536) 65536, s.pgQuarantined (p / 64) || !s.readsOk xs (65536 * p) 65536) ∈
              (u.slot s.fw.snapSlot).pages) ∧
          (∀ q < 2 ^ 32, s.fw.snapCmd = some q → mails → sends u 0x8002 [q, 3, if good then 0 else 0x40]))) ∧
    (∀ failed xs, s.fld .snapStatus 0 31 30 = 3 → s.fw.restSlot < 16 → let x := s.slot s.fw.restSlot
      (∀ q ∈ x.regs, inRecord q.1 = true) →
      let bad := (x.pages.map (·.1)).filter (fun p => (failed ++ x.lost).contains p)
      ∃ u, exec (.restoreComplete ⟨failed, xs⟩ false) s = .next u ∧ u.fld .snapStatus 0 31 30 = 0 ∧
        (∀ i < 1024, u.quarantined i = false) ∧ (∀ g < 4096, ((∀ p ∈ bad, p / 64 ≠ g) → u.pgQuarantined g = false) ∧
          ((∃ p ∈ bad, p / 64 = g) → u.pgQuarantined g = s.pgQuarantined g)) ∧
        (∀ p bs, x.pages = [(p, bs, false)] → p ∉ failed ++ x.lost → u.stackMem = (s.putPage xs p bs).stackMem) ∧
        (∀ i st gr poisoned, x.flags.testBit 0 = true → x.stns = [(i, st, gr, poisoned)] →
          (u.station i).store = st ∧ (u.station i).grad = gr) ∧
        (x.flags.testBit 0 = false → ∃ k, ∀ i < 1024, (u.station i).store = Memory.lost (k + i)) ∧
        (∀ (d : Die) v, x.regs = [(Reg.at .lensBase d, v)] → u.reg .lensBase d = v.toNat) ∧
        (∀ q < 2 ^ 32, s.fw.restCmd = some q → mails → sends u 0x8002 ([q, 3] ++ if bad = [] then [0] else [0x40, bad.length]))) ∧
    (∀ src (addr : BitVec 64) data,
      (s.fromBuddy src.toNat = false → exec (.buddyPageRx src addr data) s = .next s) ∧
      (∀ k, s.fromBuddy src.toNat = true → s.fw.buddySlot = some k → ∃ u, exec (.buddyPageRx src addr data) s = .next u ∧
        Out.ctrl src 3 [addr.toNat] ∈ u.out ∧ s.computeSame u ∧
        (data.length ≠ 4096 → u.slot k = (s.slot k).ofPage data ∧ (let p := leNat (data.take 8) % 2 ^ 48 / 65536
          p < 2 ^ 28 → (u.slot k).pages = insPage p (data.drop 16) (decide (leNat ((data.drop 8).take 1) % 2 = 1)) (s.slot k).pages)) ∧
        (data.length = 4096 → u.slot k = (s.slot k).ofHead data) ∧
        (data.length = 4096 → leNat ((data.drop 5).take 1) = 1 → (u.slot k).state = 1 ∧ u.fw.buddySlot = none))) ∧
    ((s.fw.buddyWait = [] → exec .buddyAck s = .next (s.fwUpd (fun f => { f with buddyOut := f.buddyOut - 1 }))) ∧
     (∀ p rest, s.fw.buddyWait = p :: rest → s.buddyOn = true → s.fw.buddyOut = 1024 → ∃ u, exec .buddyAck s = .next u ∧
       u.fw.buddyWait = rest ∧ u.fw.buddyOut = 1024 ∧ s.computeSame u ∧
       (let bs := s.buddyBytes p
        let m := 0x8000 + s.fld .snapBuddy 0 27 14
        s.target m = .loc → u.out = ((List.range ((bs.length + 4095) / 4096)).map (fun k =>
          let part := (bs.drop (4096 * k)).take 4096
          Out.req 0x403 0 0 (BitVec.ofNat 64 (m * 2 ^ 48 + Config.inboundAt p % 2 ^ 44 + 4096 * k)) part.length part)).reverse ++ s.out))) ∧
    (∃ u, exec .buddyTimeout s = .next u ∧ s.computeSame u ∧ u.fw.buddySlot = none ∧ u.fw.buddyOut = 0 ∧
      (s.restarting 3 = false → (s.fw.buddySlot ≠ none ∨ s.fw.buddyOut ≠ 0) → reports u 0xB 1)) ∧
    (∀ src (g : Fin 4096), (s.stacksUp (g / 1024) = false → exec (.buddyStamp src g) s = .next s) ∧
      (s.stacksUp (g / 1024) = true → ∃ u, exec (.buddyStamp src g) s = .next u ∧ s.RegsOnly u [Reg.at .msPgEpoch g] ∧
        u.pgQuarantined g = false)) ∧
    (∀ i : Stn, let spare := bitOf (s.segSpareWord (segOf i)) 16
      (spare = false → s.restarting 3 = false → ∃ u, exec (.stationFailed i) s = .next u ∧ s.computeSame u ∧ reports u 1 3) ∧
      (spare = true → s.noBoundary (dieOf i) = false → ∃ u, exec (.stationFailed i) s = .next u ∧
        u = { s with fw := u.fw } ∧ u.fw.subst = s.fw.subst ++ [i.val]) ∧
      (spare = true → s.noBoundary (dieOf i) = true → s.fw.subst = [] →
        ∃ u, exec (.stationFailed i) s = .next u ∧ u.sparePos (segOf i) = s.posOf i ∧
          u.fw.spares.getLast? = some (segOf i, s.posOf i) ∧ u.fw.subst = [] ∧
          ∀ j, dieOf j = dieOf i → (u.station j).run = .stopped)) ∧
    (∀ rewritten corrected (failed : List (Nat × Nat)), let n := s.fw.nand
      ∃ u, exec (.retentionScan rewritten corrected failed) s = .next u ∧ s.computeSame u ∧
        u.fw.nand.scanned = n.scanned + (rewritten.filter (fun b => (n.blk b).full)).length ∧ u.fw.nand.fixed = n.fixed + corrected ∧
        u.fw.nand.failed = n.failed + failed.length ∧ (∀ q ∈ failed, q.2 ∈ (u.slot q.1).lost) ∧
        (failed ≠ [] → s.restarting 3 = false → reports u 0xA 1)) ∧
    ((∀ q, s.fw.nand.blocks.find? (fun q => q.2.full && decide (100000 ≤ q.2.reads)) = some q →
        ∃ u, exec .readDisturbRefresh s = .next u ∧ s.computeSame u ∧ u.fw.nand.fresh = s.fw.nand.fresh + 1) ∧
     (s.fw.nand.blocks.find? (fun q => q.2.full && decide (100000 ≤ q.2.reads)) = none → exec .readDisturbRefresh s = .next s)) ∧
    ((∀ b, s.fw.nand.nextBlock = some b → let n := s.fw.nand.setBlk b (fun x => { x with bad := true })
        ∃ u, exec .nandProgramFail s = .next u ∧ s.computeSame u ∧ (u.fw.nand.blk b).bad = true ∧ u.fw.nand.nextBlock ≠ some b ∧
          u.nandReadOnly = (s.nandReadOnly || decide (3000 ≤ n.mean) || decide (n.spares ≤ n.grown))) ∧
     (s.fw.nand.nextBlock = none → exec .nandProgramFail s = .next s))) ∧
  (∀ (s : State) (d : Die),
    (∀ page, s.isUncopied page = true → ∃ u, exec (.copyAheadOfWrite d page true) s = .next u ∧
      (u.die d).reqs.contains ⟨6, page⟩ = true ∧ u.stackMem = s.stackMem ∧
      u.fld .snapStatus 0 15 0 = satTo 16 (s.fld .snapStatus 0 15 0 + 1)) ∧
    (∀ page freed xs, s.isUncopied page = true → s.postsBefore (65536 * page) 65536 = 0 → let k := s.reserved (page / 65536) - freed
      let size := s.reserveSize (page / 65536)
      (s.fw.heldWr = [] → size = 0 → ∃ u, exec (.copyAheadRelease d ⟨page, freed, xs⟩) s = .next u ∧
        u.isUncopied page = false ∧ (u.die d).reqs.contains ⟨6, page⟩ = false ∧ u.stackMem = s.stackMem ∧
        (page, s.stackRdN (page / 8192) (page % 8192 * 65536) 65536, s.pgQuarantined (page / 64) || !s.readsOk xs (65536 * page) 65536) ∈
          (u.slot s.fw.snapSlot).pages) ∧
      (s.fw.heldWr = [] → k < size → ∃ u, exec (.copyAheadRelease d ⟨page, freed, xs⟩) s = .next u ∧
        u.isUncopied page = false ∧ (u.die d).reqs.contains ⟨6, page⟩ = false ∧ u.reserved (page / 65536) = k + 1) ∧
      (size ≠ 0 → size ≤ k → ∃ u, exec (.copyAheadRelease d ⟨page, freed, xs⟩) s = .next u ∧ u = { s with fw := u.fw } ∧
        u.fw.uncopied = s.fw.uncopied ∧ u.fw.heldWr = s.fw.heldWr ∧ u.reserved (page / 65536) = k)) ∧
    (∀ p rest xs, (s.die d).posts = p :: rest → s.fw.heldWr = [] → ∃ u, exec (.lensPostMerge d xs) s = .next u ∧ (u.die d).posts = rest ∧
      (let a := s.lensAddr d p.tag.toNat p.strm.idx
       let old := LensRec.ofBytes (s.rd0 a 160)
       let merges := s.readsOk xs a 160 = true ∧ s.staleRange a 160 = false
       (merges → u.stackMem = (s.wr0 a (old.join p.rcd).bytes xs).stackMem ∧ (old.saturates p.rcd = true → u.bit .lensStatus d 16 = true)) ∧
       (¬ merges → u.stackMem = s.stackMem ∧ u.bit .lensStatus d 16 = true))))

/-! ### Power, pins, management -/

/-- Region stops, AVSBus, the governor, the sensors, the clocks and the start order. A stop of still regions completes the switch or the fall
to the internal oscillator, whose shutter requests stand until the core rails are at 620 mV. A bus transaction in progress ends by the slave's
reply, is repeated after a CRC error at most three times, and asserts an alert where it fails; only a write of a target voltage waits for the
rail. The governor requests a shutter from 105 °C until below 100 °C; a trip powers everything down. Domains come up in order, each at its
profile's voltage and clock, and the last one ends the start or the wake. In reset the always-on logic notes nothing. What Night keeps, and
when the clocks go back to the PLL, are the model's readings (log entries 33 and 13). -/
def Obligations.PowerAndClockEventsTakeEffect : Prop :=
  ∀ (s : State),
    ((s.allStill = false ∨ (s.pwr.lostRef = false ∧ s.pwr.trigger = false)) → exec .regionStopDone s = .next s) ∧
    (s.allStill = true → s.pwr.lostRef = false → s.pwr.trigger = true → let n := s.nextProf
      ∃ u, exec .regionStopDone s = .next u ∧ u.active = n ∧ u.armed = false ∧ u.pwr.trigger = false ∧
        u.bit .clkStatus 0 28 = s.staysFio ∧ (∀ r < 8, s.regionOn r = true →
          u.mult r = (if s.staysFio && decide (s.profMult n (r % 2) ≠ 0) then 8 else s.profMult n (r % 2)) ∧
          u.bit .clkRegionStatus r 25 = (!s.staysFio && decide (s.profMult n (r % 2) ≠ 0))) ∧
        u.pkgRing = (if s.anyLoaded then s.pkgRing else s.profPkg n) ∧ (∀ d < 4, (u.die d).reqs.contains ⟨10, 0⟩ = false) ∧
        u.stations = s.stations) ∧
    (s.allStill = true → s.pwr.lostRef = true → ∃ u, exec .regionStopDone s = .next u ∧ u.pwr.lostRef = false ∧ u.pwr.trigger = false ∧
      u.fld .clkStatus 0 29 28 = 1 ∧ (s.pwr.trigger = true → u.armed = false) ∧
      (∀ r < 8, s.mult r ≠ 0 → u.mult r = 8 ∧ u.bit .clkRegionStatus r 25 = false) ∧
      ((∃ r < 8, s.mult r ≠ 0) → (∀ d < 4, (u.die d).reqs.contains ⟨10, 1⟩ = (s.die d).reqs.contains ⟨10, 1⟩) ∧
        (s.pwr.avs = none → ∃ r, u.pwr.avs = some ⟨true, r, 0, 620, 0, false, .loss⟩)) ∧
      (∀ d < 4, (u.die d).reqs.contains ⟨10, 0⟩ = false) ∧ u.stations = s.stations) ∧
    (∀ t : AvsTx, s.pwr.avs = some t → s.pwr.legacy = [] → s.pwr.avsWait = [] →
      let ends := fun (c : Instr) (st data : Nat) => ∃ u, exec c s = .next u ∧ u.pwr.avs = none ∧ u.fld .pwrAvsResult 0 31 28 = st ∧
        u.fld .pwrAvsResult 0 15 0 = data ∧ (st ≠ 0 → u.bit .pwrAlertStatus 0 1 = true) ∧
        (st = 0 → t.sets = true → u.rail t.sel = t.mv) ∧ (t.what = .loss → ∀ d < 4, (u.die d).reqs.contains ⟨10, 1⟩ = false)
      (∀ r : AvsReply, t.acked = false →
        (r.crcOk = false → t.tries < 3 → ∃ u, exec (.avsStatusPoll r) s = .next u ∧
          u.pwr.avs = some { t with tries := t.tries + 1 } ∧ u.out = .avs t.sel t.typ t.write t.mv :: s.out) ∧
        (r.crcOk = false → 3 ≤ t.tries → ends (.avsStatusPoll r) 2 0) ∧
        (r.crcOk = true → r.acked = false → ends (.avsStatusPoll r) 1 0) ∧
        (r.crcOk = true → r.acked = true → t.sets = false → ends (.avsStatusPoll r) 0 r.data.toNat) ∧
        (r.crcOk = true → r.acked = true → t.sets = true →
          exec (.avsStatusPoll r) s = .next (s.pwrUpd (fun w => { w with avs := some { t with acked := true } }))) ∧
        exec .avsVdoneTimeout s = .next s) ∧
      (t.acked = true → ends (.avsStatusPoll ⟨true, true, true, 0⟩) 0 0 ∧ ends .avsVdoneTimeout 3 0)) ∧
    (s.aonUp = false → (∀ ts, exec (.thermalReading ts) s = .next s) ∧ (∀ a b c d, exec (.moduleSensorRead a b c d) s = .next s) ∧
      (∀ mv w, exec (.inputAlert mv w) s = .next s) ∧ exec .refLoss s = .next s ∧ exec .refRestored s = .next s ∧
      exec .pllLock s = .next s) ∧
    (∀ ts, s.aonUp = true → ∃ u, exec (.thermalReading ts) s = .next u ∧ u.stations = s.stations ∧
      u.bit .govStatus 0 31 = decide (u.pwr.hot ≠ 0) ∧
      (tempAt ts (hottest ts) < 256 → u.fld .govStatus 0 15 8 = tempAt ts (hottest ts)) ∧
      (∀ d < 4,
        (105 ≤ dieTemp ts d → bitOf s.pwr.hot.toNat d = false → bitOf u.pwr.hot.toNat d = true ∧
          (u.die d).reqs.contains ⟨7, 0⟩ = true ∧ u.bit .pwrAlertStatus 0 2 = true) ∧
        (dieTemp ts d < 100 → bitOf s.pwr.hot.toNat d = true → bitOf u.pwr.hot.toNat d = false ∧
          (u.die d).reqs.contains ⟨7, 0⟩ = false) ∧
        (100 ≤ dieTemp ts d → dieTemp ts d < 105 → bitOf u.pwr.hot.toNat d = bitOf s.pwr.hot.toNat d ∧
          (u.die d).reqs = (s.die d).reqs))) ∧
    (∀ r : Region, (s.regionOn r = false → exec (.thermalTrip r) s = .next s) ∧
      (s.regionOn r = true → ∃ u, exec (.thermalTrip r) s = .next u ∧ u.out = .pin 7 true :: s.out ∧ u.pins.tripL = true ∧
        u.pwr.on = 0 ∧ u.reg .pwrState 0 = 0 ∧ u.bit .govStatus 0 30 = true ∧ u.stations = [] ∧ u.stackMem = Memory.lost s.free)) ∧
    (∀ outlet vreg nand board : BitVec 8, s.aonUp = true →
      let beyond := 60 ≤ outlet.toNat ∨ 110 ≤ vreg.toNat ∨ 70 ≤ nand.toNat ∨ 85 ≤ board.toNat
      ∃ u, exec (.moduleSensorRead outlet vreg nand board) s = .next u ∧
        u.reg .pwrModuleTemp 0 = outlet.toNat * 2 ^ 24 + vreg.toNat * 2 ^ 16 + nand.toNat * 2 ^ 8 + board.toNat ∧
        (beyond → u.bit .pwrAlertStatus 0 5 = true) ∧ (¬ beyond → s.RegsOnly u [Reg.at .pwrModuleTemp 0])) ∧
    (∀ mv (w : Watts), s.aonUp = true → ∃ u, exec (.inputAlert mv w) s = .next u ∧
      u.reg .pwrInput 0 = satTo 16 (mv / 10) * 2 ^ 16 + satTo 16 (w.fast * 100000 / mv) ∧
      (mv < 42000 ∨ 58000 < mv → u.bit .pwrAlertStatus 0 4 = true) ∧ (1650 < w.slow → u.bit .pwrAlertStatus 0 3 = true) ∧
      (42000 ≤ mv → mv ≤ 58000 → w.slow ≤ 1650 → s.RegsOnly u [Reg.at .pwrInput 0])) ∧
    (s.aonUp = true → ∃ u, exec .refLoss s = .next u ∧ u.fld .clkStatus 0 31 29 = 2 ∧ u.bit .pwrAlertStatus 0 0 = true ∧
      (s.bit .clkStatus 0 28 = true → s.pwr.trigger = false → u.dies = s.dies) ∧
      ((s.bit .clkStatus 0 28 = false ∨ s.pwr.trigger = true) → u.pwr.lostRef = true ∧
        ∀ d < 4, (u.die d).reqs.contains ⟨10, 1⟩ = true)) ∧
    (s.aonUp = true → ∃ u, exec .refRestored s = .next u ∧ s.RegsOnly u [Reg.at .clkStatus 0] ∧ u.bit .clkStatus 0 31 = true) ∧
    (s.aonUp = true → ∃ u, exec .pllLock s = .next u ∧ u = { s with regs := u.regs } ∧ u.bit .clkStatus 0 29 = true ∧
      u.bit .clkStatus 0 28 = (s.bit .clkStatus 0 28 && (decide (s.pwr.on.toNat % 256 ≠ 0) || decide (s.idleState = 2))) ∧
      (bitOf s.pwr.on.toNat 12 = true → ∀ p < 4, u.fpState p = if s.fpState p = 0 then 1 else s.fpState p)) ∧
    (∀ d : Die, (s.rising = true → s.stacksUp d = false → (∀ e < d.val, s.stacksUp e = true) →
        ∃ u, exec (.stacksOutOfRetention d) s = .next u ∧ u.stacksUp d = true ∧ bitOf u.pwr.on.toNat (8 + d.val) = true ∧
          u.rail (8 + d.val) = 750 ∧ (u.die d).lines = [] ∧ u.stackMem = s.stackMem ∧ u.stations = s.stations) ∧
      ((s.rising = false ∨ s.stacksUp d = true ∨ ∃ e < d.val, s.stacksUp e = false) → exec (.stacksOutOfRetention d) s = .next s)) ∧
    (∀ r : Region, (s.rising = true → s.regionOn r = false → (∀ d < 4, s.stacksUp d = true) → (∀ q < r.val, s.regionOn q = true) →
        (∀ q ∈ s.fw.held, q.key ≠ 4) → ∃ u, exec (.regionPowerUp r) s = .next u ∧ u.regionOn r = true ∧
          u.bit .pwrState 0 (8 + r.val) = true ∧ u.rail r = s.profMv s.inForce (r.val % 2) ∧
          u.mult r = (if s.bit .clkStatus 0 28 && decide (s.profMult s.inForce (r.val % 2) ≠ 0) then 8
            else s.profMult s.inForce (r.val % 2)) ∧
          (s.idleState ≠ 2 → u.stations = s.stations) ∧
          (s.idleState = 2 → r.val ≠ 7 → ∀ i < 1024, regionOf i = r.val → u.quarantined i = true ∧ (u.station i).run = .stopped ∧
            (s.bit .pwrRetain (i / 32) (i % 32) = true → (u.station i).store = (s.station i).store)) ∧
          (r.val = 7 → u.idleState = 0 ∧ u.waking = false)) ∧
      ((s.rising = false ∨ s.regionOn r = true ∨ (∃ d < 4, s.stacksUp d = false) ∨ ∃ q < r.val, s.regionOn q = false) →
        exec (.regionPowerUp r) s = .next s))

/-- Wakes, supplies and RESET_L. An enabled source wakes an idle part, the lowest one being recorded; one that may not wake it is latched, as
a Pycia wake is in Midnight. The input powers up the always-on domain in reset. A fall of PWR_OK, a trip of the input stage or RESET_L low
takes every other domain off, with the memory contents lost; RESET_L low also resets every register but TRIPPED, which lasts as long as the
auxiliary converter. RESET_L high leaves reset with the straps latched, a part strapped for Zenith at Dawn's settings, and, where the supplies
are good, the firmware and I/O domains on. What memories read after power loss are free values (log entry 5); that WAKE_L counts as released
once it has woken the part is the model's choice (log entry 34). -/
def Obligations.PinsWakesAndResetTakeEffect : Prop :=
  ∀ (s : State),
    let idles := s.idleState ≠ 0 ∧ s.waking = false ∧ s.pins.resetL = true ∧ s.pins.pwrOk = true
    let wakes := fun (u : State) (i : Nat) => u.fld .pwrWakeLast 0 4 0 = 2 ^ i ∧ u.bit .pwrWakeLast 0 31 = true ∧
      u.bit .pwrWakeLast 0 30 = false ∧ u.fld .pwrWakeLast 0 29 28 = s.idleState ∧
      (s.idleState = 1 → u.idleState = 0) ∧ (s.idleState ≠ 1 → u.idleState = s.idleState ∧ u.waking = true) ∧
      (s.idleState = 3 → u.pwr.on = 0x3000) ∧ u.pwr.latch = 0 ∧ u.stations = s.stations ∧ u.stackMem = s.stackMem
    let down := fun (u : State) => u.pwr.on = 0 ∧ u.reg .pwrState 0 = 0 ∧ u.stations = [] ∧ u.ring = [] ∧ u.dies = [] ∧
      u.stackMem = Memory.lost s.free ∧ u.fw = s.fw.kept ∧ u.fuses = s.fuses
    let enabled := fun (i : Nat) => s.bit .pwrWakeEn 0 i = true
    let others := s.wakeLevels &&& s.fld .pwrWakeEn 0 4 0
    let latches := fun (i : Nat) => { s with pwr := { s.pwr with latch := s.pwr.latch ||| BitVec.ofNat 5 (2 ^ i) } }
    let low := { s with pins := { s.pins with wakeL := false } }
    ((idles → enabled 0 → ∃ u, exec .wakePin s = .next u ∧ u.pins = { s.pins with wakeL := true } ∧ wakes u 0) ∧
      (s.idleState = 0 → exec .wakePin s = .next low) ∧
      (¬ enabled 0 → (s.bit .pwrWakeEn 0 31 = true ∨ s.pwr.latch.toNat &&& s.fld .pwrWakeEn 0 4 0 = 0) → exec .wakePin s = .next low)) ∧
    ((idles → enabled 3 → (∀ i < 3, bitOf others i = false) → ∃ u, exec .wakeTimer s = .next u ∧ wakes u 3) ∧
      (s.idleState = 0 → exec .wakeTimer s = .next s) ∧
      (s.idleState ≠ 0 → ¬ enabled 3 → (∀ i < 5, bitOf others i = false) → exec .wakeTimer s = .next (latches 3))) ∧
    ((idles → s.idleState ≠ 3 → enabled 4 → (∀ i < 4, bitOf others i = false) → ∃ u, exec .pyciaWake s = .next u ∧ wakes u 4) ∧
      (s.idleState = 0 → exec .pyciaWake s = .next s) ∧
      (s.idleState ≠ 0 → (s.idleState = 3 ∨ ¬ enabled 4) → (∀ i < 5, bitOf others i = false) →
        exec .pyciaWake s = .next (latches 4))) ∧
    ((s.pins.aux = true → exec .inputPowerUp s = .next s) ∧
      (s.pins.aux = false → ∃ u, exec .inputPowerUp s = .next u ∧ u.pwr.on = 0 ∧ u.regs = [] ∧ u.stations = [] ∧ u.fw = s.fw.kept ∧
        u.pins = ⟨false, false, false, s.pins.wakeL, true, false⟩)) ∧
    ((s.pins.aux = true → exec .pwrOkRise s = .next { s with pins := { s.pins with pwrOk := true, input := true } }) ∧
      (s.pins.aux = false → exec .pwrOkRise s = .next s)) ∧
    (∃ u, exec .pwrOkFall s = .next u ∧ down u ∧ u.pins = { s.pins with pwrOk := false, input := false, tripL := false } ∧
      u.bit .govStatus 0 30 = false ∧ u.out = (if s.pins.tripL then [.pin 7 false] else []) ++ s.out) ∧
    (∀ cause, ∃ u, exec (.inputStageTrip cause) s = .next u ∧ down u ∧ u.pins = { s.pins with input := false } ∧ u.out = s.out ∧
      (cause = .power → u.bit .pwrInputStatus 0 0 = true)) ∧
    (∃ u, exec .resetAssert s = .next u ∧ down u ∧ u.regs = s.tripped ∧
      u.bit .pwrInputStatus 0 0 = (s.bit .pwrInputStatus 0 0 && s.pins.aux) ∧ u.pins = { s.pins with resetL := false, input := false } ∧
      u.out = s.out ∧ u.jtag = { s.jtag with pinsX := holdsPins s.jtag.ir }) ∧
    (∀ prof smb, (s.pins.resetL = true → exec (.resetRelease prof smb) s = .next s) ∧
      (s.pins.resetL = false → let run := if prof = 3 then 0 else prof
        ∃ u, exec (.resetRelease prof smb) s = .next u ∧ u.pins = { s.pins with resetL := true, input := s.pins.good } ∧
          u.pwr.on = (if s.pins.good then 0x3000 else 0) ∧ u.pwr.prof = run ∧ u.pwr.smb = smb ∧ u.active = prof.toNat ∧
          u.inForce = run.toNat ∧ u.pkgRing = false ∧ (∀ p < 4, u.fpState p = 0 ∧ u.expected p = 1) ∧
          (∀ (r : Reg) o, o ≠ Reg.at .pwrProfile 0 → o ≠ Reg.at .pwrInputStatus 0 → u.regAt r o = (BitVec.ofNat 32 r.info.reset).toNat) ∧
          u.bit .pwrInputStatus 0 0 = (s.bit .pwrInputStatus 0 0 && s.pins.aux) ∧
          u.stations = [] ∧ u.stackMem = s.stackMem ∧ u.fw = s.fw.kept ∧ u.pending = s.pending))

/-- The SMBus port and JTAG. ADDR takes an aligned address of the CSR space; DATA and DATA_INC access the register there as requester SMBus,
and STATUS tells how it went; a wrong PEC byte discards the write, and a block that is not of 4 bytes is not acknowledged; a read appends its
PEC byte; while ALERT_L is asserted the port answers the alert response address. The JTAG instructions load their code and answer from their
register; EXTEST, CLAMP and HIGHZ take the pins only while RESET_L is low; a DEBUG scan returns the previous access, sets DEBUG_SEEN and makes
the next. The data of a failed read and what the pins are captured as are free values (log entry 8); how EXTEST acts with RESET_L high and how
DATA_INC wraps are the model's readings (log entry 70), the PEC's polynomial is presumed (log entry 36). -/
def Obligations.ManagementPortsAnswer : Prop :=
  ∀ (s : State),
    (s.aonUp = false → ∀ wr x, exec (.smbAddr wr x) s = .next s ∧ exec (.smbData wr x) s = .next s ∧
      exec (.smbDataInc wr x) s = .next s ∧ exec .smbStatus s = .next s ∧ exec .smbusAlertResponse s = .next s) ∧
    (s.aonUp = true →
      let sends := fun (head : List Nat) (bs : List Byte) => Out.smb bs (pec (head ++ bs.map (·.toNat)))
      (∀ v : Word,
        (v.toNat % 4 = 0 → v.toNat < 2 ^ 26 → exec (.smbAddr (some v) ⟨4, true⟩) s = .next { s with smbAddr := v, smbStat := 0 }) ∧
        ((v.toNat % 4 ≠ 0 ∨ 2 ^ 26 ≤ v.toNat) → exec (.smbAddr (some v) ⟨4, true⟩) s = .next { s with smbStat := 1 }) ∧
        exec (.smbAddr (some v) ⟨4, false⟩) s = .next { s with smbStat := 3 } ∧
        (∀ n ok, n ≠ 4 → exec (.smbAddr (some v) ⟨n, ok⟩) s = .next s)) ∧
      (∀ x, exec (.smbAddr none x) s =
        .next (s.emit (sends [s.smbHead false, 1, s.smbHead true, 4] (leBytes 4 s.smbAddr.toNat)))) ∧
      (let steps := fun (c : Option Word → SmbEnd → Instr) (cmd n : Nat) =>
        (∀ x, let q := s.csrRead .smbus s.smbAddr.toNat 4
          ∃ u bs, exec (c none x) s = .next u ∧ u.smbAddr = BitVec.ofNat 32 ((s.smbAddr.toNat + n) % 2 ^ 26) ∧
            u.smbStat = smbCode q.2.1 ∧ bs.length = 4 ∧ u.out = sends [s.smbHead false, cmd, s.smbHead true, 4] bs :: s.out ∧
            u.regs = s.regs ∧ (q.2.1 = 0 → bs = leBytes 4 q.2.2) ∧ (q.2.1 = 10 → bs = leBytes 4 0xFFFFFFFF)) ∧
        (∀ v : Word, let q := s.csrWrite .smbus s.smbAddr.toNat 4 v.toNat
          (∀ k ok, k ≠ 4 → exec (c (some v) ⟨k, ok⟩) s = .next s) ∧
          exec (c (some v) ⟨4, false⟩) s = .next { s with smbStat := 3 } ∧
          exec (c (some v) ⟨4, true⟩) s =
            .next { q.1 with smbStat := smbCode q.2, smbAddr := BitVec.ofNat 32 ((s.smbAddr.toNat + n) % 2 ^ 26) })
       steps .smbData 2 0 ∧ steps .smbDataInc 3 4) ∧
      exec .smbStatus s = .next (s.emit (sends [s.smbHead false, 4, s.smbHead true] [s.smbStat])) ∧
      (let me := BitVec.ofNat 8 (0x40 + s.pwr.smb.toNat)
       s.alertOn = true → exec .smbusAlertResponse s = .next (s.emit (sends [0x19] [me]))) ∧
      (s.alertOn = false → exec .smbusAlertResponse s = .next s)) ∧
    (let bypasses := fun (c : Instr) (ir : BitVec 8) (x : Bool) (v : Nat) =>
      exec c s = .next ({ s with jtag := { s.jtag with ir := ir, pinsX := x } }.emit (.jtag v))
     bypasses .jtagBypass 0xFF false 0 ∧ bypasses .jtagClamp 0x04 (!s.pins.resetL) 0 ∧ bypasses .jtagHighz 0x05 (!s.pins.resetL) 0 ∧
     bypasses .jtagIdcode 0x01 false
       ((if s.fuses.stepping = 0 then 0 else 1) * 2 ^ 28 + s.fuses.part.toNat * 2 ^ 12 + 0x2B7 * 2 + 1) ∧
     ∀ pins : BitVec 64,
      (s.pins.resetL = true → bypasses (.jtagExtest pins) 0x00 false 0) ∧
      (s.pins.resetL = false → ∃ u v, exec (.jtagExtest pins) s = .next u ∧ u.out = .jtag v :: s.out ∧
        u.jtag = { s.jtag with ir := 0x00, pinsX := true, bsr := pins } ∧ u.regs = s.regs) ∧
      ∃ u v, exec (.jtagSamplePreload pins) s = .next u ∧ u.out = .jtag v :: s.out ∧
        u.jtag = { s.jtag with ir := 0x02, pinsX := false, bsr := pins } ∧ u.regs = s.regs) ∧
    (∃ u, exec .resetAssert s = .next u ∧ u.jtag = { s.jtag with pinsX := decide (s.jtag.ir ∈ [0x00#8, 0x04#8, 0x05#8]) }) ∧
    (s.pins.resetL = false → ∀ prof smb, ∃ u, exec (.resetRelease prof smb) s = .next u ∧ u.jtag = { s.jtag with pinsX := false }) ∧
    (∀ wr (off : BitVec 24) (data : Word), ∃ u l, exec (.jtagDebug wr off data) s = .next u ∧ u.out = l ++ .jtag s.jtag.word :: s.out ∧
      u.jtag.ir = 0x10 ∧ u.jtag.done = true ∧ u.jtag.off = off ∧ u.bit .idAttest 0 25 = true ∧
      (s.pins.resetL = false → u.jtag.err = true) ∧
      let t := ((s.jtagLoad 0x10).emit (.jtag s.jtag.word)).setFld .idAttest 0 25 25 1
      (s.pins.resetL = true → wr = false → let q := t.csrRead .debug (4 * off.toNat) 4
        u.jtag.err = decide (q.2.1 ≠ 0) ∧ (q.2.1 = 0 → u.jtag.data = BitVec.ofNat 32 q.2.2)) ∧
      (s.pins.resetL = true → wr = true →
        u.jtag.err = decide ((t.csrWrite .debug (4 * off.toNat) 4 data.toNat).2 ≠ 0)))
end

