-- ==== Sys2Proof/Laws/Regs.lean ====
section
/-! SUPPORT. The register map: registers in offset order, and the words of two registers never at one offset. -/

namespace Sys2Proof.Machine

/-- The registers in the order of their offsets. -/
def Reg.inOrder : List Reg :=
  Reg.all1 ++ Reg.all2 ++ Reg.all3 ++ Reg.all4.take 24 ++ (Reg.all4.drop 34 ++ Reg.all5) ++ (Reg.all4.drop 24).take 10

/-- A register ends before another begins. -/
def Reg.before (a b : Reg) : Prop := a.info.off + a.info.size ≤ b.info.off

theorem Reg.mem_inOrder (r : Reg) : r ∈ Reg.inOrder := by cases r <;> decide

theorem Reg.ordered : Reg.inOrder.IsChain Reg.before := by
  simp only [Reg.inOrder, Reg.all1, Reg.all2, Reg.all3, Reg.all4, Reg.all5, List.take, List.drop, List.cons_append, List.nil_append]
  repeat' first | exact List.IsChain.singleton _ | refine List.IsChain.cons_cons (by simp [Reg.before, RegInfo.size, Reg.info]) ?_

theorem Reg.before_trans {a b c : Reg} (h : Reg.before a b) (g : Reg.before b c) : Reg.before a c := by
  unfold Reg.before RegInfo.size at *
  omega

/-- Words of two different registers lie at different offsets. -/
theorem Reg.apart {r q : Reg} (h : r ≠ q) : Reg.before r q ∨ Reg.before q r := by
  have : IsTrans Reg Reg.before := ⟨fun _ _ _ => Reg.before_trans⟩
  have hp := Reg.ordered.pairwise
  have hs : Reg.inOrder.Pairwise (fun a b => Reg.before a b ∨ Reg.before b a) := hp.imp Or.inl
  have : Std.Symm (fun a b => Reg.before a b ∨ Reg.before b a) := ⟨fun _ _ => Or.symm⟩
  exact hs.forall (Reg.mem_inOrder r) (Reg.mem_inOrder q) h

theorem Reg.off_lt {r : Reg} {i k : Nat} (h : i < r.info.count) (hk : k < if r.info.pair then 8 else 4) :
    r.info.off ≤ r.at i + k ∧ r.at i + k < r.info.off + r.info.size := by
  unfold Reg.at RegInfo.size
  split at hk <;> simp_all <;> omega

/-- A word of one register is no word of another. -/
theorem Reg.at_ne {r q : Reg} {i j a b : Nat} (h : r ≠ q) (hi : i < r.info.count) (hj : j < q.info.count)
    (ha : a < if r.info.pair then 8 else 4) (hb : b < if q.info.pair then 8 else 4) : r.at i + a ≠ q.at j + b := by
  have h1 := Reg.off_lt hi ha
  have h2 := Reg.off_lt hj hb
  rcases Reg.apart h with g | g <;> unfold Reg.before at g <;> omega

theorem Reg.at_inj {r : Reg} {i j : Nat} : r.at i = r.at j ↔ i = j := by
  unfold Reg.at
  split <;> omega

end Sys2Proof.Machine
end

