-- ==== Sys2Proof/Laws/Tables.lean ====
section
/-! SUPPORT. Sparse tables and byte memories: a read after a write, and the canonical form is kept. -/

namespace Sys2Proof.Machine

variable {α : Type}

theorem Tbl.get_ins (d : Nat → α) (t : Tbl α) (n m : Nat) (v : α) :
    Tbl.get d (Tbl.ins t n v) m = if n = m then v else Tbl.get d t m := by
  induction t with
  | nil => rfl
  | cons p t ih =>
    obtain ⟨k, w⟩ := p
    by_cases hk : k = n
    · subst hk
      by_cases hm : k = m <;> simp [Tbl.ins, Tbl.get, hm]
    · by_cases hl : n < k
      · simp [Tbl.ins, Tbl.get, hk, hl]
      · by_cases hm : k = m
        · have hn : ¬ n = m := fun h => hk (hm.trans h.symm)
          subst hm
          simp [Tbl.ins, Tbl.get, hk, hl, hn]
        · simp [Tbl.ins, Tbl.get, hk, hl, hm, ih]

theorem Tbl.get_del (d : Nat → α) (t : Tbl α) (n m : Nat) :
    Tbl.get d (Tbl.del t n) m = if n = m then d m else Tbl.get d t m := by
  induction t with
  | nil => by_cases h : n = m <;> simp [Tbl.del, Tbl.get, h]
  | cons p t ih =>
    obtain ⟨k, w⟩ := p
    by_cases hk : k = n
    · subst hk
      by_cases hm : k = m
      · subst hm; simpa [Tbl.del] using ih
      · simpa [Tbl.del, Tbl.get, hm] using ih
    · by_cases hm : k = m
      · subst hm
        have h2 : ¬ n = k := fun h => hk h.symm
        simp [Tbl.del, Tbl.get, hk, h2]
      · simp [Tbl.del, Tbl.get, hk, hm, ih]

variable [DecidableEq α]

/-- A read of any key after a write, under any reading `d'` of unlisted keys that agrees at the key written. -/
theorem Tbl.get_put' (d d' : Nat → α) (t : Tbl α) (n m : Nat) (v : α) (h : d' n = d n) :
    Tbl.get d' (Tbl.put d t n v) m = if n = m then v else Tbl.get d' t m := by
  unfold Tbl.put
  split
  · next hv =>
    rw [Tbl.get_del]
    split
    · next hm => subst hm; rw [h, hv]
    · rfl
  · exact Tbl.get_ins d' t n m v

theorem Tbl.get_put (d : Nat → α) (t : Tbl α) (n m : Nat) (v : α) :
    Tbl.get d (Tbl.put d t n v) m = if n = m then v else Tbl.get d t m :=
  Tbl.get_put' d d t n m v rfl

@[simp] theorem Tbl.get_put_self (d : Nat → α) (t : Tbl α) (n : Nat) (v : α) : Tbl.get d (Tbl.put d t n v) n = v := by
  simp [Tbl.get_put]

theorem Tbl.get_put_ne (d : Nat → α) (t : Tbl α) {n m : Nat} (v : α) (h : n ≠ m) :
    Tbl.get d (Tbl.put d t n v) m = Tbl.get d t m := by
  simp [Tbl.get_put, h]

/-- A key that a write does not touch reads as before, whatever unlisted keys read as. -/
theorem Tbl.get_put_other (d d' : Nat → α) (t : Tbl α) {n m : Nat} (v : α) (h : n ≠ m) :
    Tbl.get d' (Tbl.put d t n v) m = Tbl.get d' t m := by
  unfold Tbl.put
  split
  · rw [Tbl.get_del]; simp [h]
  · rw [Tbl.get_ins]; simp [h]

/-! ### The canonical form -/

theorem Tbl.wfFrom_mono (d : Nat → α) {a b : Nat} (h : a ≤ b) {t : Tbl α} (w : Tbl.wfFrom d b t = true) :
    Tbl.wfFrom d a t = true := by
  cases t with
  | nil => rfl
  | cons p t =>
    obtain ⟨k, v⟩ := p
    simp only [Tbl.wfFrom, Bool.and_eq_true, decide_eq_true_eq] at w ⊢
    exact ⟨⟨by omega, w.1.2⟩, w.2⟩

theorem Tbl.wfFrom_del (d : Nat → α) (n : Nat) {a : Nat} {t : Tbl α} (w : Tbl.wfFrom d a t = true) :
    Tbl.wfFrom d a (Tbl.del t n) = true := by
  induction t generalizing a with
  | nil => rfl
  | cons p t ih =>
    obtain ⟨k, v⟩ := p
    simp only [Tbl.wfFrom, Bool.and_eq_true, decide_eq_true_eq] at w
    unfold Tbl.del
    split
    · exact Tbl.wfFrom_mono d (by omega) (ih w.2)
    · simp only [Tbl.wfFrom, Bool.and_eq_true, decide_eq_true_eq]
      exact ⟨w.1, ih w.2⟩

theorem Tbl.wfFrom_ins (d : Nat → α) (n : Nat) (v : α) (hv : v ≠ d n) {a : Nat} (ha : a ≤ n) {t : Tbl α}
    (w : Tbl.wfFrom d a t = true) : Tbl.wfFrom d a (Tbl.ins t n v) = true := by
  induction t generalizing a with
  | nil => simp [Tbl.ins, Tbl.wfFrom, ha, hv]
  | cons p t ih =>
    obtain ⟨k, u⟩ := p
    simp only [Tbl.wfFrom, Bool.and_eq_true, decide_eq_true_eq] at w
    unfold Tbl.ins
    split
    · next hk => subst hk; simp only [Tbl.wfFrom, Bool.and_eq_true, decide_eq_true_eq]; exact ⟨⟨ha, hv⟩, w.2⟩
    · split
      · next hl =>
        simp only [Tbl.wfFrom, Bool.and_eq_true, decide_eq_true_eq]
        exact ⟨⟨ha, hv⟩, ⟨by omega, w.1.2⟩, w.2⟩
      · simp only [Tbl.wfFrom, Bool.and_eq_true, decide_eq_true_eq]
        exact ⟨w.1, ih (by omega) w.2⟩

/-- A write keeps the canonical form. -/
theorem Tbl.wf_put (d : Nat → α) (t : Tbl α) (n : Nat) (v : α) (w : Tbl.wf d t = true) : Tbl.wf d (Tbl.put d t n v) = true := by
  unfold Tbl.put
  split
  · exact Tbl.wfFrom_del d n w
  · next h => exact Tbl.wfFrom_ins d n v h (Nat.zero_le n) w

/-! ### Byte memories (R8) -/

theorem Memory.rd_wr (m : Memory) (a b : Nat) (v : Byte) : (m.wr a v).rd b = if a = b then v else m.rd b := by
  simp [Memory.rd, Memory.wr, Tbl.get_put]

@[simp] theorem Memory.rd_wr_self (m : Memory) (a : Nat) (v : Byte) : (m.wr a v).rd a = v := by simp [Memory.rd_wr]

theorem Memory.rd_wr_ne (m : Memory) {a b : Nat} (v : Byte) (h : a ≠ b) : (m.wr a v).rd b = m.rd b := by simp [Memory.rd_wr, h]

/-- A run of bytes written: the byte at `b` is the one of the run, or as before outside it. -/
theorem Memory.rd_wrN (m : Memory) (a b : Nat) (bs : List Byte) :
    (m.wrN a bs).rd b = if a ≤ b ∧ b < a + bs.length then bs.getD (b - a) 0 else m.rd b := by
  induction bs generalizing m a with
  | nil =>
    have h : ¬ (a ≤ b ∧ b < a) := by omega
    simp [Memory.wrN, h]
  | cons v vs ih =>
    simp only [Memory.wrN, ih, Memory.rd_wr, List.length_cons]
    by_cases h1 : a = b
    · subst h1
      simp
    · by_cases h2 : a + 1 ≤ b ∧ b < a + 1 + vs.length
      · have h3 : a ≤ b ∧ b < a + (vs.length + 1) := by omega
        have h4 : b - a = (b - (a + 1)) + 1 := by omega
        simp only [if_pos h2, if_pos h3]
        rw [h4]; simp
      · have h3 : ¬ (a ≤ b ∧ b < a + (vs.length + 1)) := by omega
        rw [if_neg h2, if_neg h1, if_neg h3]

theorem Memory.wf_wr (m : Memory) (a : Nat) (v : Byte) (w : m.wf = true) : (m.wr a v).wf = true :=
  Tbl.wf_put _ _ _ _ w

theorem Memory.wf_wrN (m : Memory) (a : Nat) (bs : List Byte) (w : m.wf = true) : (m.wrN a bs).wf = true := by
  induction bs generalizing m a with
  | nil => exact w
  | cons v vs ih => exact ih _ _ (Memory.wf_wr m a v w)

theorem Memory.wf_wrW (m : Memory) (sz a : Nat) (bs : List Byte) (w : m.wf = true) : (m.wrW sz a bs).wf = true := by
  induction bs generalizing m a with
  | nil => exact w
  | cons v vs ih => exact ih _ _ (Memory.wf_wr m _ v w)

theorem Memory.wf_wrLE (m : Memory) (a n v : Nat) (w : m.wf = true) : (m.wrLE a n v).wf = true := Memory.wf_wrN _ _ _ w

@[simp] theorem Memory.wf_lost (k : Nat) : (Memory.lost k).wf = true := rfl

@[simp] theorem Memory.wf_zero : Memory.zero.wf = true := rfl

@[simp] theorem Memory.rdN_length (m : Memory) (a n : Nat) : (m.rdN a n).length = n := by
  induction n generalizing a with
  | zero => rfl
  | succ n ih => simp [Memory.rdN, ih]

theorem Memory.rdN_getD (m : Memory) (a n k : Nat) (h : k < n) : (m.rdN a n).getD k 0 = m.rd (a + k) := by
  induction n generalizing a k with
  | zero => omega
  | succ n ih =>
    cases k with
    | zero => simp [Memory.rdN]
    | succ k => simp only [Memory.rdN, List.getD_cons_succ]; rw [ih _ _ (by omega)]; congr 1; omega

/-- A run written and read back. -/
theorem Memory.rdN_wrN (m : Memory) (a : Nat) (bs : List Byte) : (m.wrN a bs).rdN a bs.length = bs := by
  apply List.ext_getElem
  · simp
  · intro k h1 h2
    have hk : k < bs.length := h2
    have := Memory.rdN_getD (m.wrN a bs) a bs.length k hk
    rw [List.getD_eq_getElem _ _ h1] at this
    rw [this, Memory.rd_wrN]
    simp [hk]

end Sys2Proof.Machine
end

