-- ==== Sys2Proof/Laws/State.lean ====
section
/-! SUPPORT. What each update of the state leaves alone, and what a read after it gives. -/

namespace Sys2Proof.Machine

variable (s : State)

@[simp] theorem State.withPending_frame (q : List Instr) :
    (s.withPending q).regs = s.regs ∧ (s.withPending q).stations = s.stations ∧ (s.withPending q).dies = s.dies
      ∧ (s.withPending q).refc = s.refc ∧ (s.withPending q).ring = s.ring ∧ (s.withPending q).ringIn = s.ringIn
      ∧ (s.withPending q).seam = s.seam ∧ (s.withPending q).bridge = s.bridge ∧ (s.withPending q).feeds = s.feeds
      ∧ (s.withPending q).injected = s.injected ∧ (s.withPending q).tgStops = s.tgStops ∧ (s.withPending q).stackMem = s.stackMem
      ∧ (s.withPending q).pkgRing = s.pkgRing ∧ (s.withPending q).ratio = s.ratio ∧ (s.withPending q).ports = s.ports
      ∧ (s.withPending q).mcast = s.mcast ∧ (s.withPending q).mcSlots = s.mcSlots ∧ (s.withPending q).redKeys = s.redKeys
      ∧ (s.withPending q).redWait = s.redWait ∧ (s.withPending q).norm = s.norm ∧ (s.withPending q).qps = s.qps
      ∧ (s.withPending q).eth = s.eth ∧ (s.withPending q).fw = s.fw ∧ (s.withPending q).pwr = s.pwr
      ∧ (s.withPending q).pins = s.pins ∧ (s.withPending q).jtag = s.jtag ∧ (s.withPending q).smbAddr = s.smbAddr
      ∧ (s.withPending q).smbStat = s.smbStat ∧ (s.withPending q).attest = s.attest ∧ (s.withPending q).caps = s.caps
      ∧ (s.withPending q).fuses = s.fuses ∧ (s.withPending q).out = s.out ∧ (s.withPending q).free = s.free :=
  ⟨rfl, rfl, rfl, rfl, rfl, rfl, rfl, rfl, rfl, rfl, rfl, rfl, rfl, rfl, rfl, rfl, rfl, rfl, rfl, rfl, rfl, rfl, rfl, rfl, rfl, rfl, rfl, rfl, rfl, rfl, rfl, rfl, rfl⟩

@[simp] theorem State.emit_frame (o : Out) :
    (s.emit o).regs = s.regs ∧ (s.emit o).stations = s.stations ∧ (s.emit o).dies = s.dies
      ∧ (s.emit o).refc = s.refc ∧ (s.emit o).ring = s.ring ∧ (s.emit o).ringIn = s.ringIn
      ∧ (s.emit o).seam = s.seam ∧ (s.emit o).bridge = s.bridge ∧ (s.emit o).feeds = s.feeds
      ∧ (s.emit o).injected = s.injected ∧ (s.emit o).tgStops = s.tgStops ∧ (s.emit o).stackMem = s.stackMem
      ∧ (s.emit o).pkgRing = s.pkgRing ∧ (s.emit o).ratio = s.ratio ∧ (s.emit o).ports = s.ports
      ∧ (s.emit o).mcast = s.mcast ∧ (s.emit o).mcSlots = s.mcSlots ∧ (s.emit o).redKeys = s.redKeys
      ∧ (s.emit o).redWait = s.redWait ∧ (s.emit o).norm = s.norm ∧ (s.emit o).qps = s.qps
      ∧ (s.emit o).eth = s.eth ∧ (s.emit o).fw = s.fw ∧ (s.emit o).pwr = s.pwr
      ∧ (s.emit o).pins = s.pins ∧ (s.emit o).jtag = s.jtag ∧ (s.emit o).smbAddr = s.smbAddr
      ∧ (s.emit o).smbStat = s.smbStat ∧ (s.emit o).attest = s.attest ∧ (s.emit o).caps = s.caps
      ∧ (s.emit o).fuses = s.fuses ∧ (s.emit o).pending = s.pending ∧ (s.emit o).free = s.free :=
  ⟨rfl, rfl, rfl, rfl, rfl, rfl, rfl, rfl, rfl, rfl, rfl, rfl, rfl, rfl, rfl, rfl, rfl, rfl, rfl, rfl, rfl, rfl, rfl, rfl, rfl, rfl, rfl, rfl, rfl, rfl, rfl, rfl, rfl⟩

@[simp] theorem State.fresh_frame :
    (s.fresh).regs = s.regs ∧ (s.fresh).stations = s.stations ∧ (s.fresh).dies = s.dies
      ∧ (s.fresh).refc = s.refc ∧ (s.fresh).ring = s.ring ∧ (s.fresh).ringIn = s.ringIn
      ∧ (s.fresh).seam = s.seam ∧ (s.fresh).bridge = s.bridge ∧ (s.fresh).feeds = s.feeds
      ∧ (s.fresh).injected = s.injected ∧ (s.fresh).tgStops = s.tgStops ∧ (s.fresh).stackMem = s.stackMem
      ∧ (s.fresh).pkgRing = s.pkgRing ∧ (s.fresh).ratio = s.ratio ∧ (s.fresh).ports = s.ports
      ∧ (s.fresh).mcast = s.mcast ∧ (s.fresh).mcSlots = s.mcSlots ∧ (s.fresh).redKeys = s.redKeys
      ∧ (s.fresh).redWait = s.redWait ∧ (s.fresh).norm = s.norm ∧ (s.fresh).qps = s.qps
      ∧ (s.fresh).eth = s.eth ∧ (s.fresh).fw = s.fw ∧ (s.fresh).pwr = s.pwr
      ∧ (s.fresh).pins = s.pins ∧ (s.fresh).jtag = s.jtag ∧ (s.fresh).smbAddr = s.smbAddr
      ∧ (s.fresh).smbStat = s.smbStat ∧ (s.fresh).attest = s.attest ∧ (s.fresh).caps = s.caps
      ∧ (s.fresh).fuses = s.fuses ∧ (s.fresh).pending = s.pending ∧ (s.fresh).out = s.out :=
  ⟨rfl, rfl, rfl, rfl, rfl, rfl, rfl, rfl, rfl, rfl, rfl, rfl, rfl, rfl, rfl, rfl, rfl, rfl, rfl, rfl, rfl, rfl, rfl, rfl, rfl, rfl, rfl, rfl, rfl, rfl, rfl, rfl, rfl⟩

@[simp] theorem State.setStation_frame (i : Nat) (x : Station) :
    (s.setStation i x).regs = s.regs ∧ (s.setStation i x).dies = s.dies ∧ (s.setStation i x).refc = s.refc
      ∧ (s.setStation i x).ring = s.ring ∧ (s.setStation i x).ringIn = s.ringIn ∧ (s.setStation i x).seam = s.seam
      ∧ (s.setStation i x).bridge = s.bridge ∧ (s.setStation i x).feeds = s.feeds ∧ (s.setStation i x).injected = s.injected
      ∧ (s.setStation i x).tgStops = s.tgStops ∧ (s.setStation i x).stackMem = s.stackMem ∧ (s.setStation i x).pkgRing = s.pkgRing
      ∧ (s.setStation i x).ratio = s.ratio ∧ (s.setStation i x).ports = s.ports ∧ (s.setStation i x).mcast = s.mcast
      ∧ (s.setStation i x).mcSlots = s.mcSlots ∧ (s.setStation i x).redKeys = s.redKeys ∧ (s.setStation i x).redWait = s.redWait
      ∧ (s.setStation i x).norm = s.norm ∧ (s.setStation i x).qps = s.qps ∧ (s.setStation i x).eth = s.eth
      ∧ (s.setStation i x).fw = s.fw ∧ (s.setStation i x).pwr = s.pwr ∧ (s.setStation i x).pins = s.pins
      ∧ (s.setStation i x).jtag = s.jtag ∧ (s.setStation i x).smbAddr = s.smbAddr ∧ (s.setStation i x).smbStat = s.smbStat
      ∧ (s.setStation i x).attest = s.attest ∧ (s.setStation i x).caps = s.caps ∧ (s.setStation i x).fuses = s.fuses
      ∧ (s.setStation i x).pending = s.pending ∧ (s.setStation i x).out = s.out ∧ (s.setStation i x).free = s.free :=
  ⟨rfl, rfl, rfl, rfl, rfl, rfl, rfl, rfl, rfl, rfl, rfl, rfl, rfl, rfl, rfl, rfl, rfl, rfl, rfl, rfl, rfl, rfl, rfl, rfl, rfl, rfl, rfl, rfl, rfl, rfl, rfl, rfl, rfl⟩

@[simp] theorem State.modStation_frame (i : Nat) (f : Station → Station) :
    (s.modStation i f).regs = s.regs ∧ (s.modStation i f).dies = s.dies ∧ (s.modStation i f).refc = s.refc
      ∧ (s.modStation i f).ring = s.ring ∧ (s.modStation i f).ringIn = s.ringIn ∧ (s.modStation i f).seam = s.seam
      ∧ (s.modStation i f).bridge = s.bridge ∧ (s.modStation i f).feeds = s.feeds ∧ (s.modStation i f).injected = s.injected
      ∧ (s.modStation i f).tgStops = s.tgStops ∧ (s.modStation i f).stackMem = s.stackMem ∧ (s.modStation i f).pkgRing = s.pkgRing
      ∧ (s.modStation i f).ratio = s.ratio ∧ (s.modStation i f).ports = s.ports ∧ (s.modStation i f).mcast = s.mcast
      ∧ (s.modStation i f).mcSlots = s.mcSlots ∧ (s.modStation i f).redKeys = s.redKeys ∧ (s.modStation i f).redWait = s.redWait
      ∧ (s.modStation i f).norm = s.norm ∧ (s.modStation i f).qps = s.qps ∧ (s.modStation i f).eth = s.eth
      ∧ (s.modStation i f).fw = s.fw ∧ (s.modStation i f).pwr = s.pwr ∧ (s.modStation i f).pins = s.pins
      ∧ (s.modStation i f).jtag = s.jtag ∧ (s.modStation i f).smbAddr = s.smbAddr ∧ (s.modStation i f).smbStat = s.smbStat
      ∧ (s.modStation i f).attest = s.attest ∧ (s.modStation i f).caps = s.caps ∧ (s.modStation i f).fuses = s.fuses
      ∧ (s.modStation i f).pending = s.pending ∧ (s.modStation i f).out = s.out ∧ (s.modStation i f).free = s.free :=
  ⟨rfl, rfl, rfl, rfl, rfl, rfl, rfl, rfl, rfl, rfl, rfl, rfl, rfl, rfl, rfl, rfl, rfl, rfl, rfl, rfl, rfl, rfl, rfl, rfl, rfl, rfl, rfl, rfl, rfl, rfl, rfl, rfl, rfl⟩

@[simp] theorem State.modStream_frame (i : Nat) (m : Strm) (f : StreamSt → StreamSt) :
    (s.modStream i m f).regs = s.regs ∧ (s.modStream i m f).dies = s.dies ∧ (s.modStream i m f).refc = s.refc
      ∧ (s.modStream i m f).ring = s.ring ∧ (s.modStream i m f).ringIn = s.ringIn ∧ (s.modStream i m f).seam = s.seam
      ∧ (s.modStream i m f).bridge = s.bridge ∧ (s.modStream i m f).feeds = s.feeds ∧ (s.modStream i m f).injected = s.injected
      ∧ (s.modStream i m f).tgStops = s.tgStops ∧ (s.modStream i m f).stackMem = s.stackMem ∧ (s.modStream i m f).pkgRing = s.pkgRing
      ∧ (s.modStream i m f).ratio = s.ratio ∧ (s.modStream i m f).ports = s.ports ∧ (s.modStream i m f).mcast = s.mcast
      ∧ (s.modStream i m f).mcSlots = s.mcSlots ∧ (s.modStream i m f).redKeys = s.redKeys ∧ (s.modStream i m f).redWait = s.redWait
      ∧ (s.modStream i m f).norm = s.norm ∧ (s.modStream i m f).qps = s.qps ∧ (s.modStream i m f).eth = s.eth
      ∧ (s.modStream i m f).fw = s.fw ∧ (s.modStream i m f).pwr = s.pwr ∧ (s.modStream i m f).pins = s.pins
      ∧ (s.modStream i m f).jtag = s.jtag ∧ (s.modStream i m f).smbAddr = s.smbAddr ∧ (s.modStream i m f).smbStat = s.smbStat
      ∧ (s.modStream i m f).attest = s.attest ∧ (s.modStream i m f).caps = s.caps ∧ (s.modStream i m f).fuses = s.fuses
      ∧ (s.modStream i m f).pending = s.pending ∧ (s.modStream i m f).out = s.out ∧ (s.modStream i m f).free = s.free :=
  ⟨rfl, rfl, rfl, rfl, rfl, rfl, rfl, rfl, rfl, rfl, rfl, rfl, rfl, rfl, rfl, rfl, rfl, rfl, rfl, rfl, rfl, rfl, rfl, rfl, rfl, rfl, rfl, rfl, rfl, rfl, rfl, rfl, rfl⟩

@[simp] theorem State.setDie_frame (d : Nat) (x : DieSt) :
    (s.setDie d x).regs = s.regs ∧ (s.setDie d x).stations = s.stations ∧ (s.setDie d x).refc = s.refc
      ∧ (s.setDie d x).ring = s.ring ∧ (s.setDie d x).ringIn = s.ringIn ∧ (s.setDie d x).seam = s.seam
      ∧ (s.setDie d x).bridge = s.bridge ∧ (s.setDie d x).feeds = s.feeds ∧ (s.setDie d x).injected = s.injected
      ∧ (s.setDie d x).tgStops = s.tgStops ∧ (s.setDie d x).stackMem = s.stackMem ∧ (s.setDie d x).pkgRing = s.pkgRing
      ∧ (s.setDie d x).ratio = s.ratio ∧ (s.setDie d x).ports = s.ports ∧ (s.setDie d x).mcast = s.mcast
      ∧ (s.setDie d x).mcSlots = s.mcSlots ∧ (s.setDie d x).redKeys = s.redKeys ∧ (s.setDie d x).redWait = s.redWait
      ∧ (s.setDie d x).norm = s.norm ∧ (s.setDie d x).qps = s.qps ∧ (s.setDie d x).eth = s.eth
      ∧ (s.setDie d x).fw = s.fw ∧ (s.setDie d x).pwr = s.pwr ∧ (s.setDie d x).pins = s.pins
      ∧ (s.setDie d x).jtag = s.jtag ∧ (s.setDie d x).smbAddr = s.smbAddr ∧ (s.setDie d x).smbStat = s.smbStat
      ∧ (s.setDie d x).attest = s.attest ∧ (s.setDie d x).caps = s.caps ∧ (s.setDie d x).fuses = s.fuses
      ∧ (s.setDie d x).pending = s.pending ∧ (s.setDie d x).out = s.out ∧ (s.setDie d x).free = s.free :=
  ⟨rfl, rfl, rfl, rfl, rfl, rfl, rfl, rfl, rfl, rfl, rfl, rfl, rfl, rfl, rfl, rfl, rfl, rfl, rfl, rfl, rfl, rfl, rfl, rfl, rfl, rfl, rfl, rfl, rfl, rfl, rfl, rfl, rfl⟩

@[simp] theorem State.modDie_frame (d : Nat) (f : DieSt → DieSt) :
    (s.modDie d f).regs = s.regs ∧ (s.modDie d f).stations = s.stations ∧ (s.modDie d f).refc = s.refc
      ∧ (s.modDie d f).ring = s.ring ∧ (s.modDie d f).ringIn = s.ringIn ∧ (s.modDie d f).seam = s.seam
      ∧ (s.modDie d f).bridge = s.bridge ∧ (s.modDie d f).feeds = s.feeds ∧ (s.modDie d f).injected = s.injected
      ∧ (s.modDie d f).tgStops = s.tgStops ∧ (s.modDie d f).stackMem = s.stackMem ∧ (s.modDie d f).pkgRing = s.pkgRing
      ∧ (s.modDie d f).ratio = s.ratio ∧ (s.modDie d f).ports = s.ports ∧ (s.modDie d f).mcast = s.mcast
      ∧ (s.modDie d f).mcSlots = s.mcSlots ∧ (s.modDie d f).redKeys = s.redKeys ∧ (s.modDie d f).redWait = s.redWait
      ∧ (s.modDie d f).norm = s.norm ∧ (s.modDie d f).qps = s.qps ∧ (s.modDie d f).eth = s.eth
      ∧ (s.modDie d f).fw = s.fw ∧ (s.modDie d f).pwr = s.pwr ∧ (s.modDie d f).pins = s.pins
      ∧ (s.modDie d f).jtag = s.jtag ∧ (s.modDie d f).smbAddr = s.smbAddr ∧ (s.modDie d f).smbStat = s.smbStat
      ∧ (s.modDie d f).attest = s.attest ∧ (s.modDie d f).caps = s.caps ∧ (s.modDie d f).fuses = s.fuses
      ∧ (s.modDie d f).pending = s.pending ∧ (s.modDie d f).out = s.out ∧ (s.modDie d f).free = s.free :=
  ⟨rfl, rfl, rfl, rfl, rfl, rfl, rfl, rfl, rfl, rfl, rfl, rfl, rfl, rfl, rfl, rfl, rfl, rfl, rfl, rfl, rfl, rfl, rfl, rfl, rfl, rfl, rfl, rfl, rfl, rfl, rfl, rfl, rfl⟩

@[simp] theorem State.fwUpd_frame (f : FwSt → FwSt) :
    (s.fwUpd f).regs = s.regs ∧ (s.fwUpd f).stations = s.stations ∧ (s.fwUpd f).dies = s.dies
      ∧ (s.fwUpd f).refc = s.refc ∧ (s.fwUpd f).ring = s.ring ∧ (s.fwUpd f).ringIn = s.ringIn
      ∧ (s.fwUpd f).seam = s.seam ∧ (s.fwUpd f).bridge = s.bridge ∧ (s.fwUpd f).feeds = s.feeds
      ∧ (s.fwUpd f).injected = s.injected ∧ (s.fwUpd f).tgStops = s.tgStops ∧ (s.fwUpd f).stackMem = s.stackMem
      ∧ (s.fwUpd f).pkgRing = s.pkgRing ∧ (s.fwUpd f).ratio = s.ratio ∧ (s.fwUpd f).ports = s.ports
      ∧ (s.fwUpd f).mcast = s.mcast ∧ (s.fwUpd f).mcSlots = s.mcSlots ∧ (s.fwUpd f).redKeys = s.redKeys
      ∧ (s.fwUpd f).redWait = s.redWait ∧ (s.fwUpd f).norm = s.norm ∧ (s.fwUpd f).qps = s.qps
      ∧ (s.fwUpd f).eth = s.eth ∧ (s.fwUpd f).pwr = s.pwr ∧ (s.fwUpd f).pins = s.pins
      ∧ (s.fwUpd f).jtag = s.jtag ∧ (s.fwUpd f).smbAddr = s.smbAddr ∧ (s.fwUpd f).smbStat = s.smbStat
      ∧ (s.fwUpd f).attest = s.attest ∧ (s.fwUpd f).caps = s.caps ∧ (s.fwUpd f).fuses = s.fuses
      ∧ (s.fwUpd f).pending = s.pending ∧ (s.fwUpd f).out = s.out ∧ (s.fwUpd f).free = s.free :=
  ⟨rfl, rfl, rfl, rfl, rfl, rfl, rfl, rfl, rfl, rfl, rfl, rfl, rfl, rfl, rfl, rfl, rfl, rfl, rfl, rfl, rfl, rfl, rfl, rfl, rfl, rfl, rfl, rfl, rfl, rfl, rfl, rfl, rfl⟩

@[simp] theorem State.pwrUpd_frame (f : PwrSt → PwrSt) :
    (s.pwrUpd f).regs = s.regs ∧ (s.pwrUpd f).stations = s.stations ∧ (s.pwrUpd f).dies = s.dies
      ∧ (s.pwrUpd f).refc = s.refc ∧ (s.pwrUpd f).ring = s.ring ∧ (s.pwrUpd f).ringIn = s.ringIn
      ∧ (s.pwrUpd f).seam = s.seam ∧ (s.pwrUpd f).bridge = s.bridge ∧ (s.pwrUpd f).feeds = s.feeds
      ∧ (s.pwrUpd f).injected = s.injected ∧ (s.pwrUpd f).tgStops = s.tgStops ∧ (s.pwrUpd f).stackMem = s.stackMem
      ∧ (s.pwrUpd f).pkgRing = s.pkgRing ∧ (s.pwrUpd f).ratio = s.ratio ∧ (s.pwrUpd f).ports = s.ports
      ∧ (s.pwrUpd f).mcast = s.mcast ∧ (s.pwrUpd f).mcSlots = s.mcSlots ∧ (s.pwrUpd f).redKeys = s.redKeys
      ∧ (s.pwrUpd f).redWait = s.redWait ∧ (s.pwrUpd f).norm = s.norm ∧ (s.pwrUpd f).qps = s.qps
      ∧ (s.pwrUpd f).eth = s.eth ∧ (s.pwrUpd f).fw = s.fw ∧ (s.pwrUpd f).pins = s.pins
      ∧ (s.pwrUpd f).jtag = s.jtag ∧ (s.pwrUpd f).smbAddr = s.smbAddr ∧ (s.pwrUpd f).smbStat = s.smbStat
      ∧ (s.pwrUpd f).attest = s.attest ∧ (s.pwrUpd f).caps = s.caps ∧ (s.pwrUpd f).fuses = s.fuses
      ∧ (s.pwrUpd f).pending = s.pending ∧ (s.pwrUpd f).out = s.out ∧ (s.pwrUpd f).free = s.free :=
  ⟨rfl, rfl, rfl, rfl, rfl, rfl, rfl, rfl, rfl, rfl, rfl, rfl, rfl, rfl, rfl, rfl, rfl, rfl, rfl, rfl, rfl, rfl, rfl, rfl, rfl, rfl, rfl, rfl, rfl, rfl, rfl, rfl, rfl⟩

@[simp] theorem State.setRegAt_frame (r : Reg) (o v : Nat) :
    (s.setRegAt r o v).stations = s.stations ∧ (s.setRegAt r o v).dies = s.dies ∧ (s.setRegAt r o v).refc = s.refc
      ∧ (s.setRegAt r o v).ring = s.ring ∧ (s.setRegAt r o v).ringIn = s.ringIn ∧ (s.setRegAt r o v).seam = s.seam
      ∧ (s.setRegAt r o v).bridge = s.bridge ∧ (s.setRegAt r o v).feeds = s.feeds ∧ (s.setRegAt r o v).injected = s.injected
      ∧ (s.setRegAt r o v).tgStops = s.tgStops ∧ (s.setRegAt r o v).stackMem = s.stackMem ∧ (s.setRegAt r o v).pkgRing = s.pkgRing
      ∧ (s.setRegAt r o v).ratio = s.ratio ∧ (s.setRegAt r o v).ports = s.ports ∧ (s.setRegAt r o v).mcast = s.mcast
      ∧ (s.setRegAt r o v).mcSlots = s.mcSlots ∧ (s.setRegAt r o v).redKeys = s.redKeys ∧ (s.setRegAt r o v).redWait = s.redWait
      ∧ (s.setRegAt r o v).norm = s.norm ∧ (s.setRegAt r o v).qps = s.qps ∧ (s.setRegAt r o v).eth = s.eth
      ∧ (s.setRegAt r o v).fw = s.fw ∧ (s.setRegAt r o v).pwr = s.pwr ∧ (s.setRegAt r o v).pins = s.pins
      ∧ (s.setRegAt r o v).jtag = s.jtag ∧ (s.setRegAt r o v).smbAddr = s.smbAddr ∧ (s.setRegAt r o v).smbStat = s.smbStat
      ∧ (s.setRegAt r o v).attest = s.attest ∧ (s.setRegAt r o v).caps = s.caps ∧ (s.setRegAt r o v).fuses = s.fuses
      ∧ (s.setRegAt r o v).pending = s.pending ∧ (s.setRegAt r o v).out = s.out ∧ (s.setRegAt r o v).free = s.free :=
  ⟨rfl, rfl, rfl, rfl, rfl, rfl, rfl, rfl, rfl, rfl, rfl, rfl, rfl, rfl, rfl, rfl, rfl, rfl, rfl, rfl, rfl, rfl, rfl, rfl, rfl, rfl, rfl, rfl, rfl, rfl, rfl, rfl, rfl⟩

@[simp] theorem State.setReg_frame (r : Reg) (i v : Nat) :
    (s.setReg r i v).stations = s.stations ∧ (s.setReg r i v).dies = s.dies ∧ (s.setReg r i v).refc = s.refc
      ∧ (s.setReg r i v).ring = s.ring ∧ (s.setReg r i v).ringIn = s.ringIn ∧ (s.setReg r i v).seam = s.seam
      ∧ (s.setReg r i v).bridge = s.bridge ∧ (s.setReg r i v).feeds = s.feeds ∧ (s.setReg r i v).injected = s.injected
      ∧ (s.setReg r i v).tgStops = s.tgStops ∧ (s.setReg r i v).stackMem = s.stackMem ∧ (s.setReg r i v).pkgRing = s.pkgRing
      ∧ (s.setReg r i v).ratio = s.ratio ∧ (s.setReg r i v).ports = s.ports ∧ (s.setReg r i v).mcast = s.mcast
      ∧ (s.setReg r i v).mcSlots = s.mcSlots ∧ (s.setReg r i v).redKeys = s.redKeys ∧ (s.setReg r i v).redWait = s.redWait
      ∧ (s.setReg r i v).norm = s.norm ∧ (s.setReg r i v).qps = s.qps ∧ (s.setReg r i v).eth = s.eth
      ∧ (s.setReg r i v).fw = s.fw ∧ (s.setReg r i v).pwr = s.pwr ∧ (s.setReg r i v).pins = s.pins
      ∧ (s.setReg r i v).jtag = s.jtag ∧ (s.setReg r i v).smbAddr = s.smbAddr ∧ (s.setReg r i v).smbStat = s.smbStat
      ∧ (s.setReg r i v).attest = s.attest ∧ (s.setReg r i v).caps = s.caps ∧ (s.setReg r i v).fuses = s.fuses
      ∧ (s.setReg r i v).pending = s.pending ∧ (s.setReg r i v).out = s.out ∧ (s.setReg r i v).free = s.free :=
  ⟨rfl, rfl, rfl, rfl, rfl, rfl, rfl, rfl, rfl, rfl, rfl, rfl, rfl, rfl, rfl, rfl, rfl, rfl, rfl, rfl, rfl, rfl, rfl, rfl, rfl, rfl, rfl, rfl, rfl, rfl, rfl, rfl, rfl⟩

@[simp] theorem State.setFld_frame (r : Reg) (i hi lo v : Nat) :
    (s.setFld r i hi lo v).stations = s.stations ∧ (s.setFld r i hi lo v).dies = s.dies ∧ (s.setFld r i hi lo v).refc = s.refc
      ∧ (s.setFld r i hi lo v).ring = s.ring ∧ (s.setFld r i hi lo v).ringIn = s.ringIn ∧ (s.setFld r i hi lo v).seam = s.seam
      ∧ (s.setFld r i hi lo v).bridge = s.bridge ∧ (s.setFld r i hi lo v).feeds = s.feeds ∧ (s.setFld r i hi lo v).injected = s.injected
      ∧ (s.setFld r i hi lo v).tgStops = s.tgStops ∧ (s.setFld r i hi lo v).stackMem = s.stackMem ∧ (s.setFld r i hi lo v).pkgRing = s.pkgRing
      ∧ (s.setFld r i hi lo v).ratio = s.ratio ∧ (s.setFld r i hi lo v).ports = s.ports ∧ (s.setFld r i hi lo v).mcast = s.mcast
      ∧ (s.setFld r i hi lo v).mcSlots = s.mcSlots ∧ (s.setFld r i hi lo v).redKeys = s.redKeys ∧ (s.setFld r i hi lo v).redWait = s.redWait
      ∧ (s.setFld r i hi lo v).norm = s.norm ∧ (s.setFld r i hi lo v).qps = s.qps ∧ (s.setFld r i hi lo v).eth = s.eth
      ∧ (s.setFld r i hi lo v).fw = s.fw ∧ (s.setFld r i hi lo v).pwr = s.pwr ∧ (s.setFld r i hi lo v).pins = s.pins
      ∧ (s.setFld r i hi lo v).jtag = s.jtag ∧ (s.setFld r i hi lo v).smbAddr = s.smbAddr ∧ (s.setFld r i hi lo v).smbStat = s.smbStat
      ∧ (s.setFld r i hi lo v).attest = s.attest ∧ (s.setFld r i hi lo v).caps = s.caps ∧ (s.setFld r i hi lo v).fuses = s.fuses
      ∧ (s.setFld r i hi lo v).pending = s.pending ∧ (s.setFld r i hi lo v).out = s.out ∧ (s.setFld r i hi lo v).free = s.free := by
  unfold State.setFld; simp

@[simp] theorem State.setPair_frame (r : Reg) (i v : Nat) :
    (s.setPair r i v).stations = s.stations ∧ (s.setPair r i v).dies = s.dies ∧ (s.setPair r i v).refc = s.refc
      ∧ (s.setPair r i v).ring = s.ring ∧ (s.setPair r i v).ringIn = s.ringIn ∧ (s.setPair r i v).seam = s.seam
      ∧ (s.setPair r i v).bridge = s.bridge ∧ (s.setPair r i v).feeds = s.feeds ∧ (s.setPair r i v).injected = s.injected
      ∧ (s.setPair r i v).tgStops = s.tgStops ∧ (s.setPair r i v).stackMem = s.stackMem ∧ (s.setPair r i v).pkgRing = s.pkgRing
      ∧ (s.setPair r i v).ratio = s.ratio ∧ (s.setPair r i v).ports = s.ports ∧ (s.setPair r i v).mcast = s.mcast
      ∧ (s.setPair r i v).mcSlots = s.mcSlots ∧ (s.setPair r i v).redKeys = s.redKeys ∧ (s.setPair r i v).redWait = s.redWait
      ∧ (s.setPair r i v).norm = s.norm ∧ (s.setPair r i v).qps = s.qps ∧ (s.setPair r i v).eth = s.eth
      ∧ (s.setPair r i v).fw = s.fw ∧ (s.setPair r i v).pwr = s.pwr ∧ (s.setPair r i v).pins = s.pins
      ∧ (s.setPair r i v).jtag = s.jtag ∧ (s.setPair r i v).smbAddr = s.smbAddr ∧ (s.setPair r i v).smbStat = s.smbStat
      ∧ (s.setPair r i v).attest = s.attest ∧ (s.setPair r i v).caps = s.caps ∧ (s.setPair r i v).fuses = s.fuses
      ∧ (s.setPair r i v).pending = s.pending ∧ (s.setPair r i v).out = s.out ∧ (s.setPair r i v).free = s.free := by
  unfold State.setPair; simp

@[simp] theorem State.addPair_frame (r : Reg) (i n : Nat) :
    (s.addPair r i n).stations = s.stations ∧ (s.addPair r i n).dies = s.dies ∧ (s.addPair r i n).refc = s.refc
      ∧ (s.addPair r i n).ring = s.ring ∧ (s.addPair r i n).ringIn = s.ringIn ∧ (s.addPair r i n).seam = s.seam
      ∧ (s.addPair r i n).bridge = s.bridge ∧ (s.addPair r i n).feeds = s.feeds ∧ (s.addPair r i n).injected = s.injected
      ∧ (s.addPair r i n).tgStops = s.tgStops ∧ (s.addPair r i n).stackMem = s.stackMem ∧ (s.addPair r i n).pkgRing = s.pkgRing
      ∧ (s.addPair r i n).ratio = s.ratio ∧ (s.addPair r i n).ports = s.ports ∧ (s.addPair r i n).mcast = s.mcast
      ∧ (s.addPair r i n).mcSlots = s.mcSlots ∧ (s.addPair r i n).redKeys = s.redKeys ∧ (s.addPair r i n).redWait = s.redWait
      ∧ (s.addPair r i n).norm = s.norm ∧ (s.addPair r i n).qps = s.qps ∧ (s.addPair r i n).eth = s.eth
      ∧ (s.addPair r i n).fw = s.fw ∧ (s.addPair r i n).pwr = s.pwr ∧ (s.addPair r i n).pins = s.pins
      ∧ (s.addPair r i n).jtag = s.jtag ∧ (s.addPair r i n).smbAddr = s.smbAddr ∧ (s.addPair r i n).smbStat = s.smbStat
      ∧ (s.addPair r i n).attest = s.attest ∧ (s.addPair r i n).caps = s.caps ∧ (s.addPair r i n).fuses = s.fuses
      ∧ (s.addPair r i n).pending = s.pending ∧ (s.addPair r i n).out = s.out ∧ (s.addPair r i n).free = s.free := by
  unfold State.addPair; simp

@[simp] theorem State.countFld_frame (r : Reg) (i hi lo n : Nat) :
    (s.countFld r i hi lo n).stations = s.stations ∧ (s.countFld r i hi lo n).dies = s.dies ∧ (s.countFld r i hi lo n).refc = s.refc
      ∧ (s.countFld r i hi lo n).ring = s.ring ∧ (s.countFld r i hi lo n).ringIn = s.ringIn ∧ (s.countFld r i hi lo n).seam = s.seam
      ∧ (s.countFld r i hi lo n).bridge = s.bridge ∧ (s.countFld r i hi lo n).feeds = s.feeds ∧ (s.countFld r i hi lo n).injected = s.injected
      ∧ (s.countFld r i hi lo n).tgStops = s.tgStops ∧ (s.countFld r i hi lo n).stackMem = s.stackMem ∧ (s.countFld r i hi lo n).pkgRing = s.pkgRing
      ∧ (s.countFld r i hi lo n).ratio = s.ratio ∧ (s.countFld r i hi lo n).ports = s.ports ∧ (s.countFld r i hi lo n).mcast = s.mcast
      ∧ (s.countFld r i hi lo n).mcSlots = s.mcSlots ∧ (s.countFld r i hi lo n).redKeys = s.redKeys ∧ (s.countFld r i hi lo n).redWait = s.redWait
      ∧ (s.countFld r i hi lo n).norm = s.norm ∧ (s.countFld r i hi lo n).qps = s.qps ∧ (s.countFld r i hi lo n).eth = s.eth
      ∧ (s.countFld r i hi lo n).fw = s.fw ∧ (s.countFld r i hi lo n).pwr = s.pwr ∧ (s.countFld r i hi lo n).pins = s.pins
      ∧ (s.countFld r i hi lo n).jtag = s.jtag ∧ (s.countFld r i hi lo n).smbAddr = s.smbAddr ∧ (s.countFld r i hi lo n).smbStat = s.smbStat
      ∧ (s.countFld r i hi lo n).attest = s.attest ∧ (s.countFld r i hi lo n).caps = s.caps ∧ (s.countFld r i hi lo n).fuses = s.fuses
      ∧ (s.countFld r i hi lo n).pending = s.pending ∧ (s.countFld r i hi lo n).out = s.out ∧ (s.countFld r i hi lo n).free = s.free := by
  unfold State.countFld; simp

@[simp] theorem State.raiseAs_frame (cls kind i off : Nat) :
    (s.raiseAs cls kind i off).regs = s.regs ∧ (s.raiseAs cls kind i off).stations = s.stations ∧ (s.raiseAs cls kind i off).dies = s.dies
      ∧ (s.raiseAs cls kind i off).refc = s.refc ∧ (s.raiseAs cls kind i off).ring = s.ring ∧ (s.raiseAs cls kind i off).ringIn = s.ringIn
      ∧ (s.raiseAs cls kind i off).seam = s.seam ∧ (s.raiseAs cls kind i off).bridge = s.bridge ∧ (s.raiseAs cls kind i off).feeds = s.feeds
      ∧ (s.raiseAs cls kind i off).injected = s.injected ∧ (s.raiseAs cls kind i off).tgStops = s.tgStops ∧ (s.raiseAs cls kind i off).stackMem = s.stackMem
      ∧ (s.raiseAs cls kind i off).pkgRing = s.pkgRing ∧ (s.raiseAs cls kind i off).ratio = s.ratio ∧ (s.raiseAs cls kind i off).ports = s.ports
      ∧ (s.raiseAs cls kind i off).mcast = s.mcast ∧ (s.raiseAs cls kind i off).mcSlots = s.mcSlots ∧ (s.raiseAs cls kind i off).redKeys = s.redKeys
      ∧ (s.raiseAs cls kind i off).redWait = s.redWait ∧ (s.raiseAs cls kind i off).norm = s.norm ∧ (s.raiseAs cls kind i off).qps = s.qps
      ∧ (s.raiseAs cls kind i off).eth = s.eth ∧ (s.raiseAs cls kind i off).pwr = s.pwr ∧ (s.raiseAs cls kind i off).pins = s.pins
      ∧ (s.raiseAs cls kind i off).jtag = s.jtag ∧ (s.raiseAs cls kind i off).smbAddr = s.smbAddr ∧ (s.raiseAs cls kind i off).smbStat = s.smbStat
      ∧ (s.raiseAs cls kind i off).attest = s.attest ∧ (s.raiseAs cls kind i off).caps = s.caps ∧ (s.raiseAs cls kind i off).fuses = s.fuses
      ∧ (s.raiseAs cls kind i off).pending = s.pending ∧ (s.raiseAs cls kind i off).out = s.out ∧ (s.raiseAs cls kind i off).free = s.free := by
  unfold State.raiseAs; split <;> exact ⟨rfl, rfl, rfl, rfl, rfl, rfl, rfl, rfl, rfl, rfl, rfl, rfl, rfl, rfl, rfl, rfl, rfl, rfl, rfl, rfl, rfl, rfl, rfl, rfl, rfl, rfl, rfl, rfl, rfl, rfl, rfl, rfl, rfl⟩

@[simp] theorem State.raise_frame (r : Reg) (i : Nat) :
    (s.raise r i).regs = s.regs ∧ (s.raise r i).stations = s.stations ∧ (s.raise r i).dies = s.dies
      ∧ (s.raise r i).refc = s.refc ∧ (s.raise r i).ring = s.ring ∧ (s.raise r i).ringIn = s.ringIn
      ∧ (s.raise r i).seam = s.seam ∧ (s.raise r i).bridge = s.bridge ∧ (s.raise r i).feeds = s.feeds
      ∧ (s.raise r i).injected = s.injected ∧ (s.raise r i).tgStops = s.tgStops ∧ (s.raise r i).stackMem = s.stackMem
      ∧ (s.raise r i).pkgRing = s.pkgRing ∧ (s.raise r i).ratio = s.ratio ∧ (s.raise r i).ports = s.ports
      ∧ (s.raise r i).mcast = s.mcast ∧ (s.raise r i).mcSlots = s.mcSlots ∧ (s.raise r i).redKeys = s.redKeys
      ∧ (s.raise r i).redWait = s.redWait ∧ (s.raise r i).norm = s.norm ∧ (s.raise r i).qps = s.qps
      ∧ (s.raise r i).eth = s.eth ∧ (s.raise r i).pwr = s.pwr ∧ (s.raise r i).pins = s.pins
      ∧ (s.raise r i).jtag = s.jtag ∧ (s.raise r i).smbAddr = s.smbAddr ∧ (s.raise r i).smbStat = s.smbStat
      ∧ (s.raise r i).attest = s.attest ∧ (s.raise r i).caps = s.caps ∧ (s.raise r i).fuses = s.fuses
      ∧ (s.raise r i).pending = s.pending ∧ (s.raise r i).out = s.out ∧ (s.raise r i).free = s.free := by
  unfold State.raise; split <;> simp

@[simp] theorem State.capture_frame (r : Reg) (i v : Nat) :
    (s.capture r i v).stations = s.stations ∧ (s.capture r i v).dies = s.dies ∧ (s.capture r i v).refc = s.refc
      ∧ (s.capture r i v).ring = s.ring ∧ (s.capture r i v).ringIn = s.ringIn ∧ (s.capture r i v).seam = s.seam
      ∧ (s.capture r i v).bridge = s.bridge ∧ (s.capture r i v).feeds = s.feeds ∧ (s.capture r i v).injected = s.injected
      ∧ (s.capture r i v).tgStops = s.tgStops ∧ (s.capture r i v).stackMem = s.stackMem ∧ (s.capture r i v).pkgRing = s.pkgRing
      ∧ (s.capture r i v).ratio = s.ratio ∧ (s.capture r i v).ports = s.ports ∧ (s.capture r i v).mcast = s.mcast
      ∧ (s.capture r i v).mcSlots = s.mcSlots ∧ (s.capture r i v).redKeys = s.redKeys ∧ (s.capture r i v).redWait = s.redWait
      ∧ (s.capture r i v).norm = s.norm ∧ (s.capture r i v).qps = s.qps ∧ (s.capture r i v).eth = s.eth
      ∧ (s.capture r i v).pwr = s.pwr ∧ (s.capture r i v).pins = s.pins ∧ (s.capture r i v).jtag = s.jtag
      ∧ (s.capture r i v).smbAddr = s.smbAddr ∧ (s.capture r i v).smbStat = s.smbStat ∧ (s.capture r i v).attest = s.attest
      ∧ (s.capture r i v).caps = s.caps ∧ (s.capture r i v).fuses = s.fuses ∧ (s.capture r i v).pending = s.pending
      ∧ (s.capture r i v).out = s.out ∧ (s.capture r i v).free = s.free := by
  unfold State.capture; split <;> simp

@[simp] theorem State.cause_frame (d mask : Nat) :
    (s.cause d mask).stations = s.stations ∧ (s.cause d mask).dies = s.dies ∧ (s.cause d mask).refc = s.refc
      ∧ (s.cause d mask).ring = s.ring ∧ (s.cause d mask).ringIn = s.ringIn ∧ (s.cause d mask).seam = s.seam
      ∧ (s.cause d mask).bridge = s.bridge ∧ (s.cause d mask).feeds = s.feeds ∧ (s.cause d mask).injected = s.injected
      ∧ (s.cause d mask).tgStops = s.tgStops ∧ (s.cause d mask).stackMem = s.stackMem ∧ (s.cause d mask).pkgRing = s.pkgRing
      ∧ (s.cause d mask).ratio = s.ratio ∧ (s.cause d mask).ports = s.ports ∧ (s.cause d mask).mcast = s.mcast
      ∧ (s.cause d mask).mcSlots = s.mcSlots ∧ (s.cause d mask).redKeys = s.redKeys ∧ (s.cause d mask).redWait = s.redWait
      ∧ (s.cause d mask).norm = s.norm ∧ (s.cause d mask).qps = s.qps ∧ (s.cause d mask).eth = s.eth
      ∧ (s.cause d mask).fw = s.fw ∧ (s.cause d mask).pwr = s.pwr ∧ (s.cause d mask).pins = s.pins
      ∧ (s.cause d mask).jtag = s.jtag ∧ (s.cause d mask).smbAddr = s.smbAddr ∧ (s.cause d mask).smbStat = s.smbStat
      ∧ (s.cause d mask).attest = s.attest ∧ (s.cause d mask).caps = s.caps ∧ (s.cause d mask).fuses = s.fuses
      ∧ (s.cause d mask).pending = s.pending ∧ (s.cause d mask).out = s.out ∧ (s.cause d mask).free = s.free := by
  unfold State.cause; simp

@[simp] theorem State.shutRel_frame (d bit src : Nat) :
    (s.shutRel d bit src).regs = s.regs ∧ (s.shutRel d bit src).stations = s.stations ∧ (s.shutRel d bit src).refc = s.refc
      ∧ (s.shutRel d bit src).ring = s.ring ∧ (s.shutRel d bit src).ringIn = s.ringIn ∧ (s.shutRel d bit src).seam = s.seam
      ∧ (s.shutRel d bit src).bridge = s.bridge ∧ (s.shutRel d bit src).feeds = s.feeds ∧ (s.shutRel d bit src).injected = s.injected
      ∧ (s.shutRel d bit src).tgStops = s.tgStops ∧ (s.shutRel d bit src).stackMem = s.stackMem ∧ (s.shutRel d bit src).pkgRing = s.pkgRing
      ∧ (s.shutRel d bit src).ratio = s.ratio ∧ (s.shutRel d bit src).ports = s.ports ∧ (s.shutRel d bit src).mcast = s.mcast
      ∧ (s.shutRel d bit src).mcSlots = s.mcSlots ∧ (s.shutRel d bit src).redKeys = s.redKeys ∧ (s.shutRel d bit src).redWait = s.redWait
      ∧ (s.shutRel d bit src).norm = s.norm ∧ (s.shutRel d bit src).qps = s.qps ∧ (s.shutRel d bit src).eth = s.eth
      ∧ (s.shutRel d bit src).fw = s.fw ∧ (s.shutRel d bit src).pwr = s.pwr ∧ (s.shutRel d bit src).pins = s.pins
      ∧ (s.shutRel d bit src).jtag = s.jtag ∧ (s.shutRel d bit src).smbAddr = s.smbAddr ∧ (s.shutRel d bit src).smbStat = s.smbStat
      ∧ (s.shutRel d bit src).attest = s.attest ∧ (s.shutRel d bit src).caps = s.caps ∧ (s.shutRel d bit src).fuses = s.fuses
      ∧ (s.shutRel d bit src).pending = s.pending ∧ (s.shutRel d bit src).out = s.out ∧ (s.shutRel d bit src).free = s.free :=
  ⟨rfl, rfl, rfl, rfl, rfl, rfl, rfl, rfl, rfl, rfl, rfl, rfl, rfl, rfl, rfl, rfl, rfl, rfl, rfl, rfl, rfl, rfl, rfl, rfl, rfl, rfl, rfl, rfl, rfl, rfl, rfl, rfl, rfl⟩

@[simp] theorem State.stopStation_frame (i : Nat) (r : Run) :
    (s.stopStation i r).regs = s.regs ∧ (s.stopStation i r).dies = s.dies ∧ (s.stopStation i r).refc = s.refc
      ∧ (s.stopStation i r).ring = s.ring ∧ (s.stopStation i r).ringIn = s.ringIn ∧ (s.stopStation i r).seam = s.seam
      ∧ (s.stopStation i r).bridge = s.bridge ∧ (s.stopStation i r).feeds = s.feeds ∧ (s.stopStation i r).injected = s.injected
      ∧ (s.stopStation i r).tgStops = s.tgStops ∧ (s.stopStation i r).stackMem = s.stackMem ∧ (s.stopStation i r).pkgRing = s.pkgRing
      ∧ (s.stopStation i r).ratio = s.ratio ∧ (s.stopStation i r).ports = s.ports ∧ (s.stopStation i r).mcast = s.mcast
      ∧ (s.stopStation i r).mcSlots = s.mcSlots ∧ (s.stopStation i r).redKeys = s.redKeys ∧ (s.stopStation i r).redWait = s.redWait
      ∧ (s.stopStation i r).norm = s.norm ∧ (s.stopStation i r).qps = s.qps ∧ (s.stopStation i r).eth = s.eth
      ∧ (s.stopStation i r).fw = s.fw ∧ (s.stopStation i r).pwr = s.pwr ∧ (s.stopStation i r).pins = s.pins
      ∧ (s.stopStation i r).jtag = s.jtag ∧ (s.stopStation i r).smbAddr = s.smbAddr ∧ (s.stopStation i r).smbStat = s.smbStat
      ∧ (s.stopStation i r).attest = s.attest ∧ (s.stopStation i r).caps = s.caps ∧ (s.stopStation i r).fuses = s.fuses
      ∧ (s.stopStation i r).pending = s.pending ∧ (s.stopStation i r).out = s.out ∧ (s.stopStation i r).free = s.free :=
  ⟨rfl, rfl, rfl, rfl, rfl, rfl, rfl, rfl, rfl, rfl, rfl, rfl, rfl, rfl, rfl, rfl, rfl, rfl, rfl, rfl, rfl, rfl, rfl, rfl, rfl, rfl, rfl, rfl, rfl, rfl, rfl, rfl, rfl⟩

@[simp] theorem State.stopOn_frame (i t : Nat) :
    (s.stopOn i t).regs = s.regs ∧ (s.stopOn i t).dies = s.dies ∧ (s.stopOn i t).refc = s.refc
      ∧ (s.stopOn i t).ring = s.ring ∧ (s.stopOn i t).ringIn = s.ringIn ∧ (s.stopOn i t).seam = s.seam
      ∧ (s.stopOn i t).bridge = s.bridge ∧ (s.stopOn i t).feeds = s.feeds ∧ (s.stopOn i t).injected = s.injected
      ∧ (s.stopOn i t).tgStops = s.tgStops ∧ (s.stopOn i t).stackMem = s.stackMem ∧ (s.stopOn i t).pkgRing = s.pkgRing
      ∧ (s.stopOn i t).ratio = s.ratio ∧ (s.stopOn i t).ports = s.ports ∧ (s.stopOn i t).mcast = s.mcast
      ∧ (s.stopOn i t).mcSlots = s.mcSlots ∧ (s.stopOn i t).redKeys = s.redKeys ∧ (s.stopOn i t).redWait = s.redWait
      ∧ (s.stopOn i t).norm = s.norm ∧ (s.stopOn i t).qps = s.qps ∧ (s.stopOn i t).eth = s.eth
      ∧ (s.stopOn i t).fw = s.fw ∧ (s.stopOn i t).pwr = s.pwr ∧ (s.stopOn i t).pins = s.pins
      ∧ (s.stopOn i t).jtag = s.jtag ∧ (s.stopOn i t).smbAddr = s.smbAddr ∧ (s.stopOn i t).smbStat = s.smbStat
      ∧ (s.stopOn i t).attest = s.attest ∧ (s.stopOn i t).caps = s.caps ∧ (s.stopOn i t).fuses = s.fuses
      ∧ (s.stopOn i t).pending = s.pending ∧ (s.stopOn i t).out = s.out ∧ (s.stopOn i t).free = s.free :=
  ⟨rfl, rfl, rfl, rfl, rfl, rfl, rfl, rfl, rfl, rfl, rfl, rfl, rfl, rfl, rfl, rfl, rfl, rfl, rfl, rfl, rfl, rfl, rfl, rfl, rfl, rfl, rfl, rfl, rfl, rfl, rfl, rfl, rfl⟩

@[simp] theorem State.traceFault_frame (i : Nat) (p : OpPlace) :
    (s.traceFault i p).regs = s.regs ∧ (s.traceFault i p).stations = s.stations ∧ (s.traceFault i p).refc = s.refc
      ∧ (s.traceFault i p).ring = s.ring ∧ (s.traceFault i p).ringIn = s.ringIn ∧ (s.traceFault i p).seam = s.seam
      ∧ (s.traceFault i p).bridge = s.bridge ∧ (s.traceFault i p).feeds = s.feeds ∧ (s.traceFault i p).injected = s.injected
      ∧ (s.traceFault i p).tgStops = s.tgStops ∧ (s.traceFault i p).stackMem = s.stackMem ∧ (s.traceFault i p).pkgRing = s.pkgRing
      ∧ (s.traceFault i p).ratio = s.ratio ∧ (s.traceFault i p).ports = s.ports ∧ (s.traceFault i p).mcast = s.mcast
      ∧ (s.traceFault i p).mcSlots = s.mcSlots ∧ (s.traceFault i p).redKeys = s.redKeys ∧ (s.traceFault i p).redWait = s.redWait
      ∧ (s.traceFault i p).norm = s.norm ∧ (s.traceFault i p).qps = s.qps ∧ (s.traceFault i p).eth = s.eth
      ∧ (s.traceFault i p).fw = s.fw ∧ (s.traceFault i p).pwr = s.pwr ∧ (s.traceFault i p).pins = s.pins
      ∧ (s.traceFault i p).jtag = s.jtag ∧ (s.traceFault i p).smbAddr = s.smbAddr ∧ (s.traceFault i p).smbStat = s.smbStat
      ∧ (s.traceFault i p).attest = s.attest ∧ (s.traceFault i p).caps = s.caps ∧ (s.traceFault i p).fuses = s.fuses
      ∧ (s.traceFault i p).pending = s.pending ∧ (s.traceFault i p).out = s.out ∧ (s.traceFault i p).free = s.free :=
  ⟨rfl, rfl, rfl, rfl, rfl, rfl, rfl, rfl, rfl, rfl, rfl, rfl, rfl, rfl, rfl, rfl, rfl, rfl, rfl, rfl, rfl, rfl, rfl, rfl, rfl, rfl, rfl, rfl, rfl, rfl, rfl, rfl, rfl⟩

@[simp] theorem State.captureSeq_frame (i code cause slot : Nat) (p : OpPlace) :
    (s.captureSeq i code cause slot p).stations = s.stations ∧ (s.captureSeq i code cause slot p).dies = s.dies ∧ (s.captureSeq i code cause slot p).refc = s.refc
      ∧ (s.captureSeq i code cause slot p).ring = s.ring ∧ (s.captureSeq i code cause slot p).ringIn = s.ringIn ∧ (s.captureSeq i code cause slot p).seam = s.seam
      ∧ (s.captureSeq i code cause slot p).bridge = s.bridge ∧ (s.captureSeq i code cause slot p).feeds = s.feeds ∧ (s.captureSeq i code cause slot p).injected = s.injected
      ∧ (s.captureSeq i code cause slot p).tgStops = s.tgStops ∧ (s.captureSeq i code cause slot p).stackMem = s.stackMem ∧ (s.captureSeq i code cause slot p).pkgRing = s.pkgRing
      ∧ (s.captureSeq i code cause slot p).ratio = s.ratio ∧ (s.captureSeq i code cause slot p).ports = s.ports ∧ (s.captureSeq i code cause slot p).mcast = s.mcast
      ∧ (s.captureSeq i code cause slot p).mcSlots = s.mcSlots ∧ (s.captureSeq i code cause slot p).redKeys = s.redKeys ∧ (s.captureSeq i code cause slot p).redWait = s.redWait
      ∧ (s.captureSeq i code cause slot p).norm = s.norm ∧ (s.captureSeq i code cause slot p).qps = s.qps ∧ (s.captureSeq i code cause slot p).eth = s.eth
      ∧ (s.captureSeq i code cause slot p).pwr = s.pwr ∧ (s.captureSeq i code cause slot p).pins = s.pins ∧ (s.captureSeq i code cause slot p).jtag = s.jtag
      ∧ (s.captureSeq i code cause slot p).smbAddr = s.smbAddr ∧ (s.captureSeq i code cause slot p).smbStat = s.smbStat ∧ (s.captureSeq i code cause slot p).attest = s.attest
      ∧ (s.captureSeq i code cause slot p).caps = s.caps ∧ (s.captureSeq i code cause slot p).fuses = s.fuses ∧ (s.captureSeq i code cause slot p).pending = s.pending
      ∧ (s.captureSeq i code cause slot p).out = s.out ∧ (s.captureSeq i code cause slot p).free = s.free := by
  unfold State.captureSeq; split <;> simp

@[simp] theorem State.captureLx_frame (i code : Nat) (m : Strm) (tag tick : Nat) :
    (s.captureLx i code m tag tick).stations = s.stations ∧ (s.captureLx i code m tag tick).dies = s.dies ∧ (s.captureLx i code m tag tick).refc = s.refc
      ∧ (s.captureLx i code m tag tick).ring = s.ring ∧ (s.captureLx i code m tag tick).ringIn = s.ringIn ∧ (s.captureLx i code m tag tick).seam = s.seam
      ∧ (s.captureLx i code m tag tick).bridge = s.bridge ∧ (s.captureLx i code m tag tick).feeds = s.feeds ∧ (s.captureLx i code m tag tick).injected = s.injected
      ∧ (s.captureLx i code m tag tick).tgStops = s.tgStops ∧ (s.captureLx i code m tag tick).stackMem = s.stackMem ∧ (s.captureLx i code m tag tick).pkgRing = s.pkgRing
      ∧ (s.captureLx i code m tag tick).ratio = s.ratio ∧ (s.captureLx i code m tag tick).ports = s.ports ∧ (s.captureLx i code m tag tick).mcast = s.mcast
      ∧ (s.captureLx i code m tag tick).mcSlots = s.mcSlots ∧ (s.captureLx i code m tag tick).redKeys = s.redKeys ∧ (s.captureLx i code m tag tick).redWait = s.redWait
      ∧ (s.captureLx i code m tag tick).norm = s.norm ∧ (s.captureLx i code m tag tick).qps = s.qps ∧ (s.captureLx i code m tag tick).eth = s.eth
      ∧ (s.captureLx i code m tag tick).pwr = s.pwr ∧ (s.captureLx i code m tag tick).pins = s.pins ∧ (s.captureLx i code m tag tick).jtag = s.jtag
      ∧ (s.captureLx i code m tag tick).smbAddr = s.smbAddr ∧ (s.captureLx i code m tag tick).smbStat = s.smbStat ∧ (s.captureLx i code m tag tick).attest = s.attest
      ∧ (s.captureLx i code m tag tick).caps = s.caps ∧ (s.captureLx i code m tag tick).fuses = s.fuses ∧ (s.captureLx i code m tag tick).pending = s.pending
      ∧ (s.captureLx i code m tag tick).out = s.out ∧ (s.captureLx i code m tag tick).free = s.free := by
  unfold State.captureLx; simp

@[simp] theorem State.ringError_frame (d kind seg pos : Nat) :
    (s.ringError d kind seg pos).stations = s.stations ∧ (s.ringError d kind seg pos).dies = s.dies ∧ (s.ringError d kind seg pos).refc = s.refc
      ∧ (s.ringError d kind seg pos).ring = s.ring ∧ (s.ringError d kind seg pos).ringIn = s.ringIn ∧ (s.ringError d kind seg pos).seam = s.seam
      ∧ (s.ringError d kind seg pos).bridge = s.bridge ∧ (s.ringError d kind seg pos).feeds = s.feeds ∧ (s.ringError d kind seg pos).injected = s.injected
      ∧ (s.ringError d kind seg pos).tgStops = s.tgStops ∧ (s.ringError d kind seg pos).stackMem = s.stackMem ∧ (s.ringError d kind seg pos).pkgRing = s.pkgRing
      ∧ (s.ringError d kind seg pos).ratio = s.ratio ∧ (s.ringError d kind seg pos).ports = s.ports ∧ (s.ringError d kind seg pos).mcast = s.mcast
      ∧ (s.ringError d kind seg pos).mcSlots = s.mcSlots ∧ (s.ringError d kind seg pos).redKeys = s.redKeys ∧ (s.ringError d kind seg pos).redWait = s.redWait
      ∧ (s.ringError d kind seg pos).norm = s.norm ∧ (s.ringError d kind seg pos).qps = s.qps ∧ (s.ringError d kind seg pos).eth = s.eth
      ∧ (s.ringError d kind seg pos).pwr = s.pwr ∧ (s.ringError d kind seg pos).pins = s.pins ∧ (s.ringError d kind seg pos).jtag = s.jtag
      ∧ (s.ringError d kind seg pos).smbAddr = s.smbAddr ∧ (s.ringError d kind seg pos).smbStat = s.smbStat ∧ (s.ringError d kind seg pos).attest = s.attest
      ∧ (s.ringError d kind seg pos).caps = s.caps ∧ (s.ringError d kind seg pos).fuses = s.fuses ∧ (s.ringError d kind seg pos).pending = s.pending
      ∧ (s.ringError d kind seg pos).out = s.out ∧ (s.ringError d kind seg pos).free = s.free := by
  unfold State.ringError; simp

/-! ### Reads after updates -/

theorem State.station_setStation (i j : Nat) (x : Station) :
    (s.setStation i x).station j = if i = j then x else s.station j := Tbl.get_put _ _ _ _ _

@[simp] theorem State.station_setStation_self (i : Nat) (x : Station) : (s.setStation i x).station i = x := by
  simp [State.station_setStation]

theorem State.station_modStation (i j : Nat) (f : Station → Station) :
    (s.modStation i f).station j = if i = j then f (s.station i) else s.station j := State.station_setStation _ _ _ _

@[simp] theorem State.station_modStation_self (i : Nat) (f : Station → Station) : (s.modStation i f).station i = f (s.station i) := by
  simp [State.station_modStation]

theorem State.station_modStream (i j : Nat) (m : Strm) (f : StreamSt → StreamSt) :
    (s.modStream i m f).station j = if i = j then (s.station i).modStream m f else s.station j := State.station_modStation _ _ _ _

theorem State.die_setDie (d e : Nat) (x : DieSt) : (s.setDie d x).die e = if d = e then x else s.die e := Tbl.get_put _ _ _ _ _

theorem State.die_modDie (d e : Nat) (f : DieSt → DieSt) :
    (s.modDie d f).die e = if d = e then f (s.die d) else s.die e := State.die_setDie _ _ _ _

@[simp] theorem State.die_modDie_self (d : Nat) (f : DieSt → DieSt) : (s.modDie d f).die d = f (s.die d) := by
  simp [State.die_modDie]

/-- A register word after a write of one word. -/
theorem State.regAt_setRegAt (r : Reg) (o v : Nat) : (s.setRegAt r o v).regAt r o = v % 2 ^ 32 := by
  simp [State.regAt, State.setRegAt]

/-- A register word at another offset, of whatever register. -/
theorem State.regAt_setRegAt_ne (r q : Reg) {o p : Nat} (v : Nat) (h : o ≠ p) : (s.setRegAt r o v).regAt q p = s.regAt q p := by
  simp only [State.regAt, State.setRegAt]
  rw [Tbl.get_put_other _ _ _ _ h]

@[simp] theorem State.reg_setReg (r : Reg) (i v : Nat) : (s.setReg r i v).reg r i = v % 2 ^ 32 := State.regAt_setRegAt _ _ _ _

theorem State.regAt_setReg_ne (r q : Reg) (i : Nat) {p : Nat} (v : Nat) (h : r.at i ≠ p) : (s.setReg r i v).regAt q p = s.regAt q p :=
  State.regAt_setRegAt_ne s r q v h

/-- Registers are read from the register file alone. -/
theorem State.regAt_congr {s t : State} (h : s.regs = t.regs) (r : Reg) (o : Nat) : s.regAt r o = t.regAt r o := by
  unfold State.regAt; rw [h]

theorem State.reg_congr {s t : State} (h : s.regs = t.regs) (r : Reg) (i : Nat) : s.reg r i = t.reg r i := State.regAt_congr h r _

theorem State.station_congr {s t : State} (h : s.stations = t.stations) (i : Nat) : s.station i = t.station i := by
  unfold State.station; rw [h]

theorem State.die_congr {s t : State} (h : s.dies = t.dies) (d : Nat) : s.die d = t.die d := by
  unfold State.die; rw [h]

@[simp] theorem Station.stream_setStream (x : Station) (m : Strm) (y : StreamSt) : (x.setStream m y).stream m = y := by
  cases m <;> rfl

theorem Station.stream_setStream_ne (x : Station) {m n : Strm} (y : StreamSt) (h : m ≠ n) : (x.setStream m y).stream n = x.stream n := by
  cases m <;> cases n <;> first | rfl | exact absurd rfl h

end Sys2Proof.Machine
end

