-- ==== Sys2Proof/Laws/Issue.lean ====
section
/-! SUPPORT. What issuing a word and its slots does, said once: the equation of a slot that acts and of one that does not. -/

namespace Sys2Proof.Machine

theorem StreamSt.sameWord_iff (y : StreamSt) (h : BitVec 16) (t : Nat) :
    y.sameWord h t = true ↔ ∃ w, y.word = some w ∧ w.tick = t ∧ w.hdr = h := by
  unfold StreamSt.sameWord
  cases y.word <;> simp

theorem State.WordFrame.refl (s : State) (i : Issue) (offs : List Nat) : s.WordFrame s i offs :=
  ⟨fun _ _ => rfl, fun _ _ _ => rfl, fun _ => rfl, rfl⟩

theorem State.WordFrame.trans {s u v : State} {i : Issue} {offs : List Nat} (a : s.WordFrame u i offs) (b : u.WordFrame v i offs) :
    s.WordFrame v i offs := by
  refine ⟨fun j h => (b.others j h).trans (a.others j h), fun r o h => (b.regs r o h).trans (a.regs r o h), fun d => ?_, ?_⟩
  · have h1 := a.dies d
    have h2 := b.dies d
    rw [← h1, ← h2]
  · rw [b.rest, a.rest]

theorem State.WordFrame.mono {s u : State} {i : Issue} {a b : List Nat} (w : s.WordFrame u i a) (h : ∀ o ∈ a, o ∈ b) :
    s.WordFrame u i b :=
  ⟨w.others, fun r o ho => w.regs r o (fun hm => ho (by
    simp only [List.mem_cons] at hm ⊢
    rcases hm with h1 | h1
    · exact .inl h1
    · exact .inr (h o h1))), w.dies, w.rest⟩

theorem State.WordFrame.modStation (s : State) (i : Issue) (offs : List Nat) (f : Station → Station) :
    s.WordFrame (s.modStation i.stn f) i offs := by
  refine ⟨fun j h => ?_, fun _ _ _ => rfl, fun _ => rfl, rfl⟩
  rw [State.station_modStation, if_neg (fun e => h e.symm)]

theorem State.WordFrame.setStation (s : State) (i : Issue) (offs : List Nat) (x : Station) :
    s.WordFrame (s.setStation i.stn x) i offs := by
  refine ⟨fun j h => ?_, fun _ _ _ => rfl, fun _ => rfl, rfl⟩
  rw [State.station_setStation, if_neg (fun e => h e.symm)]

theorem State.WordFrame.setReg (s : State) (i : Issue) (offs : List Nat) (r : Reg) (k v : Nat)
    (h : r.at k ∈ (cntReg i.strm).at i.stn :: offs) : s.WordFrame (s.setReg r k v) i offs := by
  refine ⟨fun _ _ => rfl, fun q o ho => ?_, fun _ => rfl, rfl⟩
  exact State.regAt_setReg_ne _ _ _ _ _ (fun e => ho (e ▸ h))

theorem State.traceWord_frame (s : State) (i : Issue) (h : BitVec 16) (p : OpPlace) (f : Bool) :
    s.WordFrame (s.traceWord i.stn h p f) i [] ∧ (s.traceWord i.stn h p f).stations = s.stations := by
  unfold State.traceWord
  dsimp only
  split
  · refine ⟨⟨fun _ _ => rfl, fun _ _ _ => rfl, fun d => ?_, rfl⟩, rfl⟩
    rw [State.die_modDie]
    split
    · next e => subst e; rfl
    · rfl
  · exact ⟨.refl _ _ _, rfl⟩

theorem State.brkCount_frame (s : State) (i : Issue) :
    s.WordFrame (s.brkCount i.stn i.strm) i [] ∧ (s.brkCount i.stn i.strm).stations = s.stations := by
  unfold State.brkCount
  split
  · exact ⟨State.WordFrame.setReg _ _ _ _ _ _ (by simp), rfl⟩
  · exact ⟨.refl _ _ _, rfl⟩

/-- A new word that passes its checks moves its stream on, and changes nothing else but its counts and its trace. -/
theorem State.newWord_ok (s : State) (i : Issue) (t : Nat) (h : s.wordFails i t = none) :
    s.WordFrame (s.newWord i t) i [] ∧
      (s.newWord i t).station i.stn = (s.station i.stn).modStream i.strm (fun y => y.advance i.hdr t true) := by
  unfold State.newWord
  rw [h]
  dsimp only
  have h0 := State.WordFrame.modStation s i [] (fun x => x.modStream i.strm (fun y => y.advance i.hdr t true))
  have h1 := State.traceWord_frame (s.modStream i.stn i.strm (fun z => z.advance i.hdr t true)) i i.hdr
    ((s.stream i.stn i.strm).place i.strm t) false
  have h2 := State.brkCount_frame ((s.modStream i.stn i.strm (fun z => z.advance i.hdr t true)).traceWord i.stn i.hdr
    ((s.stream i.stn i.strm).place i.strm t) false) i
  refine ⟨(h0.trans h1.1).trans h2.1, ?_⟩
  rw [State.station_congr h2.2, State.station_congr h1.2]
  simp [State.modStream]

/-- A slot that acts: the command is the op of the slot on the state in which its word has issued. -/
theorem State.issue_opens (s : State) (i : Issue) (sl : Slot) (t : Nat) (eff : OpPlace → State → State)
    (h : s.opens i sl t = true) :
    ∃ u, s.issue i sl eff = eff (s.placeOf i t) u ∧ u.station i.stn = (s.station i.stn).opened i sl t ∧ s.WordFrame u i [] := by
  simp only [State.opens, Bool.and_eq_true, decide_eq_true_eq] at h
  obtain ⟨⟨⟨h1, h2⟩, h3⟩, h4⟩ := h
  simp only [State.issue, h1, h2, if_true]
  by_cases hs : (s.stream i.stn i.strm).sameWord i.hdr t = true
  · obtain ⟨w, hw, ht, hh⟩ := (StreamSt.sameWord_iff _ _ _).1 hs
    simp only [hs, if_true, StreamSt.slotLeft, hw, Bool.and_eq_true, Bool.not_eq_true', List.contains_eq_mem, decide_eq_false_iff_not] at h4
    have ho : s.openWord i t = s := by simp [State.openWord, State.wordOpens, hs]
    have hp : s.slotOpen i sl t = some (s.placeOf i t) := by
      simp [State.slotOpen, State.placeOf, hw, ht, hh, h2, h4, hs]
    rw [ho, hp]
    refine ⟨_, by rw [h3]; rfl, ?_, State.WordFrame.modStation _ _ _ _⟩
    simp [Station.opened, StreamSt.opened, Station.modStream]
    simp only [State.stream] at hs
    simp [hs]
  · simp only [hs, Bool.false_eq_true, if_false, Bool.and_eq_true, decide_eq_true_eq] at h4
    have hn := State.newWord_ok s i t h4.2
    have ho : s.openWord i t = s.newWord i t := by
      simp only [State.openWord, h4.1, if_true]
    have hy : (s.newWord i t).stream i.stn i.strm = (s.stream i.stn i.strm).advance i.hdr t true := by
      simp only [State.stream, hn.2, Station.modStream, Station.stream_setStream]
    have hp : (s.newWord i t).slotOpen i sl t = some (s.placeOf i t) := by
      have hq : s.placeOf i t = (s.stream i.stn i.strm).place i.strm t := by
        unfold State.placeOf
        simp only [hs]
        split <;> rfl
      rw [hq]
      simp [State.slotOpen, hy, StreamSt.advance, StreamSt.place, h2]
    rw [ho, hp]
    refine ⟨_, by rw [h3]; rfl, ?_, hn.1.trans (State.WordFrame.modStation _ _ _ _)⟩
    simp only [State.station_modStation_self, hn.2, Station.opened, StreamSt.opened, Station.modStream,
      Station.stream_setStream]
    simp only [State.stream] at hs
    simp only [hs]
    cases i.strm <;> rfl

/-- A station that is not live issues nothing. -/
theorem State.issue_dead (s : State) (i : Issue) (sl : Slot) (eff : OpPlace → State → State) (h : s.issueTick i.stn = none) :
    s.issue i sl eff = s := by simp [State.issue, h]

/-! ### What the op of a slot finds -/

@[simp] theorem State.placeOf_tick (s : State) (i : Issue) (t : Nat) : (s.placeOf i t).tick = t := by
  unfold State.placeOf
  dsimp only
  split <;> (try split) <;> rfl

@[simp] theorem State.placeOf_strm (s : State) (i : Issue) (t : Nat) : (s.placeOf i t).strm = i.strm := by
  unfold State.placeOf
  dsimp only
  split <;> (try split) <;> rfl

/-- Issuing a word leaves the registers, waits, banks and tags of its stream alone. -/
theorem StreamSt.opened_frame (y : StreamSt) (h : BitVec 16) (sl : Slot) (t : Nat) :
    (y.opened h sl t).bank = y.bank ∧ (y.opened h sl t).s = y.s ∧ (y.opened h sl t).nacc = y.nacc ∧ (y.opened h sl t).ltag = y.ltag
      ∧ (y.opened h sl t).lens = y.lens ∧ (y.opened h sl t).swap = y.swap ∧ (y.opened h sl t).wait = y.wait
      ∧ (y.opened h sl t).rom = y.rom ∧ (y.opened h sl t).rets = y.rets := by
  unfold StreamSt.opened
  split <;> exact ⟨rfl, rfl, rfl, rfl, rfl, rfl, rfl, rfl, rfl⟩

/-- Issuing a word changes no part of a station but its stream. -/
theorem Station.opened_frame (x : Station) (i : Issue) (sl : Slot) (t : Nat) :
    x.opened i sl t = { x with f := (x.opened i sl t).f, b := (x.opened i sl t).b, u := (x.opened i sl t).u } := by
  unfold Station.opened Station.modStream
  cases i.strm <;> rfl

theorem Station.opened_stream (x : Station) (i : Issue) (sl : Slot) (t : Nat) :
    (x.opened i sl t).stream i.strm = (x.stream i.strm).opened i.hdr sl t := by
  simp [Station.opened, Station.modStream]

theorem State.WordFrame.reg {s u : State} {i : Issue} {offs : List Nat} (f : s.WordFrame u i offs) {r : Reg} {k : Nat}
    (hk : k < r.info.count) (h1 : r ≠ cntReg i.strm) (h3 : r.at k ∉ offs) : u.reg r k = s.reg r k := by
  have hc : (i.stn : Nat) < (cntReg i.strm).info.count := by have := i.stn.isLt; cases i.strm <;> simp [cntReg, Reg.info]
  refine f.regs r _ ?_
  simp only [List.mem_cons, not_or]
  refine ⟨?_, h3⟩
  simpa using Reg.at_ne (a := 0) (b := 0) h1 hk hc (by split <;> decide) (by split <;> decide)

end Sys2Proof.Machine
end

