-- ==== Sys2Proof/Laws/Keeps.lean ====
section
/-! SUPPORT. What each operation and each command's effect does to the two things an invariant of the whole machine rests on:
the fuses, which nothing writes (`_fuses`), and the form of the stacks' memory (`_mem` where it is untouched, `_wf` where the
canonical form is kept). -/

namespace Sys2Proof.Machine

theorem foldl_fuses {α : Type} {f : State → α → State} (h : ∀ s a, (f s a).fuses = s.fuses) (l : List α) (s : State) :
    (l.foldl f s).fuses = s.fuses := by
  induction l generalizing s with
  | nil => rfl
  | cons a l ih => simp only [List.foldl_cons]; rw [ih, h]

theorem foldl_mem {α : Type} {f : State → α → State} (h : ∀ s a, (f s a).stackMem = s.stackMem) (l : List α) (s : State) :
    (l.foldl f s).stackMem = s.stackMem := by
  induction l generalizing s with
  | nil => rfl
  | cons a l ih => simp only [List.foldl_cons]; rw [ih, h]

theorem foldl_wf {α : Type} {f : State → α → State} (h : ∀ s a, s.stackMem.wf = true → (f s a).stackMem.wf = true) (l : List α)
    (s : State) (w : s.stackMem.wf = true) : (l.foldl f s).stackMem.wf = true := by
  induction l generalizing s with
  | nil => exact w
  | cons a l ih => exact ih _ (h _ _ w)

theorem ite_fuses {c : Prop} [Decidable c] {a b : State} : (if c then a else b).fuses = if c then a.fuses else b.fuses := apply_ite _ _ _ _

theorem ite_fuses_eq {c : Prop} [Decidable c] {a b : State} {f : Fuses} (h : a.fuses = f) (g : b.fuses = f) :
    (if c then a else b).fuses = f := by split <;> assumption

theorem ite_mem {c : Prop} [Decidable c] {a b : State} : (if c then a else b).stackMem = if c then a.stackMem else b.stackMem :=
  apply_ite _ _ _ _

theorem ite_wf {c : Prop} [Decidable c] {a b : State} (h : a.stackMem.wf = true) (g : b.stackMem.wf = true) :
    (if c then a else b).stackMem.wf = true := by split <;> assumption

@[simp] theorem State.withPending_fuses (s : State) (q : List Instr) :
    (State.withPending s q).fuses = s.fuses := by
  unfold State.withPending
  simp

@[simp] theorem State.withPending_mem (s : State) (q : List Instr) :
    (State.withPending s q).stackMem = s.stackMem := by
  unfold State.withPending
  simp

@[simp] theorem State.emit_fuses (s : State) (o : Out) :
    (State.emit s o).fuses = s.fuses := by
  unfold State.emit
  simp

@[simp] theorem State.emit_mem (s : State) (o : Out) :
    (State.emit s o).stackMem = s.stackMem := by
  unfold State.emit
  simp

@[simp] theorem State.onlyIf_fuses (s : State) (c : Bool) (f : State → State) (hff : ∀ u0, (f u0).fuses = u0.fuses) :
    (State.onlyIf s c f).fuses = s.fuses := by
  unfold State.onlyIf
  simp [ite_fuses, hff]

@[simp] theorem State.onlyIf_wf (s : State) (c : Bool) (f : State → State) (hwf : ∀ u0, u0.stackMem.wf = true → (f u0).stackMem.wf = true) (hw0 : s.stackMem.wf = true) :
    (State.onlyIf s c f).stackMem.wf = true := by
  unfold State.onlyIf
  simp [hw0, ite_wf, hwf]

@[simp] theorem State.onlyIf_mem (s : State) (c : Bool) (f : State → State) (hmf : ∀ u0, (f u0).stackMem = u0.stackMem) :
    (State.onlyIf s c f).stackMem = s.stackMem := by
  unfold State.onlyIf
  simp [ite_mem, hmf]

@[simp] theorem State.fresh_fuses (s : State) :
    (State.fresh s).fuses = s.fuses := by
  unfold State.fresh
  simp

@[simp] theorem State.fresh_mem (s : State) :
    (State.fresh s).stackMem = s.stackMem := by
  unfold State.fresh
  simp

@[simp] theorem State.setStation_fuses (s : State) (i : Nat) (x : Station) :
    (State.setStation s i x).fuses = s.fuses := by
  unfold State.setStation
  simp

@[simp] theorem State.setStation_mem (s : State) (i : Nat) (x : Station) :
    (State.setStation s i x).stackMem = s.stackMem := by
  unfold State.setStation
  simp

@[simp] theorem State.modStation_fuses (s : State) (i : Nat) (f : Station → Station) :
    (State.modStation s i f).fuses = s.fuses := by
  unfold State.modStation
  simp

@[simp] theorem State.modStation_mem (s : State) (i : Nat) (f : Station → Station) :
    (State.modStation s i f).stackMem = s.stackMem := by
  unfold State.modStation
  simp

@[simp] theorem State.setDie_fuses (s : State) (d : Nat) (x : DieSt) :
    (State.setDie s d x).fuses = s.fuses := by
  unfold State.setDie
  simp

@[simp] theorem State.setDie_mem (s : State) (d : Nat) (x : DieSt) :
    (State.setDie s d x).stackMem = s.stackMem := by
  unfold State.setDie
  simp

@[simp] theorem State.modDie_fuses (s : State) (d : Nat) (f : DieSt → DieSt) :
    (State.modDie s d f).fuses = s.fuses := by
  unfold State.modDie
  simp

@[simp] theorem State.modDie_mem (s : State) (d : Nat) (f : DieSt → DieSt) :
    (State.modDie s d f).stackMem = s.stackMem := by
  unfold State.modDie
  simp

@[simp] theorem State.modStream_fuses (s : State) (i : Nat) (m : Strm) (f : StreamSt → StreamSt) :
    (State.modStream s i m f).fuses = s.fuses := by
  unfold State.modStream
  simp

@[simp] theorem State.modStream_mem (s : State) (i : Nat) (m : Strm) (f : StreamSt → StreamSt) :
    (State.modStream s i m f).stackMem = s.stackMem := by
  unfold State.modStream
  simp

@[simp] theorem State.fwUpd_fuses (s : State) (f : FwSt → FwSt) :
    (State.fwUpd s f).fuses = s.fuses := by
  unfold State.fwUpd
  simp

@[simp] theorem State.fwUpd_mem (s : State) (f : FwSt → FwSt) :
    (State.fwUpd s f).stackMem = s.stackMem := by
  unfold State.fwUpd
  simp

@[simp] theorem State.pwrUpd_fuses (s : State) (f : PwrSt → PwrSt) :
    (State.pwrUpd s f).fuses = s.fuses := by
  unfold State.pwrUpd
  simp

@[simp] theorem State.pwrUpd_mem (s : State) (f : PwrSt → PwrSt) :
    (State.pwrUpd s f).stackMem = s.stackMem := by
  unfold State.pwrUpd
  simp

@[simp] theorem State.setRegAt_fuses (s : State) (r : Reg) (o v : Nat) :
    (State.setRegAt s r o v).fuses = s.fuses := by
  unfold State.setRegAt
  simp

@[simp] theorem State.setRegAt_mem (s : State) (r : Reg) (o v : Nat) :
    (State.setRegAt s r o v).stackMem = s.stackMem := by
  unfold State.setRegAt
  simp

@[simp] theorem State.setReg_fuses (s : State) (r : Reg) (i v : Nat) :
    (State.setReg s r i v).fuses = s.fuses := by
  unfold State.setReg
  simp

@[simp] theorem State.setReg_mem (s : State) (r : Reg) (i v : Nat) :
    (State.setReg s r i v).stackMem = s.stackMem := by
  unfold State.setReg
  simp

@[simp] theorem State.setFld_fuses (s : State) (r : Reg) (i hi lo v : Nat) :
    (State.setFld s r i hi lo v).fuses = s.fuses := by
  unfold State.setFld
  simp

@[simp] theorem State.setFld_mem (s : State) (r : Reg) (i hi lo v : Nat) :
    (State.setFld s r i hi lo v).stackMem = s.stackMem := by
  unfold State.setFld
  simp

@[simp] theorem State.setPair_fuses (s : State) (r : Reg) (i v : Nat) :
    (State.setPair s r i v).fuses = s.fuses := by
  unfold State.setPair
  simp

@[simp] theorem State.setPair_mem (s : State) (r : Reg) (i v : Nat) :
    (State.setPair s r i v).stackMem = s.stackMem := by
  unfold State.setPair
  simp

@[simp] theorem State.addPair_fuses (s : State) (r : Reg) (i n : Nat) :
    (State.addPair s r i n).fuses = s.fuses := by
  unfold State.addPair
  simp

@[simp] theorem State.addPair_mem (s : State) (r : Reg) (i n : Nat) :
    (State.addPair s r i n).stackMem = s.stackMem := by
  unfold State.addPair
  simp

@[simp] theorem State.countFld_fuses (s : State) (r : Reg) (i hi lo n : Nat) :
    (State.countFld s r i hi lo n).fuses = s.fuses := by
  unfold State.countFld
  simp

@[simp] theorem State.countFld_mem (s : State) (r : Reg) (i hi lo n : Nat) :
    (State.countFld s r i hi lo n).stackMem = s.stackMem := by
  unfold State.countFld
  simp

@[simp] theorem State.raiseAs_fuses (s : State) (cls kind i off : Nat) :
    (State.raiseAs s cls kind i off).fuses = s.fuses := by
  unfold State.raiseAs
  simp [ite_fuses]

@[simp] theorem State.raiseAs_mem (s : State) (cls kind i off : Nat) :
    (State.raiseAs s cls kind i off).stackMem = s.stackMem := by
  unfold State.raiseAs
  simp [ite_mem]

@[simp] theorem State.raise_fuses (s : State) (r : Reg) (i : Nat) :
    (State.raise s r i).fuses = s.fuses := by
  unfold State.raise
  (repeat' split) <;> simp

@[simp] theorem State.raise_mem (s : State) (r : Reg) (i : Nat) :
    (State.raise s r i).stackMem = s.stackMem := by
  unfold State.raise
  (repeat' split) <;> simp

@[simp] theorem State.capture_fuses (s : State) (r : Reg) (i v : Nat) :
    (State.capture s r i v).fuses = s.fuses := by
  unfold State.capture
  simp [ite_fuses]

@[simp] theorem State.capture_mem (s : State) (r : Reg) (i v : Nat) :
    (State.capture s r i v).stackMem = s.stackMem := by
  unfold State.capture
  simp [ite_mem]

@[simp] theorem State.cause_fuses (s : State) (d mask : Nat) :
    (State.cause s d mask).fuses = s.fuses := by
  unfold State.cause
  simp

@[simp] theorem State.cause_mem (s : State) (d mask : Nat) :
    (State.cause s d mask).stackMem = s.stackMem := by
  unfold State.cause
  simp

@[simp] theorem State.joinFreeze_fuses (s : State) (d c bit : Nat) :
    (State.joinFreeze s d c bit).fuses = s.fuses := by
  unfold State.joinFreeze
  simp [ite_fuses]

@[simp] theorem State.joinFreeze_mem (s : State) (d c bit : Nat) :
    (State.joinFreeze s d c bit).stackMem = s.stackMem := by
  unfold State.joinFreeze
  simp [ite_mem]

@[simp] theorem State.shutReq_fuses (s : State) (d bit src : Nat) :
    (State.shutReq s d bit src).fuses = s.fuses := by
  unfold State.shutReq
  simp [foldl_fuses, ite_fuses]

@[simp] theorem State.shutReq_mem (s : State) (d bit src : Nat) :
    (State.shutReq s d bit src).stackMem = s.stackMem := by
  unfold State.shutReq
  simp [foldl_mem, ite_mem]

@[simp] theorem State.shutRel_fuses (s : State) (d bit src : Nat) :
    (State.shutRel s d bit src).fuses = s.fuses := by
  unfold State.shutRel
  simp

@[simp] theorem State.shutRel_mem (s : State) (d bit src : Nat) :
    (State.shutRel s d bit src).stackMem = s.stackMem := by
  unfold State.shutRel
  simp

@[simp] theorem State.timedOn_fuses (s : State) (dies : List Nat) (bit tgt : Nat) :
    (State.timedOn s dies bit tgt).fuses = s.fuses := by
  unfold State.timedOn
  simp [foldl_fuses]

@[simp] theorem State.timedOn_mem (s : State) (dies : List Nat) (bit tgt : Nat) :
    (State.timedOn s dies bit tgt).stackMem = s.stackMem := by
  unfold State.timedOn
  simp [foldl_mem]

@[simp] theorem State.timedReq_fuses (s : State) (d bit tgt : Nat) :
    (State.timedReq s d bit tgt).fuses = s.fuses := by
  unfold State.timedReq
  (repeat' split) <;> simp

@[simp] theorem State.timedReq_mem (s : State) (d bit tgt : Nat) :
    (State.timedReq s d bit tgt).stackMem = s.stackMem := by
  unfold State.timedReq
  (repeat' split) <;> simp

@[simp] theorem State.sendFault_fuses (s : State) (d code : Nat) (unit : Bool) (stn : Nat) :
    (State.sendFault s d code unit stn).fuses = s.fuses := by
  unfold State.sendFault
  simp [foldl_fuses]

@[simp] theorem State.sendFault_mem (s : State) (d code : Nat) (unit : Bool) (stn : Nat) :
    (State.sendFault s d code unit stn).stackMem = s.stackMem := by
  unfold State.sendFault
  simp [foldl_mem]

@[simp] theorem State.stopStation_fuses (s : State) (stn : Nat) (r : Run) :
    (State.stopStation s stn r).fuses = s.fuses := by
  unfold State.stopStation
  simp

@[simp] theorem State.stopStation_mem (s : State) (stn : Nat) (r : Run) :
    (State.stopStation s stn r).stackMem = s.stackMem := by
  unfold State.stopStation
  simp

@[simp] theorem State.stopOn_fuses (s : State) (stn t : Nat) :
    (State.stopOn s stn t).fuses = s.fuses := by
  unfold State.stopOn
  simp

@[simp] theorem State.stopOn_mem (s : State) (stn t : Nat) :
    (State.stopOn s stn t).stackMem = s.stackMem := by
  unfold State.stopOn
  simp

@[simp] theorem State.stationFault_fuses (s : State) (stn code : Nat) :
    (State.stationFault s stn code).fuses = s.fuses := by
  unfold State.stationFault
  simp

@[simp] theorem State.stationFault_mem (s : State) (stn code : Nat) :
    (State.stationFault s stn code).stackMem = s.stackMem := by
  unfold State.stationFault
  simp

@[simp] theorem State.traceFault_fuses (s : State) (stn : Nat) (p : OpPlace) :
    (State.traceFault s stn p).fuses = s.fuses := by
  unfold State.traceFault
  simp

@[simp] theorem State.traceFault_mem (s : State) (stn : Nat) (p : OpPlace) :
    (State.traceFault s stn p).stackMem = s.stackMem := by
  unfold State.traceFault
  simp

@[simp] theorem State.captureSeq_fuses (s : State) (stn code cause slot : Nat) (p : OpPlace) :
    (State.captureSeq s stn code cause slot p).fuses = s.fuses := by
  unfold State.captureSeq
  simp [ite_fuses]

@[simp] theorem State.captureSeq_mem (s : State) (stn code cause slot : Nat) (p : OpPlace) :
    (State.captureSeq s stn code cause slot p).stackMem = s.stackMem := by
  unfold State.captureSeq
  simp [ite_mem]

@[simp] theorem State.seqFault_fuses (s : State) (stn code cause slot : Nat) (p : OpPlace) :
    (State.seqFault s stn code cause slot p).fuses = s.fuses := by
  unfold State.seqFault
  simp

@[simp] theorem State.seqFault_mem (s : State) (stn code cause slot : Nat) (p : OpPlace) :
    (State.seqFault s stn code cause slot p).stackMem = s.stackMem := by
  unfold State.seqFault
  simp

@[simp] theorem State.captureLx_fuses (s : State) (stn code : Nat) (m : Strm) (tag tick : Nat) :
    (State.captureLx s stn code m tag tick).fuses = s.fuses := by
  unfold State.captureLx
  simp

@[simp] theorem State.captureLx_mem (s : State) (stn code : Nat) (m : Strm) (tag tick : Nat) :
    (State.captureLx s stn code m tag tick).stackMem = s.stackMem := by
  unfold State.captureLx
  simp

@[simp] theorem State.ringError_fuses (s : State) (d kind seg pos : Nat) :
    (State.ringError s d kind seg pos).fuses = s.fuses := by
  unfold State.ringError
  simp

@[simp] theorem State.ringError_mem (s : State) (d kind seg pos : Nat) :
    (State.ringError s d kind seg pos).stackMem = s.stackMem := by
  unfold State.ringError
  simp

@[simp] theorem State.clockError_fuses (s : State) (d kind seg : Nat) :
    (State.clockError s d kind seg).fuses = s.fuses := by
  unfold State.clockError
  simp [ite_fuses]

@[simp] theorem State.clockError_mem (s : State) (d kind seg : Nat) :
    (State.clockError s d kind seg).stackMem = s.stackMem := by
  unfold State.clockError
  simp [ite_mem]

@[simp] theorem State.setQp_fuses (s : State) (k : Nat) (x : QpSt) :
    (State.setQp s k x).fuses = s.fuses := by
  unfold State.setQp
  simp

@[simp] theorem State.setQp_mem (s : State) (k : Nat) (x : QpSt) :
    (State.setQp s k x).stackMem = s.stackMem := by
  unfold State.setQp
  simp

@[simp] theorem State.setEth_fuses (s : State) (p : Nat) (x : EthSt) :
    (State.setEth s p x).fuses = s.fuses := by
  unfold State.setEth
  simp

@[simp] theorem State.setEth_mem (s : State) (p : Nat) (x : EthSt) :
    (State.setEth s p x).stackMem = s.stackMem := by
  unfold State.setEth
  simp

@[simp] theorem State.qpSilent_fuses (s : State) (k : Nat) :
    (State.qpSilent s k).fuses = s.fuses := by
  unfold State.qpSilent
  simp

@[simp] theorem State.qpSilent_mem (s : State) (k : Nat) :
    (State.qpSilent s k).stackMem = s.stackMem := by
  unfold State.qpSilent
  simp

@[simp] theorem State.qpEnd_fuses (s : State) (k : Nat) :
    (State.qpEnd s k).fuses = s.fuses := by
  unfold State.qpEnd
  simp

@[simp] theorem State.qpEnd_mem (s : State) (k : Nat) :
    (State.qpEnd s k).stackMem = s.stackMem := by
  unfold State.qpEnd
  simp

@[simp] theorem State.qpError_fuses (s : State) (k : Nat) :
    (State.qpError s k).fuses = s.fuses := by
  unfold State.qpError
  simp

@[simp] theorem State.qpError_mem (s : State) (k : Nat) :
    (State.qpError s k).stackMem = s.stackMem := by
  unfold State.qpError
  simp

@[simp] theorem State.qpReset_fuses (s : State) (k : Nat) :
    (State.qpReset s k).fuses = s.fuses := by
  unfold State.qpReset
  simp

@[simp] theorem State.qpReset_mem (s : State) (k : Nat) :
    (State.qpReset s k).stackMem = s.stackMem := by
  unfold State.qpReset
  simp

@[simp] theorem State.ethTx_fuses (s : State) (p : EthPort) (o : Out) :
    (State.ethTx s p o).fuses = s.fuses := by
  unfold State.ethTx
  simp

@[simp] theorem State.ethTx_mem (s : State) (p : EthPort) (o : Out) :
    (State.ethTx s p o).stackMem = s.stackMem := by
  unfold State.ethTx
  simp

@[simp] theorem State.roceTx_fuses (s : State) (p : EthPort) (o : Out) :
    (State.roceTx s p o).fuses = s.fuses := by
  unfold State.roceTx
  simp [ite_fuses]

@[simp] theorem State.roceTx_mem (s : State) (p : EthPort) (o : Out) :
    (State.roceTx s p o).stackMem = s.stackMem := by
  unfold State.roceTx
  simp [ite_mem]

@[simp] theorem State.roceFlush_fuses (s : State) (p : EthPort) :
    (State.roceFlush s p).fuses = s.fuses := by
  unfold State.roceFlush
  simp [foldl_fuses]

@[simp] theorem State.roceFlush_mem (s : State) (p : EthPort) :
    (State.roceFlush s p).stackMem = s.stackMem := by
  unfold State.roceFlush
  simp [foldl_mem]

@[simp] theorem State.mailTx_fuses (s : State) (p : EthPort) (o : Out) :
    (State.mailTx s p o).fuses = s.fuses := by
  unfold State.mailTx
  simp [ite_fuses]

@[simp] theorem State.mailTx_mem (s : State) (p : EthPort) (o : Out) :
    (State.mailTx s p o).stackMem = s.stackMem := by
  unfold State.mailTx
  simp [ite_mem]

@[simp] theorem State.ethErrCap_fuses (s : State) (p kind nak qpn : Nat) :
    (State.ethErrCap s p kind nak qpn).fuses = s.fuses := by
  unfold State.ethErrCap
  simp

@[simp] theorem State.ethErrCap_mem (s : State) (p kind nak qpn : Nat) :
    (State.ethErrCap s p kind nak qpn).stackMem = s.stackMem := by
  unfold State.ethErrCap
  simp

@[simp] theorem State.qpUnsupported_fuses (s : State) (p : EthPort) (k qpn : Nat) :
    (State.qpUnsupported s p k qpn).fuses = s.fuses := by
  unfold State.qpUnsupported
  simp

@[simp] theorem State.qpUnsupported_mem (s : State) (p : EthPort) (k qpn : Nat) :
    (State.qpUnsupported s p k qpn).stackMem = s.stackMem := by
  unfold State.qpUnsupported
  simp

@[simp] theorem State.qpNak_fuses (s : State) (p : EthPort) (k qpn nak : Nat) :
    (State.qpNak s p k qpn nak).fuses = s.fuses := by
  unfold State.qpNak
  simp

@[simp] theorem State.qpNak_mem (s : State) (p : EthPort) (k qpn nak : Nat) :
    (State.qpNak s p k qpn nak).stackMem = s.stackMem := by
  unfold State.qpNak
  simp

@[simp] theorem State.cnpSend_fuses (s : State) (p : EthPort) (k qpn : Nat) :
    (State.cnpSend s p k qpn).fuses = s.fuses := by
  unfold State.cnpSend
  simp [ite_fuses]

@[simp] theorem State.cnpSend_mem (s : State) (p : EthPort) (k qpn : Nat) :
    (State.cnpSend s p k qpn).stackMem = s.stackMem := by
  unfold State.cnpSend
  simp [ite_mem]

@[simp] theorem State.roceIn_fuses (s : State) (p : EthPort) (bytes qpn : Nat) (icrcOk supported ce : Bool) :
    (State.roceIn s p bytes qpn icrcOk supported ce).fuses = s.fuses := by
  unfold State.roceIn
  dsimp only
  (repeat' split) <;> simp_all

@[simp] theorem State.roceIn_mem (s : State) (p : EthPort) (bytes qpn : Nat) (icrcOk supported ce : Bool) :
    (State.roceIn s p bytes qpn icrcOk supported ce).stackMem = s.stackMem := by
  unfold State.roceIn
  dsimp only
  (repeat' split) <;> simp_all

@[simp] theorem State.frameIn_fuses (s : State) (p : EthPort) (f : EthFrame) :
    (State.frameIn s p f).fuses = s.fuses := by
  unfold State.frameIn
  (repeat' split) <;> simp

@[simp] theorem State.frameIn_mem (s : State) (p : EthPort) (f : EthFrame) :
    (State.frameIn s p f).stackMem = s.stackMem := by
  unfold State.frameIn
  (repeat' split) <;> simp

@[simp] theorem State.pfcRelease_fuses (s : State) (p : EthPort) (n : Nat) :
    (State.pfcRelease s p n).fuses = s.fuses := by
  unfold State.pfcRelease
  simp [ite_fuses]

@[simp] theorem State.pfcRelease_mem (s : State) (p : EthPort) (n : Nat) :
    (State.pfcRelease s p n).stackMem = s.stackMem := by
  unfold State.pfcRelease
  simp [ite_mem]

@[simp] theorem State.pauseIn_fuses (s : State) (p : EthPort) (prio : Nat) (hold : Bool) :
    (State.pauseIn s p prio hold).fuses = s.fuses := by
  unfold State.pauseIn
  simp [ite_fuses]

@[simp] theorem State.pauseIn_mem (s : State) (p : EthPort) (prio : Nat) (hold : Bool) :
    (State.pauseIn s p prio hold).stackMem = s.stackMem := by
  unfold State.pauseIn
  simp [ite_mem]

@[simp] theorem State.mailboxIn_fuses (s : State) (p : EthPort) (len : Nat) :
    (State.mailboxIn s p len).fuses = s.fuses := by
  unfold State.mailboxIn
  dsimp only
  (repeat' split) <;> simp_all

@[simp] theorem State.mailboxIn_mem (s : State) (p : EthPort) (len : Nat) :
    (State.mailboxIn s p len).stackMem = s.stackMem := by
  unfold State.mailboxIn
  dsimp only
  (repeat' split) <;> simp_all

@[simp] theorem State.rnrRetry_fuses (s : State) (p : EthPort) (acked : Nat) :
    (State.rnrRetry s p acked).fuses = s.fuses := by
  unfold State.rnrRetry
  split
  · rfl
  · exact (foldl_fuses (fun u a => State.roceTx_fuses _ _ _) _ _).trans (State.setEth_fuses _ _ _)

@[simp] theorem State.rnrRetry_mem (s : State) (p : EthPort) (acked : Nat) :
    (State.rnrRetry s p acked).stackMem = s.stackMem := by
  unfold State.rnrRetry
  split
  · rfl
  · exact (foldl_mem (fun u a => State.roceTx_mem _ _ _) _ _).trans (State.setEth_mem _ _ _)

@[simp] theorem State.cmReq_fuses (s : State) (p : EthPort) (qpn dest psn : BitVec 24) (pmtu reads : Nat) :
    (State.cmReq s p qpn dest psn pmtu reads).fuses = s.fuses := by
  unfold State.cmReq
  dsimp only
  (repeat' split) <;> simp_all

@[simp] theorem State.cmReq_mem (s : State) (p : EthPort) (qpn dest psn : BitVec 24) (pmtu reads : Nat) :
    (State.cmReq s p qpn dest psn pmtu reads).stackMem = s.stackMem := by
  unfold State.cmReq
  dsimp only
  (repeat' split) <;> simp_all

@[simp] theorem State.cmRtu_fuses (s : State) (p : EthPort) (qpn : Nat) :
    (State.cmRtu s p qpn).fuses = s.fuses := by
  unfold State.cmRtu
  dsimp only
  (repeat' split) <;> simp_all

@[simp] theorem State.cmRtu_mem (s : State) (p : EthPort) (qpn : Nat) :
    (State.cmRtu s p qpn).stackMem = s.stackMem := by
  unfold State.cmRtu
  dsimp only
  (repeat' split) <;> simp_all

@[simp] theorem State.cmDreq_fuses (s : State) (p : EthPort) (qpn : BitVec 24) :
    (State.cmDreq s p qpn).fuses = s.fuses := by
  unfold State.cmDreq
  (repeat' split) <;> simp

@[simp] theorem State.cmDreq_mem (s : State) (p : EthPort) (qpn : BitVec 24) :
    (State.cmDreq s p qpn).stackMem = s.stackMem := by
  unfold State.cmDreq
  (repeat' split) <;> simp

@[simp] theorem State.cnpIn_fuses (s : State) (p : EthPort) (qpn : Nat) :
    (State.cnpIn s p qpn).fuses = s.fuses := by
  unfold State.cnpIn
  dsimp only
  (repeat' split) <;> simp_all

@[simp] theorem State.cnpIn_mem (s : State) (p : EthPort) (qpn : Nat) :
    (State.cnpIn s p qpn).stackMem = s.stackMem := by
  unfold State.cnpIn
  dsimp only
  (repeat' split) <;> simp_all

@[simp] theorem State.cnpUp_fuses (s : State) (p : EthPort) (qpn : Nat) :
    (State.cnpUp s p qpn).fuses = s.fuses := by
  unfold State.cnpUp
  (repeat' split) <;> simp

@[simp] theorem State.cnpUp_mem (s : State) (p : EthPort) (qpn : Nat) :
    (State.cnpUp s p qpn).stackMem = s.stackMem := by
  unfold State.cnpUp
  (repeat' split) <;> simp

@[simp] theorem State.ethDown_fuses (s : State) (p : EthPort) :
    (State.ethDown s p).fuses = s.fuses := by
  unfold State.ethDown
  simp [foldl_fuses, ite_fuses]

@[simp] theorem State.ethDown_mem (s : State) (p : EthPort) :
    (State.ethDown s p).stackMem = s.stackMem := by
  unfold State.ethDown
  simp [foldl_mem, ite_mem]

@[simp] theorem State.ethDisable_fuses (s : State) (p : Nat) :
    (State.ethDisable s p).fuses = s.fuses := by
  unfold State.ethDisable
  simp [foldl_fuses]

@[simp] theorem State.ethDisable_mem (s : State) (p : Nat) :
    (State.ethDisable s p).stackMem = s.stackMem := by
  unfold State.ethDisable
  simp [foldl_mem]

@[simp] theorem State.ethClear_fuses (s : State) (p : Nat) :
    (State.ethClear s p).fuses = s.fuses := by
  unfold State.ethClear
  simp

@[simp] theorem State.ethClear_mem (s : State) (p : Nat) :
    (State.ethClear s p).stackMem = s.stackMem := by
  unfold State.ethClear
  simp

@[simp] theorem State.mail_fuses (s : State) (o : Out) :
    (State.mail s o).fuses = s.fuses := by
  unfold State.mail
  (repeat' split) <;> simp

@[simp] theorem State.mail_mem (s : State) (o : Out) :
    (State.mail s o).stackMem = s.stackMem := by
  unfold State.mail
  (repeat' split) <;> simp

@[simp] theorem State.toHost_fuses (s : State) (o : Out) :
    (State.toHost s o).fuses = s.fuses := by
  unfold State.toHost
  simp [ite_fuses]

@[simp] theorem State.toHost_mem (s : State) (o : Out) :
    (State.toHost s o).stackMem = s.stackMem := by
  unfold State.toHost
  simp [ite_mem]

@[simp] theorem State.event_fuses (s : State) (code : Nat) (load : List Nat) :
    (State.event s code load).fuses = s.fuses := by
  unfold State.event
  simp

@[simp] theorem State.event_mem (s : State) (code : Nat) (load : List Nat) :
    (State.event s code load).stackMem = s.stackMem := by
  unfold State.event
  simp

@[simp] theorem State.activityDone_fuses (s : State) (seq : Word) (fp status : Nat) (more : List Nat) :
    (State.activityDone s seq fp status more).fuses = s.fuses := by
  unfold State.activityDone
  simp

@[simp] theorem State.activityDone_mem (s : State) (seq : Word) (fp status : Nat) (more : List Nat) :
    (State.activityDone s seq fp status more).stackMem = s.stackMem := by
  unfold State.activityDone
  simp

@[simp] theorem State.capClear_fuses (s : State) (o : Nat) :
    (State.capClear s o).fuses = s.fuses := by
  unfold State.capClear
  (repeat' split) <;> simp

@[simp] theorem State.capClear_mem (s : State) (o : Nat) :
    (State.capClear s o).stackMem = s.stackMem := by
  unfold State.capClear
  (repeat' split) <;> simp

@[simp] theorem State.record_fuses (s : State) (r : Report) :
    (State.record s r).fuses = s.fuses := by
  unfold State.record
  simp

@[simp] theorem State.record_mem (s : State) (r : Report) :
    (State.record s r).stackMem = s.stackMem := by
  unfold State.record
  simp

@[simp] theorem State.reportIn_fuses (s : State) (r : Report) :
    (State.reportIn s r).fuses = s.fuses := by
  unfold State.reportIn
  simp [ite_fuses]

@[simp] theorem State.reportIn_mem (s : State) (r : Report) :
    (State.reportIn s r).stackMem = s.stackMem := by
  unfold State.reportIn
  simp [ite_mem]

@[simp] theorem State.report_fuses (s : State) (cls sev : Nat) (u : UnitRef) (cap0 cap1 : Nat) :
    (State.report s cls sev u cap0 cap1).fuses = s.fuses := by
  unfold State.report
  simp

@[simp] theorem State.report_mem (s : State) (cls sev : Nat) (u : UnitRef) (cap0 cap1 : Nat) :
    (State.report s cls sev u cap0 cap1).stackMem = s.stackMem := by
  unfold State.report
  simp

@[simp] theorem State.flushReports_fuses (s : State) :
    (State.flushReports s).fuses = s.fuses := by
  unfold State.flushReports
  simp [foldl_fuses]

@[simp] theorem State.flushReports_mem (s : State) :
    (State.flushReports s).stackMem = s.stackMem := by
  unfold State.flushReports
  simp [foldl_mem]

@[simp] theorem State.alert_fuses (s : State) (bit : Nat) :
    (State.alert s bit).fuses = s.fuses := by
  unfold State.alert
  simp [ite_fuses]

@[simp] theorem State.alert_mem (s : State) (bit : Nat) :
    (State.alert s bit).stackMem = s.stackMem := by
  unfold State.alert
  simp [ite_mem]

@[simp] theorem State.traceWord_fuses (s : State) (stn : Nat) (h : BitVec 16) (p : OpPlace) (fault : Bool) :
    (State.traceWord s stn h p fault).fuses = s.fuses := by
  unfold State.traceWord
  simp [ite_fuses]

@[simp] theorem State.traceWord_mem (s : State) (stn : Nat) (h : BitVec 16) (p : OpPlace) (fault : Bool) :
    (State.traceWord s stn h p fault).stackMem = s.stackMem := by
  unfold State.traceWord
  simp [ite_mem]

@[simp] theorem State.brkCount_fuses (s : State) (stn : Nat) (m : Strm) :
    (State.brkCount s stn m).fuses = s.fuses := by
  unfold State.brkCount
  (repeat' split) <;> simp

@[simp] theorem State.brkCount_mem (s : State) (stn : Nat) (m : Strm) :
    (State.brkCount s stn m).stackMem = s.stackMem := by
  unfold State.brkCount
  (repeat' split) <;> simp

@[simp] theorem State.setHit_fuses (s : State) (stn : Nat) (m : Strm) :
    (State.setHit s stn m).fuses = s.fuses := by
  unfold State.setHit
  simp

@[simp] theorem State.setHit_mem (s : State) (stn : Nat) (m : Strm) :
    (State.setHit s stn m).stackMem = s.stackMem := by
  unfold State.setHit
  simp

@[simp] theorem State.memCorrected_fuses (s : State) (stn : Nat) :
    (State.memCorrected s stn).fuses = s.fuses := by
  unfold State.memCorrected
  simp

@[simp] theorem State.memCorrected_mem (s : State) (stn : Nat) :
    (State.memCorrected s stn).stackMem = s.stackMem := by
  unfold State.memCorrected
  simp

@[simp] theorem State.captureMem_fuses (s : State) (stn mem addr : Nat) (landing : Bool) :
    (State.captureMem s stn mem addr landing).fuses = s.fuses := by
  unfold State.captureMem
  simp [ite_fuses]

@[simp] theorem State.captureMem_mem (s : State) (stn mem addr : Nat) (landing : Bool) :
    (State.captureMem s stn mem addr landing).stackMem = s.stackMem := by
  unfold State.captureMem
  simp [ite_mem]

@[simp] theorem State.memFault_fuses (s : State) (stn mem addr : Nat) :
    (State.memFault s stn mem addr).fuses = s.fuses := by
  unfold State.memFault
  simp

@[simp] theorem State.memFault_mem (s : State) (stn mem addr : Nat) :
    (State.memFault s stn mem addr).stackMem = s.stackMem := by
  unfold State.memFault
  simp

@[simp] theorem State.suppress_fuses (s : State) (i : Issue) (t code cause slot : Nat) :
    (State.suppress s i t code cause slot).fuses = s.fuses := by
  unfold State.suppress
  simp

@[simp] theorem State.suppress_mem (s : State) (i : Issue) (t code cause slot : Nat) :
    (State.suppress s i t code cause slot).stackMem = s.stackMem := by
  unfold State.suppress
  simp

@[simp] theorem State.newWord_fuses (s : State) (i : Issue) (t : Nat) :
    (State.newWord s i t).fuses = s.fuses := by
  unfold State.newWord
  (repeat' split) <;> simp_all

@[simp] theorem State.newWord_mem (s : State) (i : Issue) (t : Nat) :
    (State.newWord s i t).stackMem = s.stackMem := by
  unfold State.newWord
  (repeat' split) <;> simp_all

@[simp] theorem State.openWord_fuses (s : State) (i : Issue) (t : Nat) :
    (State.openWord s i t).fuses = s.fuses := by
  unfold State.openWord
  simp [ite_fuses]

@[simp] theorem State.openWord_mem (s : State) (i : Issue) (t : Nat) :
    (State.openWord s i t).stackMem = s.stackMem := by
  unfold State.openWord
  simp [ite_mem]

@[simp] theorem State.withEcc_fuses (s : State) (stn : Nat) (e : Ecc) (eff : State → State) (hfeff : ∀ u0, (eff u0).fuses = u0.fuses) :
    (State.withEcc s stn e eff).fuses = s.fuses := by
  unfold State.withEcc
  (repeat' split) <;> simp_all

@[simp] theorem State.withEcc_wf (s : State) (stn : Nat) (e : Ecc) (eff : State → State) (hweff : ∀ u0, u0.stackMem.wf = true → (eff u0).stackMem.wf = true) (hw0 : s.stackMem.wf = true) :
    (State.withEcc s stn e eff).stackMem.wf = true := by
  unfold State.withEcc
  (repeat' split) <;> simp_all

@[simp] theorem State.withEcc_mem (s : State) (stn : Nat) (e : Ecc) (eff : State → State) (hmeff : ∀ u0, (eff u0).stackMem = u0.stackMem) :
    (State.withEcc s stn e eff).stackMem = s.stackMem := by
  unfold State.withEcc
  (repeat' split) <;> simp_all

@[simp] theorem State.issue_fuses (s : State) (i : Issue) (sl : Slot) (eff : OpPlace → State → State) (hfeff : ∀ u0 u1, (eff u0 u1).fuses = u1.fuses) :
    (State.issue s i sl eff).fuses = s.fuses := by
  unfold State.issue
  split
  · simp
  · split
    · dsimp only
      split <;> simp_all [State.withEcc]
      split <;> simp_all
    · simp

@[simp] theorem State.issue_wf (s : State) (i : Issue) (sl : Slot) (eff : OpPlace → State → State) (hweff : ∀ u0 u1, u1.stackMem.wf = true → (eff u0 u1).stackMem.wf = true) (hw0 : s.stackMem.wf = true) :
    (State.issue s i sl eff).stackMem.wf = true := by
  unfold State.issue
  split
  · simp [hw0]
  · split
    · dsimp only
      split <;> simp_all [State.withEcc]
      split <;> simp_all
    · simp [hw0]

@[simp] theorem State.issue_mem (s : State) (i : Issue) (sl : Slot) (eff : OpPlace → State → State) (hmeff : ∀ u0 u1, (eff u0 u1).stackMem = u1.stackMem) :
    (State.issue s i sl eff).stackMem = s.stackMem := by
  unfold State.issue
  split
  · simp
  · split
    · dsimp only
      split <;> simp_all [State.withEcc]
      split <;> simp_all
    · simp

@[simp] theorem State.setFlags_fuses (s : State) (stn : Nat) (m : Strm) (code : Nat) :
    (State.setFlags s stn m code).fuses = s.fuses := by
  unfold State.setFlags
  (repeat' split) <;> simp

@[simp] theorem State.setFlags_mem (s : State) (stn : Nat) (m : Strm) (code : Nat) :
    (State.setFlags s stn m code).stackMem = s.stackMem := by
  unfold State.setFlags
  (repeat' split) <;> simp

@[simp] theorem State.lensTake_fuses (s : State) (stn : Nat) (l : LensSrc) (f : LensRec → LensRec) :
    (State.lensTake s stn l f).fuses = s.fuses := by
  unfold State.lensTake
  (repeat' split) <;> simp

@[simp] theorem State.lensTake_mem (s : State) (stn : Nat) (l : LensSrc) (f : LensRec → LensRec) :
    (State.lensTake s stn l f).stackMem = s.stackMem := by
  unfold State.lensTake
  (repeat' split) <;> simp

@[simp] theorem State.stackWr_fuses (s : State) (n a : Nat) (v : Byte) :
    (State.stackWr s n a v).fuses = s.fuses := by
  unfold State.stackWr
  (repeat' split) <;> simp

@[simp] theorem State.stackWr_wf (s : State) (n a : Nat) (v : Byte) (hw0 : s.stackMem.wf = true) :
    (State.stackWr s n a v).stackMem.wf = true := Memory.wf_wr _ _ _ hw0

@[simp] theorem State.stackWrN_fuses (s : State) (n a : Nat) (z0 : List Byte) :
    (State.stackWrN s n a z0).fuses = s.fuses := by
  induction z0 generalizing s a with
  | nil => simp [State.stackWrN]
  | cons b bs ih => simp only [State.stackWrN]; rw [ih]; simp

@[simp] theorem State.stackWrN_wf (s : State) (n a : Nat) (z0 : List Byte) (hw0 : s.stackMem.wf = true) :
    (State.stackWrN s n a z0).stackMem.wf = true := by
  induction z0 generalizing s a with
  | nil => exact hw0
  | cons b bs ih => exact ih _ _ (State.stackWr_wf _ _ _ _ hw0)

@[simp] theorem State.msErrorAt_fuses (s : State) (n kind ch page : Nat) :
    (State.msErrorAt s n kind ch page).fuses = s.fuses := by
  unfold State.msErrorAt
  simp [ite_fuses]

@[simp] theorem State.msErrorAt_mem (s : State) (n kind ch page : Nat) :
    (State.msErrorAt s n kind ch page).stackMem = s.stackMem := by
  unfold State.msErrorAt
  simp [ite_mem]

@[simp] theorem State.msError_fuses (s : State) (n kind a : Nat) :
    (State.msError s n kind a).fuses = s.fuses := by
  unfold State.msError
  (repeat' split) <;> simp

@[simp] theorem State.msError_mem (s : State) (n kind a : Nat) :
    (State.msError s n kind a).stackMem = s.stackMem := by
  unfold State.msError
  (repeat' split) <;> simp

@[simp] theorem State.xfer_fuses (s : State) (n a kind fails : Nat) (e : Ecc) :
    (State.xfer s n a kind fails e).fuses = s.fuses := by
  unfold State.xfer
  (repeat' split) <;> simp

@[simp] theorem State.xfer_mem (s : State) (n a kind fails : Nat) (e : Ecc) :
    (State.xfer s n a kind fails e).stackMem = s.stackMem := by
  unfold State.xfer
  (repeat' split) <;> simp

@[simp] theorem State.xfers_fuses (s : State) (xs : List XferAt) (wr : Bool) (off len : Nat) :
    (State.xfers s xs wr off len).fuses = s.fuses := by
  unfold State.xfers
  simp [foldl_fuses]

@[simp] theorem State.xfers_mem (s : State) (xs : List XferAt) (wr : Bool) (off len : Nat) :
    (State.xfers s xs wr off len).stackMem = s.stackMem := by
  unfold State.xfers
  simp [foldl_mem]

@[simp] theorem State.copyPage_fuses (s : State) (p : Nat) (xs : List XferAt) :
    (State.copyPage s p xs).fuses = s.fuses := by
  unfold State.copyPage
  (repeat' split) <;> simp

@[simp] theorem State.copyPage_mem (s : State) (p : Nat) (xs : List XferAt) :
    (State.copyPage s p xs).stackMem = s.stackMem := by
  unfold State.copyPage
  (repeat' split) <;> simp

@[simp] theorem State.reservePut_fuses (s : State) (p : Nat) :
    (State.reservePut s p).fuses = s.fuses := by
  unfold State.reservePut
  simp [ite_fuses]

@[simp] theorem State.reservePut_wf (s : State) (p : Nat) (hw0 : s.stackMem.wf = true) :
    (State.reservePut s p).stackMem.wf = true := by
  unfold State.reservePut
  simp [hw0, ite_wf]

@[simp] theorem State.copyFirst_fuses (s : State) (n a len : Nat) (xs : List XferAt) :
    (State.copyFirst s n a len xs).fuses = s.fuses := foldl_fuses (fun u a => by simp) _ _

@[simp] theorem State.copyFirst_wf (s : State) (n a len : Nat) (xs : List XferAt) (hw0 : s.stackMem.wf = true) :
    (State.copyFirst s n a len xs).stackMem.wf = true := foldl_wf (fun u a h => by simp [h]) _ _ hw0

@[simp] theorem State.stackWrBut_fuses (s : State) (lost : List Nat) (off : Nat) (z0 : List Byte) :
    (State.stackWrBut s lost off z0).fuses = s.fuses := by
  induction z0 generalizing s off with
  | nil => rfl
  | cons b bs ih =>
    unfold State.stackWrBut
    rw [ih]
    split <;> simp

@[simp] theorem State.stackWrBut_wf (s : State) (lost : List Nat) (off : Nat) (z0 : List Byte) (hw0 : s.stackMem.wf = true) :
    (State.stackWrBut s lost off z0).stackMem.wf = true := by
  induction z0 generalizing s off with
  | nil => exact hw0
  | cons b bs ih =>
    unfold State.stackWrBut
    apply ih
    split <;> simp [hw0]

@[simp] theorem State.stackPut_fuses (s : State) (n a : Nat) (bs : List Byte) (xs : List XferAt) :
    (State.stackPut s n a bs xs).fuses = s.fuses := by
  unfold State.stackPut
  simp

@[simp] theorem State.stackPut_wf (s : State) (n a : Nat) (bs : List Byte) (xs : List XferAt) (hw0 : s.stackMem.wf = true) :
    (State.stackPut s n a bs xs).stackMem.wf = true := by
  unfold State.stackPut
  simp [hw0]

@[simp] theorem State.entWrite_fuses (s : State) (stn n row : Nat) (bs : List Byte) :
    (State.entWrite s stn n row bs).fuses = s.fuses := by
  unfold State.entWrite
  (repeat' split) <;> simp

@[simp] theorem State.entWrite_mem (s : State) (stn n row : Nat) (bs : List Byte) :
    (State.entWrite s stn n row bs).stackMem = s.stackMem := by
  unfold State.entWrite
  (repeat' split) <;> simp

@[simp] theorem State.postRec_fuses (s : State) (stn : Nat) (m : Strm) (tag : BitVec 12) (r : LensRec) :
    (State.postRec s stn m tag r).fuses = s.fuses := by
  unfold State.postRec
  simp

@[simp] theorem State.postRec_mem (s : State) (stn : Nat) (m : Strm) (tag : BitVec 12) (r : LensRec) :
    (State.postRec s stn m tag r).stackMem = s.stackMem := by
  unfold State.postRec
  simp

@[simp] theorem State.lensPost_fuses (s : State) (stn : Nat) (m : Strm) :
    (State.lensPost s stn m).fuses = s.fuses := by
  unfold State.lensPost
  simp

@[simp] theorem State.lensPost_mem (s : State) (stn : Nat) (m : Strm) :
    (State.lensPost s stn m).stackMem = s.stackMem := by
  unfold State.lensPost
  simp

@[simp] theorem State.leaveTag_fuses (s : State) (stn : Nat) (m : Strm) :
    (State.leaveTag s stn m).fuses = s.fuses := by
  unfold State.leaveTag
  simp [ite_fuses]

@[simp] theorem State.leaveTag_mem (s : State) (stn : Nat) (m : Strm) :
    (State.leaveTag s stn m).stackMem = s.stackMem := by
  unfold State.leaveTag
  simp [ite_mem]

@[simp] theorem State.setPhase_fuses (s : State) (stn : Nat) (m : Strm) (tag : BitVec 12) (lens : Bool) :
    (State.setPhase s stn m tag lens).fuses = s.fuses := by
  unfold State.setPhase
  simp [ite_fuses]

@[simp] theorem State.setPhase_mem (s : State) (stn : Nat) (m : Strm) (tag : BitVec 12) (lens : Bool) :
    (State.setPhase s stn m tag lens).stackMem = s.stackMem := by
  unfold State.setPhase
  simp [ite_mem]

@[simp] theorem State.postOld_fuses (s : State) (stn : Nat) :
    (State.postOld s stn).fuses = s.fuses := by
  unfold State.postOld
  simp [foldl_fuses]

@[simp] theorem State.postOld_mem (s : State) (stn : Nat) :
    (State.postOld s stn).stackMem = s.stackMem := by
  unfold State.postOld
  simp [foldl_mem]

@[simp] theorem State.land_fuses (s : State) (stn : Nat) (z0 : Wr) :
    (State.land s stn z0).fuses = s.fuses := by
  unfold State.land
  (repeat' split) <;> simp

@[simp] theorem State.land_mem (s : State) (stn : Nat) (z0 : Wr) :
    (State.land s stn z0).stackMem = s.stackMem := by
  unfold State.land
  (repeat' split) <;> simp

@[simp] theorem State.landAll_fuses (s : State) (stn : Nat) (ws : List Late) :
    (State.landAll s stn ws).fuses = s.fuses := by
  unfold State.landAll
  simp [foldl_fuses]

@[simp] theorem State.landAll_mem (s : State) (stn : Nat) (ws : List Late) :
    (State.landAll s stn ws).stackMem = s.stackMem := by
  unfold State.landAll
  simp [foldl_mem]

@[simp] theorem State.later_fuses (s : State) (stn due : Nat) (pri : Pri) (w : Wr) :
    (State.later s stn due pri w).fuses = s.fuses := by
  unfold State.later
  simp

@[simp] theorem State.later_mem (s : State) (stn due : Nat) (pri : Pri) (w : Wr) :
    (State.later s stn due pri w).stackMem = s.stackMem := by
  unfold State.later
  simp

@[simp] theorem State.arrive_fuses (s : State) (stn : Nat) (pri : Pri) (w : Wr) :
    (State.arrive s stn pri w).fuses = s.fuses := by
  unfold State.arrive
  (repeat' split) <;> simp

@[simp] theorem State.arrive_mem (s : State) (stn : Nat) (pri : Pri) (w : Wr) :
    (State.arrive s stn pri w).stackMem = s.stackMem := by
  unfold State.arrive
  (repeat' split) <;> simp

@[simp] theorem State.lInc_fuses (s : State) (i : Issue) (o : LOp) (t : Nat) :
    (State.lInc s i o t).fuses = s.fuses := by
  unfold State.lInc
  (repeat' split) <;> simp

@[simp] theorem State.lInc_mem (s : State) (i : Issue) (o : LOp) (t : Nat) :
    (State.lInc s i o t).stackMem = s.stackMem := by
  unfold State.lInc
  (repeat' split) <;> simp

@[simp] theorem State.laters_fuses (s : State) (stn due : Nat) (ws : List (Pri × Wr)) :
    (State.laters s stn due ws).fuses = s.fuses := by
  unfold State.laters
  simp [foldl_fuses]

@[simp] theorem State.laters_mem (s : State) (stn due : Nat) (ws : List (Pri × Wr)) :
    (State.laters s stn due ws).stackMem = s.stackMem := by
  unfold State.laters
  simp [foldl_mem]

@[simp] theorem lldEff_fuses (i : Issue) (o : LOp) (p : OpPlace) (s : State) :
    (lldEff i o p s).fuses = s.fuses := by
  unfold lldEff
  (repeat' split) <;> simp

@[simp] theorem lldEff_mem (i : Issue) (o : LOp) (p : OpPlace) (s : State) :
    (lldEff i o p s).stackMem = s.stackMem := by
  unfold lldEff
  (repeat' split) <;> simp

@[simp] theorem lstEff_fuses (i : Issue) (o : LOp) (p : OpPlace) (s : State) :
    (lstEff i o p s).fuses = s.fuses := by
  unfold lstEff
  (repeat' split) <;> simp

@[simp] theorem lstEff_mem (i : Issue) (o : LOp) (p : OpPlace) (s : State) :
    (lstEff i o p s).stackMem = s.stackMem := by
  unfold lstEff
  (repeat' split) <;> simp

@[simp] theorem State.stashFull_fuses (s : State) (stn : Nat) (p : OpPlace) :
    (State.stashFull s stn p).fuses = s.fuses := by
  unfold State.stashFull
  simp

@[simp] theorem State.stashFull_mem (s : State) (stn : Nat) (p : OpPlace) :
    (State.stashFull s stn p).stackMem = s.stackMem := by
  unfold State.stashFull
  simp

@[simp] theorem lstashEff_fuses (i : Issue) (o : StashOp) (p : OpPlace) (s : State) :
    (lstashEff i o p s).fuses = s.fuses := by
  have h : ∀ u n r, s.allocate i.stn n r = some u → u.fuses = s.fuses := by
    intro u n r hu
    unfold State.allocate at hu
    dsimp only at hu
    (repeat' split at hu) <;> simp_all <;> subst hu <;> simp
  unfold lstashEff
  dsimp only
  split
  · simp
  · split
    · next hu => simp [h _ _ _ hu]
    · simp

@[simp] theorem lstashEff_mem (i : Issue) (o : StashOp) (p : OpPlace) (s : State) :
    (lstashEff i o p s).stackMem = s.stackMem := by
  have h : ∀ u n r, s.allocate i.stn n r = some u → u.stackMem = s.stackMem := by
    intro u n r hu
    unfold State.allocate at hu
    dsimp only at hu
    (repeat' split at hu) <;> simp_all <;> subst hu <;> simp
  unfold lstashEff
  dsimp only
  split
  · simp
  · split
    · next hu => simp [h _ _ _ hu]
    · simp

@[simp] theorem State.entTaken_fuses (s : State) (stn n row : Nat) :
    (State.entTaken s stn n row).fuses = s.fuses := by
  unfold State.entTaken
  simp

@[simp] theorem State.entTaken_mem (s : State) (stn n row : Nat) :
    (State.entTaken s stn n row).stackMem = s.stackMem := by
  unfold State.entTaken
  simp

@[simp] theorem State.unstash_fuses (s : State) (stn : Nat) (o : StashOp) (n t : Nat) :
    (State.unstash s stn o n t).fuses = s.fuses := by
  unfold State.unstash
  dsimp only
  (repeat' split) <;> simp_all

@[simp] theorem State.unstash_mem (s : State) (stn : Nat) (o : StashOp) (n t : Nat) :
    (State.unstash s stn o n t).stackMem = s.stackMem := by
  unfold State.unstash
  dsimp only
  (repeat' split) <;> simp_all

@[simp] theorem lunstEff_fuses (i : Issue) (o : StashOp) (p : OpPlace) (s : State) :
    (lunstEff i o p s).fuses = s.fuses := by
  unfold lunstEff
  dsimp only
  (repeat' split) <;> simp_all

@[simp] theorem lunstEff_mem (i : Issue) (o : StashOp) (p : OpPlace) (s : State) :
    (lunstEff i o p s).stackMem = s.stackMem := by
  unfold lunstEff
  dsimp only
  (repeat' split) <;> simp_all

@[simp] theorem State.startXfer_fuses (s : State) (stn : Nat) :
    (State.startXfer s stn).fuses = s.fuses := by
  unfold State.startXfer
  (repeat' split) <;> simp

@[simp] theorem State.startXfer_mem (s : State) (stn : Nat) :
    (State.startXfer s stn).stackMem = s.stackMem := by
  unfold State.startXfer
  (repeat' split) <;> simp

@[simp] theorem State.staleStop_fuses (s : State) (stn : Nat) :
    (State.staleStop s stn).fuses = s.fuses := by
  unfold State.staleStop
  simp

@[simp] theorem State.staleStop_mem (s : State) (stn : Nat) :
    (State.staleStop s stn).stackMem = s.stackMem := by
  unfold State.staleStop
  simp

@[simp] theorem State.stashBack_fuses (s : State) (stn n sp : Nat) (e : Ecc) (fails : Nat) :
    (State.stashBack s stn n sp e fails).fuses = s.fuses := by
  unfold State.stashBack
  simp [ite_fuses]

@[simp] theorem State.stashBack_mem (s : State) (stn n sp : Nat) (e : Ecc) (fails : Nat) :
    (State.stashBack s stn n sp e fails).stackMem = s.stackMem := by
  unfold State.stashBack
  simp [ite_mem]

@[simp] theorem State.stashOut_fuses (s : State) (stn n sp : Nat) (x : StashEnt) (r : StashEnd) :
    (State.stashOut s stn n sp x r).fuses = s.fuses := by
  unfold State.stashOut
  dsimp only
  split <;> simp

@[simp] theorem State.stashOut_wf (s : State) (stn n sp : Nat) (x : StashEnt) (r : StashEnd) (hw0 : s.stackMem.wf = true) :
    (State.stashOut s stn n sp x r).stackMem.wf = true := by
  unfold State.stashOut
  dsimp only
  split
  · simp [hw0]
  · rw [State.modStation_mem]
    refine State.onlyIf_wf _ _ _ (fun u hu => State.stackPut_wf _ _ _ _ _ hu) ?_
    rw [State.xfer_mem]
    exact State.onlyIf_wf _ _ _ (fun u hu => (congrArg Memory.wf (State.memCorrected_mem u _)).trans hu) hw0

@[simp] theorem State.endXfer_fuses (s : State) (stn : Nat) (w : StashXfer) (r : StashEnd) :
    (State.endXfer s stn w r).fuses = s.fuses := by
  unfold State.endXfer
  dsimp only
  (repeat' split) <;> simp_all

@[simp] theorem State.endXfer_wf (s : State) (stn : Nat) (w : StashXfer) (r : StashEnd) (hw0 : s.stackMem.wf = true) :
    (State.endXfer s stn w r).stackMem.wf = true := by
  unfold State.endXfer
  dsimp only
  (repeat' split) <;> simp_all

@[simp] theorem State.freeUnst_fuses (s : State) (stn : Nat) :
    (State.freeUnst s stn).fuses = s.fuses := by
  unfold State.freeUnst
  dsimp only
  (repeat' split) <;> simp_all [foldl_fuses]

@[simp] theorem State.freeUnst_mem (s : State) (stn : Nat) :
    (State.freeUnst s stn).stackMem = s.stackMem := by
  unfold State.freeUnst
  dsimp only
  (repeat' split) <;> simp_all [foldl_mem]

@[simp] theorem State.stashTick_fuses (s : State) (stn : Nat) :
    (State.stashTick s stn).fuses = s.fuses := by
  unfold State.stashTick
  simp [ite_fuses]

@[simp] theorem State.stashTick_mem (s : State) (stn : Nat) :
    (State.stashTick s stn).stackMem = s.stackMem := by
  unfold State.stashTick
  simp [ite_mem]

@[simp] theorem State.arrayFault_fuses (s : State) (stn code group op : Nat) (p : OpPlace) :
    (State.arrayFault s stn code group op p).fuses = s.fuses := by
  unfold State.arrayFault
  simp

@[simp] theorem State.arrayFault_mem (s : State) (stn code group op : Nat) (p : OpPlace) :
    (State.arrayFault s stn code group op p).stackMem = s.stackMem := by
  unfold State.arrayFault
  simp

@[simp] theorem mldEff_fuses (i : Issue) (o : MldOp) (p : OpPlace) (s : State) :
    (mldEff i o p s).fuses = s.fuses := by
  unfold mldEff
  simp [ite_fuses]

@[simp] theorem mldEff_mem (i : Issue) (o : MldOp) (p : OpPlace) (s : State) :
    (mldEff i o p s).stackMem = s.stackMem := by
  unfold mldEff
  simp [ite_mem]

@[simp] theorem mmaEff_fuses (i : Issue) (o : MmaOp) (p : OpPlace) (s : State) :
    (mmaEff i o p s).fuses = s.fuses := by
  unfold mmaEff
  dsimp only
  (repeat' split) <;> simp_all

@[simp] theorem mmaEff_mem (i : Issue) (o : MmaOp) (p : OpPlace) (s : State) :
    (mmaEff i o p s).stackMem = s.stackMem := by
  unfold mmaEff
  dsimp only
  (repeat' split) <;> simp_all

@[simp] theorem mdrnEff_fuses (i : Issue) (o : MdrnOp) (p : OpPlace) (s : State) :
    (mdrnEff i o p s).fuses = s.fuses := by
  unfold mdrnEff
  dsimp only
  (repeat' split) <;> simp_all

@[simp] theorem mdrnEff_mem (i : Issue) (o : MdrnOp) (p : OpPlace) (s : State) :
    (mdrnEff i o p s).stackMem = s.stackMem := by
  unfold mdrnEff
  dsimp only
  (repeat' split) <;> simp_all

@[simp] theorem mclrEff_fuses (i : Issue) (mask : BitVec 4) (p : OpPlace) (s : State) :
    (mclrEff i mask p s).fuses = s.fuses := by
  unfold mclrEff
  dsimp only
  (repeat' split) <;> simp_all

@[simp] theorem mclrEff_mem (i : Issue) (mask : BitVec 4) (p : OpPlace) (s : State) :
    (mclrEff i mask p s).stackMem = s.stackMem := by
  unfold mclrEff
  dsimp only
  (repeat' split) <;> simp_all

@[simp] theorem State.vIssue_fuses (s : State) (stn occ : Nat) (p : OpPlace) (f : VFlight) :
    (State.vIssue s stn occ p f).fuses = s.fuses := by
  unfold State.vIssue
  simp [ite_fuses]

@[simp] theorem State.vIssue_mem (s : State) (stn occ : Nat) (p : OpPlace) (f : VFlight) :
    (State.vIssue s stn occ p f).stackMem = s.stackMem := by
  unfold State.vIssue
  simp [ite_mem]

@[simp] theorem vEff_fuses (i : Issue) (o : VOp) (k : VKind) (p : OpPlace) (s : State) :
    (vEff i o k p s).fuses = s.fuses := by
  unfold vEff
  simp

@[simp] theorem vEff_mem (i : Issue) (o : VOp) (k : VKind) (p : OpPlace) (s : State) :
    (vEff i o k p s).stackMem = s.stackMem := by
  unfold vEff
  simp

@[simp] theorem State.cvtFault_fuses (s : State) (i : Issue) (o : VcvtOp) (d : Nat) (p : OpPlace) :
    (State.cvtFault s i o d p).fuses = s.fuses := by
  unfold State.cvtFault
  simp

@[simp] theorem State.cvtFault_mem (s : State) (i : Issue) (o : VcvtOp) (d : Nat) (p : OpPlace) :
    (State.cvtFault s i o d p).stackMem = s.stackMem := by
  unfold State.cvtFault
  simp

@[simp] theorem vcvtEff_fuses (i : Issue) (o : VcvtOp) (p : OpPlace) (s : State) :
    (vcvtEff i o p s).fuses = s.fuses := by
  unfold vcvtEff
  dsimp only
  (repeat' split) <;> simp_all

@[simp] theorem vcvtEff_mem (i : Issue) (o : VcvtOp) (p : OpPlace) (s : State) :
    (vcvtEff i o p s).stackMem = s.stackMem := by
  unfold vcvtEff
  dsimp only
  (repeat' split) <;> simp_all

@[simp] theorem State.pipeTick_fuses (s : State) (stn u : Nat) :
    (State.pipeTick s stn u).fuses = s.fuses := by
  unfold State.pipeTick
  simp

@[simp] theorem State.pipeTick_mem (s : State) (stn u : Nat) :
    (State.pipeTick s stn u).stackMem = s.stackMem := by
  unfold State.pipeTick
  simp

@[simp] theorem State.pipeOut_fuses (s : State) (stn : Nat) :
    (State.pipeOut s stn).fuses = s.fuses := by
  unfold State.pipeOut
  simp [foldl_fuses, ite_fuses]

@[simp] theorem State.pipeOut_mem (s : State) (stn : Nat) :
    (State.pipeOut s stn).stackMem = s.stackMem := by
  unfold State.pipeOut
  simp [foldl_mem, ite_mem]

@[simp] theorem State.setSlot_fuses (s : State) (k : Nat) (w : RingWord) :
    (State.setSlot s k w).fuses = s.fuses := by
  unfold State.setSlot
  simp

@[simp] theorem State.setSlot_mem (s : State) (k : Nat) (w : RingWord) :
    (State.setSlot s k w).stackMem = s.stackMem := by
  unfold State.setSlot
  simp

@[simp] theorem State.setSeamQ_fuses (s : State) (k : Nat) (q : List RingWord) :
    (State.setSeamQ s k q).fuses = s.fuses := by
  unfold State.setSeamQ
  (repeat' split) <;> simp

@[simp] theorem State.setSeamQ_mem (s : State) (k : Nat) (q : List RingWord) :
    (State.setSeamQ s k q).stackMem = s.stackMem := by
  unfold State.setSeamQ
  (repeat' split) <;> simp

@[simp] theorem State.setBridgeQ_fuses (s : State) (d : Nat) (q : List RingWord) :
    (State.setBridgeQ s d q).fuses = s.fuses := by
  unfold State.setBridgeQ
  simp

@[simp] theorem State.setBridgeQ_mem (s : State) (d : Nat) (q : List RingWord) :
    (State.setBridgeQ s d q).stackMem = s.stackMem := by
  unfold State.setBridgeQ
  simp

@[simp] theorem State.setArriving_fuses (s : State) (r : Nat) (w : List RingWord) :
    (State.setArriving s r w).fuses = s.fuses := by
  unfold State.setArriving
  simp

@[simp] theorem State.setArriving_mem (s : State) (r : Nat) (w : List RingWord) :
    (State.setArriving s r w).stackMem = s.stackMem := by
  unfold State.setArriving
  simp

@[simp] theorem State.stnRingError_fuses (s : State) (stn kind : Nat) (p : OpPlace) :
    (State.stnRingError s stn kind p).fuses = s.fuses := by
  unfold State.stnRingError
  simp

@[simp] theorem State.stnRingError_mem (s : State) (stn kind : Nat) (p : OpPlace) :
    (State.stnRingError s stn kind p).stackMem = s.stackMem := by
  unfold State.stnRingError
  simp

@[simp] theorem State.ringDieFault_fuses (s : State) (d kind code seg pos : Nat) :
    (State.ringDieFault s d kind code seg pos).fuses = s.fuses := by
  unfold State.ringDieFault
  simp

@[simp] theorem State.ringDieFault_mem (s : State) (d kind code seg pos : Nat) :
    (State.ringDieFault s d kind code seg pos).stackMem = s.stackMem := by
  unfold State.ringDieFault
  simp

@[simp] theorem State.setFeed_fuses (s : State) (seg q : Nat) (x : FeedQ) :
    (State.setFeed s seg q x).fuses = s.fuses := by
  unfold State.setFeed
  simp

@[simp] theorem State.setFeed_mem (s : State) (seg q : Nat) (x : FeedQ) :
    (State.setFeed s seg q x).stackMem = s.stackMem := by
  unfold State.setFeed
  simp

@[simp] theorem State.feedRelease_fuses (s : State) (seg q : Nat) :
    (State.feedRelease s seg q).fuses = s.fuses := by
  unfold State.feedRelease
  simp [ite_fuses]

@[simp] theorem State.feedRelease_mem (s : State) (seg q : Nat) :
    (State.feedRelease s seg q).stackMem = s.stackMem := by
  unfold State.feedRelease
  simp [ite_mem]

@[simp] theorem State.feedReleases_fuses (s : State) (d : Nat) :
    (State.feedReleases s d).fuses = s.fuses := by
  unfold State.feedReleases
  simp [foldl_fuses]

@[simp] theorem State.feedReleases_mem (s : State) (d : Nat) :
    (State.feedReleases s d).stackMem = s.stackMem := by
  unfold State.feedReleases
  simp [foldl_mem]

@[simp] theorem State.feedTaken_fuses (s : State) (seg q : Nat) :
    (State.feedTaken s seg q).fuses = s.fuses := by
  unfold State.feedTaken
  simp [ite_fuses]

@[simp] theorem State.feedTaken_mem (s : State) (seg q : Nat) :
    (State.feedTaken s seg q).stackMem = s.stackMem := by
  unfold State.feedTaken
  simp [ite_mem]

@[simp] theorem State.useLane_fuses (s : State) (seg : Nat) :
    (State.useLane s seg).fuses = s.fuses := by
  unfold State.useLane
  simp

@[simp] theorem State.useLane_mem (s : State) (seg : Nat) :
    (State.useLane s seg).stackMem = s.stackMem := by
  unfold State.useLane
  simp

@[simp] theorem State.inject_fuses (s : State) (stn : Nat) (o : GinjOp) (w : RingWord) :
    (State.inject s stn o w).fuses = s.fuses := by
  unfold State.inject
  simp [ite_fuses]

@[simp] theorem State.inject_mem (s : State) (stn : Nat) (o : GinjOp) (w : RingWord) :
    (State.inject s stn o w).stackMem = s.stackMem := by
  unfold State.inject
  simp [ite_mem]

@[simp] theorem State.ringSide_fuses (s : State) (stn : Nat) (g : GPend) :
    (State.ringSide s stn g).fuses = s.fuses := by
  unfold State.ringSide
  dsimp only
  (repeat' split) <;> simp_all

@[simp] theorem State.ringSide_mem (s : State) (stn : Nat) (g : GPend) :
    (State.ringSide s stn g).stackMem = s.stackMem := by
  unfold State.ringSide
  dsimp only
  (repeat' split) <;> simp_all

@[simp] theorem State.ginjInc_fuses (s : State) (i : Issue) (o : GinjOp) (t : Nat) :
    (State.ginjInc s i o t).fuses = s.fuses := by
  unfold State.ginjInc
  simp [ite_fuses]

@[simp] theorem State.ginjInc_mem (s : State) (i : Issue) (o : GinjOp) (t : Nat) :
    (State.ginjInc s i o t).stackMem = s.stackMem := by
  unfold State.ginjInc
  simp [ite_mem]

@[simp] theorem State.ginjWait_fuses (s : State) (i : Issue) (o : GinjOp) (p : OpPlace) (due : Nat) (w : Option RingWord) :
    (State.ginjWait s i o p due w).fuses = s.fuses := by
  unfold State.ginjWait
  simp

@[simp] theorem State.ginjWait_mem (s : State) (i : Issue) (o : GinjOp) (p : OpPlace) (due : Nat) (w : Option RingWord) :
    (State.ginjWait s i o p due w).stackMem = s.stackMem := by
  unfold State.ginjWait
  simp

@[simp] theorem ginjEff_fuses (i : Issue) (o : GinjOp) (p : OpPlace) (s : State) :
    (ginjEff i o p s).fuses = s.fuses := by
  unfold ginjEff
  dsimp only
  (repeat' split) <;> simp_all

@[simp] theorem ginjEff_mem (i : Issue) (o : GinjOp) (p : OpPlace) (s : State) :
    (ginjEff i o p s).stackMem = s.stackMem := by
  unfold ginjEff
  dsimp only
  (repeat' split) <;> simp_all

@[simp] theorem State.fixDesc_fuses (s : State) (seg q : Nat) (test : Desc → Bool) (f : Desc → Option Desc) :
    (State.fixDesc s seg q test f).fuses = s.fuses := by
  unfold State.fixDesc
  simp

@[simp] theorem State.fixDesc_mem (s : State) (seg q : Nat) (test : Desc → Bool) (f : Desc → Option Desc) :
    (State.fixDesc s seg q test f).stackMem = s.stackMem := by
  unfold State.fixDesc
  simp

@[simp] theorem State.postFails_fuses (s : State) (seg : Nat) (q : Nat) (d : Desc) (code : Nat) :
    (State.postFails s seg q d code).fuses = s.fuses := by
  unfold State.postFails
  simp

@[simp] theorem State.postFails_mem (s : State) (seg : Nat) (q : Nat) (d : Desc) (code : Nat) :
    (State.postFails s seg q d code).stackMem = s.stackMem := by
  unfold State.postFails
  simp

@[simp] theorem State.descRead_fuses (s : State) (seg q : Nat) (e : Ecc) :
    (State.descRead s seg q e).fuses = s.fuses := by
  unfold State.descRead
  (repeat' split) <;> simp_all [ite_fuses]

@[simp] theorem State.descRead_mem (s : State) (seg q : Nat) (e : Ecc) :
    (State.descRead s seg q e).stackMem = s.stackMem := by
  unfold State.descRead
  (repeat' split) <;> simp_all [ite_mem]

@[simp] theorem State.feedFill_fuses (s : State) (seg q : Nat) (e : Ecc) (fails : Nat) :
    (State.feedFill s seg q e fails).fuses = s.fuses := by
  unfold State.feedFill
  repeat' (first | (simp_all [ite_fuses]; done) | refine foldl_fuses (fun _ _ => ?_) _ _ | refine State.within_fuses _ _ _ (fun _ => ?_) | refine State.barIf_fuses _ _ _ (fun _ => ?_) | refine State.tcsRun_fuses _ _ _ _ _ _ (fun _ => ?_) (fun _ => ?_) | dsimp only | split)

@[simp] theorem State.feedFill_mem (s : State) (seg q : Nat) (e : Ecc) (fails : Nat) :
    (State.feedFill s seg q e fails).stackMem = s.stackMem := by
  unfold State.feedFill
  repeat' (first | (simp_all [ite_mem]; done) | refine foldl_mem (fun _ _ => ?_) _ _ | refine State.within_mem _ _ _ (fun _ => ?_) | refine State.barIf_mem _ _ _ (fun _ => ?_) | refine State.tcsRun_mem _ _ _ _ _ _ (fun _ => ?_) (fun _ => ?_) | dsimp only | split)

@[simp] theorem State.injectionFault_fuses (s : State) (d : Desc) :
    (State.injectionFault s d).fuses = s.fuses := by
  unfold State.injectionFault
  simp

@[simp] theorem State.injectionFault_mem (s : State) (d : Desc) :
    (State.injectionFault s d).stackMem = s.stackMem := by
  unfold State.injectionFault
  simp

@[simp] theorem State.underrun_fuses (s : State) (d : Desc) :
    (State.underrun s d).fuses = s.fuses := by
  unfold State.underrun
  simp

@[simp] theorem State.underrun_mem (s : State) (d : Desc) :
    (State.underrun s d).stackMem = s.stackMem := by
  unfold State.underrun
  simp

@[simp] theorem State.headInject_fuses (s : State) (seg q j : Nat) (d : Desc) :
    (State.headInject s seg q j d).fuses = s.fuses := by
  unfold State.headInject
  dsimp only
  (repeat' split) <;> simp_all

@[simp] theorem State.headInject_mem (s : State) (seg q j : Nat) (d : Desc) :
    (State.headInject s seg q j d).stackMem = s.stackMem := by
  unfold State.headInject
  dsimp only
  (repeat' split) <;> simp_all

@[simp] theorem State.feedInject_fuses (s : State) (seg q : Nat) :
    (State.feedInject s seg q).fuses = s.fuses := by
  unfold State.feedInject
  repeat' (first | (simp_all [foldl_fuses, ite_fuses]; done) | refine foldl_fuses (fun _ _ => ?_) _ _ | refine State.within_fuses _ _ _ (fun _ => ?_) | refine State.barIf_fuses _ _ _ (fun _ => ?_) | refine State.tcsRun_fuses _ _ _ _ _ _ (fun _ => ?_) (fun _ => ?_) | dsimp only | split)

@[simp] theorem State.feedInject_mem (s : State) (seg q : Nat) :
    (State.feedInject s seg q).stackMem = s.stackMem := by
  unfold State.feedInject
  repeat' (first | (simp_all [foldl_mem, ite_mem]; done) | refine foldl_mem (fun _ _ => ?_) _ _ | refine State.within_mem _ _ _ (fun _ => ?_) | refine State.barIf_mem _ _ _ (fun _ => ?_) | refine State.tcsRun_mem _ _ _ _ _ _ (fun _ => ?_) (fun _ => ?_) | dsimp only | split)

@[simp] theorem State.badWord_fuses (s : State) (stn : Nat) (w : RingWord) (p : OpPlace) :
    (State.badWord s stn w p).fuses = s.fuses := by
  unfold State.badWord
  simp

@[simp] theorem State.badWord_mem (s : State) (stn : Nat) (w : RingWord) (p : OpPlace) :
    (State.badWord s stn w p).stackMem = s.stackMem := by
  unfold State.badWord
  simp

@[simp] theorem State.issueRing_fuses (s : State) (i : Issue) (eff : OpPlace → State → State) (hfeff : ∀ u0 u1, (eff u0 u1).fuses = u1.fuses) :
    (State.issueRing s i eff).fuses = s.fuses := by
  unfold State.issueRing
  simp [ite_fuses, hfeff]

@[simp] theorem State.issueRing_mem (s : State) (i : Issue) (eff : OpPlace → State → State) (hmeff : ∀ u0 u1, (eff u0 u1).stackMem = u1.stackMem) :
    (State.issueRing s i eff).stackMem = s.stackMem := by
  unfold State.issueRing
  simp [ite_mem, hmeff]

@[simp] theorem State.tapWord_fuses (s : State) (stn t : Nat) (latch : Bool) (w : RingWord) :
    (State.tapWord s stn t latch w).fuses = s.fuses := by
  unfold State.tapWord
  (repeat' split) <;> simp

@[simp] theorem State.tapWord_mem (s : State) (stn t : Nat) (latch : Bool) (w : RingWord) :
    (State.tapWord s stn t latch w).stackMem = s.stackMem := by
  unfold State.tapWord
  (repeat' split) <;> simp

@[simp] theorem gtapEff_fuses (i : Issue) (o : GtapOp) (p : OpPlace) (s : State) :
    (gtapEff i o p s).fuses = s.fuses := by
  unfold gtapEff
  dsimp only
  (repeat' split) <;> simp_all

@[simp] theorem gtapEff_mem (i : Issue) (o : GtapOp) (p : OpPlace) (s : State) :
    (gtapEff i o p s).stackMem = s.stackMem := by
  unfold gtapEff
  dsimp only
  (repeat' split) <;> simp_all

@[simp] theorem gejEff_fuses (i : Issue) (o : GejOp) (p : OpPlace) (s : State) :
    (gejEff i o p s).fuses = s.fuses := by
  unfold gejEff
  dsimp only
  (repeat' split) <;> simp_all

@[simp] theorem gejEff_mem (i : Issue) (o : GejOp) (p : OpPlace) (s : State) :
    (gejEff i o p s).stackMem = s.stackMem := by
  unfold gejEff
  dsimp only
  (repeat' split) <;> simp_all

@[simp] theorem State.gpassInc_fuses (s : State) (i : Issue) (o : GpassOp) (t : Nat) :
    (State.gpassInc s i o t).fuses = s.fuses := by
  unfold State.gpassInc
  (repeat' split) <;> simp

@[simp] theorem State.gpassInc_mem (s : State) (i : Issue) (o : GpassOp) (t : Nat) :
    (State.gpassInc s i o t).stackMem = s.stackMem := by
  unfold State.gpassInc
  (repeat' split) <;> simp

@[simp] theorem State.gpassStore_fuses (s : State) (i : Issue) (t a b : Nat) (w : RingWord) :
    (State.gpassStore s i t a b w).fuses = s.fuses := by
  unfold State.gpassStore
  simp

@[simp] theorem State.gpassStore_mem (s : State) (i : Issue) (t a b : Nat) (w : RingWord) :
    (State.gpassStore s i t a b w).stackMem = s.stackMem := by
  unfold State.gpassStore
  simp

@[simp] theorem gpassEff_fuses (i : Issue) (o : GpassOp) (p : OpPlace) (s : State) :
    (gpassEff i o p s).fuses = s.fuses := by
  unfold gpassEff
  dsimp only
  (repeat' split) <;> simp_all

@[simp] theorem gpassEff_mem (i : Issue) (o : GpassOp) (p : OpPlace) (s : State) :
    (gpassEff i o p s).stackMem = s.stackMem := by
  unfold gpassEff
  dsimp only
  (repeat' split) <;> simp_all

@[simp] theorem State.setInQ_fuses (s : State) (r : Nat) (q : List RingWord) :
    (State.setInQ s r q).fuses = s.fuses := by
  unfold State.setInQ
  simp [ite_fuses]

@[simp] theorem State.setInQ_mem (s : State) (r : Nat) (q : List RingWord) :
    (State.setInQ s r q).stackMem = s.stackMem := by
  unfold State.setInQ
  simp [ite_mem]

@[simp] theorem State.realign_fuses (s : State) (r : Nat) :
    (State.realign s r).fuses = s.fuses := by
  unfold State.realign
  simp

@[simp] theorem State.realign_mem (s : State) (r : Nat) :
    (State.realign s r).stackMem = s.stackMem := by
  unfold State.realign
  simp

@[simp] theorem State.seamCross_fuses (s : State) (d : Nat) (up err : Bool) :
    (State.seamCross s d up err).fuses = s.fuses := by
  unfold State.seamCross
  repeat' (first | (simp_all [ite_fuses]; done) | refine foldl_fuses (fun _ _ => ?_) _ _ | refine State.within_fuses _ _ _ (fun _ => ?_) | refine State.barIf_fuses _ _ _ (fun _ => ?_) | refine State.tcsRun_fuses _ _ _ _ _ _ (fun _ => ?_) (fun _ => ?_) | dsimp only | split)

@[simp] theorem State.seamCross_mem (s : State) (d : Nat) (up err : Bool) :
    (State.seamCross s d up err).stackMem = s.stackMem := by
  unfold State.seamCross
  repeat' (first | (simp_all [ite_mem]; done) | refine foldl_mem (fun _ _ => ?_) _ _ | refine State.within_mem _ _ _ (fun _ => ?_) | refine State.barIf_mem _ _ _ (fun _ => ?_) | refine State.tcsRun_mem _ _ _ _ _ _ (fun _ => ?_) (fun _ => ?_) | dsimp only | split)

@[simp] theorem State.bridgeDeliver_fuses (s : State) (d fails : Nat) :
    (State.bridgeDeliver s d fails).fuses = s.fuses := by
  unfold State.bridgeDeliver
  dsimp only
  (repeat' split) <;> simp_all

@[simp] theorem State.bridgeDeliver_mem (s : State) (d fails : Nat) :
    (State.bridgeDeliver s d fails).stackMem = s.stackMem := by
  unfold State.bridgeDeliver
  dsimp only
  (repeat' split) <;> simp_all

@[simp] theorem State.setOcc_fuses (s : State) (d : Nat) (f : Fifo) (n : Nat) :
    (State.setOcc s d f n).fuses = s.fuses := by
  unfold State.setOcc
  simp

@[simp] theorem State.setOcc_mem (s : State) (d : Nat) (f : Fifo) (n : Nat) :
    (State.setOcc s d f n).stackMem = s.stackMem := by
  unfold State.setOcc
  simp

@[simp] theorem State.fifoDrift_fuses (s : State) (d : Nat) (f : Fifo) (up : Bool) :
    (State.fifoDrift s d f up).fuses = s.fuses := by
  unfold State.fifoDrift
  simp [ite_fuses]

@[simp] theorem State.fifoDrift_mem (s : State) (d : Nat) (f : Fifo) (up : Bool) :
    (State.fifoDrift s d f up).stackMem = s.stackMem := by
  unfold State.fifoDrift
  simp [ite_mem]

@[simp] theorem State.crossPoison_fuses (s : State) (d : Nat) (f : Fifo) :
    (State.crossPoison s d f).fuses = s.fuses := by
  unfold State.crossPoison
  dsimp only
  (repeat' split) <;> simp_all

@[simp] theorem State.crossPoison_mem (s : State) (d : Nat) (f : Fifo) :
    (State.crossPoison s d f).stackMem = s.stackMem := by
  unfold State.crossPoison
  dsimp only
  (repeat' split) <;> simp_all

@[simp] theorem State.eachStation_fuses (s : State) (d : Nat) (f : Nat → State → State) (hff : ∀ u0 u1, (f u0 u1).fuses = u1.fuses) :
    (State.eachStation s d f).fuses = s.fuses := by
  unfold State.eachStation
  simp [foldl_fuses, hff]

@[simp] theorem State.eachStation_wf (s : State) (d : Nat) (f : Nat → State → State) (hwf : ∀ u0 u1, u1.stackMem.wf = true → (f u0 u1).stackMem.wf = true) (hw0 : s.stackMem.wf = true) :
    (State.eachStation s d f).stackMem.wf = true := by
  unfold State.eachStation
  (repeat' split) <;> simp_all [foldl_wf]

@[simp] theorem State.eachStation_mem (s : State) (d : Nat) (f : Nat → State → State) (hmf : ∀ u0 u1, (f u0 u1).stackMem = u1.stackMem) :
    (State.eachStation s d f).stackMem = s.stackMem := by
  unfold State.eachStation
  simp [foldl_mem, hmf]

@[simp] theorem State.hitBreaks_fuses (s : State) (i : Nat) :
    (State.hitBreaks s i).fuses = s.fuses := by
  unfold State.hitBreaks
  simp [ite_fuses]

@[simp] theorem State.hitBreaks_mem (s : State) (i : Nat) :
    (State.hitBreaks s i).stackMem = s.stackMem := by
  unfold State.hitBreaks
  simp [ite_mem]

@[simp] theorem State.freezeDie_fuses (s : State) (kinds x : Nat) :
    (State.freezeDie s kinds x).fuses = s.fuses := by
  unfold State.freezeDie
  simp

@[simp] theorem State.freezeDie_mem (s : State) (kinds x : Nat) :
    (State.freezeDie s kinds x).stackMem = s.stackMem := by
  unfold State.freezeDie
  simp

@[simp] theorem State.freeze_fuses (s : State) (d : Nat) :
    (State.freeze s d).fuses = s.fuses := by
  unfold State.freeze
  simp [foldl_fuses, ite_fuses]

@[simp] theorem State.freeze_mem (s : State) (d : Nat) :
    (State.freeze s d).stackMem = s.stackMem := by
  unfold State.freeze
  simp [foldl_mem, ite_mem]

@[simp] theorem State.announce_fuses (s : State) (d : Nat) :
    (State.announce s d).fuses = s.fuses := by
  unfold State.announce
  simp [foldl_fuses, ite_fuses]

@[simp] theorem State.announce_mem (s : State) (d : Nat) :
    (State.announce s d).stackMem = s.stackMem := by
  unfold State.announce
  simp [foldl_mem, ite_mem]

@[simp] theorem State.recentreFifo_fuses (s : State) (d : Nat) (f : Fifo) :
    (State.recentreFifo s d f).fuses = s.fuses := by
  unfold State.recentreFifo
  simp

@[simp] theorem State.recentreFifo_mem (s : State) (d : Nat) (f : Fifo) :
    (State.recentreFifo s d f).stackMem = s.stackMem := by
  unfold State.recentreFifo
  simp

@[simp] theorem State.recentred_fuses (s : State) (d : Nat) :
    (State.recentred s d).fuses = s.fuses := by
  unfold State.recentred
  simp [foldl_fuses]

@[simp] theorem State.recentred_mem (s : State) (d : Nat) :
    (State.recentred s d).stackMem = s.stackMem := by
  unfold State.recentred
  simp [foldl_mem]

@[simp] theorem State.frozenTick_fuses (s : State) (d : Nat) :
    (State.frozenTick s d).fuses = s.fuses := by
  unfold State.frozenTick
  simp [ite_fuses]

@[simp] theorem State.frozenTick_mem (s : State) (d : Nat) :
    (State.frozenTick s d).stackMem = s.stackMem := by
  unfold State.frozenTick
  simp [ite_mem]

@[simp] theorem State.countFrozen_fuses (s : State) (r : Nat) :
    (State.countFrozen s r).fuses = s.fuses := by
  unfold State.countFrozen
  simp [ite_fuses]

@[simp] theorem State.countFrozen_mem (s : State) (r : Nat) :
    (State.countFrozen s r).stackMem = s.stackMem := by
  unfold State.countFrozen
  simp [ite_mem]

@[simp] theorem State.withdraw_fuses (s : State) (x : Nat) :
    (State.withdraw s x).fuses = s.fuses := by
  unfold State.withdraw
  simp [ite_fuses]

@[simp] theorem State.withdraw_mem (s : State) (x : Nat) :
    (State.withdraw s x).stackMem = s.stackMem := by
  unfold State.withdraw
  simp [ite_mem]

@[simp] theorem State.flitsMove_fuses (s : State) (d : Nat) :
    (State.flitsMove s d).fuses = s.fuses := by
  unfold State.flitsMove
  simp

@[simp] theorem State.flitsMove_mem (s : State) (d : Nat) :
    (State.flitsMove s d).stackMem = s.stackMem := by
  unfold State.flitsMove
  simp

@[simp] theorem State.faultFlit_fuses (s : State) (d : Nat) :
    (State.faultFlit s d).fuses = s.fuses := by
  unfold State.faultFlit
  dsimp only
  (repeat' split) <;> simp_all [foldl_fuses]

@[simp] theorem State.faultFlit_mem (s : State) (d : Nat) :
    (State.faultFlit s d).stackMem = s.stackMem := by
  unfold State.faultFlit
  dsimp only
  (repeat' split) <;> simp_all [foldl_mem]

@[simp] theorem State.dropCap_fuses (s : State) (who : Requester) :
    (State.dropCap s who).fuses = s.fuses := by
  unfold State.dropCap
  simp

@[simp] theorem State.dropCap_mem (s : State) (who : Requester) :
    (State.dropCap s who).stackMem = s.stackMem := by
  unfold State.dropCap
  simp

@[simp] theorem State.csrRead_fuses (s : State) (who : Requester) (off width : Nat) :
    (State.csrRead s who off width).1.fuses = s.fuses := by
  unfold State.csrRead
  (repeat' split) <;> simp

@[simp] theorem State.csrRead_mem (s : State) (who : Requester) (off width : Nat) :
    (State.csrRead s who off width).1.stackMem = s.stackMem := by
  unfold State.csrRead
  (repeat' split) <;> simp

@[simp] theorem State.readOut_fuses (s : State) (who : Requester) (off : Nat) :
    (State.readOut s who off).fuses = s.fuses := by
  unfold State.readOut
  simp

@[simp] theorem State.readOut_mem (s : State) (who : Requester) (off : Nat) :
    (State.readOut s who off).stackMem = s.stackMem := by
  unfold State.readOut
  simp

@[simp] theorem State.holdRwe_fuses (s : State) (r : Reg) (i v : Nat) :
    (State.holdRwe s r i v).fuses = s.fuses := by
  unfold State.holdRwe
  (repeat' split) <;> simp

@[simp] theorem State.holdRwe_mem (s : State) (r : Reg) (i v : Nat) :
    (State.holdRwe s r i v).stackMem = s.stackMem := by
  unfold State.holdRwe
  (repeat' split) <;> simp

@[simp] theorem State.dropRwe_fuses (s : State) (r : Reg) (i : Nat) :
    (State.dropRwe s r i).fuses = s.fuses := by
  unfold State.dropRwe
  (repeat' split) <;> simp

@[simp] theorem State.dropRwe_mem (s : State) (r : Reg) (i : Nat) :
    (State.dropRwe s r i).stackMem = s.stackMem := by
  unfold State.dropRwe
  (repeat' split) <;> simp

@[simp] theorem State.spareTo_fuses (s : State) (g q : Nat) :
    (State.spareTo s g q).fuses = s.fuses := by
  unfold State.spareTo
  simp [foldl_fuses]

@[simp] theorem State.spareTo_mem (s : State) (g q : Nat) :
    (State.spareTo s g q).stackMem = s.stackMem := by
  unfold State.spareTo
  simp [foldl_mem]

@[simp] theorem State.applyRwe_fuses (s : State) (r : Reg) (i v : Nat) :
    (State.applyRwe s r i v).fuses = s.fuses := by
  unfold State.applyRwe
  (repeat' split) <;> simp

@[simp] theorem State.applyRwe_mem (s : State) (r : Reg) (i v : Nat) :
    (State.applyRwe s r i v).stackMem = s.stackMem := by
  unfold State.applyRwe
  (repeat' split) <;> simp

@[simp] theorem State.applyOff_fuses (s : State) (o : Nat) (v : Word) :
    (State.applyOff s o v).fuses = s.fuses := by
  unfold State.applyOff
  (repeat' split) <;> simp

@[simp] theorem State.applyOff_mem (s : State) (o : Nat) (v : Word) :
    (State.applyOff s o v).stackMem = s.stackMem := by
  unfold State.applyOff
  (repeat' split) <;> simp

@[simp] theorem State.applyStation_fuses (s : State) (i : Nat) :
    (State.applyStation s i).fuses = s.fuses := by
  unfold State.applyStation
  simp [foldl_fuses]

@[simp] theorem State.applyStation_mem (s : State) (i : Nat) :
    (State.applyStation s i).stackMem = s.stackMem := by
  unfold State.applyStation
  simp [foldl_mem]

@[simp] theorem State.applyDie_fuses (s : State) (d n : Nat) :
    (State.applyDie s d n).fuses = s.fuses := by
  unfold State.applyDie
  simp [foldl_fuses]

@[simp] theorem State.applyDie_mem (s : State) (d n : Nat) :
    (State.applyDie s d n).stackMem = s.stackMem := by
  unfold State.applyDie
  simp [foldl_mem]

@[simp] theorem State.applyAll_fuses (s : State) (d : Nat) :
    (State.applyAll s d).fuses = s.fuses := by
  unfold State.applyAll
  simp [foldl_fuses]

@[simp] theorem State.applyAll_mem (s : State) (d : Nat) :
    (State.applyAll s d).stackMem = s.stackMem := by
  unfold State.applyAll
  simp [foldl_mem]

@[simp] theorem State.putReg_fuses (s : State) (r : Reg) (i : Nat) (hi : Bool) (v : Nat) :
    (State.putReg s r i hi v).fuses = s.fuses := by
  unfold State.putReg
  simp [ite_fuses]

@[simp] theorem State.putReg_mem (s : State) (r : Reg) (i : Nat) (hi : Bool) (v : Nat) :
    (State.putReg s r i hi v).stackMem = s.stackMem := by
  unfold State.putReg
  simp [ite_mem]

@[simp] theorem State.attestGo_fuses (s : State) (who : Requester) :
    (State.attestGo s who).fuses = s.fuses := by
  unfold State.attestGo
  simp

@[simp] theorem State.attestGo_mem (s : State) (who : Requester) :
    (State.attestGo s who).stackMem = s.stackMem := by
  unfold State.attestGo
  simp

@[simp] theorem State.attestDone_fuses (s : State) :
    (State.attestDone s).fuses = s.fuses := by
  unfold State.attestDone
  dsimp only
  (repeat' split) <;> simp_all [foldl_fuses]

@[simp] theorem State.attestDone_mem (s : State) :
    (State.attestDone s).stackMem = s.stackMem := by
  unfold State.attestDone
  dsimp only
  (repeat' split) <;> simp_all [foldl_mem]

@[simp] theorem State.setRail_fuses (s : State) (sel mv : Nat) :
    (State.setRail s sel mv).fuses = s.fuses := by
  unfold State.setRail
  simp

@[simp] theorem State.setRail_mem (s : State) (sel mv : Nat) :
    (State.setRail s sel mv).stackMem = s.stackMem := by
  unfold State.setRail
  simp

@[simp] theorem State.governs_fuses (s : State) :
    (State.governs s).fuses = s.fuses := by
  unfold State.governs
  simp

@[simp] theorem State.governs_mem (s : State) :
    (State.governs s).stackMem = s.stackMem := by
  unfold State.governs
  simp

@[simp] theorem State.tryTrigger_fuses (s : State) :
    (State.tryTrigger s).fuses = s.fuses := by
  unfold State.tryTrigger
  simp [ite_fuses]

@[simp] theorem State.tryTrigger_mem (s : State) :
    (State.tryTrigger s).stackMem = s.stackMem := by
  unfold State.tryTrigger
  simp [ite_mem]

@[simp] theorem State.setArm_fuses (s : State) (n : Nat) :
    (State.setArm s n).fuses = s.fuses := by
  unfold State.setArm
  simp

@[simp] theorem State.setArm_mem (s : State) (n : Nat) :
    (State.setArm s n).stackMem = s.stackMem := by
  unfold State.setArm
  simp

@[simp] theorem State.sundialArm_fuses (s : State) (n : Nat) :
    (State.sundialArm s n).fuses = s.fuses := by
  unfold State.sundialArm
  simp [ite_fuses]

@[simp] theorem State.sundialArm_mem (s : State) (n : Nat) :
    (State.sundialArm s n).stackMem = s.stackMem := by
  unfold State.sundialArm
  simp [ite_mem]

@[simp] theorem State.raiseDone_fuses (s : State) :
    (State.raiseDone s).fuses = s.fuses := by
  unfold State.raiseDone
  split
  · rfl
  · split
    · simp
    · split <;> simp

@[simp] theorem State.raiseDone_mem (s : State) :
    (State.raiseDone s).stackMem = s.stackMem := by
  unfold State.raiseDone
  split
  · rfl
  · split
    · simp
    · split <;> simp

@[simp] theorem State.abandon_fuses (s : State) :
    (State.abandon s).fuses = s.fuses := by
  unfold State.abandon
  simp

@[simp] theorem State.abandon_mem (s : State) :
    (State.abandon s).stackMem = s.stackMem := by
  unfold State.abandon
  simp

@[simp] theorem State.lossOver_fuses (s : State) :
    (State.lossOver s).fuses = s.fuses := by
  unfold State.lossOver
  simp [foldl_fuses, ite_fuses]

@[simp] theorem State.lossOver_mem (s : State) :
    (State.lossOver s).stackMem = s.stackMem := by
  unfold State.lossOver
  simp [foldl_mem, ite_mem]

@[simp] theorem State.avsNext_fuses (s : State) (k : AvsFor) (ok : Bool) :
    (State.avsNext s k ok).fuses = s.fuses := by
  unfold State.avsNext
  split
  · split <;> simp
  · simp
  · rfl
  · rfl

@[simp] theorem State.avsNext_mem (s : State) (k : AvsFor) (ok : Bool) :
    (State.avsNext s k ok).stackMem = s.stackMem := by
  unfold State.avsNext
  split
  · split <;> simp
  · simp
  · rfl
  · rfl

@[simp] theorem State.avsEnd_fuses (s : State) (t : AvsTx) (status data : Nat) :
    (State.avsEnd s t status data).fuses = s.fuses := by
  unfold State.avsEnd
  simp [ite_fuses]

@[simp] theorem State.avsEnd_mem (s : State) (t : AvsTx) (status data : Nat) :
    (State.avsEnd s t status data).stackMem = s.stackMem := by
  unfold State.avsEnd
  simp [ite_mem]

@[simp] theorem State.avsSend_fuses (s : State) (t : AvsTx) :
    (State.avsSend s t).fuses = s.fuses := by
  unfold State.avsSend
  simp

@[simp] theorem State.avsSend_mem (s : State) (t : AvsTx) :
    (State.avsSend s t).stackMem = s.stackMem := by
  unfold State.avsSend
  simp

@[simp] theorem State.avsKick_fuses (s : State) (z0 : Nat) :
    (State.avsKick s z0).fuses = s.fuses := by
  induction z0 generalizing s with
  | zero => simp [State.avsKick]
  | succ n ih =>
    unfold State.avsKick
    dsimp only
    (repeat' split) <;> simp_all

@[simp] theorem State.avsKick_mem (s : State) (z0 : Nat) :
    (State.avsKick s z0).stackMem = s.stackMem := by
  induction z0 generalizing s with
  | zero => simp [State.avsKick]
  | succ n ih =>
    unfold State.avsKick
    dsimp only
    (repeat' split) <;> simp_all

@[simp] theorem State.avsGo_fuses (s : State) :
    (State.avsGo s).fuses = s.fuses := by
  unfold State.avsGo
  simp

@[simp] theorem State.avsGo_mem (s : State) :
    (State.avsGo s).stackMem = s.stackMem := by
  unfold State.avsGo
  simp

@[simp] theorem State.avsCommand_fuses (s : State) (v : Nat) :
    (State.avsCommand s v).fuses = s.fuses := by
  unfold State.avsCommand
  simp [ite_fuses]

@[simp] theorem State.avsCommand_mem (s : State) (v : Nat) :
    (State.avsCommand s v).stackMem = s.stackMem := by
  unfold State.avsCommand
  simp [ite_mem]

@[simp] theorem State.avsReply_fuses (s : State) (r : AvsReply) :
    (State.avsReply s r).fuses = s.fuses := by
  unfold State.avsReply
  (repeat' split) <;> simp

@[simp] theorem State.avsReply_mem (s : State) (r : AvsReply) :
    (State.avsReply s r).stackMem = s.stackMem := by
  unfold State.avsReply
  (repeat' split) <;> simp

@[simp] theorem State.avsLate_fuses (s : State) :
    (State.avsLate s).fuses = s.fuses := by
  unfold State.avsLate
  (repeat' split) <;> simp

@[simp] theorem State.avsLate_mem (s : State) :
    (State.avsLate s).stackMem = s.stackMem := by
  unfold State.avsLate
  (repeat' split) <;> simp

@[simp] theorem State.armDone_fuses (s : State) (n : Nat) :
    (State.armDone s n).fuses = s.fuses := by
  unfold State.armDone
  simp [ite_fuses]

@[simp] theorem State.armDone_mem (s : State) (n : Nat) :
    (State.armDone s n).stackMem = s.stackMem := by
  unfold State.armDone
  simp [ite_mem]

@[simp] theorem State.switchTo_fuses (s : State) (n : Nat) :
    (State.switchTo s n).fuses = s.fuses := by
  unfold State.switchTo
  simp [ite_fuses]

@[simp] theorem State.switchTo_mem (s : State) (n : Nat) :
    (State.switchTo s n).stackMem = s.stackMem := by
  unfold State.switchTo
  simp [ite_mem]

@[simp] theorem State.closingSwitch_fuses (s : State) :
    (State.closingSwitch s).fuses = s.fuses := by
  unfold State.closingSwitch
  simp [foldl_fuses, ite_fuses]

@[simp] theorem State.closingSwitch_mem (s : State) :
    (State.closingSwitch s).stackMem = s.stackMem := by
  unfold State.closingSwitch
  simp [foldl_mem, ite_mem]

@[simp] theorem State.recentreAll_fuses (s : State) :
    (State.recentreAll s).fuses = s.fuses := by
  unfold State.recentreAll
  simp [foldl_fuses]

@[simp] theorem State.recentreAll_mem (s : State) :
    (State.recentreAll s).stackMem = s.stackMem := by
  unfold State.recentreAll
  simp [foldl_mem]

@[simp] theorem State.setMult_fuses (s : State) (r m : Nat) (lock : Bool) :
    (State.setMult s r m lock).fuses = s.fuses := by
  unfold State.setMult
  simp

@[simp] theorem State.setMult_mem (s : State) (r m : Nat) (lock : Bool) :
    (State.setMult s r m lock).stackMem = s.stackMem := by
  unfold State.setMult
  simp

@[simp] theorem State.setRing_fuses (s : State) (n : Nat) :
    (State.setRing s n).fuses = s.fuses := by
  unfold State.setRing
  simp [foldl_fuses, ite_fuses]

@[simp] theorem State.setRing_mem (s : State) (n : Nat) :
    (State.setRing s n).stackMem = s.stackMem := by
  unfold State.setRing
  simp [foldl_mem, ite_mem]

@[simp] theorem State.setGated_fuses (s : State) (n : Nat) :
    (State.setGated s n).fuses = s.fuses := by
  unfold State.setGated
  simp [foldl_fuses]

@[simp] theorem State.setGated_mem (s : State) (n : Nat) :
    (State.setGated s n).stackMem = s.stackMem := by
  unfold State.setGated
  simp [foldl_mem]

@[simp] theorem State.switchDone_fuses (s : State) :
    (State.switchDone s).fuses = s.fuses := by
  unfold State.switchDone
  simp [foldl_fuses, ite_fuses]

@[simp] theorem State.switchDone_mem (s : State) :
    (State.switchDone s).stackMem = s.stackMem := by
  unfold State.switchDone
  simp [foldl_mem, ite_mem]

@[simp] theorem State.lossDone_fuses (s : State) :
    (State.lossDone s).fuses = s.fuses := by
  unfold State.lossDone
  simp [foldl_fuses]

@[simp] theorem State.lossDone_mem (s : State) :
    (State.lossDone s).stackMem = s.stackMem := by
  unfold State.lossDone
  simp [foldl_mem]

@[simp] theorem State.regionStopDone_fuses (s : State) :
    (State.regionStopDone s).fuses = s.fuses := by
  unfold State.regionStopDone
  simp [ite_fuses]

@[simp] theorem State.regionStopDone_mem (s : State) :
    (State.regionStopDone s).stackMem = s.stackMem := by
  unfold State.regionStopDone
  simp [ite_mem]

@[simp] theorem State.refLoss_fuses (s : State) :
    (State.refLoss s).fuses = s.fuses := by
  unfold State.refLoss
  simp [foldl_fuses, ite_fuses]

@[simp] theorem State.refLoss_mem (s : State) :
    (State.refLoss s).stackMem = s.stackMem := by
  unfold State.refLoss
  simp [foldl_mem, ite_mem]

@[simp] theorem State.powerLoss_fuses (s : State) :
    (State.powerLoss s).fuses = s.fuses := by
  unfold State.powerLoss
  simp

@[simp] theorem State.powerLoss_wf (s : State) (hw0 : s.stackMem.wf = true) :
    (State.powerLoss s).stackMem.wf = true := rfl

@[simp] theorem State.allDown_fuses (s : State) :
    (State.allDown s).fuses = s.fuses := by
  unfold State.allDown
  simp

@[simp] theorem State.allDown_wf (s : State) (hw0 : s.stackMem.wf = true) :
    (State.allDown s).stackMem.wf = true := by
  unfold State.allDown
  simp [hw0]

@[simp] theorem State.wakeNote_fuses (s : State) (abort : Bool) (src : Nat) (st : Nat) :
    (State.wakeNote s abort src st).fuses = s.fuses := by
  unfold State.wakeNote
  simp

@[simp] theorem State.wakeNote_mem (s : State) (abort : Bool) (src : Nat) (st : Nat) :
    (State.wakeNote s abort src st).stackMem = s.stackMem := by
  unfold State.wakeNote
  simp

@[simp] theorem State.rest_fuses (s : State) (st : Idle) :
    (State.rest s st).fuses = s.fuses := by
  unfold State.rest
  (repeat' split) <;> simp

@[simp] theorem State.rest_wf (s : State) (st : Idle) (hw0 : s.stackMem.wf = true) :
    (State.rest s st).stackMem.wf = true := by
  unfold State.rest
  (repeat' split) <;> simp [hw0]

@[simp] theorem State.wakeSeen_fuses (s : State) :
    (State.wakeSeen s).fuses = s.fuses := by
  unfold State.wakeSeen
  simp

@[simp] theorem State.wakeSeen_mem (s : State) :
    (State.wakeSeen s).stackMem = s.stackMem := by
  unfold State.wakeSeen
  simp

@[simp] theorem State.enterIdle_fuses (s : State) (st : Idle) (asserted : Nat) :
    (State.enterIdle s st asserted).fuses = s.fuses := by
  unfold State.enterIdle
  simp [ite_fuses]

@[simp] theorem State.enterIdle_wf (s : State) (st : Idle) (asserted : Nat) (hw0 : s.stackMem.wf = true) :
    (State.enterIdle s st asserted).stackMem.wf = true := by
  unfold State.enterIdle
  simp [hw0, ite_wf]

@[simp] theorem State.leaveIdle_fuses (s : State) (src : Nat) :
    (State.leaveIdle s src).fuses = s.fuses := by
  unfold State.leaveIdle
  dsimp only
  (repeat' split) <;> simp_all

@[simp] theorem State.leaveIdle_mem (s : State) (src : Nat) :
    (State.leaveIdle s src).stackMem = s.stackMem := by
  unfold State.leaveIdle
  dsimp only
  (repeat' split) <;> simp_all

@[simp] theorem State.wakeCheck_fuses (s : State) :
    (State.wakeCheck s).fuses = s.fuses := by
  unfold State.wakeCheck
  dsimp only
  split
  · split <;> simp
  · rfl

@[simp] theorem State.wakeCheck_mem (s : State) :
    (State.wakeCheck s).stackMem = s.stackMem := by
  unfold State.wakeCheck
  dsimp only
  split
  · split <;> simp
  · rfl

@[simp] theorem State.wakeBy_fuses (s : State) (i : Nat) :
    (State.wakeBy s i).fuses = s.fuses := by
  unfold State.wakeBy
  simp [ite_fuses]

@[simp] theorem State.wakeBy_mem (s : State) (i : Nat) :
    (State.wakeBy s i).stackMem = s.stackMem := by
  unfold State.wakeBy
  simp [ite_mem]

@[simp] theorem State.wakeFall_fuses (s : State) :
    (State.wakeFall s).fuses = s.fuses := by
  unfold State.wakeFall
  simp [ite_fuses]

@[simp] theorem State.wakeFall_mem (s : State) :
    (State.wakeFall s).stackMem = s.stackMem := by
  unfold State.wakeFall
  simp [ite_mem]

@[simp] theorem State.tellSteward_fuses (s : State) (v : Word) :
    (State.tellSteward s v).fuses = s.fuses := by
  unfold State.tellSteward
  simp [ite_fuses]

@[simp] theorem State.tellSteward_mem (s : State) (v : Word) :
    (State.tellSteward s v).stackMem = s.stackMem := by
  unfold State.tellSteward
  simp [ite_mem]

@[simp] theorem State.pyErr_fuses (s : State) (kind port m : Nat) :
    (State.pyErr s kind port m).fuses = s.fuses := by
  unfold State.pyErr
  simp [ite_fuses]

@[simp] theorem State.pyErr_mem (s : State) (kind port m : Nat) :
    (State.pyErr s kind port m).stackMem = s.stackMem := by
  unfold State.pyErr
  simp [ite_mem]

@[simp] theorem State.noteBad_fuses (s : State) (status m : Nat) :
    (State.noteBad s status m).fuses = s.fuses := by
  unfold State.noteBad
  simp [ite_fuses]

@[simp] theorem State.noteBad_mem (s : State) (status m : Nat) :
    (State.noteBad s status m).stackMem = s.stackMem := by
  unfold State.noteBad
  simp [ite_mem]

@[simp] theorem State.setPort_fuses (s : State) (p : Nat) (x : PyPortSt) :
    (State.setPort s p x).fuses = s.fuses := by
  unfold State.setPort
  simp

@[simp] theorem State.setPort_mem (s : State) (p : Nat) (x : PyPortSt) :
    (State.setPort s p x).stackMem = s.stackMem := by
  unfold State.setPort
  simp

@[simp] theorem State.modPort_fuses (s : State) (p : Nat) (f : PyPortSt → PyPortSt) :
    (State.modPort s p f).fuses = s.fuses := by
  unfold State.modPort
  simp

@[simp] theorem State.modPort_mem (s : State) (p : Nat) (f : PyPortSt → PyPortSt) :
    (State.modPort s p f).stackMem = s.stackMem := by
  unfold State.modPort
  simp

@[simp] theorem State.queueOn_fuses (s : State) (p : Nat) (q : QMsg) :
    (State.queueOn s p q).fuses = s.fuses := by
  unfold State.queueOn
  (repeat' split) <;> simp

@[simp] theorem State.queueOn_mem (s : State) (p : Nat) (q : QMsg) :
    (State.queueOn s p q).stackMem = s.stackMem := by
  unfold State.queueOn
  (repeat' split) <;> simp

@[simp] theorem State.enqueue_fuses (s : State) (agent m : Nat) (h : Hdr) (data : List Byte) :
    (State.enqueue s agent m h data).fuses = s.fuses := by
  unfold State.enqueue
  simp [ite_fuses]

@[simp] theorem State.enqueue_mem (s : State) (agent m : Nat) (h : Hdr) (data : List Byte) :
    (State.enqueue s agent m h data).stackMem = s.stackMem := by
  unfold State.enqueue
  simp [ite_mem]

@[simp] theorem State.fwWrite_fuses (s : State) (agent : Nat) (a : BitVec 64) (bs : List Byte) :
    (State.fwWrite s agent a bs).fuses = s.fuses := by
  unfold State.fwWrite
  split <;> simp

@[simp] theorem State.fwWrite_mem (s : State) (agent : Nat) (a : BitVec 64) (bs : List Byte) :
    (State.fwWrite s agent a bs).stackMem = s.stackMem := by
  unfold State.fwWrite
  split <;> simp

@[simp] theorem State.fwWrites_fuses (s : State) (agent a : Nat) (bs : List Byte) :
    (State.fwWrites s agent a bs).fuses = s.fuses := by
  unfold State.fwWrites
  simp [foldl_fuses]

@[simp] theorem State.fwWrites_mem (s : State) (agent a : Nat) (bs : List Byte) :
    (State.fwWrites s agent a bs).stackMem = s.stackMem := by
  unfold State.fwWrites
  simp [foldl_mem]

@[simp] theorem State.sendCtrl_fuses (s : State) (fp dst what : Nat) (vals : List Nat) :
    (State.sendCtrl s fp dst what vals).fuses = s.fuses := by
  unfold State.sendCtrl
  (repeat' split) <;> simp

@[simp] theorem State.sendCtrl_mem (s : State) (fp dst what : Nat) (vals : List Nat) :
    (State.sendCtrl s fp dst what vals).stackMem = s.stackMem := by
  unfold State.sendCtrl
  (repeat' split) <;> simp

@[simp] theorem State.sendCtl_fuses (s : State) (p : PyPort) (kind val : Nat) :
    (State.sendCtl s p kind val).fuses = s.fuses := by
  unfold State.sendCtl
  simp

@[simp] theorem State.sendCtl_mem (s : State) (p : PyPort) (kind val : Nat) :
    (State.sendCtl s p kind val).stackMem = s.stackMem := by
  unfold State.sendCtl
  simp

@[simp] theorem State.giveBack_fuses (s : State) (p k n : Nat) :
    (State.giveBack s p k n).fuses = s.fuses := by
  unfold State.giveBack
  simp

@[simp] theorem State.giveBack_mem (s : State) (p k n : Nat) :
    (State.giveBack s p k n).stackMem = s.stackMem := by
  unfold State.giveBack
  simp

@[simp] theorem State.release_fuses (s : State) (q : QMsg) (n : Nat) :
    (State.release s q n).fuses = s.fuses := by
  unfold State.release
  simp

@[simp] theorem State.release_mem (s : State) (q : QMsg) (n : Nat) :
    (State.release s q n).stackMem = s.stackMem := by
  unfold State.release
  simp

@[simp] theorem State.setPyState_fuses (s : State) (p v : Nat) :
    (State.setPyState s p v).fuses = s.fuses := by
  unfold State.setPyState
  simp

@[simp] theorem State.setPyState_mem (s : State) (p v : Nat) :
    (State.setPyState s p v).stackMem = s.stackMem := by
  unfold State.setPyState
  simp

@[simp] theorem State.toTrain_fuses (s : State) (p : Nat) :
    (State.toTrain s p).fuses = s.fuses := by
  unfold State.toTrain
  simp

@[simp] theorem State.toTrain_mem (s : State) (p : Nat) :
    (State.toTrain s p).stackMem = s.stackMem := by
  unfold State.toTrain
  simp

@[simp] theorem State.bounce_fuses (s : State) (h : List Byte) :
    (State.bounce s h).fuses = s.fuses := by
  unfold State.bounce
  (repeat' split) <;> simp

@[simp] theorem State.bounce_mem (s : State) (h : List Byte) :
    (State.bounce s h).stackMem = s.stackMem := by
  unfold State.bounce
  (repeat' split) <;> simp

@[simp] theorem State.reroute_fuses (s : State) (q : QMsg) :
    (State.reroute s q).fuses = s.fuses := by
  unfold State.reroute
  (repeat' split) <;> simp

@[simp] theorem State.reroute_mem (s : State) (q : QMsg) :
    (State.reroute s q).stackMem = s.stackMem := by
  unfold State.reroute
  (repeat' split) <;> simp

@[simp] theorem State.disown_fuses (s : State) (p : Nat) :
    (State.disown s p).fuses = s.fuses := by
  unfold State.disown
  simp [foldl_fuses]

@[simp] theorem State.disown_mem (s : State) (p : Nat) :
    (State.disown s p).stackMem = s.stackMem := by
  unfold State.disown
  simp [foldl_mem]

@[simp] theorem State.dropLink_fuses (s : State) (p : Nat) :
    (State.dropLink s p).fuses = s.fuses := by
  unfold State.dropLink
  simp [foldl_fuses]

@[simp] theorem State.dropLink_mem (s : State) (p : Nat) :
    (State.dropLink s p).stackMem = s.stackMem := by
  unfold State.dropLink
  simp [foldl_mem]

@[simp] theorem State.routeAround_fuses (s : State) (p : Nat) :
    (State.routeAround s p).fuses = s.fuses := by
  unfold State.routeAround
  simp [foldl_fuses, ite_fuses]

@[simp] theorem State.routeAround_mem (s : State) (p : Nat) :
    (State.routeAround s p).stackMem = s.stackMem := by
  unfold State.routeAround
  simp [foldl_mem, ite_mem]

@[simp] theorem State.toDown_fuses (s : State) (p : Nat) :
    (State.toDown s p).fuses = s.fuses := by
  unfold State.toDown
  simp

@[simp] theorem State.toDown_mem (s : State) (p : Nat) :
    (State.toDown s p).stackMem = s.stackMem := by
  unfold State.toDown
  simp

@[simp] theorem State.stewardRuns_fuses (s : State) :
    (State.stewardRuns s).fuses = s.fuses := by
  unfold State.stewardRuns
  simp [foldl_fuses]

@[simp] theorem State.stewardRuns_mem (s : State) :
    (State.stewardRuns s).stackMem = s.stackMem := by
  unfold State.stewardRuns
  simp [foldl_mem]

@[simp] theorem State.toRetrain_fuses (s : State) (p : Nat) :
    (State.toRetrain s p).fuses = s.fuses := by
  unfold State.toRetrain
  simp

@[simp] theorem State.toRetrain_mem (s : State) (p : Nat) :
    (State.toRetrain s p).stackMem = s.stackMem := by
  unfold State.toRetrain
  simp

@[simp] theorem State.pyEnable_fuses (s : State) (p : Nat) :
    (State.pyEnable s p).fuses = s.fuses := by
  unfold State.pyEnable
  simp [ite_fuses]

@[simp] theorem State.pyEnable_mem (s : State) (p : Nat) :
    (State.pyEnable s p).stackMem = s.stackMem := by
  unfold State.pyEnable
  simp [ite_mem]

@[simp] theorem State.pyDisable_fuses (s : State) (p : Nat) :
    (State.pyDisable s p).fuses = s.fuses := by
  unfold State.pyDisable
  simp [ite_fuses]

@[simp] theorem State.pyDisable_mem (s : State) (p : Nat) :
    (State.pyDisable s p).stackMem = s.stackMem := by
  unfold State.pyDisable
  simp [ite_mem]

@[simp] theorem State.pyRetrain_fuses (s : State) (p : Nat) :
    (State.pyRetrain s p).fuses = s.fuses := by
  unfold State.pyRetrain
  simp [ite_fuses]

@[simp] theorem State.pyRetrain_mem (s : State) (p : Nat) :
    (State.pyRetrain s p).stackMem = s.stackMem := by
  unfold State.pyRetrain
  simp [ite_mem]

@[simp] theorem State.pyClear_fuses (s : State) (p : Nat) :
    (State.pyClear s p).fuses = s.fuses := by
  unfold State.pyClear
  simp

@[simp] theorem State.pyClear_mem (s : State) (p : Nat) :
    (State.pyClear s p).stackMem = s.stackMem := by
  unfold State.pyClear
  simp

@[simp] theorem State.mapLanes_fuses (s : State) (p : Nat) (ls : List Nat) :
    (State.mapLanes s p ls).fuses = s.fuses := by
  unfold State.mapLanes
  simp

@[simp] theorem State.mapLanes_mem (s : State) (p : Nat) (ls : List Nat) :
    (State.mapLanes s p ls).stackMem = s.stackMem := by
  unfold State.mapLanes
  simp

@[simp] theorem State.sendLanes_fuses (s : State) (p : PyPort) :
    (State.sendLanes s p).fuses = s.fuses := by
  unfold State.sendLanes
  simp

@[simp] theorem State.sendLanes_mem (s : State) (p : PyPort) :
    (State.sendLanes s p).stackMem = s.stackMem := by
  unfold State.sendLanes
  simp

@[simp] theorem State.remapped_fuses (s : State) (p : Nat) :
    (State.remapped s p).fuses = s.fuses := by
  unfold State.remapped
  simp [ite_fuses]

@[simp] theorem State.remapped_mem (s : State) (p : Nat) :
    (State.remapped s p).stackMem = s.stackMem := by
  unfold State.remapped
  simp [ite_mem]

@[simp] theorem State.imposeLanes_fuses (s : State) (p : PyPort) (ls : List Nat) (kind : Nat) :
    (State.imposeLanes s p ls kind).fuses = s.fuses := (State.remapped_fuses _ _).trans ((State.pyErr_fuses _ _ _ _).trans ((State.sendLanes_fuses _ _).trans (State.mapLanes_fuses _ _ _)))

@[simp] theorem State.imposeLanes_mem (s : State) (p : PyPort) (ls : List Nat) (kind : Nat) :
    (State.imposeLanes s p ls kind).stackMem = s.stackMem := (State.remapped_mem _ _).trans ((State.pyErr_mem _ _ _ _).trans ((State.sendLanes_mem _ _).trans (State.mapLanes_mem _ _ _)))

@[simp] theorem State.halve_fuses (s : State) (p : PyPort) :
    (State.halve s p).fuses = s.fuses := by
  unfold State.halve
  simp [ite_fuses]

@[simp] theorem State.halve_mem (s : State) (p : PyPort) :
    (State.halve s p).stackMem = s.stackMem := by
  unfold State.halve
  simp [ite_mem]

@[simp] theorem State.killLane_fuses (s : State) (p lane : Nat) :
    (State.killLane s p lane).fuses = s.fuses := by
  unfold State.killLane
  simp

@[simp] theorem State.killLane_mem (s : State) (p lane : Nat) :
    (State.killLane s p lane).stackMem = s.stackMem := by
  unfold State.killLane
  simp

@[simp] theorem State.laneLoss_fuses (s : State) (p : PyPort) (lane : Nat) :
    (State.laneLoss s p lane).fuses = s.fuses := by
  have h : ∀ u, (s.killLane p lane).substitute p lane = some u → u.fuses = s.fuses := by
    intro u hu
    unfold State.substitute at hu
    (repeat' split at hu) <;> simp_all <;> subst hu <;> simp
  unfold State.laneLoss
  dsimp only
  (repeat' split) <;> simp_all

@[simp] theorem State.laneLoss_mem (s : State) (p : PyPort) (lane : Nat) :
    (State.laneLoss s p lane).stackMem = s.stackMem := by
  have h : ∀ u, (s.killLane p lane).substitute p lane = some u → u.stackMem = s.stackMem := by
    intro u hu
    unfold State.substitute at hu
    (repeat' split at hu) <;> simp_all <;> subst hu <;> simp
  unfold State.laneLoss
  dsimp only
  (repeat' split) <;> simp_all

@[simp] theorem State.laneFec_fuses (s : State) (p : PyPort) (lane : Nat) :
    (State.laneFec s p lane).fuses = s.fuses := by
  have h : ∀ u, (s.killLane p lane).substitute p lane = some u → u.fuses = s.fuses := by
    intro u hu
    unfold State.substitute at hu
    (repeat' split at hu) <;> simp_all <;> subst hu <;> simp
  unfold State.laneFec
  split
  · rfl
  · split
    · next hu => exact h _ hu
    · rfl

@[simp] theorem State.laneFec_mem (s : State) (p : PyPort) (lane : Nat) :
    (State.laneFec s p lane).stackMem = s.stackMem := by
  have h : ∀ u, (s.killLane p lane).substitute p lane = some u → u.stackMem = s.stackMem := by
    intro u hu
    unfold State.substitute at hu
    (repeat' split at hu) <;> simp_all <;> subst hu <;> simp
  unfold State.laneFec
  split
  · rfl
  · split
    · next hu => exact h _ hu
    · rfl

@[simp] theorem State.lanesImposed_fuses (s : State) (p : PyPort) (ls : List Nat) :
    (State.lanesImposed s p ls).fuses = s.fuses := by
  unfold State.lanesImposed
  simp [foldl_fuses, ite_fuses]

@[simp] theorem State.lanesImposed_mem (s : State) (p : PyPort) (ls : List Nat) :
    (State.lanesImposed s p ls).stackMem = s.stackMem := by
  unfold State.lanesImposed
  simp [foldl_mem, ite_mem]

@[simp] theorem State.trainDone_fuses (s : State) (p : PyPort) (locked : BitVec 9) :
    (State.trainDone s p locked).fuses = s.fuses := by
  unfold State.trainDone
  simp [ite_fuses]

@[simp] theorem State.trainDone_mem (s : State) (p : PyPort) (locked : BitVec 9) :
    (State.trainDone s p locked).stackMem = s.stackMem := by
  unfold State.trainDone
  simp [ite_mem]

@[simp] theorem State.probe_fuses (s : State) (p m port role : Nat) :
    (State.probe s p m port role).fuses = s.fuses := by
  unfold State.probe
  simp [ite_fuses]

@[simp] theorem State.probe_mem (s : State) (p m port role : Nat) :
    (State.probe s p m port role).stackMem = s.stackMem := by
  unfold State.probe
  simp [ite_mem]

@[simp] theorem State.consumed_fuses (s : State) (p vc : Nat) (cls : Bool) (h : List Byte) (n : Nat) :
    (State.consumed s p vc cls h n).fuses = s.fuses := by
  unfold State.consumed
  simp [ite_fuses]

@[simp] theorem State.consumed_mem (s : State) (p vc : Nat) (cls : Bool) (h : List Byte) (n : Nat) :
    (State.consumed s p vc cls h n).stackMem = s.stackMem := by
  unfold State.consumed
  simp [ite_mem]

@[simp] theorem State.msgIn_fuses (s : State) (p : PyPort) (vc : Nat) (cls : Bool) (n : Nat) (flits : List (List Byte)) :
    (State.msgIn s p vc cls n flits).fuses = s.fuses := by
  unfold State.msgIn
  (repeat' split) <;> simp

@[simp] theorem State.msgIn_mem (s : State) (p : PyPort) (vc : Nat) (cls : Bool) (n : Nat) (flits : List (List Byte)) :
    (State.msgIn s p vc cls n flits).stackMem = s.stackMem := by
  unfold State.msgIn
  (repeat' split) <;> simp

@[simp] theorem State.flitIn_fuses (s : State) (p : PyPort) (t : Trailer) (flit : List Byte) :
    (State.flitIn s p t flit).fuses = s.fuses := by
  unfold State.flitIn
  dsimp only
  (repeat' split) <;> simp_all

@[simp] theorem State.flitIn_mem (s : State) (p : PyPort) (t : Trailer) (flit : List Byte) :
    (State.flitIn s p t flit).stackMem = s.stackMem := by
  unfold State.flitIn
  dsimp only
  (repeat' split) <;> simp_all

@[simp] theorem State.nakOut_fuses (s : State) (p : PyPort) :
    (State.nakOut s p).fuses = s.fuses := by
  unfold State.nakOut
  simp [ite_fuses]

@[simp] theorem State.nakOut_mem (s : State) (p : PyPort) :
    (State.nakOut s p).stackMem = s.stackMem := by
  unfold State.nakOut
  simp [ite_mem]

@[simp] theorem State.linkUnit_fuses (s : State) (p : PyPort) (e : LinkRx) :
    (State.linkUnit s p e).fuses = s.fuses := by
  unfold State.linkUnit
  dsimp only
  (repeat' split) <;> simp_all

@[simp] theorem State.linkUnit_mem (s : State) (p : PyPort) (e : LinkRx) :
    (State.linkUnit s p e).stackMem = s.stackMem := by
  unfold State.linkUnit
  dsimp only
  (repeat' split) <;> simp_all

@[simp] theorem State.nakRx_fuses (s : State) (p : Nat) (seq : BitVec 12) :
    (State.nakRx s p seq).fuses = s.fuses := by
  unfold State.nakRx
  simp [ite_fuses]

@[simp] theorem State.nakRx_mem (s : State) (p : Nat) (seq : BitVec 12) :
    (State.nakRx s p seq).stackMem = s.stackMem := by
  unfold State.nakRx
  simp [ite_mem]

@[simp] theorem State.retrainDone_fuses (s : State) (p : Nat) (third : Bool) (ack : BitVec 12) :
    (State.retrainDone s p third ack).fuses = s.fuses := by
  unfold State.retrainDone
  simp [ite_fuses]

@[simp] theorem State.retrainDone_mem (s : State) (p : Nat) (third : Bool) (ack : BitVec 12) :
    (State.retrainDone s p third ack).stackMem = s.stackMem := by
  unfold State.retrainDone
  simp [ite_mem]

@[simp] theorem State.sendFlit_fuses (s : State) (p : PyPort) (q : QMsg) :
    (State.sendFlit s p q).fuses = s.fuses := by
  unfold State.sendFlit
  (repeat' split) <;> simp

@[simp] theorem State.sendFlit_mem (s : State) (p : PyPort) (q : QMsg) :
    (State.sendFlit s p q).stackMem = s.stackMem := by
  unfold State.sendFlit
  (repeat' split) <;> simp

@[simp] theorem State.flitSend_fuses (s : State) (p : PyPort) :
    (State.flitSend s p).fuses = s.fuses := by
  unfold State.flitSend
  dsimp only
  (repeat' split) <;> simp_all

@[simp] theorem State.flitSend_mem (s : State) (p : PyPort) :
    (State.flitSend s p).stackMem = s.stackMem := by
  unfold State.flitSend
  dsimp only
  (repeat' split) <;> simp_all

@[simp] theorem State.xHold_fuses (s : State) (stn : Nat) :
    (State.xHold s stn).fuses = s.fuses := by
  unfold State.xHold
  simp [ite_fuses]

@[simp] theorem State.xHold_mem (s : State) (stn : Nat) :
    (State.xHold s stn).stackMem = s.stackMem := by
  unfold State.xHold
  simp [ite_mem]

@[simp] theorem State.xPush_fuses (s : State) (stn : Nat) (e : XEntry) :
    (State.xPush s stn e).fuses = s.fuses := by
  unfold State.xPush
  simp

@[simp] theorem State.xPush_mem (s : State) (stn : Nat) (e : XEntry) :
    (State.xPush s stn e).stackMem = s.stackMem := by
  unfold State.xPush
  simp

@[simp] theorem State.freeTag_fuses (s : State) (stn k : Nat) :
    (State.freeTag s stn k).fuses = s.fuses := by
  unfold State.freeTag
  simp

@[simp] theorem State.freeTag_mem (s : State) (stn k : Nat) :
    (State.freeTag s stn k).stackMem = s.stackMem := by
  unfold State.freeTag
  simp

@[simp] theorem State.xFault_fuses (s : State) (stn code : Nat) (e : XEntry) :
    (State.xFault s stn code e).fuses = s.fuses := by
  unfold State.xFault
  simp

@[simp] theorem State.xFault_mem (s : State) (stn code : Nat) (e : XEntry) :
    (State.xFault s stn code e).stackMem = s.stackMem := by
  unfold State.xFault
  simp

@[simp] theorem State.xImem_fuses (s : State) (stn : Nat) (e : XEntry) :
    (State.xImem s stn e).fuses = s.fuses := by
  unfold State.xImem
  simp

@[simp] theorem State.xImem_mem (s : State) (stn : Nat) (e : XEntry) :
    (State.xImem s stn e).stackMem = s.stackMem := by
  unfold State.xImem
  simp

@[simp] theorem State.xLand_fuses (s : State) (stn : Nat) (e : XEntry) (data : List Byte) :
    (State.xLand s stn e data).fuses = s.fuses := by
  unfold State.xLand
  (repeat' split) <;> simp

@[simp] theorem State.xLand_mem (s : State) (stn : Nat) (e : XEntry) (data : List Byte) :
    (State.xLand s stn e data).stackMem = s.stackMem := by
  unfold State.xLand
  (repeat' split) <;> simp

@[simp] theorem State.xRespond_fuses (s : State) (stn k status : Nat) (data : List Byte) :
    (State.xRespond s stn k status data).fuses = s.fuses := by
  unfold State.xRespond
  dsimp only
  (repeat' split) <;> simp_all

@[simp] theorem State.xRespond_mem (s : State) (stn k status : Nat) (data : List Byte) :
    (State.xRespond s stn k status data).stackMem = s.stackMem := by
  unfold State.xRespond
  dsimp only
  (repeat' split) <;> simp_all

@[simp] theorem State.xInc_fuses (s : State) (i : Issue) (o : XOp) (t : Nat) :
    (State.xInc s i o t).fuses = s.fuses := by
  unfold State.xInc
  simp [ite_fuses]

@[simp] theorem State.xInc_mem (s : State) (i : Issue) (o : XOp) (t : Nat) :
    (State.xInc s i o t).stackMem = s.stackMem := by
  unfold State.xInc
  simp [ite_mem]

@[simp] theorem xfetchEff_fuses (i : Issue) (o : XOp) (p : OpPlace) (s : State) :
    (xfetchEff i o p s).fuses = s.fuses := by
  unfold xfetchEff
  simp

@[simp] theorem xfetchEff_mem (i : Issue) (o : XOp) (p : OpPlace) (s : State) :
    (xfetchEff i o p s).stackMem = s.stackMem := by
  unfold xfetchEff
  simp

@[simp] theorem feedEff_fuses (i : Issue) (o : FeedOp) (p : OpPlace) (s : State) :
    (feedEff i o p s).fuses = s.fuses := by
  unfold feedEff
  simp [ite_fuses]

@[simp] theorem feedEff_mem (i : Issue) (o : FeedOp) (p : OpPlace) (s : State) :
    (feedEff i o p s).stackMem = s.stackMem := by
  unfold feedEff
  simp [ite_mem]

@[simp] theorem xputEff_fuses (i : Issue) (o : XOp) (p : OpPlace) (s : State) :
    (xputEff i o p s).fuses = s.fuses := by
  unfold xputEff
  (repeat' split) <;> simp

@[simp] theorem xputEff_mem (i : Issue) (o : XOp) (p : OpPlace) (s : State) :
    (xputEff i o p s).stackMem = s.stackMem := by
  unfold xputEff
  (repeat' split) <;> simp

@[simp] theorem xcancelEff_fuses (i : Issue) (g : Nat) (u_ : OpPlace) (s : State) :
    (xcancelEff i g u_ s).fuses = s.fuses := by
  unfold xcancelEff
  simp

@[simp] theorem xcancelEff_mem (i : Issue) (g : Nat) (u_ : OpPlace) (s : State) :
    (xcancelEff i g u_ s).stackMem = s.stackMem := by
  unfold xcancelEff
  simp

@[simp] theorem xredEff_fuses (i : Issue) (o : XredOp) (p : OpPlace) (s : State) :
    (xredEff i o p s).fuses = s.fuses := by
  unfold xredEff
  simp

@[simp] theorem xredEff_mem (i : Issue) (o : XredOp) (p : OpPlace) (s : State) :
    (xredEff i o p s).stackMem = s.stackMem := by
  unfold xredEff
  simp

@[simp] theorem xnormEff_fuses (i : Issue) (o : XnormOp) (p : OpPlace) (s : State) :
    (xnormEff i o p s).fuses = s.fuses := by
  unfold xnormEff
  simp

@[simp] theorem xnormEff_mem (i : Issue) (o : XnormOp) (p : OpPlace) (s : State) :
    (xnormEff i o p s).stackMem = s.stackMem := by
  unfold xnormEff
  simp

@[simp] theorem State.lcRequest_fuses (s : State) (d line : Nat) :
    (State.lcRequest s d line).fuses = s.fuses := by
  unfold State.lcRequest
  dsimp only
  (repeat' split) <;> simp_all

@[simp] theorem State.lcRequest_mem (s : State) (d line : Nat) :
    (State.lcRequest s d line).stackMem = s.stackMem := by
  unfold State.lcRequest
  dsimp only
  (repeat' split) <;> simp_all

@[simp] theorem State.lcHit_fuses (s : State) (stn k : Nat) (q : Nat × Nat × Nat) (l : LcLine) (e : Ecc) (fails : Nat) :
    (State.lcHit s stn k q l e fails).fuses = s.fuses := by
  unfold State.lcHit
  simp [ite_fuses]

@[simp] theorem State.lcHit_mem (s : State) (stn k : Nat) (q : Nat × Nat × Nat) (l : LcLine) (e : Ecc) (fails : Nat) :
    (State.lcHit s stn k q l e fails).stackMem = s.stackMem := by
  unfold State.lcHit
  simp [ite_mem]

@[simp] theorem State.lcRead_fuses (s : State) (stn k : Nat) (q : Nat × Nat × Nat) (e : Ecc) (fails : Nat) :
    (State.lcRead s stn k q e fails).fuses = s.fuses := by
  unfold State.lcRead
  dsimp only
  (repeat' split) <;> simp_all

@[simp] theorem State.lcRead_mem (s : State) (stn k : Nat) (q : Nat × Nat × Nat) (e : Ecc) (fails : Nat) :
    (State.lcRead s stn k q e fails).stackMem = s.stackMem := by
  unfold State.lcRead
  dsimp only
  (repeat' split) <;> simp_all

@[simp] theorem State.lcReads_fuses (s : State) (stn k : Nat) (e : Ecc) (fails : Nat) (z0 : List (Nat × Nat × Nat)) :
    (State.lcReads s stn k e fails z0).fuses = s.fuses := by
  induction z0 generalizing s e fails with
  | nil => simp [State.lcReads]
  | cons q qs ih =>
    simp only [State.lcReads]
    split
    · rfl
    · split <;> (rw [ih]; simp)

@[simp] theorem State.lcReads_mem (s : State) (stn k : Nat) (e : Ecc) (fails : Nat) (z0 : List (Nat × Nat × Nat)) :
    (State.lcReads s stn k e fails z0).stackMem = s.stackMem := by
  induction z0 generalizing s e fails with
  | nil => simp [State.lcReads]
  | cons q qs ih =>
    simp only [State.lcReads]
    split
    · rfl
    · split <;> (rw [ih]; simp)

@[simp] theorem State.lcFetch_fuses (s : State) (stn : Nat) (e : XEntry) (c : Ecc) (fails : Nat) :
    (State.lcFetch s stn e c fails).fuses = s.fuses := by
  unfold State.lcFetch
  simp [ite_fuses]

@[simp] theorem State.lcFetch_mem (s : State) (stn : Nat) (e : XEntry) (c : Ecc) (fails : Nat) :
    (State.lcFetch s stn e c fails).stackMem = s.stackMem := by
  unfold State.lcFetch
  simp [ite_mem]

@[simp] theorem State.lcServe_fuses (s : State) (status line : Nat) (data : List Byte) (w : LcWait) :
    (State.lcServe s status line data w).fuses = s.fuses := by
  unfold State.lcServe
  simp [ite_fuses]

@[simp] theorem State.lcServe_mem (s : State) (status line : Nat) (data : List Byte) (w : LcWait) :
    (State.lcServe s status line data w).stackMem = s.stackMem := by
  unfold State.lcServe
  simp [ite_mem]

@[simp] theorem State.lcFill_fuses (s : State) (d line status : Nat) (data : List Byte) (fails : Nat) :
    (State.lcFill s d line status data fails).fuses = s.fuses := by
  unfold State.lcFill
  dsimp only
  (repeat' split) <;> simp_all [foldl_fuses]

@[simp] theorem State.lcFill_mem (s : State) (d line status : Nat) (data : List Byte) (fails : Nat) :
    (State.lcFill s d line status data fails).stackMem = s.stackMem := by
  unfold State.lcFill
  dsimp only
  (repeat' split) <;> simp_all [foldl_mem]

@[simp] theorem State.normAdd_fuses (s : State) (stn : Nat) (e : XEntry) (p : RedParams) :
    (State.normAdd s stn e p).fuses = s.fuses := by
  unfold State.normAdd
  simp [ite_fuses]

@[simp] theorem State.normAdd_mem (s : State) (stn : Nat) (e : XEntry) (p : RedParams) :
    (State.normAdd s stn e p).stackMem = s.stackMem := by
  unfold State.normAdd
  simp [ite_mem]

@[simp] theorem State.sendFeed_fuses (s : State) (stn : Nat) (e : XEntry) :
    (State.sendFeed s stn e).fuses = s.fuses := by
  unfold State.sendFeed
  (repeat' split) <;> simp

@[simp] theorem State.sendFeed_mem (s : State) (stn : Nat) (e : XEntry) :
    (State.sendFeed s stn e).stackMem = s.stackMem := by
  unfold State.sendFeed
  (repeat' split) <;> simp

@[simp] theorem State.takeTag_fuses (s : State) (stn : Nat) (e : XEntry) :
    (State.takeTag s stn e).fuses = s.fuses := by
  unfold State.takeTag
  simp

@[simp] theorem State.takeTag_mem (s : State) (stn : Nat) (e : XEntry) :
    (State.takeTag s stn e).stackMem = s.stackMem := by
  unfold State.takeTag
  simp

@[simp] theorem State.sendRequest_fuses (s : State) (stn : Nat) (e : XEntry) (c : Ecc) (fails : Nat) :
    (State.sendRequest s stn e c fails).fuses = s.fuses := by
  unfold State.sendRequest
  dsimp only
  (repeat' split) <;> simp_all

@[simp] theorem State.sendRequest_mem (s : State) (stn : Nat) (e : XEntry) (c : Ecc) (fails : Nat) :
    (State.sendRequest s stn e c fails).stackMem = s.stackMem := by
  unfold State.sendRequest
  dsimp only
  (repeat' split) <;> simp_all

@[simp] theorem State.landEcc_fuses (s : State) (i : Nat) (e : Ecc) :
    (State.landEcc s i e).1.fuses = s.fuses := by
  unfold State.landEcc
  (repeat' split) <;> simp

@[simp] theorem State.landEcc_mem (s : State) (i : Nat) (e : Ecc) :
    (State.landEcc s i e).1.stackMem = s.stackMem := by
  unfold State.landEcc
  (repeat' split) <;> simp

@[simp] theorem State.sendReduce_fuses (s : State) (stn : Nat) (e : XEntry) (c : Ecc) :
    (State.sendReduce s stn e c).fuses = s.fuses := by
  unfold State.sendReduce
  simp [ite_fuses]

@[simp] theorem State.sendReduce_mem (s : State) (stn : Nat) (e : XEntry) (c : Ecc) :
    (State.sendReduce s stn e c).stackMem = s.stackMem := by
  unfold State.sendReduce
  simp [ite_mem]

@[simp] theorem State.countGen_fuses (s : State) :
    (State.countGen s).fuses = s.fuses := by
  unfold State.countGen
  simp

@[simp] theorem State.countGen_mem (s : State) :
    (State.countGen s).stackMem = s.stackMem := by
  unfold State.countGen
  simp

@[simp] theorem State.xResponse_fuses (s : State) (stn : Nat) (m : RspMsg) :
    (State.xResponse s stn m).fuses = s.fuses := by
  unfold State.xResponse
  simp [ite_fuses]

@[simp] theorem State.xResponse_mem (s : State) (stn : Nat) (m : RspMsg) :
    (State.xResponse s stn m).stackMem = s.stackMem := by
  unfold State.xResponse
  simp [ite_mem]

@[simp] theorem State.xnormResult_fuses (s : State) (stn k : Nat) (gen : BitVec 4) (total : BitVec 64) :
    (State.xnormResult s stn k gen total).fuses = s.fuses := by
  unfold State.xnormResult
  dsimp only
  (repeat' split) <;> simp_all

@[simp] theorem State.xnormResult_mem (s : State) (stn k : Nat) (gen : BitVec 4) (total : BitVec 64) :
    (State.xnormResult s stn k gen total).stackMem = s.stackMem := by
  unfold State.xnormResult
  dsimp only
  (repeat' split) <;> simp_all

@[simp] theorem State.tellAgent_fuses (s : State) (agent : Nat) (gen : BitVec 4) (tag : BitVec 6) (status : Nat) (wr : Bool) (data : List Byte) :
    (State.tellAgent s agent gen tag status wr data).fuses = s.fuses := by
  unfold State.tellAgent
  simp [ite_fuses]

@[simp] theorem State.tellAgent_mem (s : State) (agent : Nat) (gen : BitVec 4) (tag : BitVec 6) (status : Nat) (wr : Bool) (data : List Byte) :
    (State.tellAgent s agent gen tag status wr data).stackMem = s.stackMem := by
  unfold State.tellAgent
  simp [ite_mem]

@[simp] theorem State.answer_fuses (s : State) (agent : Nat) (gen : BitVec 4) (tag status : Nat) (wr : Bool) (data : List Byte) :
    (State.answer s agent gen tag status wr data).fuses = s.fuses := by
  unfold State.answer
  simp [ite_fuses]

@[simp] theorem State.answer_mem (s : State) (agent : Nat) (gen : BitVec 4) (tag status : Nat) (wr : Bool) (data : List Byte) :
    (State.answer s agent gen tag status wr data).stackMem = s.stackMem := by
  unfold State.answer
  simp [ite_mem]

@[simp] theorem State.setGroup'_fuses (s : State) (g : Nat) (x : McGroup) :
    (State.setGroup' s g x).fuses = s.fuses := by
  unfold State.setGroup'
  simp

@[simp] theorem State.setGroup'_mem (s : State) (g : Nat) (x : McGroup) :
    (State.setGroup' s g x).stackMem = s.stackMem := by
  unfold State.setGroup'
  simp

@[simp] theorem State.mcastTake_fuses (s : State) (g : Nat) (m : ReqMsg) :
    (State.mcastTake s g m).fuses = s.fuses := by
  unfold State.mcastTake
  simp [ite_fuses]

@[simp] theorem State.mcastTake_mem (s : State) (g : Nat) (m : ReqMsg) :
    (State.mcastTake s g m).stackMem = s.stackMem := by
  unfold State.mcastTake
  simp [ite_mem]

@[simp] theorem State.mcAnswered_fuses (s : State) (g i : Nat) (q : BitVec 32) (ok : Bool) :
    (State.mcAnswered s g i q ok).fuses = s.fuses := by
  unfold State.mcAnswered
  simp

@[simp] theorem State.mcAnswered_mem (s : State) (g i : Nat) (q : BitVec 32) (ok : Bool) :
    (State.mcAnswered s g i q ok).stackMem = s.stackMem := by
  unfold State.mcAnswered
  simp

@[simp] theorem State.mcSend_fuses (s : State) (g i : Nat) (m : McMsg) :
    (State.mcSend s g i m).fuses = s.fuses := by
  unfold State.mcSend
  (repeat' split) <;> simp

@[simp] theorem State.mcSend_mem (s : State) (g i : Nat) (m : McMsg) :
    (State.mcSend s g i m).stackMem = s.stackMem := by
  unfold State.mcSend
  (repeat' split) <;> simp

@[simp] theorem State.mcNew_fuses (s : State) (g : Nat) :
    (State.mcNew s g).fuses = s.fuses := by
  unfold State.mcNew
  dsimp only
  (repeat' split) <;> simp_all [foldl_fuses]

@[simp] theorem State.mcNew_mem (s : State) (g : Nat) :
    (State.mcNew s g).stackMem = s.stackMem := by
  unfold State.mcNew
  dsimp only
  (repeat' split) <;> simp_all [foldl_mem]

@[simp] theorem State.mcStraggler_fuses (s : State) (g i : Nat) :
    (State.mcStraggler s g i).fuses = s.fuses := by
  unfold State.mcStraggler
  dsimp only
  (repeat' split) <;> simp_all

@[simp] theorem State.mcStraggler_mem (s : State) (g i : Nat) :
    (State.mcStraggler s g i).stackMem = s.stackMem := by
  unfold State.mcStraggler
  dsimp only
  (repeat' split) <;> simp_all

@[simp] theorem State.mcOff_fuses (s : State) (g i : Nat) :
    (State.mcOff s g i).fuses = s.fuses := by
  unfold State.mcOff
  simp

@[simp] theorem State.mcOff_mem (s : State) (g i : Nat) :
    (State.mcOff s g i).stackMem = s.stackMem := by
  unfold State.mcOff
  simp

@[simp] theorem State.mcRejoin_fuses (s : State) (g i : Nat) :
    (State.mcRejoin s g i).fuses = s.fuses := by
  unfold State.mcRejoin
  simp [ite_fuses]

@[simp] theorem State.mcRejoin_mem (s : State) (g i : Nat) :
    (State.mcRejoin s g i).stackMem = s.stackMem := by
  unfold State.mcRejoin
  simp [ite_mem]

@[simp] theorem State.mcDrop_fuses (s : State) (g : Nat) (q : BitVec 32) :
    (State.mcDrop s g q).fuses = s.fuses := by
  unfold State.mcDrop
  simp [foldl_fuses]

@[simp] theorem State.mcDrop_mem (s : State) (g : Nat) (q : BitVec 32) :
    (State.mcDrop s g q).stackMem = s.stackMem := by
  unfold State.mcDrop
  simp [foldl_mem]

@[simp] theorem State.mcFail_fuses (s : State) (g : Nat) (m : McMsg) :
    (State.mcFail s g m).fuses = s.fuses := by
  unfold State.mcFail
  simp [ite_fuses]

@[simp] theorem State.mcFail_mem (s : State) (g : Nat) (m : McMsg) :
    (State.mcFail s g m).stackMem = s.stackMem := by
  unfold State.mcFail
  simp [ite_mem]

@[simp] theorem State.mcFinish_fuses (s : State) (g : Nat) (q : BitVec 32) :
    (State.mcFinish s g q).fuses = s.fuses := by
  unfold State.mcFinish
  (repeat' split) <;> simp_all

@[simp] theorem State.mcFinish_mem (s : State) (g : Nat) (q : BitVec 32) :
    (State.mcFinish s g q).stackMem = s.stackMem := by
  unfold State.mcFinish
  (repeat' split) <;> simp_all

@[simp] theorem State.mcFinishes_fuses (s : State) (g : Nat) :
    (State.mcFinishes s g).fuses = s.fuses := by
  unfold State.mcFinishes
  simp [foldl_fuses]

@[simp] theorem State.mcFinishes_mem (s : State) (g : Nat) :
    (State.mcFinishes s g).stackMem = s.stackMem := by
  unfold State.mcFinishes
  simp [foldl_mem]

@[simp] theorem State.mcastSend_fuses (s : State) (g : Nat) :
    (State.mcastSend s g).fuses = s.fuses := by
  unfold State.mcastSend
  simp [foldl_fuses]

@[simp] theorem State.mcastSend_mem (s : State) (g : Nat) :
    (State.mcastSend s g).stackMem = s.stackMem := by
  unfold State.mcastSend
  simp [foldl_mem]

@[simp] theorem State.mcAck_fuses (s : State) (g i : Nat) (q : BitVec 32) (status : Nat) :
    (State.mcAck s g i q status).fuses = s.fuses := by
  unfold State.mcAck
  simp [ite_fuses]

@[simp] theorem State.mcAck_mem (s : State) (g i : Nat) (q : BitVec 32) (status : Nat) :
    (State.mcAck s g i q status).stackMem = s.stackMem := by
  unfold State.mcAck
  simp [ite_mem]

@[simp] theorem State.mcRetry_fuses (s : State) (g i : Nat) :
    (State.mcRetry s g i).fuses = s.fuses := by
  unfold State.mcRetry
  (repeat' split) <;> simp

@[simp] theorem State.mcRetry_mem (s : State) (g i : Nat) :
    (State.mcRetry s g i).stackMem = s.stackMem := by
  unfold State.mcRetry
  (repeat' split) <;> simp

@[simp] theorem State.mcTimeout_fuses (s : State) (g : Nat) (q : BitVec 32) :
    (State.mcTimeout s g q).fuses = s.fuses := by
  unfold State.mcTimeout
  (repeat' split) <;> simp

@[simp] theorem State.mcTimeout_mem (s : State) (g : Nat) (q : BitVec 32) :
    (State.mcTimeout s g q).stackMem = s.stackMem := by
  unfold State.mcTimeout
  (repeat' split) <;> simp

@[simp] theorem State.redSend_fuses (s : State) (opc r : Nat) (m : RedMsg) :
    (State.redSend s opc r m).fuses = s.fuses := by
  unfold State.redSend
  dsimp only
  (repeat' split) <;> simp_all

@[simp] theorem State.redSend_mem (s : State) (opc r : Nat) (m : RedMsg) :
    (State.redSend s opc r m).stackMem = s.stackMem := by
  unfold State.redSend
  dsimp only
  (repeat' split) <;> simp_all

@[simp] theorem State.setKey_fuses (s : State) (k : RedKey) :
    (State.setKey s k).fuses = s.fuses := by
  unfold State.setKey
  simp

@[simp] theorem State.setKey_mem (s : State) (k : RedKey) :
    (State.setKey s k).stackMem = s.stackMem := by
  unfold State.setKey
  simp

@[simp] theorem State.dropKey_fuses (s : State) (key : BitVec 32) :
    (State.dropKey s key).fuses = s.fuses := by
  unfold State.dropKey
  simp [foldl_fuses]

@[simp] theorem State.dropKey_mem (s : State) (key : BitVec 32) :
    (State.dropKey s key).stackMem = s.stackMem := by
  unfold State.dropKey
  simp [foldl_mem]

@[simp] theorem State.redAnswer_fuses (s : State) (agent : Nat) (gen : BitVec 4) (tag status : Nat) (data : List Byte) :
    (State.redAnswer s agent gen tag status data).fuses = s.fuses := by
  unfold State.redAnswer
  simp [ite_fuses]

@[simp] theorem State.redAnswer_mem (s : State) (agent : Nat) (gen : BitVec 4) (tag status : Nat) (data : List Byte) :
    (State.redAnswer s agent gen tag status data).stackMem = s.stackMem := by
  unfold State.redAnswer
  simp [ite_mem]

@[simp] theorem State.redLand_fuses (s : State) (k : RedKey) (r : Nat) (mism : Bool) (data : List Byte) :
    (State.redLand s k r mism data).fuses = s.fuses := by
  unfold State.redLand
  simp [foldl_fuses, ite_fuses]

@[simp] theorem State.redLand_mem (s : State) (k : RedKey) (r : Nat) (mism : Bool) (data : List Byte) :
    (State.redLand s k r mism data).stackMem = s.stackMem := by
  unfold State.redLand
  simp [foldl_mem, ite_mem]

@[simp] theorem State.redAdvance_fuses (s : State) (k : RedKey) :
    (State.redAdvance s k).fuses = s.fuses := by
  unfold State.redAdvance
  (repeat' split) <;> simp

@[simp] theorem State.redAdvance_mem (s : State) (k : RedKey) :
    (State.redAdvance s k).stackMem = s.stackMem := by
  unfold State.redAdvance
  (repeat' split) <;> simp

@[simp] theorem State.redRefuse_fuses (s : State) (k : RedKey) (m : RedMsg) :
    (State.redRefuse s k m).fuses = s.fuses := by
  unfold State.redRefuse
  simp [ite_fuses]

@[simp] theorem State.redRefuse_mem (s : State) (k : RedKey) (m : RedMsg) :
    (State.redRefuse s k m).stackMem = s.stackMem := by
  unfold State.redRefuse
  simp [ite_mem]

@[simp] theorem State.redTake_fuses (s : State) (m : RedMsg) :
    (State.redTake s m).fuses = s.fuses := by
  unfold State.redTake
  dsimp only
  (repeat' split) <;> simp_all

@[simp] theorem State.redTake_mem (s : State) (m : RedMsg) :
    (State.redTake s m).stackMem = s.stackMem := by
  unfold State.redTake
  dsimp only
  (repeat' split) <;> simp_all

@[simp] theorem State.redRetry_fuses (s : State) :
    (State.redRetry s).fuses = s.fuses := by
  unfold State.redRetry
  simp [foldl_fuses]

@[simp] theorem State.redRetry_mem (s : State) :
    (State.redRetry s).stackMem = s.stackMem := by
  unfold State.redRetry
  simp [foldl_mem]

@[simp] theorem State.redDown_fuses (s : State) (m : RedMsg) :
    (State.redDown s m).fuses = s.fuses := by
  unfold State.redDown
  (repeat' split) <;> simp

@[simp] theorem State.redDown_mem (s : State) (m : RedMsg) :
    (State.redDown s m).stackMem = s.stackMem := by
  unfold State.redDown
  (repeat' split) <;> simp

@[simp] theorem State.redForget_fuses (s : State) (stn k : Nat) (e : XEntry) :
    (State.redForget s stn k e).fuses = s.fuses := by
  unfold State.redForget
  dsimp only
  split
  · rw [State.redRetry_fuses, foldl_fuses (fun u a => State.dropKey_fuses _ _)]
  · rw [State.redRetry_fuses, foldl_fuses (fun u a => State.dropKey_fuses _ _)]
  · rfl

@[simp] theorem State.redForget_mem (s : State) (stn k : Nat) (e : XEntry) :
    (State.redForget s stn k e).stackMem = s.stackMem := by
  unfold State.redForget
  dsimp only
  split
  · rw [State.redRetry_mem, foldl_mem (fun u a => State.dropKey_mem _ _)]
  · rw [State.redRetry_mem, foldl_mem (fun u a => State.dropKey_mem _ _)]
  · rfl

@[simp] theorem State.tagTimeout_fuses (s : State) (stn k : Nat) :
    (State.tagTimeout s stn k).fuses = s.fuses := by
  unfold State.tagTimeout
  dsimp only
  (repeat' split) <;> simp_all

@[simp] theorem State.tagTimeout_mem (s : State) (stn k : Nat) :
    (State.tagTimeout s stn k).stackMem = s.stackMem := by
  unfold State.tagTimeout
  dsimp only
  (repeat' split) <;> simp_all

@[simp] theorem State.fillBank_fuses (s : State) (i : Nat) (m : Strm) (b : Bool) (img : List Byte) :
    (State.fillBank s i m b img).fuses = s.fuses := by
  unfold State.fillBank
  simp

@[simp] theorem State.fillBank_mem (s : State) (i : Nat) (m : Strm) (b : Bool) (img : List Byte) :
    (State.fillBank s i m b img).stackMem = s.stackMem := by
  unfold State.fillBank
  simp

@[simp] theorem State.partBank_fuses (s : State) (i : Nat) (m : Strm) (b : Bool) (bs : List Byte) :
    (State.partBank s i m b bs).fuses = s.fuses := by
  unfold State.partBank
  simp [ite_fuses]

@[simp] theorem State.partBank_mem (s : State) (i : Nat) (m : Strm) (b : Bool) (bs : List Byte) :
    (State.partBank s i m b bs).stackMem = s.stackMem := by
  unfold State.partBank
  simp [ite_mem]

@[simp] theorem State.loadFirst_fuses (s : State) (n : Nat) (z0 : List (Nat × BankDesc)) :
    (State.loadFirst s n z0).fuses = s.fuses := by
  induction z0 generalizing s n with
  | nil => rfl
  | cons q rest ih =>
    unfold State.loadFirst
    split
    · rfl
    · rw [ih]; simp

@[simp] theorem State.loadFirst_mem (s : State) (n : Nat) (z0 : List (Nat × BankDesc)) :
    (State.loadFirst s n z0).stackMem = s.stackMem := by
  induction z0 generalizing s n with
  | nil => rfl
  | cons q rest ih =>
    unfold State.loadFirst
    split
    · rfl
    · rw [ih]; simp

@[simp] theorem State.abandonTask_fuses (s : State) (q : Nat × Instr) :
    (State.abandonTask s q).fuses = s.fuses := by
  unfold State.abandonTask
  split
  · simp
  · rfl

@[simp] theorem State.abandonTask_mem (s : State) (q : Nat × Instr) :
    (State.abandonTask s q).stackMem = s.stackMem := by
  unfold State.abandonTask
  split
  · simp
  · rfl

@[simp] theorem State.restart_fuses (s : State) (p cause : Nat) :
    (State.restart s p cause).fuses = s.fuses := by
  unfold State.restart
  simp [foldl_fuses, ite_fuses]

@[simp] theorem State.restart_mem (s : State) (p cause : Nat) :
    (State.restart s p cause).stackMem = s.stackMem := by
  unfold State.restart
  simp [foldl_mem, ite_mem]

@[simp] theorem State.csrRefused_fuses (s : State) (r : Reg) (v : Nat) :
    (State.csrRefused s r v).fuses = s.fuses := by
  unfold State.csrRefused
  (repeat' split) <;> simp

@[simp] theorem State.csrRefused_mem (s : State) (r : Reg) (v : Nat) :
    (State.csrRefused s r v).stackMem = s.stackMem := by
  unfold State.csrRefused
  (repeat' split) <;> simp

@[simp] theorem State.shtClear_fuses (s : State) (d : Nat) :
    (State.shtClear s d).fuses = s.fuses := by
  unfold State.shtClear
  simp

@[simp] theorem State.shtClear_mem (s : State) (d : Nat) :
    (State.shtClear s d).stackMem = s.stackMem := by
  unfold State.shtClear
  simp

@[simp] theorem State.fwHold_fuses (s : State) (d : Nat) :
    (State.fwHold s d).fuses = s.fuses := by
  unfold State.fwHold
  simp [ite_fuses]

@[simp] theorem State.fwHold_mem (s : State) (d : Nat) :
    (State.fwHold s d).stackMem = s.stackMem := by
  unfold State.fwHold
  simp [ite_mem]

@[simp] theorem State.dbgGo_fuses (s : State) (d v : Nat) :
    (State.dbgGo s d v).fuses = s.fuses := by
  unfold State.dbgGo
  simp [foldl_fuses, ite_fuses]

@[simp] theorem State.dbgGo_mem (s : State) (d v : Nat) :
    (State.dbgGo s d v).stackMem = s.stackMem := by
  unfold State.dbgGo
  simp [foldl_mem, ite_mem]

@[simp] theorem State.tgXfer_fuses (s : State) (c x : Nat) (write : Bool) (bad : TgFails) :
    (State.tgXfer s c x write bad).1.fuses = s.fuses := by
  unfold State.tgXfer
  dsimp only
  (repeat' split) <;> simp_all

@[simp] theorem State.tgXfer_mem (s : State) (c x : Nat) (write : Bool) (bad : TgFails) :
    (State.tgXfer s c x write bad).1.stackMem = s.stackMem := by
  unfold State.tgXfer
  dsimp only
  (repeat' split) <;> simp_all

@[simp] theorem State.tgWrite_fuses (s : State) (c pat x : Nat) (bad : TgFails) (z0 : Nat) :
    (State.tgWrite s c pat x bad z0).fuses = s.fuses := by
  have h : ∀ (t : State) (b : Bool) (m : State → Memory), (t.onlyIf b (fun u => { u with stackMem := m u })).fuses = t.fuses := fun t b m =>
    State.onlyIf_fuses t b _ (fun _ => rfl)
  induction z0 generalizing s x with
  | zero => simp [State.tgWrite]
  | succ n ih =>
    simp only [State.tgWrite]
    rw [ih, h]
    simp

@[simp] theorem State.tgWrite_wf (s : State) (c pat x : Nat) (bad : TgFails) (z0 : Nat) (hw0 : s.stackMem.wf = true) :
    (State.tgWrite s c pat x bad z0).stackMem.wf = true := by
  induction z0 generalizing s x with
  | zero => simpa [State.tgWrite] using hw0
  | succ n ih =>
    simp only [State.tgWrite]
    exact ih _ _ (State.onlyIf_wf _ _ _ (fun u h => Memory.wf_wrLE _ _ _ _ h) (by simpa using hw0))

@[simp] theorem State.tgCheck1_fuses (s : State) (c pat x : Nat) (bad : TgFails) :
    (State.tgCheck1 s c pat x bad).fuses = s.fuses := by
  unfold State.tgCheck1
  simp [ite_fuses]

@[simp] theorem State.tgCheck1_mem (s : State) (c pat x : Nat) (bad : TgFails) :
    (State.tgCheck1 s c pat x bad).stackMem = s.stackMem := by
  unfold State.tgCheck1
  simp [ite_mem]

@[simp] theorem State.tgCheck_fuses (s : State) (c pat x : Nat) (bad : TgFails) (z0 : Nat) :
    (State.tgCheck s c pat x bad z0).fuses = s.fuses := by
  induction z0 generalizing s x with
  | zero => simp [State.tgCheck]
  | succ n ih => simp only [State.tgCheck]; rw [ih]; simp

@[simp] theorem State.tgCheck_mem (s : State) (c pat x : Nat) (bad : TgFails) (z0 : Nat) :
    (State.tgCheck s c pat x bad z0).stackMem = s.stackMem := by
  induction z0 generalizing s x with
  | zero => simp [State.tgCheck]
  | succ n ih => simp only [State.tgCheck]; rw [ih]; simp

@[simp] theorem State.tgRun_fuses (s : State) (c done : Nat) (bad : TgFails) :
    (State.tgRun s c done bad).fuses = s.fuses := by
  unfold State.tgRun
  simp

@[simp] theorem State.tgRun_wf (s : State) (c done : Nat) (bad : TgFails) (hw0 : s.stackMem.wf = true) :
    (State.tgRun s c done bad).stackMem.wf = true := by
  unfold State.tgRun
  simp [hw0]

@[simp] theorem State.tgStart_fuses (s : State) (c : Nat) :
    (State.tgStart s c).fuses = s.fuses := by
  unfold State.tgStart
  simp

@[simp] theorem State.tgStart_mem (s : State) (c : Nat) :
    (State.tgStart s c).stackMem = s.stackMem := by
  unfold State.tgStart
  simp

@[simp] theorem State.tgStop_fuses (s : State) (c : Nat) :
    (State.tgStop s c).fuses = s.fuses := by
  unfold State.tgStop
  simp [ite_fuses]

@[simp] theorem State.tgStop_mem (s : State) (c : Nat) :
    (State.tgStop s c).stackMem = s.stackMem := by
  unfold State.tgStop
  simp [ite_mem]

@[simp] theorem State.csrEffect_fuses (s : State) (who : Requester) (r : Reg) (i v : Nat) :
    (State.csrEffect s who r i v).fuses = s.fuses := by
  unfold State.csrEffect
  dsimp only
  (repeat' split) <;> simp_all [foldl_fuses]

@[simp] theorem State.csrEffect_mem (s : State) (who : Requester) (r : Reg) (i v : Nat) :
    (State.csrEffect s who r i v).stackMem = s.stackMem := by
  unfold State.csrEffect
  split <;> (try dsimp only) <;> first | (simp; done) | (split <;> simp; done) | exact foldl_mem (fun u a => State.onlyIf_mem _ _ _ (fun w => State.restart_mem _ _ _)) _ _

@[simp] theorem State.leaveTwin_fuses (s t : State) (r : Reg) (i : Nat) :
    (State.leaveTwin s t r i).fuses = t.fuses := by
  unfold State.leaveTwin
  split <;> first | rfl | (dsimp only; split <;> first | rfl | exact State.onlyIf_fuses _ _ _ (fun u => State.stackWrN_fuses _ _ _ _))

@[simp] theorem State.leaveTwin_wf (s t : State) (r : Reg) (i : Nat) (hw0 : t.stackMem.wf = true) :
    (State.leaveTwin s t r i).stackMem.wf = true := by
  unfold State.leaveTwin
  split <;> (try exact hw0) <;> (dsimp only; split <;> first | exact hw0 | exact State.onlyIf_wf _ _ _ (fun u h => State.stackWrN_wf _ _ _ _ h) hw0)

@[simp] theorem State.alertPin_fuses (s t : State) :
    (State.alertPin s t).fuses = t.fuses := by
  unfold State.alertPin
  simp [ite_fuses]

@[simp] theorem State.alertPin_mem (s t : State) :
    (State.alertPin s t).stackMem = t.stackMem := by
  unfold State.alertPin
  simp [ite_mem]

@[simp] theorem State.csrWrite_fuses (s : State) (who : Requester) (off width v : Nat) :
    (State.csrWrite s who off width v).1.fuses = s.fuses := by
  unfold State.csrWrite
  dsimp only
  (repeat' split) <;> simp_all

@[simp] theorem State.csrWrite_wf (s : State) (who : Requester) (off width v : Nat) (hw0 : s.stackMem.wf = true) :
    (State.csrWrite s who off width v).1.stackMem.wf = true := by
  unfold State.csrWrite
  dsimp only
  (repeat' split) <;> simp_all

@[simp] theorem State.writeOut_fuses (s : State) (who : Requester) (off width : Nat) (v : Nat) :
    (State.writeOut s who off width v).fuses = s.fuses := by
  unfold State.writeOut
  simp

@[simp] theorem State.writeOut_wf (s : State) (who : Requester) (off width : Nat) (v : Nat) (hw0 : s.stackMem.wf = true) :
    (State.writeOut s who off width v).stackMem.wf = true := by
  unfold State.writeOut
  simp [hw0]

@[simp] theorem State.writeBit_fuses (s : State) (who : Requester) (r : Reg) (i : Nat) (val : Word) (on : Nat) :
    (State.writeBit s who r i val on).fuses = s.fuses := by
  unfold State.writeBit
  simp

@[simp] theorem State.writeBit_wf (s : State) (who : Requester) (r : Reg) (i : Nat) (val : Word) (on : Nat) (hw0 : s.stackMem.wf = true) :
    (State.writeBit s who r i val on).stackMem.wf = true := by
  unfold State.writeBit
  simp [hw0]

@[simp] theorem State.writeClear_fuses (s : State) (who : Requester) (r : Reg) (i : Nat) (val : Word) (off : Nat) :
    (State.writeClear s who r i val off).fuses = s.fuses := by
  unfold State.writeClear
  simp

@[simp] theorem State.writeClear_wf (s : State) (who : Requester) (r : Reg) (i : Nat) (val : Word) (off : Nat) (hw0 : s.stackMem.wf = true) :
    (State.writeClear s who r i val off).stackMem.wf = true := by
  unfold State.writeClear
  simp [hw0]

@[simp] theorem State.wr0_fuses (s : State) (a : Nat) (bs : List Byte) (xs : List XferAt) :
    (State.wr0 s a bs xs).fuses = s.fuses := by
  unfold State.wr0
  simp

@[simp] theorem State.wr0_wf (s : State) (a : Nat) (bs : List Byte) (xs : List XferAt) (hw0 : s.stackMem.wf = true) :
    (State.wr0 s a bs xs).stackMem.wf = true := by
  unfold State.wr0
  simp [hw0]

@[simp] theorem State.mergePost_fuses (s : State) (d : Nat) (p : LensPost) (xs : List XferAt) :
    (State.mergePost s d p xs).fuses = s.fuses := by
  unfold State.mergePost
  simp [ite_fuses]

@[simp] theorem State.mergePost_wf (s : State) (d : Nat) (p : LensPost) (xs : List XferAt) (hw0 : s.stackMem.wf = true) :
    (State.mergePost s d p xs).stackMem.wf = true := by
  unfold State.mergePost
  dsimp only
  (repeat' split) <;> simp_all

@[simp] theorem State.popPost_fuses (s : State) (d : Nat) :
    (State.popPost s d).fuses = s.fuses := by
  unfold State.popPost
  simp [ite_fuses]

@[simp] theorem State.popPost_mem (s : State) (d : Nat) :
    (State.popPost s d).stackMem = s.stackMem := by
  unfold State.popPost
  simp [ite_mem]

@[simp] theorem State.postMerge_fuses (s : State) (d : Nat) (xs : List XferAt) :
    (State.postMerge s d xs).fuses = s.fuses := by
  unfold State.postMerge
  (repeat' split) <;> simp

@[simp] theorem State.postMerge_wf (s : State) (d : Nat) (xs : List XferAt) (hw0 : s.stackMem.wf = true) :
    (State.postMerge s d xs).stackMem.wf = true := by
  unfold State.postMerge
  (repeat' split) <;> simp [hw0]

@[simp] theorem State.lensAsk_fuses (s : State) (d : Nat) :
    (State.lensAsk s d).fuses = s.fuses := by
  unfold State.lensAsk
  simp

@[simp] theorem State.lensAsk_mem (s : State) (d : Nat) :
    (State.lensAsk s d).stackMem = s.stackMem := by
  unfold State.lensAsk
  simp

@[simp] theorem State.memRead_fuses (s : State) (who : Requester) (agent : Nat) (addr : BitVec 64) (len : Nat) (e : Ecc) (fails : Nat) :
    (State.memRead s who agent addr len e fails).1.fuses = s.fuses := by
  unfold State.memRead
  dsimp only
  split
  · rfl
  · split
    · split <;> simp
    · simp
    · rfl
    · split <;> simp

@[simp] theorem State.memRead_mem (s : State) (who : Requester) (agent : Nat) (addr : BitVec 64) (len : Nat) (e : Ecc) (fails : Nat) :
    (State.memRead s who agent addr len e fails).1.stackMem = s.stackMem := by
  unfold State.memRead
  dsimp only
  split
  · rfl
  · split
    · split <;> simp
    · simp
    · rfl
    · split <;> simp

@[simp] theorem State.imemWrite_fuses (s : State) (i off : Nat) (bs : List Byte) :
    (State.imemWrite s i off bs).1.fuses = s.fuses := by
  unfold State.imemWrite
  dsimp only
  (repeat' split) <;> simp_all

@[simp] theorem State.imemWrite_mem (s : State) (i off : Nat) (bs : List Byte) :
    (State.imemWrite s i off bs).1.stackMem = s.stackMem := by
  unfold State.imemWrite
  dsimp only
  (repeat' split) <;> simp_all

@[simp] theorem State.rramWrite_fuses (s : State) (d off : Nat) (bs : List Byte) :
    (State.rramWrite s d off bs).1.fuses = s.fuses := by
  unfold State.rramWrite
  dsimp only
  (repeat' split) <;> simp_all

@[simp] theorem State.rramWrite_mem (s : State) (d off : Nat) (bs : List Byte) :
    (State.rramWrite s d off bs).1.stackMem = s.stackMem := by
  unfold State.rramWrite
  dsimp only
  (repeat' split) <;> simp_all

@[simp] theorem State.memWrite_fuses (s : State) (who : Requester) (agent : Nat) (addr : BitVec 64) (bs : List Byte) (e : Ecc) (fails : Nat) :
    (State.memWrite s who agent addr bs e fails).1.fuses = s.fuses := by
  unfold State.memWrite
  dsimp only
  (repeat' split) <;> simp_all

@[simp] theorem State.memWrite_wf (s : State) (who : Requester) (agent : Nat) (addr : BitVec 64) (bs : List Byte) (e : Ecc) (fails : Nat) (hw0 : s.stackMem.wf = true) :
    (State.memWrite s who agent addr bs e fails).1.stackMem.wf = true := by
  unfold State.memWrite
  dsimp only
  (repeat' split) <;> simp_all

@[simp] theorem State.deliver_fuses (s : State) (agent : Nat) (gen : BitVec 4) (tag status : Nat) (wr : Bool) (addr : BitVec 64) (data : List Byte) (fails : Nat) :
    (State.deliver s agent gen tag status wr addr data fails).fuses = s.fuses := by
  unfold State.deliver
  simp [ite_fuses]

@[simp] theorem State.deliver_mem (s : State) (agent : Nat) (gen : BitVec 4) (tag status : Nat) (wr : Bool) (addr : BitVec 64) (data : List Byte) (fails : Nat) :
    (State.deliver s agent gen tag status wr addr data fails).stackMem = s.stackMem := by
  unfold State.deliver
  simp [ite_mem]

@[simp] theorem State.respond_fuses (s : State) (m : ReqMsg) (wr : Bool) (status : Nat) (data : List Byte) :
    (State.respond s m wr status data).fuses = s.fuses := by
  unfold State.respond
  (repeat' split) <;> simp

@[simp] theorem State.respond_mem (s : State) (m : ReqMsg) (wr : Bool) (status : Nat) (data : List Byte) :
    (State.respond s m wr status data).stackMem = s.stackMem := by
  unfold State.respond
  (repeat' split) <;> simp

@[simp] theorem State.applyWrite_fuses (s : State) (m : ReqMsg) :
    (State.applyWrite s m).fuses = s.fuses := by
  unfold State.applyWrite
  simp

@[simp] theorem State.applyWrite_wf (s : State) (m : ReqMsg) (hw0 : s.stackMem.wf = true) :
    (State.applyWrite s m).stackMem.wf = true := by
  unfold State.applyWrite
  simp [hw0]

@[simp] theorem State.holdWrite_fuses (s : State) (kind : HeldKind) (posts : Nat) (m : ReqMsg) :
    (State.holdWrite s kind posts m).fuses = s.fuses := by
  unfold State.holdWrite
  simp

@[simp] theorem State.holdWrite_mem (s : State) (kind : HeldKind) (posts : Nat) (m : ReqMsg) :
    (State.holdWrite s kind posts m).stackMem = s.stackMem := by
  unfold State.holdWrite
  simp

@[simp] theorem State.applyRead_fuses (s : State) (m : ReqMsg) :
    (State.applyRead s m).fuses = s.fuses := by
  unfold State.applyRead
  simp

@[simp] theorem State.applyRead_mem (s : State) (m : ReqMsg) :
    (State.applyRead s m).stackMem = s.stackMem := by
  unfold State.applyRead
  simp

@[simp] theorem State.readMsg_fuses (s : State) (m : ReqMsg) :
    (State.readMsg s m).fuses = s.fuses := by
  unfold State.readMsg
  simp [ite_fuses]

@[simp] theorem State.readMsg_mem (s : State) (m : ReqMsg) :
    (State.readMsg s m).stackMem = s.stackMem := by
  unfold State.readMsg
  simp [ite_mem]

@[simp] theorem State.writeMsg_fuses (s : State) (m : ReqMsg) :
    (State.writeMsg s m).fuses = s.fuses := by
  unfold State.writeMsg
  simp [ite_fuses]

@[simp] theorem State.writeMsg_wf (s : State) (m : ReqMsg) (hw0 : s.stackMem.wf = true) :
    (State.writeMsg s m).stackMem.wf = true := by
  unfold State.writeMsg
  (repeat' split) <;> simp [hw0]

@[simp] theorem State.mcAnswer_fuses (s : State) (m : ReqMsg) (status : Nat) :
    (State.mcAnswer s m status).fuses = s.fuses := by
  unfold State.mcAnswer
  (repeat' split) <;> simp

@[simp] theorem State.mcAnswer_mem (s : State) (m : ReqMsg) (status : Nat) :
    (State.mcAnswer s m status).stackMem = s.stackMem := by
  unfold State.mcAnswer
  (repeat' split) <;> simp

@[simp] theorem State.mcApply_fuses (s : State) (m : ReqMsg) :
    (State.mcApply s m).fuses = s.fuses := by
  unfold State.mcApply
  simp

@[simp] theorem State.mcApply_wf (s : State) (m : ReqMsg) (hw0 : s.stackMem.wf = true) :
    (State.mcApply s m).stackMem.wf = true := by
  unfold State.mcApply
  simp [hw0]

@[simp] theorem State.mcWriteMsg_fuses (s : State) (m : ReqMsg) :
    (State.mcWriteMsg s m).fuses = s.fuses := by
  unfold State.mcWriteMsg
  simp [ite_fuses]

@[simp] theorem State.mcWriteMsg_wf (s : State) (m : ReqMsg) (hw0 : s.stackMem.wf = true) :
    (State.mcWriteMsg s m).stackMem.wf = true := by
  unfold State.mcWriteMsg
  (repeat' split) <;> simp [hw0]

@[simp] theorem State.releaseHeld_fuses (s : State) (h : Held) :
    (State.releaseHeld s h).fuses = s.fuses := by
  unfold State.releaseHeld
  (repeat' split) <;> simp

@[simp] theorem State.releaseHeld_wf (s : State) (h : Held) (hw0 : s.stackMem.wf = true) :
    (State.releaseHeld s h).stackMem.wf = true := by
  unfold State.releaseHeld
  (repeat' split) <;> simp [hw0]

@[simp] theorem State.releaseAll_fuses (s : State) :
    (State.releaseAll s).fuses = s.fuses := by
  unfold State.releaseAll
  simp [foldl_fuses]

@[simp] theorem State.releaseAll_wf (s : State) (hw0 : s.stackMem.wf = true) :
    (State.releaseAll s).stackMem.wf = true := by
  unfold State.releaseAll
  dsimp only
  (repeat' split) <;> simp_all [foldl_wf]

@[simp] theorem epochEff_fuses (i : Issue) (pkg : Bool) (eid : BitVec 16) (p : OpPlace) (s : State) :
    (epochEff i pkg eid p s).fuses = s.fuses := by
  unfold epochEff
  simp [foldl_fuses]

@[simp] theorem epochEff_mem (i : Issue) (pkg : Bool) (eid : BitVec 16) (p : OpPlace) (s : State) :
    (epochEff i pkg eid p s).stackMem = s.stackMem := by
  unfold epochEff
  simp [foldl_mem]

@[simp] theorem phaseEff_fuses (i : Issue) (o : PhaseOp) (p : OpPlace) (s : State) :
    (phaseEff i o p s).fuses = s.fuses := by
  unfold phaseEff
  simp

@[simp] theorem phaseEff_mem (i : Issue) (o : PhaseOp) (p : OpPlace) (s : State) :
    (phaseEff i o p s).stackMem = s.stackMem := by
  unfold phaseEff
  simp

@[simp] theorem State.waitResume_fuses (s : State) (stn : Nat) (m : Strm) :
    (State.waitResume s stn m).fuses = s.fuses := by
  unfold State.waitResume
  (repeat' split) <;> simp

@[simp] theorem State.waitResume_mem (s : State) (stn : Nat) (m : Strm) :
    (State.waitResume s stn m).stackMem = s.stackMem := by
  unfold State.waitResume
  (repeat' split) <;> simp

@[simp] theorem swapEff_fuses (i : Issue) (sm : BitVec 3) (map : Bool) (entry : Nat) (u_ : OpPlace) (s : State) :
    (swapEff i sm map entry u_ s).fuses = s.fuses := by
  unfold swapEff
  simp

@[simp] theorem swapEff_mem (i : Issue) (sm : BitVec 3) (map : Bool) (entry : Nat) (u_ : OpPlace) (s : State) :
    (swapEff i sm map entry u_ s).stackMem = s.stackMem := by
  unfold swapEff
  simp

@[simp] theorem State.fillDesc_fuses (s : State) (k : BankDesc) :
    (State.fillDesc s k).fuses = s.fuses := by
  unfold State.fillDesc
  simp [foldl_fuses]

@[simp] theorem State.fillDesc_mem (s : State) (k : BankDesc) :
    (State.fillDesc s k).stackMem = s.stackMem := by
  unfold State.fillDesc
  simp [foldl_mem]

@[simp] theorem State.fillAll_fuses (s : State) (banks : List BankDesc) :
    (State.fillAll s banks).fuses = s.fuses := by
  unfold State.fillAll
  simp [foldl_fuses]

@[simp] theorem State.fillAll_mem (s : State) (banks : List BankDesc) :
    (State.fillAll s banks).stackMem = s.stackMem := by
  unfold State.fillAll
  simp [foldl_mem]

@[simp] theorem State.declSet_fuses (s : State) (b : BinDecl) :
    (State.declSet s b).fuses = s.fuses := by
  unfold State.declSet
  simp [foldl_fuses]

@[simp] theorem State.declSet_mem (s : State) (b : BinDecl) :
    (State.declSet s b).stackMem = s.stackMem := by
  unfold State.declSet
  simp [foldl_mem]

@[simp] theorem State.loadDone_fuses (s : State) (b : BinDecl) (banks : List BankDesc) :
    (State.loadDone s b banks).1.fuses = s.fuses := by
  unfold State.loadDone
  (repeat' split) <;> simp

@[simp] theorem State.loadDone_mem (s : State) (b : BinDecl) (banks : List BankDesc) :
    (State.loadDone s b banks).1.stackMem = s.stackMem := by
  unfold State.loadDone
  (repeat' split) <;> simp

@[simp] theorem State.putSlot_fuses (s : State) (n : Nat) (x : Slot_) :
    (State.putSlot s n x).fuses = s.fuses := by
  unfold State.putSlot
  simp

@[simp] theorem State.putSlot_mem (s : State) (n : Nat) (x : Slot_) :
    (State.putSlot s n x).stackMem = s.stackMem := by
  unfold State.putSlot
  simp

@[simp] theorem State.buddySend_fuses (s : State) (p : Nat) :
    (State.buddySend s p).fuses = s.fuses := by
  unfold State.buddySend
  simp

@[simp] theorem State.buddySend_mem (s : State) (p : Nat) :
    (State.buddySend s p).stackMem = s.stackMem := by
  unfold State.buddySend
  simp

@[simp] theorem State.buddyFlush_fuses (s : State) :
    (State.buddyFlush s).fuses = s.fuses := by
  unfold State.buddyFlush
  simp [foldl_fuses, ite_fuses]

@[simp] theorem State.buddyFlush_mem (s : State) :
    (State.buddyFlush s).stackMem = s.stackMem := by
  unfold State.buddyFlush
  simp [foldl_mem, ite_mem]

@[simp] theorem State.buddyQueue_fuses (s : State) (ps : List Nat) :
    (State.buddyQueue s ps).fuses = s.fuses := by
  unfold State.buddyQueue
  simp [ite_fuses]

@[simp] theorem State.buddyQueue_mem (s : State) (ps : List Nat) :
    (State.buddyQueue s ps).stackMem = s.stackMem := by
  unfold State.buddyQueue
  simp [ite_mem]

@[simp] theorem State.setRecord_fuses (s : State) (l : List (Nat × Word)) :
    (State.setRecord s l).fuses = s.fuses := by
  unfold State.setRecord
  simp

@[simp] theorem State.setRecord_mem (s : State) (l : List (Nat × Word)) :
    (State.setRecord s l).stackMem = s.stackMem := by
  unfold State.setRecord
  simp

@[simp] theorem State.nandUpd_fuses (s : State) (f : NandSt → NandSt) :
    (State.nandUpd s f).fuses = s.fuses := by
  unfold State.nandUpd
  simp

@[simp] theorem State.nandUpd_mem (s : State) (f : NandSt → NandSt) :
    (State.nandUpd s f).stackMem = s.stackMem := by
  unfold State.nandUpd
  simp

@[simp] theorem State.nandWear_fuses (s : State) :
    (State.nandWear s).fuses = s.fuses := by
  unfold State.nandWear
  simp

@[simp] theorem State.nandWear_mem (s : State) :
    (State.nandWear s).stackMem = s.stackMem := by
  unfold State.nandWear
  simp

@[simp] theorem State.takeBlock_fuses (s : State) (slot : Nat) :
    (State.takeBlock s slot).fuses = s.fuses := by
  unfold State.takeBlock
  split
  · exact State.nandUpd_fuses _ _
  · rfl

@[simp] theorem State.takeBlock_mem (s : State) (slot : Nat) :
    (State.takeBlock s slot).stackMem = s.stackMem := by
  unfold State.takeBlock
  split
  · exact State.nandUpd_mem _ _
  · rfl

@[simp] theorem State.moveBlock_fuses (s : State) (b : Nat) :
    (State.moveBlock s b).fuses = s.fuses := by
  unfold State.moveBlock
  split
  · exact State.nandUpd_fuses _ _
  · rfl

@[simp] theorem State.moveBlock_mem (s : State) (b : Nat) :
    (State.moveBlock s b).stackMem = s.stackMem := by
  unfold State.moveBlock
  split
  · exact State.nandUpd_mem _ _
  · rfl

@[simp] theorem State.moveCold_fuses (s : State) :
    (State.moveCold s).fuses = s.fuses := by
  unfold State.moveCold
  dsimp only
  split
  · exact State.onlyIf_fuses _ _ _ (fun _ => State.moveBlock_fuses _ _)
  · rfl

@[simp] theorem State.moveCold_mem (s : State) :
    (State.moveCold s).stackMem = s.stackMem := by
  unfold State.moveCold
  dsimp only
  split
  · exact State.onlyIf_mem _ _ _ (fun _ => State.moveBlock_mem _ _)
  · rfl

@[simp] theorem State.eraseSlot_fuses (s : State) (slot : Nat) :
    (State.eraseSlot s slot).fuses = s.fuses := by
  unfold State.eraseSlot
  simp

@[simp] theorem State.eraseSlot_mem (s : State) (slot : Nat) :
    (State.eraseSlot s slot).stackMem = s.stackMem := by
  unfold State.eraseSlot
  simp

@[simp] theorem State.fillSlot_fuses (s : State) (slot data : Nat) :
    (State.fillSlot s slot data).fuses = s.fuses := (State.nandWear_fuses _).trans ((foldl_fuses (fun _ _ => State.takeBlock_fuses _ _) _ _).trans (State.nandUpd_fuses _ _))

@[simp] theorem State.fillSlot_mem (s : State) (slot data : Nat) :
    (State.fillSlot s slot data).stackMem = s.stackMem := (State.nandWear_mem _).trans ((foldl_mem (fun _ _ => State.takeBlock_mem _ _) _ _).trans (State.nandUpd_mem _ _))

@[simp] theorem State.readBlocks_fuses (s : State) (bs : List Nat) :
    (State.readBlocks s bs).fuses = s.fuses := by
  unfold State.readBlocks
  simp

@[simp] theorem State.readBlocks_mem (s : State) (bs : List Nat) :
    (State.readBlocks s bs).stackMem = s.stackMem := by
  unfold State.readBlocks
  simp

@[simp] theorem State.snapState_fuses (s : State) (st slot pct : Nat) :
    (State.snapState s st slot pct).fuses = s.fuses := by
  unfold State.snapState
  simp

@[simp] theorem State.snapState_mem (s : State) (st slot pct : Nat) :
    (State.snapState s st slot pct).stackMem = s.stackMem := by
  unfold State.snapState
  simp

@[simp] theorem State.snapPoint_fuses (s : State) :
    (State.snapPoint s).fuses = s.fuses := by
  unfold State.snapPoint
  dsimp only
  split <;> simp

@[simp] theorem State.snapPoint_mem (s : State) :
    (State.snapPoint s).stackMem = s.stackMem := by
  unfold State.snapPoint
  dsimp only
  split <;> simp

@[simp] theorem State.snapReach_fuses (s : State) :
    (State.snapReach s).fuses = s.fuses := by
  unfold State.snapReach
  simp [ite_fuses]

@[simp] theorem State.snapReach_mem (s : State) :
    (State.snapReach s).stackMem = s.stackMem := by
  unfold State.snapReach
  simp [ite_mem]

@[simp] theorem State.snapArm_fuses (s : State) (slot : Nat) (cmd : Option Nat) :
    (State.snapArm s slot cmd).fuses = s.fuses := by
  unfold State.snapArm
  simp [ite_fuses]

@[simp] theorem State.snapArm_mem (s : State) (slot : Nat) (cmd : Option Nat) :
    (State.snapArm s slot cmd).stackMem = s.stackMem := by
  unfold State.snapArm
  simp [ite_mem]

@[simp] theorem State.copyRest_fuses (s : State) (xs : List XferAt) :
    (State.copyRest s xs).fuses = s.fuses := by
  unfold State.copyRest
  simp [foldl_fuses]

@[simp] theorem State.copyRest_mem (s : State) (xs : List XferAt) :
    (State.copyRest s xs).stackMem = s.stackMem := by
  unfold State.copyRest
  simp [foldl_mem]

@[simp] theorem State.endHolds_fuses (s : State) :
    (State.endHolds s).fuses = s.fuses := by
  unfold State.endHolds
  simp [foldl_fuses]

@[simp] theorem State.endHolds_wf (s : State) (hw0 : s.stackMem.wf = true) :
    (State.endHolds s).stackMem.wf = true := by
  unfold State.endHolds
  simp [hw0, foldl_wf]

@[simp] theorem State.snapSlotDone_fuses (s : State) (good : Bool) :
    (State.snapSlotDone s good).fuses = s.fuses := (State.buddyFlush_fuses _).trans ((State.buddyQueue_fuses _ _).trans ((State.fillSlot_fuses _ _ _).trans (State.putSlot_fuses _ _ _)))

@[simp] theorem State.snapSlotDone_mem (s : State) (good : Bool) :
    (State.snapSlotDone s good).stackMem = s.stackMem := (State.buddyFlush_mem _).trans ((State.buddyQueue_mem _ _).trans ((State.fillSlot_mem _ _ _).trans (State.putSlot_mem _ _ _)))

@[simp] theorem State.snapEnd_fuses (s : State) (good : Bool) (xs : List XferAt) :
    (State.snapEnd s good xs).fuses = s.fuses := by
  have key : ∀ (f : State → Bool → State), (∀ u b, (f u b).fuses = u.fuses) → ∀ (t : State) (c : Bool), (t.onlyIf c (fun x => f x good)).fuses = t.fuses :=
    fun f hf t c => State.onlyIf_fuses t c _ (fun u => hf u good)
  have h : ((s.onlyIf good (·.copyRest xs)).onlyIf (decide ((s.slot (s.fld .snapStatus 0 29 24)).state = 2) && decide (s.fw.snapSlot = s.fld .snapStatus 0 29 24)) (·.snapSlotDone good)).fuses = s.fuses :=
    (key State.snapSlotDone State.snapSlotDone_fuses _ _).trans (State.onlyIf_fuses s good (·.copyRest xs) (fun _ => State.copyRest_fuses _ _))
  unfold State.snapEnd
  dsimp only
  rw [State.fwUpd_fuses, State.endHolds_fuses, State.snapState_fuses]
  exact h

@[simp] theorem State.snapEnd_wf (s : State) (good : Bool) (xs : List XferAt) (hw0 : s.stackMem.wf = true) :
    (State.snapEnd s good xs).stackMem.wf = true := by
  have key : ∀ (f : State → Bool → State), (∀ u b, (f u b).stackMem = u.stackMem) → ∀ (t : State) (c : Bool), (t.onlyIf c (fun x => f x good)).stackMem = t.stackMem :=
    fun f hf t c => State.onlyIf_mem t c _ (fun u => hf u good)
  have h : ((s.onlyIf good (·.copyRest xs)).onlyIf (decide ((s.slot (s.fld .snapStatus 0 29 24)).state = 2) && decide (s.fw.snapSlot = s.fld .snapStatus 0 29 24)) (·.snapSlotDone good)).stackMem = s.stackMem :=
    (key State.snapSlotDone State.snapSlotDone_mem _ _).trans (State.onlyIf_mem s good (·.copyRest xs) (fun _ => State.copyRest_mem _ _))
  unfold State.snapEnd
  dsimp only
  rw [State.fwUpd_mem]
  apply State.endHolds_wf
  rw [State.snapState_mem, h]
  exact hw0

@[simp] theorem State.snapDone_fuses (s : State) (ok : Bool) (xs : List XferAt) :
    (State.snapDone s ok xs).fuses = s.fuses := by
  unfold State.snapDone
  dsimp only
  split
  · rfl
  · split
    · exact foldl_fuses (fun u a => State.lensAsk_fuses _ _) _ _
    · split
      · exact (State.activityDone_fuses _ _ _ _ _).trans (State.snapEnd_fuses _ _ _)
      · exact State.snapEnd_fuses _ _ _

@[simp] theorem State.snapDone_wf (s : State) (ok : Bool) (xs : List XferAt) (hw0 : s.stackMem.wf = true) :
    (State.snapDone s ok xs).stackMem.wf = true := by
  unfold State.snapDone
  dsimp only
  split
  · exact hw0
  · split
    · exact (congrArg Memory.wf (foldl_mem (fun u a => State.lensAsk_mem _ _) _ _)).trans hw0
    · split
      · exact (congrArg Memory.wf (State.activityDone_mem _ _ _ _ _)).trans (State.snapEnd_wf _ _ _ hw0)
      · exact State.snapEnd_wf _ _ _ hw0

@[simp] theorem State.stampStn_fuses (s : State) (i : Nat) :
    (State.stampStn s i).fuses = s.fuses := by
  unfold State.stampStn
  simp

@[simp] theorem State.stampStn_mem (s : State) (i : Nat) :
    (State.stampStn s i).stackMem = s.stackMem := by
  unfold State.stampStn
  simp

@[simp] theorem State.stampGroup_fuses (s : State) (g : Nat) :
    (State.stampGroup s g).fuses = s.fuses := by
  unfold State.stampGroup
  simp

@[simp] theorem State.stampGroup_mem (s : State) (g : Nat) :
    (State.stampGroup s g).stackMem = s.stackMem := by
  unfold State.stampGroup
  simp

@[simp] theorem State.staleStn_fuses (s : State) (i : Nat) :
    (State.staleStn s i).fuses = s.fuses := by
  unfold State.staleStn
  simp

@[simp] theorem State.staleStn_mem (s : State) (i : Nat) :
    (State.staleStn s i).stackMem = s.stackMem := by
  unfold State.staleStn
  simp

@[simp] theorem State.staleGroup_fuses (s : State) (g : Nat) :
    (State.staleGroup s g).fuses = s.fuses := by
  unfold State.staleGroup
  simp

@[simp] theorem State.staleGroup_mem (s : State) (g : Nat) :
    (State.staleGroup s g).stackMem = s.stackMem := by
  unfold State.staleGroup
  simp

@[simp] theorem State.restoreStart_fuses (s : State) (slot : Nat) (cmd : Option Nat) :
    (State.restoreStart s slot cmd).fuses = s.fuses := by
  unfold State.restoreStart
  simp [foldl_fuses, ite_fuses]

@[simp] theorem State.restoreStart_mem (s : State) (slot : Nat) (cmd : Option Nat) :
    (State.restoreStart s slot cmd).stackMem = s.stackMem := by
  unfold State.restoreStart
  simp [foldl_mem, ite_mem]

@[simp] theorem State.putPage_fuses (s : State) (xs : List XferAt) (p : Nat) (bytes : List Byte) :
    (State.putPage s xs p bytes).fuses = s.fuses := by
  unfold State.putPage
  simp

@[simp] theorem State.putPage_wf (s : State) (xs : List XferAt) (p : Nat) (bytes : List Byte) (hw0 : s.stackMem.wf = true) :
    (State.putPage s xs p bytes).stackMem.wf = true := by
  unfold State.putPage
  simp [hw0]

@[simp] theorem State.relocate_fuses (s : State) (x : Slot_) (bad : List Nat) (xs : List XferAt) (g : Nat) :
    (State.relocate s x bad xs g).fuses = s.fuses := by
  unfold State.relocate
  dsimp only
  (repeat' split) <;> simp_all [foldl_fuses]

@[simp] theorem State.relocate_wf (s : State) (x : Slot_) (bad : List Nat) (xs : List XferAt) (g : Nat) (hw0 : s.stackMem.wf = true) :
    (State.relocate s x bad xs g).stackMem.wf = true := by
  unfold State.relocate
  dsimp only
  (repeat' split) <;> simp_all [foldl_wf]

@[simp] theorem State.restoreOwn_fuses (s : State) (x : Slot_) (bad : List Nat) (xs : List XferAt) :
    (State.restoreOwn s x bad xs).fuses = s.fuses := by
  unfold State.restoreOwn
  simp [foldl_fuses, ite_fuses]

@[simp] theorem State.restoreOwn_wf (s : State) (x : Slot_) (bad : List Nat) (xs : List XferAt) (hw0 : s.stackMem.wf = true) :
    (State.restoreOwn s x bad xs).stackMem.wf = true := by
  unfold State.restoreOwn
  generalize List.range 1024 = l1
  dsimp only
  rw [State.setRecord_mem]
  have h2 := foldl_wf (f := fun t (p : Nat × List Byte × Bool) => State.putPage t xs p.1 p.2.1) (fun u a h => State.putPage_wf _ _ _ _ h) (x.pages.filter (fun p => !bad.contains p.1)) s hw0
  generalize List.foldl (fun t (p : Nat × List Byte × Bool) => State.putPage t xs p.1 p.2.1) s (x.pages.filter (fun p => !bad.contains p.1)) = s1 at *
  split
  · exact foldl_wf (fun u a h => by simpa using h) _ _ h2
  · exact foldl_wf (fun u a h => by simpa using h) l1 s1 h2

@[simp] theorem State.restoreStamp_fuses (s : State) (keep : List Nat) :
    (State.restoreStamp s keep).fuses = s.fuses := by
  unfold State.restoreStamp
  simp [foldl_fuses]

@[simp] theorem State.restoreStamp_mem (s : State) (keep : List Nat) :
    (State.restoreStamp s keep).stackMem = s.stackMem := by
  unfold State.restoreStamp
  simp [foldl_mem]

@[simp] theorem State.restoreDone_fuses (s : State) (failed : List Nat) (refused : Bool) (xs : List XferAt) :
    (State.restoreDone s failed refused xs).fuses = s.fuses := by
  unfold State.restoreDone
  dsimp only
  (repeat' split) <;> simp_all [foldl_fuses]

@[simp] theorem State.restoreDone_wf (s : State) (failed : List Nat) (refused : Bool) (xs : List XferAt) (hw0 : s.stackMem.wf = true) :
    (State.restoreDone s failed refused xs).stackMem.wf = true := by
  unfold State.restoreDone
  generalize List.range 4096 = l2
  split
  · exact hw0
  · dsimp only
    generalize List.filter _ _ = bad
    have h1 : (if refused = true then s else if s.fw.restSlot < 16 then (s.restoreOwn (s.slot s.fw.restSlot) bad xs).restoreStamp (s.restoreKeep s.fw.restSlot bad) else ((l2.filter (s.slot s.fw.restSlot).holds).foldl (fun t g => t.relocate (s.slot s.fw.restSlot) bad xs g) s).restoreStamp (s.restoreKeep s.fw.restSlot bad)).stackMem.wf = true := by
      split
      · exact hw0
      · split
        · simp [hw0]
        · rw [State.restoreStamp_mem]
          exact foldl_wf (fun u a h => State.relocate_wf _ _ _ _ _ h) _ _ hw0
    generalize (if refused = true then s else if s.fw.restSlot < 16 then (s.restoreOwn (s.slot s.fw.restSlot) bad xs).restoreStamp (s.restoreKeep s.fw.restSlot bad) else ((l2.filter (s.slot s.fw.restSlot).holds).foldl (fun t g => t.relocate (s.slot s.fw.restSlot) bad xs g) s).restoreStamp (s.restoreKeep s.fw.restSlot bad)) = s1 at *
    split
    · split
      · simp [foldl_mem, h1]
      · split <;> simp [foldl_mem, h1]
    · simp [foldl_mem, h1]

@[simp] theorem State.openBuddy_fuses (s : State) :
    (State.openBuddy s).1.fuses = s.fuses := by
  unfold State.openBuddy
  (repeat' split) <;> simp

@[simp] theorem State.openBuddy_mem (s : State) :
    (State.openBuddy s).1.stackMem = s.stackMem := by
  unfold State.openBuddy
  (repeat' split) <;> simp

@[simp] theorem State.buddyIn_fuses (s : State) (src : BitVec 16) (addr : BitVec 64) (data : List Byte) :
    (State.buddyIn s src addr data).fuses = s.fuses := by
  unfold State.buddyIn
  simp [ite_fuses]

@[simp] theorem State.buddyIn_mem (s : State) (src : BitVec 16) (addr : BitVec 64) (data : List Byte) :
    (State.buddyIn s src addr data).stackMem = s.stackMem := by
  unfold State.buddyIn
  simp [ite_mem]

@[simp] theorem State.buddyAcked_fuses (s : State) :
    (State.buddyAcked s).fuses = s.fuses := (State.buddyFlush_fuses _).trans (State.fwUpd_fuses _ _)

@[simp] theorem State.buddyAcked_mem (s : State) :
    (State.buddyAcked s).stackMem = s.stackMem := (State.buddyFlush_mem _).trans (State.fwUpd_mem _ _)

@[simp] theorem State.buddyLate_fuses (s : State) :
    (State.buddyLate s).fuses = s.fuses := by
  unfold State.buddyLate
  (repeat' split) <;> simp

@[simp] theorem State.buddyLate_mem (s : State) :
    (State.buddyLate s).stackMem = s.stackMem := by
  unfold State.buddyLate
  (repeat' split) <;> simp

@[simp] theorem State.restoreDue_fuses (s : State) :
    (State.restoreDue s).fuses = s.fuses := by
  unfold State.restoreDue
  dsimp only
  (repeat' split) <;> simp_all

@[simp] theorem State.restoreDue_mem (s : State) :
    (State.restoreDue s).stackMem = s.stackMem := by
  unfold State.restoreDue
  dsimp only
  (repeat' split) <;> simp_all

@[simp] theorem State.degraded_fuses (s : State) (i : Nat) :
    (State.degraded s i).fuses = s.fuses := by
  unfold State.degraded
  simp

@[simp] theorem State.degraded_mem (s : State) (i : Nat) :
    (State.degraded s i).stackMem = s.stackMem := by
  unfold State.degraded
  simp

@[simp] theorem State.substSpare_fuses (s : State) (i : Nat) :
    (State.substSpare s i).fuses = s.fuses := by
  unfold State.substSpare
  dsimp only
  (repeat' split) <;> simp_all

@[simp] theorem State.substSpare_mem (s : State) (i : Nat) :
    (State.substSpare s i).stackMem = s.stackMem := by
  unfold State.substSpare
  dsimp only
  (repeat' split) <;> simp_all

@[simp] theorem State.stopDie_fuses (s : State) (d : Nat) :
    (State.stopDie s d).fuses = s.fuses := by
  unfold State.stopDie
  simp

@[simp] theorem State.stopDie_mem (s : State) (d : Nat) :
    (State.stopDie s d).stackMem = s.stackMem := by
  unfold State.stopDie
  simp

@[simp] theorem State.substAt_fuses (s : State) (d : Nat) :
    (State.substAt s d).fuses = s.fuses := by
  unfold State.substAt
  simp [foldl_fuses, ite_fuses]

@[simp] theorem State.substAt_mem (s : State) (d : Nat) :
    (State.substAt s d).stackMem = s.stackMem := by
  unfold State.substAt
  simp [foldl_mem, ite_mem]

@[simp] theorem State.stationFailed_fuses (s : State) (i : Nat) :
    (State.stationFailed s i).fuses = s.fuses := by
  unfold State.stationFailed
  simp [ite_fuses]

@[simp] theorem State.stationFailed_mem (s : State) (i : Nat) :
    (State.stationFailed s i).stackMem = s.stackMem := by
  unfold State.stationFailed
  simp [ite_mem]

@[simp] theorem State.codewordLost_fuses (s : State) (q : Nat × Nat) :
    (State.codewordLost s q).fuses = s.fuses := by
  unfold State.codewordLost
  simp

@[simp] theorem State.codewordLost_mem (s : State) (q : Nat × Nat) :
    (State.codewordLost s q).stackMem = s.stackMem := by
  unfold State.codewordLost
  simp

@[simp] theorem State.retentionScan_fuses (s : State) (rewritten : List Nat) (corrected : Nat) (failed : List (Nat × Nat)) :
    (State.retentionScan s rewritten corrected failed).fuses = s.fuses := by
  unfold State.retentionScan
  simp [foldl_fuses]

@[simp] theorem State.retentionScan_mem (s : State) (rewritten : List Nat) (corrected : Nat) (failed : List (Nat × Nat)) :
    (State.retentionScan s rewritten corrected failed).stackMem = s.stackMem := by
  unfold State.retentionScan
  simp [foldl_mem]

@[simp] theorem State.holdAll_fuses (s : State) (on : Bool) :
    (State.holdAll s on).fuses = s.fuses := by
  unfold State.holdAll
  simp [foldl_fuses]

@[simp] theorem State.holdAll_mem (s : State) (on : Bool) :
    (State.holdAll s on).stackMem = s.stackMem := by
  unfold State.holdAll
  simp [foldl_mem]

@[simp] theorem State.setNext_fuses (s : State) (v : Nat) :
    (State.setNext s v).fuses = s.fuses := by
  unfold State.setNext
  (repeat' split) <;> simp

@[simp] theorem State.setNext_mem (s : State) (v : Nat) :
    (State.setNext s v).stackMem = s.stackMem := by
  unfold State.setNext
  (repeat' split) <;> simp

@[simp] theorem State.chooseNext_fuses (s : State) :
    (State.chooseNext s).fuses = s.fuses := by
  unfold State.chooseNext
  dsimp only
  (repeat' split) <;> simp_all

@[simp] theorem State.chooseNext_mem (s : State) :
    (State.chooseNext s).stackMem = s.stackMem := by
  unfold State.chooseNext
  dsimp only
  (repeat' split) <;> simp_all

@[simp] theorem State.leadChoice_fuses (s : State) (members : List (BitVec 14)) :
    (State.leadChoice s members).fuses = s.fuses := by
  unfold State.leadChoice
  dsimp only
  (repeat' split) <;> simp_all [foldl_fuses]

@[simp] theorem State.leadChoice_mem (s : State) (members : List (BitVec 14)) :
    (State.leadChoice s members).stackMem = s.stackMem := by
  unfold State.leadChoice
  dsimp only
  (repeat' split) <;> simp_all [foldl_mem]

@[simp] theorem State.memberChoice_fuses (s : State) :
    (State.memberChoice s).fuses = s.fuses := by
  unfold State.memberChoice
  dsimp only
  (repeat' split) <;> simp_all

@[simp] theorem State.memberChoice_mem (s : State) :
    (State.memberChoice s).stackMem = s.stackMem := by
  unfold State.memberChoice
  dsimp only
  (repeat' split) <;> simp_all

@[simp] theorem State.copyStart_fuses (s : State) :
    (State.copyStart s).fuses = s.fuses := by
  unfold State.copyStart
  simp [ite_fuses]

@[simp] theorem State.copyStart_mem (s : State) :
    (State.copyStart s).stackMem = s.stackMem := by
  unfold State.copyStart
  simp [ite_mem]

@[simp] theorem State.stepStart_fuses (s : State) :
    (State.stepStart s).fuses = s.fuses := by
  unfold State.stepStart
  dsimp only
  (repeat' split) <;> simp_all

@[simp] theorem State.stepStart_mem (s : State) :
    (State.stepStart s).stackMem = s.stackMem := by
  unfold State.stepStart
  dsimp only
  (repeat' split) <;> simp_all

@[simp] theorem State.fillMaps_fuses (s : State) (maps : List (Nat × Word)) :
    (State.fillMaps s maps).fuses = s.fuses := by
  unfold State.fillMaps
  simp [foldl_fuses]

@[simp] theorem State.fillMaps_mem (s : State) (maps : List (Nat × Word)) :
    (State.fillMaps s maps).stackMem = s.stackMem := by
  unfold State.fillMaps
  simp [foldl_mem]

@[simp] theorem State.fillVariantBank_fuses (s : State) (k : BankDesc) :
    (State.fillVariantBank s k).fuses = s.fuses := by
  unfold State.fillVariantBank
  simp [foldl_fuses]

@[simp] theorem State.fillVariantBank_mem (s : State) (k : BankDesc) :
    (State.fillVariantBank s k).stackMem = s.stackMem := by
  unfold State.fillVariantBank
  simp [foldl_mem]

@[simp] theorem State.copyDone_fuses (s : State) :
    (State.copyDone s).fuses = s.fuses := by
  unfold State.copyDone
  dsimp only
  (repeat' split) <;> simp_all [foldl_fuses]

@[simp] theorem State.copyDone_mem (s : State) :
    (State.copyDone s).stackMem = s.stackMem := by
  unfold State.copyDone
  dsimp only
  (repeat' split) <;> simp_all [foldl_mem]

@[simp] theorem State.classSubmit_fuses (s : State) :
    (State.classSubmit s).fuses = s.fuses := by
  unfold State.classSubmit
  dsimp only
  split
  · rfl
  · split
    · rw [State.fwUpd_fuses, foldl_fuses (fun u a => by simp), foldl_fuses (fun u a => foldl_fuses (fun w m => by simp) _ _)]
    · rfl

@[simp] theorem State.classSubmit_wf (s : State) (hw0 : s.stackMem.wf = true) :
    (State.classSubmit s).stackMem.wf = true := by
  unfold State.classSubmit
  dsimp only
  split
  · exact hw0
  · split
    · refine (congrArg Memory.wf (State.fwUpd_mem _ _)).trans ?_
      rw [foldl_mem (fun u a => State.setFld_mem _ _ _ _ _ _)]
      exact foldl_wf (fun u a h => foldl_wf (fun w m h => State.csrWrite_wf _ _ _ _ _ h) _ _ h) _ _ hw0
    · exact hw0

@[simp] theorem State.takeItem_fuses (s : State) :
    (State.takeItem s).fuses = s.fuses := by
  unfold State.takeItem
  (repeat' split) <;> simp

@[simp] theorem State.takeItem_mem (s : State) :
    (State.takeItem s).stackMem = s.stackMem := by
  unfold State.takeItem
  (repeat' split) <;> simp

@[simp] theorem State.nextItem_fuses (s : State) :
    (State.nextItem s).fuses = s.fuses := by
  unfold State.nextItem
  (repeat' split) <;> simp

@[simp] theorem State.nextItem_mem (s : State) :
    (State.nextItem s).stackMem = s.stackMem := by
  unfold State.nextItem
  (repeat' split) <;> simp

@[simp] theorem State.closeEnergy_fuses (s : State) :
    (State.closeEnergy s).fuses = s.fuses := by
  unfold State.closeEnergy
  (repeat' split) <;> simp

@[simp] theorem State.closeEnergy_mem (s : State) :
    (State.closeEnergy s).stackMem = s.stackMem := by
  unfold State.closeEnergy
  (repeat' split) <;> simp

@[simp] theorem State.stepBoundary_fuses (s : State) :
    (State.stepBoundary s).fuses = s.fuses := by
  unfold State.stepBoundary
  simp [ite_fuses]

@[simp] theorem State.stepBoundary_mem (s : State) :
    (State.stepBoundary s).stackMem = s.stackMem := by
  unfold State.stepBoundary
  simp [ite_mem]

@[simp] theorem State.closingDecided_fuses (s : State) (d : Nat) :
    (State.closingDecided s d).fuses = s.fuses := by
  unfold State.closingDecided
  simp [ite_fuses]

@[simp] theorem State.closingDecided_mem (s : State) (d : Nat) :
    (State.closingDecided s d).stackMem = s.stackMem := by
  unfold State.closingDecided
  simp [ite_mem]

@[simp] theorem State.parkBy_fuses (s : State) (n : Nat) :
    (State.parkBy s n).fuses = s.fuses := by
  unfold State.parkBy
  simp

@[simp] theorem State.parkBy_mem (s : State) (n : Nat) :
    (State.parkBy s n).stackMem = s.stackMem := by
  unfold State.parkBy
  simp

@[simp] theorem State.nameBoundary_fuses (s : State) (members : List (BitVec 14)) (lead : BitVec 14) :
    (State.nameBoundary s members lead).fuses = s.fuses := by
  unfold State.nameBoundary
  simp [foldl_fuses]

@[simp] theorem State.nameBoundary_mem (s : State) (members : List (BitVec 14)) (lead : BitVec 14) :
    (State.nameBoundary s members lead).stackMem = s.stackMem := by
  unfold State.nameBoundary
  simp [foldl_mem]

@[simp] theorem State.groupPark_fuses (s : State) :
    (State.groupPark s).fuses = s.fuses := by
  unfold State.groupPark
  split
  · simp
  · split <;> simp

@[simp] theorem State.groupPark_mem (s : State) :
    (State.groupPark s).stackMem = s.stackMem := by
  unfold State.groupPark
  split
  · simp
  · split <;> simp

@[simp] theorem State.groupMsg_fuses (s : State) (kind : Nat) (vals : List Nat) :
    (State.groupMsg s kind vals).fuses = s.fuses := by
  unfold State.groupMsg
  split
  · rfl
  · split
    · split
      · split <;> simp
      · rfl
    · split
      · split <;> simp
      · rfl

@[simp] theorem State.groupMsg_mem (s : State) (kind : Nat) (vals : List Nat) :
    (State.groupMsg s kind vals).stackMem = s.stackMem := by
  unfold State.groupMsg
  split
  · rfl
  · split
    · split
      · split <;> simp
      · rfl
    · split
      · split <;> simp
      · rfl

@[simp] theorem State.hostLost_fuses (s : State) :
    (State.hostLost s).fuses = s.fuses := by
  unfold State.hostLost
  simp [ite_fuses]

@[simp] theorem State.hostLost_mem (s : State) :
    (State.hostLost s).stackMem = s.stackMem := by
  unfold State.hostLost
  simp [ite_mem]

@[simp] theorem State.unpark_fuses (s : State) :
    (State.unpark s).fuses = s.fuses := by
  unfold State.unpark
  simp [ite_fuses]

@[simp] theorem State.unpark_mem (s : State) :
    (State.unpark s).stackMem = s.stackMem := by
  unfold State.unpark
  simp [ite_mem]

@[simp] theorem State.ledgerOpen_fuses (s : State) (e : Ledger) :
    (State.ledgerOpen s e).fuses = s.fuses := by
  unfold State.ledgerOpen
  (repeat' split) <;> simp

@[simp] theorem State.ledgerOpen_mem (s : State) (e : Ledger) :
    (State.ledgerOpen s e).stackMem = s.stackMem := by
  unfold State.ledgerOpen
  (repeat' split) <;> simp

@[simp] theorem State.ledgerStart_fuses (s : State) (d : Nat) (pid : BitVec 12) (x : MarkAt) :
    (State.ledgerStart s d pid x).fuses = s.fuses := by
  unfold State.ledgerStart
  simp [ite_fuses]

@[simp] theorem State.ledgerStart_mem (s : State) (d : Nat) (pid : BitVec 12) (x : MarkAt) :
    (State.ledgerStart s d pid x).stackMem = s.stackMem := by
  unfold State.ledgerStart
  simp [ite_mem]

@[simp] theorem State.ledgerSend_fuses (s : State) (e : Ledger) :
    (State.ledgerSend s e).fuses = s.fuses := by
  unfold State.ledgerSend
  dsimp only
  (repeat' split) <;> simp_all

@[simp] theorem State.ledgerSend_mem (s : State) (e : Ledger) :
    (State.ledgerSend s e).stackMem = s.stackMem := by
  unfold State.ledgerSend
  dsimp only
  (repeat' split) <;> simp_all

@[simp] theorem State.ledgerEnd_fuses (s : State) (d : Nat) (pid : BitVec 12) (w : MarkAt) :
    (State.ledgerEnd s d pid w).fuses = s.fuses := by
  unfold State.ledgerEnd
  dsimp only
  (repeat' split) <;> simp_all

@[simp] theorem State.ledgerEnd_mem (s : State) (d : Nat) (pid : BitVec 12) (w : MarkAt) :
    (State.ledgerEnd s d pid w).stackMem = s.stackMem := by
  unfold State.ledgerEnd
  dsimp only
  (repeat' split) <;> simp_all

@[simp] theorem State.postLive_fuses (s : State) (i : Nat) :
    (State.postLive s i).fuses = s.fuses := by
  unfold State.postLive
  simp

@[simp] theorem State.postLive_mem (s : State) (i : Nat) :
    (State.postLive s i).stackMem = s.stackMem := by
  unfold State.postLive
  simp

@[simp] theorem State.startBoundary_fuses (s : State) (d : Nat) :
    (State.startBoundary s d).fuses = s.fuses := by
  unfold State.startBoundary
  simp [ite_fuses]

@[simp] theorem State.startBoundary_mem (s : State) (d : Nat) :
    (State.startBoundary s d).stackMem = s.stackMem := by
  unfold State.startBoundary
  simp [ite_mem]

@[simp] theorem State.resumeDie_fuses (s : State) (x : Nat) :
    (State.resumeDie s x).fuses = s.fuses := by
  unfold State.resumeDie
  simp [ite_fuses]

@[simp] theorem State.resumeDie_mem (s : State) (x : Nat) :
    (State.resumeDie s x).stackMem = s.stackMem := by
  unfold State.resumeDie
  simp [ite_mem]

@[simp] theorem State.swapStream_fuses (s : State) (i t : Nat) (m : Strm) :
    (State.swapStream s i t m).fuses = s.fuses := by
  unfold State.swapStream
  dsimp only
  (repeat' split) <;> simp_all

@[simp] theorem State.swapStream_mem (s : State) (i t : Nat) (m : Strm) :
    (State.swapStream s i t m).stackMem = s.stackMem := by
  unfold State.swapStream
  dsimp only
  (repeat' split) <;> simp_all

@[simp] theorem State.stnBoundary_fuses (s : State) (i : Nat) (b : Boundary) :
    (State.stnBoundary s i b).fuses = s.fuses := by
  unfold State.stnBoundary
  simp

@[simp] theorem State.stnBoundary_mem (s : State) (i : Nat) (b : Boundary) :
    (State.stnBoundary s i b).stackMem = s.stackMem := by
  unfold State.stnBoundary
  simp

@[simp] theorem State.dieBoundary_fuses (s : State) (d n : Nat) (b : Boundary) :
    (State.dieBoundary s d n b).fuses = s.fuses := by
  unfold State.dieBoundary
  simp

@[simp] theorem State.dieBoundary_mem (s : State) (d n : Nat) (b : Boundary) :
    (State.dieBoundary s d n b).stackMem = s.stackMem := by
  unfold State.dieBoundary
  simp

@[simp] theorem State.epochBoundary_fuses (s : State) (i : Nat) :
    (State.epochBoundary s i).fuses = s.fuses := by
  unfold State.epochBoundary
  dsimp only
  (repeat' split) <;> simp_all

@[simp] theorem State.epochBoundary_mem (s : State) (i : Nat) :
    (State.epochBoundary s i).stackMem = s.stackMem := by
  unfold State.epochBoundary
  dsimp only
  (repeat' split) <;> simp_all

@[simp] theorem State.epochDecide_fuses (s : State) (d : Nat) :
    (State.epochDecide s d).fuses = s.fuses := by
  unfold State.epochDecide
  dsimp only
  (repeat' split) <;> simp_all

@[simp] theorem State.epochDecide_mem (s : State) (d : Nat) :
    (State.epochDecide s d).stackMem = s.stackMem := by
  unfold State.epochDecide
  dsimp only
  (repeat' split) <;> simp_all

@[simp] theorem State.romIssue_fuses (s : State) (i : Nat) (m : Strm) (u : Nat) (w : BitVec 16 × Nat) :
    (State.romIssue s i m u w).fuses = s.fuses := by
  unfold State.romIssue
  simp

@[simp] theorem State.romIssue_mem (s : State) (i : Nat) (m : Strm) (u : Nat) (w : BitVec 16 × Nat) :
    (State.romIssue s i m u w).stackMem = s.stackMem := by
  unfold State.romIssue
  simp

@[simp] theorem State.romRun_fuses (s : State) (i : Nat) (m : Strm) (id : Nat) (waits : RomSt → List Nat) (eff : RomSt → State → State) (hfeff : ∀ u0 u1, (eff u0 u1).fuses = u1.fuses) :
    (State.romRun s i m id waits eff).fuses = s.fuses := by
  unfold State.romRun
  dsimp only
  (repeat' split) <;> simp_all [foldl_fuses]

@[simp] theorem State.romRun_wf (s : State) (i : Nat) (m : Strm) (id : Nat) (waits : RomSt → List Nat) (eff : RomSt → State → State) (hweff : ∀ u0 u1, u1.stackMem.wf = true → (eff u0 u1).stackMem.wf = true) (hw0 : s.stackMem.wf = true) :
    (State.romRun s i m id waits eff).stackMem.wf = true := by
  unfold State.romRun
  dsimp only
  (repeat' split) <;> simp_all [foldl_wf]

@[simp] theorem State.romRun_mem (s : State) (i : Nat) (m : Strm) (id : Nat) (waits : RomSt → List Nat) (eff : RomSt → State → State) (hmeff : ∀ u0 u1, (eff u0 u1).stackMem = u1.stackMem) :
    (State.romRun s i m id waits eff).stackMem = s.stackMem := by
  unfold State.romRun
  dsimp only
  (repeat' split) <;> simp_all [foldl_mem]

@[simp] theorem State.lensClear_fuses (s : State) (d first : Nat) (xs : List XferAt) :
    (State.lensClear s d first xs).fuses = s.fuses := foldl_fuses (fun u a => foldl_fuses (fun w m => State.wr0_fuses _ _ _ _) _ _) _ _

@[simp] theorem State.lensClear_wf (s : State) (d first : Nat) (xs : List XferAt) (hw0 : s.stackMem.wf = true) :
    (State.lensClear s d first xs).stackMem.wf = true := foldl_wf (fun u a h => foldl_wf (fun w m h => State.wr0_wf _ _ _ _ h) _ _ h) _ _ hw0

@[simp] theorem lensClearEff_fuses (i : Nat) (xs : List XferAt) (r : RomSt) (s : State) :
    (lensClearEff i xs r s).fuses = s.fuses := by
  unfold lensClearEff
  split <;> simp

@[simp] theorem lensClearEff_wf (i : Nat) (xs : List XferAt) (r : RomSt) (s : State) (hw0 : s.stackMem.wf = true) :
    (lensClearEff i xs r s).stackMem.wf = true := by
  unfold lensClearEff
  split <;> simp [hw0]

@[simp] theorem State.selectXfers_fuses (s : State) (tag : Nat) (xs : List XferAt) :
    (State.selectXfers s tag xs).fuses = s.fuses := by
  unfold State.selectXfers
  simp [foldl_fuses]

@[simp] theorem State.selectXfers_mem (s : State) (tag : Nat) (xs : List XferAt) :
    (State.selectXfers s tag xs).stackMem = s.stackMem := by
  unfold State.selectXfers
  simp [foldl_mem]

@[simp] theorem State.lensLog_fuses (s : State) (d : Nat) (bs : List Byte) (xs : List XferAt) :
    (State.lensLog s d bs xs).fuses = s.fuses := by
  unfold State.lensLog
  simp [ite_fuses]

@[simp] theorem State.lensLog_wf (s : State) (d : Nat) (bs : List Byte) (xs : List XferAt) (hw0 : s.stackMem.wf = true) :
    (State.lensLog s d bs xs).stackMem.wf = true := by
  unfold State.lensLog
  simp [hw0, ite_wf]

@[simp] theorem State.selectTag_fuses (s : State) (i : Nat) (step tag : Nat) (xs : List XferAt) :
    (State.selectTag s i step tag xs).fuses = s.fuses := by
  unfold State.selectTag
  simp [ite_fuses]

@[simp] theorem State.selectTag_wf (s : State) (i : Nat) (step tag : Nat) (xs : List XferAt) (hw0 : s.stackMem.wf = true) :
    (State.selectTag s i step tag xs).stackMem.wf = true := by
  unfold State.selectTag
  simp [hw0, ite_wf]

@[simp] theorem State.selectTags_fuses (s : State) (i step first : Nat) (l : List Nat) (xs : List XferAt) :
    (State.selectTags s i step first l xs).fuses = s.fuses := foldl_fuses (fun u a => State.selectTag_fuses _ _ _ _ _) _ _

@[simp] theorem State.selectTags_wf (s : State) (i step first : Nat) (l : List Nat) (xs : List XferAt) (hw0 : s.stackMem.wf = true) :
    (State.selectTags s i step first l xs).stackMem.wf = true := foldl_wf (fun u a h => State.selectTag_wf _ _ _ _ _ h) _ _ hw0

@[simp] theorem State.lensSelect_fuses (s : State) (i : Nat) (first step : Nat) (xs : List XferAt) :
    (State.lensSelect s i first step xs).fuses = s.fuses := State.selectTags_fuses _ _ _ _ _ _

@[simp] theorem State.lensSelect_wf (s : State) (i : Nat) (first step : Nat) (xs : List XferAt) (hw0 : s.stackMem.wf = true) :
    (State.lensSelect s i first step xs).stackMem.wf = true := State.selectTags_wf _ _ _ _ _ _ hw0

@[simp] theorem lensSelectEff_fuses (i : Nat) (xs : List XferAt) (r : RomSt) (s : State) :
    (lensSelectEff i xs r s).fuses = s.fuses := by
  unfold lensSelectEff
  simp [ite_fuses]

@[simp] theorem lensSelectEff_wf (i : Nat) (xs : List XferAt) (r : RomSt) (s : State) (hw0 : s.stackMem.wf = true) :
    (lensSelectEff i xs r s).stackMem.wf = true := by
  unfold lensSelectEff
  simp [hw0, ite_wf]

@[simp] theorem State.settleAsk_fuses (s : State) (i : Nat) :
    (State.settleAsk s i).fuses = s.fuses := by
  unfold State.settleAsk
  dsimp only
  (repeat' split) <;> simp_all

@[simp] theorem State.settleAsk_mem (s : State) (i : Nat) :
    (State.settleAsk s i).stackMem = s.stackMem := by
  unfold State.settleAsk
  dsimp only
  (repeat' split) <;> simp_all

@[simp] theorem State.settleAsks_fuses (s : State) (r : Nat) :
    (State.settleAsks s r).fuses = s.fuses := by
  unfold State.settleAsks
  simp [foldl_fuses]

@[simp] theorem State.settleAsks_mem (s : State) (r : Nat) :
    (State.settleAsks s r).stackMem = s.stackMem := by
  unfold State.settleAsks
  simp [foldl_mem]

@[simp] theorem State.resume_fuses (s : State) (d : Nat) :
    (State.resume s d).fuses = s.fuses := by
  unfold State.resume
  simp [foldl_fuses, ite_fuses]

@[simp] theorem State.resume_mem (s : State) (d : Nat) :
    (State.resume s d).stackMem = s.stackMem := by
  unfold State.resume
  simp [foldl_mem, ite_mem]

@[simp] theorem State.breakAt_fuses (s : State) (i : Issue) (ahead t : Nat) :
    (State.breakAt s i ahead t).fuses = s.fuses := by
  unfold State.breakAt
  simp [ite_fuses]

@[simp] theorem State.breakAt_mem (s : State) (i : Issue) (ahead t : Nat) :
    (State.breakAt s i ahead t).stackMem = s.stackMem := by
  unfold State.breakAt
  simp [ite_mem]

@[simp] theorem State.heard_fuses (s : State) (p : EthPort) :
    (State.heard s p).fuses = s.fuses := by
  unfold State.heard
  simp

@[simp] theorem State.heard_mem (s : State) (p : EthPort) :
    (State.heard s p).stackMem = s.stackMem := by
  unfold State.heard
  simp

@[simp] theorem State.hold_fuses (s : State) (k : Nat) (c : Instr) :
    (State.hold s k c).fuses = s.fuses := by
  unfold State.hold
  simp

@[simp] theorem State.hold_mem (s : State) (k : Nat) (c : Instr) :
    (State.hold s k c).stackMem = s.stackMem := by
  unfold State.hold
  simp

@[simp] theorem State.holdEntry_fuses (s : State) (p : EthPort) (c : Instr) :
    (State.holdEntry s p c).fuses = s.fuses := by
  unfold State.holdEntry
  simp

@[simp] theorem State.holdEntry_mem (s : State) (p : EthPort) (c : Instr) :
    (State.holdEntry s p c).stackMem = s.stackMem := by
  unfold State.holdEntry
  simp

@[simp] theorem State.journalAdd_fuses (s : State) (p : Nat) (d : Done) :
    (State.journalAdd s p d).fuses = s.fuses := by
  unfold State.journalAdd
  simp

@[simp] theorem State.journalAdd_mem (s : State) (p : Nat) (d : Done) :
    (State.journalAdd s p d).stackMem = s.stackMem := by
  unfold State.journalAdd
  simp

@[simp] theorem State.sendDone_fuses (s : State) (h : TcsHdr) (d : Done) :
    (State.sendDone s h d).fuses = s.fuses := by
  unfold State.sendDone
  simp

@[simp] theorem State.sendDone_mem (s : State) (h : TcsHdr) (d : Done) :
    (State.sendDone s h d).stackMem = s.stackMem := by
  unfold State.sendDone
  simp

@[simp] theorem State.commit_fuses (s : State) (p : Proc) (z0 : List (Nat × Nat)) :
    (State.commit s p z0).1.fuses = s.fuses := by
  induction z0 generalizing s with
  | nil => simp [State.commit]
  | cons a ws ih =>
    unfold State.commit
    dsimp only
    split <;> simp_all

@[simp] theorem State.commit_wf (s : State) (p : Proc) (z0 : List (Nat × Nat)) (hw0 : s.stackMem.wf = true) :
    (State.commit s p z0).1.stackMem.wf = true := by
  induction z0 generalizing s with
  | nil => simpa [State.commit] using hw0
  | cons a ws ih =>
    unfold State.commit
    dsimp only
    split
    · exact ih _ (State.csrWrite_wf _ _ _ _ _ hw0)
    · exact State.csrWrite_wf _ _ _ _ _ hw0

@[simp] theorem State.finish_fuses (s : State) (h : TcsHdr) (k : Kind) (p st : Nat) (load : List Nat) :
    (State.finish s h k p st load).fuses = s.fuses := by
  unfold State.finish
  simp

@[simp] theorem State.finish_mem (s : State) (h : TcsHdr) (k : Kind) (p st : Nat) (load : List Nat) :
    (State.finish s h k p st load).stackMem = s.stackMem := by
  unfold State.finish
  simp

@[simp] theorem State.tcsRun_fuses (s : State) (h : TcsHdr) (k : Kind) (c : Instr) (run : State → Ran) (after : State → State) (hfrun : ∀ u0, (run u0).1.fuses = u0.fuses) (hfafter : ∀ u0, (after u0).fuses = u0.fuses) :
    (State.tcsRun s h k c run after).fuses = s.fuses := by
  unfold State.tcsRun
  dsimp only
  (repeat' split) <;> simp_all

@[simp] theorem State.tcsRun_wf (s : State) (h : TcsHdr) (k : Kind) (c : Instr) (run : State → Ran) (after : State → State) (hwrun : ∀ u0, u0.stackMem.wf = true → (run u0).1.stackMem.wf = true) (hwafter : ∀ u0, u0.stackMem.wf = true → (after u0).stackMem.wf = true) (hw0 : s.stackMem.wf = true) :
    (State.tcsRun s h k c run after).stackMem.wf = true := by
  unfold State.tcsRun
  dsimp only
  (repeat' split) <;> simp_all

@[simp] theorem State.tcsRun_mem (s : State) (h : TcsHdr) (k : Kind) (c : Instr) (run : State → Ran) (after : State → State) (hmrun : ∀ u0, (run u0).1.stackMem = u0.stackMem) (hmafter : ∀ u0, (after u0).stackMem = u0.stackMem) :
    (State.tcsRun s h k c run after).stackMem = s.stackMem := by
  unfold State.tcsRun
  dsimp only
  (repeat' split) <;> simp_all

@[simp] theorem State.receive_fuses (s : State) (h : TcsHdr) (c : Instr) (go : State → State) (hfgo : ∀ u0, (go u0).fuses = u0.fuses) :
    (State.receive s h c go).fuses = s.fuses := by
  unfold State.receive
  simp [ite_fuses, hfgo]

@[simp] theorem State.receive_wf (s : State) (h : TcsHdr) (c : Instr) (go : State → State) (hwgo : ∀ u0, u0.stackMem.wf = true → (go u0).stackMem.wf = true) (hw0 : s.stackMem.wf = true) :
    (State.receive s h c go).stackMem.wf = true := by
  unfold State.receive
  (repeat' split) <;> first | exact hw0 | (apply hwgo; simpa using hw0) | simpa using hw0

@[simp] theorem State.receive_mem (s : State) (h : TcsHdr) (c : Instr) (go : State → State) (hmgo : ∀ u0, (go u0).stackMem = u0.stackMem) :
    (State.receive s h c go).stackMem = s.stackMem := by
  unfold State.receive
  simp [ite_mem, hmgo]

@[simp] theorem State.within_fuses (s : State) (ok : Bool) (run : State → Ran) (hfrun : ∀ u0, (run u0).1.fuses = u0.fuses) :
    (State.within s ok run).1.fuses = s.fuses := by
  unfold State.within
  (repeat' split) <;> simp_all

@[simp] theorem State.within_wf (s : State) (ok : Bool) (run : State → Ran) (hwrun : ∀ u0, u0.stackMem.wf = true → (run u0).1.stackMem.wf = true) (hw0 : s.stackMem.wf = true) :
    (State.within s ok run).1.stackMem.wf = true := by
  unfold State.within
  (repeat' split) <;> simp_all

@[simp] theorem State.within_mem (s : State) (ok : Bool) (run : State → Ran) (hmrun : ∀ u0, (run u0).1.stackMem = u0.stackMem) :
    (State.within s ok run).1.stackMem = s.stackMem := by
  unfold State.within
  (repeat' split) <;> simp_all

@[simp] theorem State.barIf_fuses (s : State) (bad : Bool) (run : State → Ran) (hfrun : ∀ u0, (run u0).1.fuses = u0.fuses) :
    (State.barIf s bad run).1.fuses = s.fuses := by
  unfold State.barIf
  (repeat' split) <;> simp_all

@[simp] theorem State.barIf_wf (s : State) (bad : Bool) (run : State → Ran) (hwrun : ∀ u0, u0.stackMem.wf = true → (run u0).1.stackMem.wf = true) (hw0 : s.stackMem.wf = true) :
    (State.barIf s bad run).1.stackMem.wf = true := by
  unfold State.barIf
  (repeat' split) <;> simp_all

@[simp] theorem State.barIf_mem (s : State) (bad : Bool) (run : State → Ran) (hmrun : ∀ u0, (run u0).1.stackMem = u0.stackMem) :
    (State.barIf s bad run).1.stackMem = s.stackMem := by
  unfold State.barIf
  (repeat' split) <;> simp_all

@[simp] theorem noMore_fuses (s : State) :
    (noMore s).fuses = s.fuses := by
  unfold noMore
  simp

@[simp] theorem noMore_mem (s : State) :
    (noMore s).stackMem = s.stackMem := by
  unfold noMore
  simp

@[simp] theorem State.tcsQuery_fuses (s : State) (h : TcsHdr) :
    (State.tcsQuery s h).fuses = s.fuses := by
  unfold State.tcsQuery
  simp

@[simp] theorem State.tcsQuery_mem (s : State) (h : TcsHdr) :
    (State.tcsQuery s h).stackMem = s.stackMem := by
  unfold State.tcsQuery
  simp

@[simp] theorem State.tcsHeartbeat_fuses (s : State) (h : TcsHdr) :
    (State.tcsHeartbeat s h).fuses = s.fuses := by
  unfold State.tcsHeartbeat
  simp

@[simp] theorem State.tcsHeartbeat_mem (s : State) (h : TcsHdr) :
    (State.tcsHeartbeat s h).stackMem = s.stackMem := by
  unfold State.tcsHeartbeat
  simp

@[simp] theorem State.reclaim_fuses (s : State) (session : Word) (next : List Word) (flush : Bool) :
    (State.reclaim s session next flush).fuses = s.fuses := by
  unfold State.reclaim
  simp [foldl_fuses, ite_fuses]

@[simp] theorem State.reclaim_mem (s : State) (session : Word) (next : List Word) (flush : Bool) :
    (State.reclaim s session next flush).stackMem = s.stackMem := by
  unfold State.reclaim
  simp [foldl_mem, ite_mem]

@[simp] theorem State.reclaimResume_fuses (s : State) :
    (State.reclaimResume s).fuses = s.fuses := by
  unfold State.reclaimResume
  simp [ite_fuses]

@[simp] theorem State.reclaimResume_mem (s : State) :
    (State.reclaimResume s).stackMem = s.stackMem := by
  unfold State.reclaimResume
  simp [ite_mem]

@[simp] theorem State.tcsReclaim_fuses (s : State) (h : TcsHdr) (session : Word) (next : List Word) (resume flush : Bool) :
    (State.tcsReclaim s h session next resume flush).fuses = s.fuses := by
  unfold State.tcsReclaim
  simp [ite_fuses]

@[simp] theorem State.tcsReclaim_mem (s : State) (h : TcsHdr) (session : Word) (next : List Word) (resume flush : Bool) :
    (State.tcsReclaim s h session next resume flush).stackMem = s.stackMem := by
  unfold State.tcsReclaim
  simp [ite_mem]

@[simp] theorem State.tcsMkeySet_fuses (s : State) (h : TcsHdr) (port : EthPort) (entry : BitVec 6) (keyTag : BitVec 24) (rd wr : Bool) (base limit : BitVec 64) :
    (State.tcsMkeySet s h port entry keyTag rd wr base limit).fuses = s.fuses := by
  unfold State.tcsMkeySet
  simp

@[simp] theorem State.tcsMkeySet_wf (s : State) (h : TcsHdr) (port : EthPort) (entry : BitVec 6) (keyTag : BitVec 24) (rd wr : Bool) (base limit : BitVec 64) (hw0 : s.stackMem.wf = true) :
    (State.tcsMkeySet s h port entry keyTag rd wr base limit).stackMem.wf = true := by
  unfold State.tcsMkeySet
  (repeat' split) <;> simp_all

@[simp] theorem State.keeperStart_fuses (s : State) :
    (State.keeperStart s).fuses = s.fuses := by
  unfold State.keeperStart
  simp [foldl_fuses]

@[simp] theorem State.keeperStart_mem (s : State) :
    (State.keeperStart s).stackMem = s.stackMem := by
  unfold State.keeperStart
  simp [foldl_mem]

@[simp] theorem State.readTables_fuses (s : State) (p : Nat) (body : List Byte) :
    (State.readTables s p body).fuses = s.fuses := by
  unfold State.readTables
  split <;> simp

@[simp] theorem State.readTables_mem (s : State) (p : Nat) (body : List Byte) :
    (State.readTables s p body).stackMem = s.stackMem := by
  unfold State.readTables
  split <;> simp

@[simp] theorem State.imageStart_fuses (s : State) (p : Proc) (body : List Byte) :
    (State.imageStart s p body).fuses = s.fuses := by
  unfold State.imageStart
  (repeat' split) <;> simp_all [foldl_fuses, ite_fuses]

@[simp] theorem State.imageStart_wf (s : State) (p : Proc) (body : List Byte) (hw0 : s.stackMem.wf = true) :
    (State.imageStart s p body).stackMem.wf = true := by
  unfold State.imageStart
  repeat' (first | (simp_all [ite_wf]; done) | assumption | split | refine foldl_wf (fun _ _ _ => ?_) _ _ ?_ | refine State.onlyIf_wf _ _ _ (fun _ _ => ?_) ?_ | refine State.within_wf _ _ _ (fun _ _ => ?_) ?_ | refine State.barIf_wf _ _ _ (fun _ _ => ?_) ?_ | refine State.tcsRun_wf _ _ _ _ _ _ (fun _ _ => ?_) (fun _ _ => ?_) ?_ | apply State.csrWrite_wf | simp | dsimp only | split)

@[simp] theorem State.imageAccept_fuses (s : State) (p : Proc) (bs : List Byte) :
    (State.imageAccept s p bs).fuses = s.fuses := by
  unfold State.imageAccept
  simp [ite_fuses]

@[simp] theorem State.imageAccept_wf (s : State) (p : Proc) (bs : List Byte) (hw0 : s.stackMem.wf = true) :
    (State.imageAccept s p bs).stackMem.wf = true := by
  unfold State.imageAccept
  simp [hw0, ite_wf]

@[simp] theorem State.imageCommit_fuses (s : State) (p : Proc) (off len : Nat) :
    (State.imageCommit s p off len).1.fuses = s.fuses := by
  unfold State.imageCommit
  repeat' (first | (simp_all; done) | refine foldl_fuses (fun _ _ => ?_) _ _ | refine State.within_fuses _ _ _ (fun _ => ?_) | refine State.barIf_fuses _ _ _ (fun _ => ?_) | refine State.tcsRun_fuses _ _ _ _ _ _ (fun _ => ?_) (fun _ => ?_) | dsimp only | split)

@[simp] theorem State.imageCommit_wf (s : State) (p : Proc) (off len : Nat) (hw0 : s.stackMem.wf = true) :
    (State.imageCommit s p off len).1.stackMem.wf = true := by
  unfold State.imageCommit
  repeat' (first | (simp_all; done) | assumption | split | refine foldl_wf (fun _ _ _ => ?_) _ _ ?_ | refine State.onlyIf_wf _ _ _ (fun _ _ => ?_) ?_ | refine State.within_wf _ _ _ (fun _ _ => ?_) ?_ | refine State.barIf_wf _ _ _ (fun _ _ => ?_) ?_ | refine State.tcsRun_wf _ _ _ _ _ _ (fun _ _ => ?_) (fun _ _ => ?_) ?_ | apply State.imageAccept_wf | simp | dsimp only | split)

@[simp] theorem State.tcsImageCommit_fuses (s : State) (h : TcsHdr) (proc : Proc) (off : BitVec 34) (len : Nat) :
    (State.tcsImageCommit s h proc off len).fuses = s.fuses := by
  unfold State.tcsImageCommit
  simp

@[simp] theorem State.tcsImageCommit_wf (s : State) (h : TcsHdr) (proc : Proc) (off : BitVec 34) (len : Nat) (hw0 : s.stackMem.wf = true) :
    (State.tcsImageCommit s h proc off len).stackMem.wf = true := by
  unfold State.tcsImageCommit
  (repeat' split) <;> simp_all

@[simp] theorem State.addTask_fuses (s : State) (h : TcsHdr) (c : Instr) :
    (State.addTask s h c).fuses = s.fuses := by
  unfold State.addTask
  simp

@[simp] theorem State.addTask_mem (s : State) (h : TcsHdr) (c : Instr) :
    (State.addTask s h c).stackMem = s.stackMem := by
  unfold State.addTask
  simp

@[simp] theorem State.binLoad_fuses (s : State) (h : TcsHdr) (c : Instr) (d : BinDecl) (banks : List BankDesc) :
    (State.binLoad s h c d banks).1.fuses = s.fuses := by
  unfold State.binLoad
  repeat' (first | (simp_all; done) | refine foldl_fuses (fun _ _ => ?_) _ _ | refine State.within_fuses _ _ _ (fun _ => ?_) | refine State.barIf_fuses _ _ _ (fun _ => ?_) | refine State.tcsRun_fuses _ _ _ _ _ _ (fun _ => ?_) (fun _ => ?_) | dsimp only | split)

@[simp] theorem State.binLoad_mem (s : State) (h : TcsHdr) (c : Instr) (d : BinDecl) (banks : List BankDesc) :
    (State.binLoad s h c d banks).1.stackMem = s.stackMem := by
  unfold State.binLoad
  repeat' (first | (simp_all; done) | refine foldl_mem (fun _ _ => ?_) _ _ | refine State.within_mem _ _ _ (fun _ => ?_) | refine State.barIf_mem _ _ _ (fun _ => ?_) | refine State.tcsRun_mem _ _ _ _ _ _ (fun _ => ?_) (fun _ => ?_) | dsimp only | split)

@[simp] theorem State.tcsBinLoad_fuses (s : State) (h : TcsHdr) (d : BinDecl) (banks : List BankDesc) :
    (State.tcsBinLoad s h d banks).fuses = s.fuses := by
  unfold State.tcsBinLoad
  simp

@[simp] theorem State.tcsBinLoad_mem (s : State) (h : TcsHdr) (d : BinDecl) (banks : List BankDesc) :
    (State.tcsBinLoad s h d banks).stackMem = s.stackMem := by
  unfold State.tcsBinLoad
  simp

@[simp] theorem State.variantStage_fuses (s : State) (h : TcsHdr) (c : Instr) (v : VariantDecl) :
    (State.variantStage s h c v).1.fuses = s.fuses := by
  unfold State.variantStage
  repeat' (first | (simp_all; done) | refine foldl_fuses (fun _ _ => ?_) _ _ | refine State.within_fuses _ _ _ (fun _ => ?_) | refine State.barIf_fuses _ _ _ (fun _ => ?_) | refine State.tcsRun_fuses _ _ _ _ _ _ (fun _ => ?_) (fun _ => ?_) | dsimp only | split)

@[simp] theorem State.variantStage_mem (s : State) (h : TcsHdr) (c : Instr) (v : VariantDecl) :
    (State.variantStage s h c v).1.stackMem = s.stackMem := by
  unfold State.variantStage
  repeat' (first | (simp_all; done) | refine foldl_mem (fun _ _ => ?_) _ _ | refine State.within_mem _ _ _ (fun _ => ?_) | refine State.barIf_mem _ _ _ (fun _ => ?_) | refine State.tcsRun_mem _ _ _ _ _ _ (fun _ => ?_) (fun _ => ?_) | dsimp only | split)

@[simp] theorem State.tcsVariantStage_fuses (s : State) (h : TcsHdr) (v : VariantDecl) :
    (State.tcsVariantStage s h v).fuses = s.fuses := by
  unfold State.tcsVariantStage
  simp

@[simp] theorem State.tcsVariantStage_mem (s : State) (h : TcsHdr) (v : VariantDecl) :
    (State.tcsVariantStage s h v).stackMem = s.stackMem := by
  unfold State.tcsVariantStage
  simp

@[simp] theorem State.variantDone_fuses (s : State) (v : VariantDecl) :
    (State.variantDone s v).1.fuses = s.fuses := by
  unfold State.variantDone
  (repeat' split) <;> simp

@[simp] theorem State.variantDone_mem (s : State) (v : VariantDecl) :
    (State.variantDone s v).1.stackMem = s.stackMem := by
  unfold State.variantDone
  (repeat' split) <;> simp

@[simp] theorem State.loadStation_fuses (s : State) (i : Nat) :
    (State.loadStation s i).fuses = s.fuses := by
  unfold State.loadStation
  simp

@[simp] theorem State.loadStation_mem (s : State) (i : Nat) :
    (State.loadStation s i).stackMem = s.stackMem := by
  unfold State.loadStation
  simp

@[simp] theorem State.holdDie_fuses (s : State) (d : Nat) :
    (State.holdDie s d).fuses = s.fuses := by
  unfold State.holdDie
  simp

@[simp] theorem State.holdDie_mem (s : State) (d : Nat) :
    (State.holdDie s d).stackMem = s.stackMem := by
  unfold State.holdDie
  simp

@[simp] theorem State.startStations_fuses (s : State) (is_ : List Nat) :
    (State.startStations s is_).fuses = s.fuses := by
  unfold State.startStations
  simp [foldl_fuses, ite_fuses]

@[simp] theorem State.startStations_mem (s : State) (is_ : List Nat) :
    (State.startStations s is_).stackMem = s.stackMem := by
  unfold State.startStations
  simp [foldl_mem, ite_mem]

@[simp] theorem State.stnStart_fuses (s : State) (dies : Nat) :
    (State.stnStart s dies).1.fuses = s.fuses := by
  unfold State.stnStart
  dsimp only
  (repeat' split) <;> simp_all

@[simp] theorem State.stnStart_mem (s : State) (dies : Nat) :
    (State.stnStart s dies).1.stackMem = s.stackMem := by
  unfold State.stnStart
  dsimp only
  (repeat' split) <;> simp_all

@[simp] theorem State.tcsStnStart_fuses (s : State) (h : TcsHdr) (dies : DieMask) :
    (State.tcsStnStart s h dies).fuses = s.fuses := by
  unfold State.tcsStnStart
  simp

@[simp] theorem State.tcsStnStart_mem (s : State) (h : TcsHdr) (dies : DieMask) :
    (State.tcsStnStart s h dies).stackMem = s.stackMem := by
  unfold State.tcsStnStart
  simp

@[simp] theorem State.stopAll_fuses (s : State) (d : Nat) :
    (State.stopAll s d).fuses = s.fuses := by
  unfold State.stopAll
  simp

@[simp] theorem State.stopAll_mem (s : State) (d : Nat) :
    (State.stopAll s d).stackMem = s.stackMem := by
  unfold State.stopAll
  simp

@[simp] theorem State.clearStops_fuses (s : State) (d : Nat) :
    (State.clearStops s d).fuses = s.fuses := by
  unfold State.clearStops
  simp [ite_fuses]

@[simp] theorem State.clearStops_mem (s : State) (d : Nat) :
    (State.clearStops s d).stackMem = s.stackMem := by
  unfold State.clearStops
  simp [ite_mem]

@[simp] theorem State.stnStop_fuses (s : State) (dies : Nat) :
    (State.stnStop s dies).1.fuses = s.fuses := by
  unfold State.stnStop
  simp [foldl_fuses, ite_fuses]

@[simp] theorem State.stnStop_mem (s : State) (dies : Nat) :
    (State.stnStop s dies).1.stackMem = s.stackMem := by
  unfold State.stnStop
  simp [foldl_mem, ite_mem]

@[simp] theorem State.tcsStnStop_fuses (s : State) (h : TcsHdr) (dies : DieMask) :
    (State.tcsStnStop s h dies).fuses = s.fuses := by
  unfold State.tcsStnStop
  simp

@[simp] theorem State.tcsStnStop_mem (s : State) (h : TcsHdr) (dies : DieMask) :
    (State.tcsStnStop s h dies).stackMem = s.stackMem := by
  unfold State.tcsStnStop
  simp

@[simp] theorem State.classPend_fuses (q : Ran) (v : Nat) (pairs : List (BitVec 12 × Word)) :
    (State.classPend q v pairs).1.fuses = q.1.fuses := by
  unfold State.classPend
  (repeat' split) <;> simp

@[simp] theorem State.classPend_mem (q : Ran) (v : Nat) (pairs : List (BitVec 12 × Word)) :
    (State.classPend q v pairs).1.stackMem = q.1.stackMem := by
  unfold State.classPend
  (repeat' split) <;> simp

@[simp] theorem State.classSwitch_fuses (s : State) (v : BitVec 6) (pairs : List (BitVec 12 × Word)) :
    (State.classSwitch s v pairs).1.fuses = s.fuses := by
  unfold State.classSwitch
  refine State.within_fuses _ _ _ (fun u => ?_)
  refine State.barIf_fuses _ _ _ (fun u => ?_)
  dsimp only
  rw [State.classPend_fuses, State.commit_fuses]

@[simp] theorem State.classSwitch_wf (s : State) (v : BitVec 6) (pairs : List (BitVec 12 × Word)) (hw0 : s.stackMem.wf = true) :
    (State.classSwitch s v pairs).1.stackMem.wf = true := by
  unfold State.classSwitch
  refine State.within_wf _ _ _ (fun u h => ?_) hw0
  refine State.barIf_wf _ _ _ (fun u h => ?_) h
  dsimp only
  rw [State.classPend_mem]
  exact State.commit_wf _ _ _ h

@[simp] theorem State.tcsClassSwitch_fuses (s : State) (h : TcsHdr) (v : BitVec 6) (pairs : List (BitVec 12 × Word)) :
    (State.tcsClassSwitch s h v pairs).fuses = s.fuses := by
  unfold State.tcsClassSwitch
  simp

@[simp] theorem State.tcsClassSwitch_wf (s : State) (h : TcsHdr) (v : BitVec 6) (pairs : List (BitVec 12 × Word)) (hw0 : s.stackMem.wf = true) :
    (State.tcsClassSwitch s h v pairs).stackMem.wf = true := by
  unfold State.tcsClassSwitch
  (repeat' split) <;> simp_all

@[simp] theorem State.eventRead_fuses (s : State) (first count : Nat) :
    (State.eventRead s first count).1.fuses = s.fuses := by
  unfold State.eventRead
  repeat' (first | (simp_all; done) | refine foldl_fuses (fun _ _ => ?_) _ _ | refine State.within_fuses _ _ _ (fun _ => ?_) | refine State.barIf_fuses _ _ _ (fun _ => ?_) | refine State.tcsRun_fuses _ _ _ _ _ _ (fun _ => ?_) (fun _ => ?_) | dsimp only | split)

@[simp] theorem State.eventRead_mem (s : State) (first count : Nat) :
    (State.eventRead s first count).1.stackMem = s.stackMem := by
  unfold State.eventRead
  repeat' (first | (simp_all; done) | refine foldl_mem (fun _ _ => ?_) _ _ | refine State.within_mem _ _ _ (fun _ => ?_) | refine State.barIf_mem _ _ _ (fun _ => ?_) | refine State.tcsRun_mem _ _ _ _ _ _ (fun _ => ?_) (fun _ => ?_) | dsimp only | split)

@[simp] theorem State.tcsEventRead_fuses (s : State) (h : TcsHdr) (first count : Nat) :
    (State.tcsEventRead s h first count).fuses = s.fuses := by
  unfold State.tcsEventRead
  simp

@[simp] theorem State.tcsEventRead_mem (s : State) (h : TcsHdr) (first count : Nat) :
    (State.tcsEventRead s h first count).stackMem = s.stackMem := by
  unfold State.tcsEventRead
  simp

@[simp] theorem State.tcsHostlossSet_fuses (s : State) (h : TcsHdr) (timeout : Nat) (snap : Bool) :
    (State.tcsHostlossSet s h timeout snap).fuses = s.fuses := by
  unfold State.tcsHostlossSet
  simp

@[simp] theorem State.tcsHostlossSet_wf (s : State) (h : TcsHdr) (timeout : Nat) (snap : Bool) (hw0 : s.stackMem.wf = true) :
    (State.tcsHostlossSet s h timeout snap).stackMem.wf = true := by
  unfold State.tcsHostlossSet
  repeat' (first | (simp_all; done) | assumption | split | refine foldl_wf (fun _ _ _ => ?_) _ _ ?_ | refine State.onlyIf_wf _ _ _ (fun _ _ => ?_) ?_ | refine State.within_wf _ _ _ (fun _ _ => ?_) ?_ | refine State.barIf_wf _ _ _ (fun _ _ => ?_) ?_ | refine State.tcsRun_wf _ _ _ _ _ _ (fun _ _ => ?_) (fun _ _ => ?_) ?_ | apply State.commit_wf | simp | dsimp only | split)

@[simp] theorem State.profileSet_fuses (s : State) (n : Nat) :
    (State.profileSet s n).1.fuses = s.fuses := by
  unfold State.profileSet
  repeat' (first | (simp_all; done) | refine foldl_fuses (fun _ _ => ?_) _ _ | refine State.within_fuses _ _ _ (fun _ => ?_) | refine State.barIf_fuses _ _ _ (fun _ => ?_) | refine State.tcsRun_fuses _ _ _ _ _ _ (fun _ => ?_) (fun _ => ?_) | dsimp only | split)

@[simp] theorem State.profileSet_mem (s : State) (n : Nat) :
    (State.profileSet s n).1.stackMem = s.stackMem := by
  unfold State.profileSet
  repeat' (first | (simp_all; done) | refine foldl_mem (fun _ _ => ?_) _ _ | refine State.within_mem _ _ _ (fun _ => ?_) | refine State.barIf_mem _ _ _ (fun _ => ?_) | refine State.tcsRun_mem _ _ _ _ _ _ (fun _ => ?_) (fun _ => ?_) | dsimp only | split)

@[simp] theorem State.tcsProfileSet_fuses (s : State) (h : TcsHdr) (prof : BitVec 2) :
    (State.tcsProfileSet s h prof).fuses = s.fuses := by
  unfold State.tcsProfileSet
  simp

@[simp] theorem State.tcsProfileSet_mem (s : State) (h : TcsHdr) (prof : BitVec 2) :
    (State.tcsProfileSet s h prof).stackMem = s.stackMem := by
  unfold State.tcsProfileSet
  simp

@[simp] theorem State.tcsBudgetSet_fuses (s : State) (h : TcsHdr) (cap allowance interval margin : Nat) :
    (State.tcsBudgetSet s h cap allowance interval margin).fuses = s.fuses := by
  unfold State.tcsBudgetSet
  simp

@[simp] theorem State.tcsBudgetSet_mem (s : State) (h : TcsHdr) (cap allowance interval margin : Nat) :
    (State.tcsBudgetSet s h cap allowance interval margin).stackMem = s.stackMem := by
  unfold State.tcsBudgetSet
  simp

@[simp] theorem State.tcsPolicySet_fuses (s : State) (h : TcsHdr) (mode v : BitVec 8) :
    (State.tcsPolicySet s h mode v).fuses = s.fuses := by
  unfold State.tcsPolicySet
  simp

@[simp] theorem State.tcsPolicySet_mem (s : State) (h : TcsHdr) (mode v : BitVec 8) :
    (State.tcsPolicySet s h mode v).stackMem = s.stackMem := by
  unfold State.tcsPolicySet
  simp

@[simp] theorem State.tcsStepHint_fuses (s : State) (h : TcsHdr) (rows : Nat) :
    (State.tcsStepHint s h rows).fuses = s.fuses := by
  unfold State.tcsStepHint
  simp

@[simp] theorem State.tcsStepHint_mem (s : State) (h : TcsHdr) (rows : Nat) :
    (State.tcsStepHint s h rows).stackMem = s.stackMem := by
  unfold State.tcsStepHint
  simp

@[simp] theorem State.tcsGatherSet_fuses (s : State) (h : TcsHdr) (n : Nat) :
    (State.tcsGatherSet s h n).fuses = s.fuses := by
  unfold State.tcsGatherSet
  simp

@[simp] theorem State.tcsGatherSet_mem (s : State) (h : TcsHdr) (n : Nat) :
    (State.tcsGatherSet s h n).stackMem = s.stackMem := by
  unfold State.tcsGatherSet
  simp

@[simp] theorem State.workQueue_fuses (s : State) (w : WorkItem) :
    (State.workQueue s w).1.fuses = s.fuses := by
  unfold State.workQueue
  repeat' (first | (simp_all [ite_fuses]; done) | refine foldl_fuses (fun _ _ => ?_) _ _ | refine State.within_fuses _ _ _ (fun _ => ?_) | refine State.barIf_fuses _ _ _ (fun _ => ?_) | refine State.tcsRun_fuses _ _ _ _ _ _ (fun _ => ?_) (fun _ => ?_) | dsimp only | split)

@[simp] theorem State.workQueue_mem (s : State) (w : WorkItem) :
    (State.workQueue s w).1.stackMem = s.stackMem := by
  unfold State.workQueue
  repeat' (first | (simp_all [ite_mem]; done) | refine foldl_mem (fun _ _ => ?_) _ _ | refine State.within_mem _ _ _ (fun _ => ?_) | refine State.barIf_mem _ _ _ (fun _ => ?_) | refine State.tcsRun_mem _ _ _ _ _ _ (fun _ => ?_) (fun _ => ?_) | dsimp only | split)

@[simp] theorem State.tcsWorkQueue_fuses (s : State) (h : TcsHdr) (item group steps prio : Nat) (defer : Bool) :
    (State.tcsWorkQueue s h item group steps prio defer).fuses = s.fuses := by
  unfold State.tcsWorkQueue
  simp

@[simp] theorem State.tcsWorkQueue_mem (s : State) (h : TcsHdr) (item group steps prio : Nat) (defer : Bool) :
    (State.tcsWorkQueue s h item group steps prio defer).stackMem = s.stackMem := by
  unfold State.tcsWorkQueue
  simp

@[simp] theorem State.groupSet_fuses (s : State) (id : Nat) (members : List (BitVec 14)) (lead : BitVec 14) :
    (State.groupSet s id members lead).1.fuses = s.fuses := by
  unfold State.groupSet
  simp

@[simp] theorem State.groupSet_mem (s : State) (id : Nat) (members : List (BitVec 14)) (lead : BitVec 14) :
    (State.groupSet s id members lead).1.stackMem = s.stackMem := by
  unfold State.groupSet
  simp

@[simp] theorem State.tcsGroupSet_fuses (s : State) (h : TcsHdr) (id : Nat) (members : List (BitVec 14)) (lead : BitVec 14) :
    (State.tcsGroupSet s h id members lead).fuses = s.fuses := by
  unfold State.tcsGroupSet
  simp

@[simp] theorem State.tcsGroupSet_mem (s : State) (h : TcsHdr) (id : Nat) (members : List (BitVec 14)) (lead : BitVec 14) :
    (State.tcsGroupSet s h id members lead).stackMem = s.stackMem := by
  unfold State.tcsGroupSet
  simp

@[simp] theorem State.tcsIdleEnter_fuses (s : State) (h : TcsHdr) (st : Idle) (wake asserted : BitVec 5) :
    (State.tcsIdleEnter s h st wake asserted).fuses = s.fuses := by
  unfold State.tcsIdleEnter
  simp

@[simp] theorem State.tcsIdleEnter_wf (s : State) (h : TcsHdr) (st : Idle) (wake asserted : BitVec 5) (hw0 : s.stackMem.wf = true) :
    (State.tcsIdleEnter s h st wake asserted).stackMem.wf = true := by
  unfold State.tcsIdleEnter
  repeat' (first | (simp_all; done) | assumption | split | refine foldl_wf (fun _ _ _ => ?_) _ _ ?_ | refine State.onlyIf_wf _ _ _ (fun _ _ => ?_) ?_ | refine State.within_wf _ _ _ (fun _ _ => ?_) ?_ | refine State.barIf_wf _ _ _ (fun _ _ => ?_) ?_ | refine State.tcsRun_wf _ _ _ _ _ _ (fun _ _ => ?_) (fun _ _ => ?_) ?_ | apply State.commit_wf | apply State.enterIdle_wf | simp | dsimp only | split)

@[simp] theorem State.ledgerRead_fuses (s : State) (first count : Nat) :
    (State.ledgerRead s first count).1.fuses = s.fuses := by
  unfold State.ledgerRead
  simp

@[simp] theorem State.ledgerRead_mem (s : State) (first count : Nat) :
    (State.ledgerRead s first count).1.stackMem = s.stackMem := by
  unfold State.ledgerRead
  simp

@[simp] theorem State.tcsLedgerRead_fuses (s : State) (h : TcsHdr) (first count : Nat) :
    (State.tcsLedgerRead s h first count).fuses = s.fuses := by
  unfold State.tcsLedgerRead
  simp

@[simp] theorem State.tcsLedgerRead_mem (s : State) (h : TcsHdr) (first count : Nat) :
    (State.tcsLedgerRead s h first count).stackMem = s.stackMem := by
  unfold State.tcsLedgerRead
  simp

@[simp] theorem State.tcsLedgerStream_fuses (s : State) (h : TcsHdr) (addr : BitVec 64) (logCount : Nat) (enable : Bool) :
    (State.tcsLedgerStream s h addr logCount enable).fuses = s.fuses := by
  unfold State.tcsLedgerStream
  simp

@[simp] theorem State.tcsLedgerStream_mem (s : State) (h : TcsHdr) (addr : BitVec 64) (logCount : Nat) (enable : Bool) :
    (State.tcsLedgerStream s h addr logCount enable).stackMem = s.stackMem := by
  unfold State.tcsLedgerStream
  simp

@[simp] theorem State.tcsModuleIdSet_fuses (s : State) (h : TcsHdr) (id : BitVec 16) :
    (State.tcsModuleIdSet s h id).fuses = s.fuses := by
  unfold State.tcsModuleIdSet
  repeat' (first | (simp_all; done) | refine foldl_fuses (fun _ _ => ?_) _ _ | refine State.within_fuses _ _ _ (fun _ => ?_) | refine State.barIf_fuses _ _ _ (fun _ => ?_) | refine State.tcsRun_fuses _ _ _ _ _ _ (fun _ => ?_) (fun _ => ?_) | dsimp only | split)

@[simp] theorem State.tcsModuleIdSet_wf (s : State) (h : TcsHdr) (id : BitVec 16) (hw0 : s.stackMem.wf = true) :
    (State.tcsModuleIdSet s h id).stackMem.wf = true := by
  unfold State.tcsModuleIdSet
  repeat' (first | (simp_all; done) | assumption | split | refine foldl_wf (fun _ _ _ => ?_) _ _ ?_ | refine State.onlyIf_wf _ _ _ (fun _ _ => ?_) ?_ | refine State.within_wf _ _ _ (fun _ _ => ?_) ?_ | refine State.barIf_wf _ _ _ (fun _ _ => ?_) ?_ | refine State.tcsRun_wf _ _ _ _ _ _ (fun _ _ => ?_) (fun _ _ => ?_) ?_ | apply State.commit_wf | simp | dsimp only | split)

@[simp] theorem State.tcsPortSet_fuses (s : State) (h : TcsHdr) (mask : BitVec 16) (en : Bool) (role : BitVec 4) (half spare : Bool) :
    (State.tcsPortSet s h mask en role half spare).fuses = s.fuses := by
  unfold State.tcsPortSet
  simp

@[simp] theorem State.tcsPortSet_wf (s : State) (h : TcsHdr) (mask : BitVec 16) (en : Bool) (role : BitVec 4) (half spare : Bool) (hw0 : s.stackMem.wf = true) :
    (State.tcsPortSet s h mask en role half spare).stackMem.wf = true := by
  unfold State.tcsPortSet
  repeat' (first | (simp_all; done) | assumption | split | refine foldl_wf (fun _ _ _ => ?_) _ _ ?_ | refine State.onlyIf_wf _ _ _ (fun _ _ => ?_) ?_ | refine State.within_wf _ _ _ (fun _ _ => ?_) ?_ | refine State.barIf_wf _ _ _ (fun _ _ => ?_) ?_ | refine State.tcsRun_wf _ _ _ _ _ _ (fun _ _ => ?_) (fun _ _ => ?_) ?_ | apply State.commit_wf | simp | dsimp only | split)

@[simp] theorem State.tcsRouteSet_fuses (s : State) (h : TcsHdr) (first : Nat) (entries : List Word) :
    (State.tcsRouteSet s h first entries).fuses = s.fuses := by
  unfold State.tcsRouteSet
  simp

@[simp] theorem State.tcsRouteSet_wf (s : State) (h : TcsHdr) (first : Nat) (entries : List Word) (hw0 : s.stackMem.wf = true) :
    (State.tcsRouteSet s h first entries).stackMem.wf = true := by
  unfold State.tcsRouteSet
  repeat' (first | (simp_all; done) | assumption | split | refine foldl_wf (fun _ _ _ => ?_) _ _ ?_ | refine State.onlyIf_wf _ _ _ (fun _ _ => ?_) ?_ | refine State.within_wf _ _ _ (fun _ _ => ?_) ?_ | refine State.barIf_wf _ _ _ (fun _ _ => ?_) ?_ | refine State.tcsRun_wf _ _ _ _ _ _ (fun _ _ => ?_) (fun _ _ => ?_) ?_ | apply State.commit_wf | simp | dsimp only | split)

@[simp] theorem State.tcsRemapSet_fuses (s : State) (h : TcsHdr) (own : BitVec 14) (pairs : List (BitVec 16 × BitVec 14)) :
    (State.tcsRemapSet s h own pairs).fuses = s.fuses := by
  unfold State.tcsRemapSet
  repeat' (first | (simp_all; done) | refine foldl_fuses (fun _ _ => ?_) _ _ | refine State.within_fuses _ _ _ (fun _ => ?_) | refine State.barIf_fuses _ _ _ (fun _ => ?_) | refine State.tcsRun_fuses _ _ _ _ _ _ (fun _ => ?_) (fun _ => ?_) | dsimp only | split)

@[simp] theorem State.tcsRemapSet_wf (s : State) (h : TcsHdr) (own : BitVec 14) (pairs : List (BitVec 16 × BitVec 14)) (hw0 : s.stackMem.wf = true) :
    (State.tcsRemapSet s h own pairs).stackMem.wf = true := by
  unfold State.tcsRemapSet
  repeat' (first | (simp_all; done) | assumption | split | refine foldl_wf (fun _ _ _ => ?_) _ _ ?_ | refine State.onlyIf_wf _ _ _ (fun _ _ => ?_) ?_ | refine State.within_wf _ _ _ (fun _ _ => ?_) ?_ | refine State.barIf_wf _ _ _ (fun _ _ => ?_) ?_ | refine State.tcsRun_wf _ _ _ _ _ _ (fun _ _ => ?_) (fun _ _ => ?_) ?_ | apply State.commit_wf | simp | dsimp only | split)

@[simp] theorem State.tcsMcastSet_fuses (s : State) (h : TcsHdr) (g : BitVec 8) (members : List (BitVec 16)) :
    (State.tcsMcastSet s h g members).fuses = s.fuses := by
  unfold State.tcsMcastSet
  repeat' (first | (simp_all; done) | refine foldl_fuses (fun _ _ => ?_) _ _ | refine State.within_fuses _ _ _ (fun _ => ?_) | refine State.barIf_fuses _ _ _ (fun _ => ?_) | refine State.tcsRun_fuses _ _ _ _ _ _ (fun _ => ?_) (fun _ => ?_) | dsimp only | split)

@[simp] theorem State.tcsMcastSet_wf (s : State) (h : TcsHdr) (g : BitVec 8) (members : List (BitVec 16)) (hw0 : s.stackMem.wf = true) :
    (State.tcsMcastSet s h g members).stackMem.wf = true := by
  unfold State.tcsMcastSet
  repeat' (first | (simp_all; done) | assumption | split | refine foldl_wf (fun _ _ _ => ?_) _ _ ?_ | refine State.onlyIf_wf _ _ _ (fun _ _ => ?_) ?_ | refine State.within_wf _ _ _ (fun _ _ => ?_) ?_ | refine State.barIf_wf _ _ _ (fun _ _ => ?_) ?_ | refine State.tcsRun_wf _ _ _ _ _ _ (fun _ _ => ?_) (fun _ _ => ?_) ?_ | apply State.commit_wf | simp | dsimp only | split)

@[simp] theorem State.snapTake_fuses (s : State) (h : TcsHdr) (slot : Nat) :
    (State.snapTake s h slot).1.fuses = s.fuses := by
  unfold State.snapTake
  repeat' (first | (simp_all; done) | refine foldl_fuses (fun _ _ => ?_) _ _ | refine State.within_fuses _ _ _ (fun _ => ?_) | refine State.barIf_fuses _ _ _ (fun _ => ?_) | refine State.tcsRun_fuses _ _ _ _ _ _ (fun _ => ?_) (fun _ => ?_) | dsimp only | split)

@[simp] theorem State.snapTake_mem (s : State) (h : TcsHdr) (slot : Nat) :
    (State.snapTake s h slot).1.stackMem = s.stackMem := by
  unfold State.snapTake
  repeat' (first | (simp_all; done) | refine foldl_mem (fun _ _ => ?_) _ _ | refine State.within_mem _ _ _ (fun _ => ?_) | refine State.barIf_mem _ _ _ (fun _ => ?_) | refine State.tcsRun_mem _ _ _ _ _ _ (fun _ => ?_) (fun _ => ?_) | dsimp only | split)

@[simp] theorem State.tcsSnapTake_fuses (s : State) (h : TcsHdr) (slot : BitVec 8) :
    (State.tcsSnapTake s h slot).fuses = s.fuses := by
  unfold State.tcsSnapTake
  simp

@[simp] theorem State.tcsSnapTake_mem (s : State) (h : TcsHdr) (slot : BitVec 8) :
    (State.tcsSnapTake s h slot).stackMem = s.stackMem := by
  unfold State.tcsSnapTake
  simp

@[simp] theorem State.snapRestore_fuses (s : State) (h : TcsHdr) (slot : Nat) :
    (State.snapRestore s h slot).1.fuses = s.fuses := by
  unfold State.snapRestore
  repeat' (first | (simp_all; done) | refine foldl_fuses (fun _ _ => ?_) _ _ | refine State.within_fuses _ _ _ (fun _ => ?_) | refine State.barIf_fuses _ _ _ (fun _ => ?_) | refine State.tcsRun_fuses _ _ _ _ _ _ (fun _ => ?_) (fun _ => ?_) | dsimp only | split)

@[simp] theorem State.snapRestore_mem (s : State) (h : TcsHdr) (slot : Nat) :
    (State.snapRestore s h slot).1.stackMem = s.stackMem := by
  unfold State.snapRestore
  repeat' (first | (simp_all; done) | refine foldl_mem (fun _ _ => ?_) _ _ | refine State.within_mem _ _ _ (fun _ => ?_) | refine State.barIf_mem _ _ _ (fun _ => ?_) | refine State.tcsRun_mem _ _ _ _ _ _ (fun _ => ?_) (fun _ => ?_) | dsimp only | split)

@[simp] theorem State.tcsSnapRestore_fuses (s : State) (h : TcsHdr) (slot : BitVec 8) :
    (State.tcsSnapRestore s h slot).fuses = s.fuses := by
  unfold State.tcsSnapRestore
  simp

@[simp] theorem State.tcsSnapRestore_mem (s : State) (h : TcsHdr) (slot : BitVec 8) :
    (State.tcsSnapRestore s h slot).stackMem = s.stackMem := by
  unfold State.tcsSnapRestore
  simp

@[simp] theorem State.tcsSnapList_fuses (s : State) (h : TcsHdr) :
    (State.tcsSnapList s h).fuses = s.fuses := by
  unfold State.tcsSnapList
  simp

@[simp] theorem State.tcsSnapList_mem (s : State) (h : TcsHdr) :
    (State.tcsSnapList s h).stackMem = s.stackMem := by
  unfold State.tcsSnapList
  simp

@[simp] theorem State.errRead_fuses (s : State) (first : Word) (count : Nat) :
    (State.errRead s first count).1.fuses = s.fuses := by
  unfold State.errRead
  simp

@[simp] theorem State.errRead_mem (s : State) (first : Word) (count : Nat) :
    (State.errRead s first count).1.stackMem = s.stackMem := by
  unfold State.errRead
  simp

@[simp] theorem State.tcsErrRead_fuses (s : State) (h : TcsHdr) (first : Word) (count : Nat) :
    (State.tcsErrRead s h first count).fuses = s.fuses := by
  unfold State.tcsErrRead
  simp

@[simp] theorem State.tcsErrRead_mem (s : State) (h : TcsHdr) (first : Word) (count : Nat) :
    (State.tcsErrRead s h first count).stackMem = s.stackMem := by
  unfold State.tcsErrRead
  simp

@[simp] theorem State.retirePersist_fuses (q : Ran) (n : Nat) (pages : List (BitVec 13)) :
    (State.retirePersist q n pages).1.fuses = q.1.fuses := by
  unfold State.retirePersist
  (repeat' split) <;> simp

@[simp] theorem State.retirePersist_mem (q : Ran) (n : Nat) (pages : List (BitVec 13)) :
    (State.retirePersist q n pages).1.stackMem = q.1.stackMem := by
  unfold State.retirePersist
  (repeat' split) <;> simp

@[simp] theorem State.tcsRetireSet_fuses (s : State) (h : TcsHdr) (stack : Seg) (pages : List (BitVec 13)) :
    (State.tcsRetireSet s h stack pages).fuses = s.fuses := by
  unfold State.tcsRetireSet
  refine State.tcsRun_fuses _ _ _ _ _ _ (fun u => ?_) (fun u => ?_)
  · refine State.within_fuses _ _ _ (fun u => ?_)
    refine State.barIf_fuses _ _ _ (fun u => ?_)
    rw [State.retirePersist_fuses, State.commit_fuses]
  · split <;> simp

@[simp] theorem State.tcsRetireSet_wf (s : State) (h : TcsHdr) (stack : Seg) (pages : List (BitVec 13)) (hw0 : s.stackMem.wf = true) :
    (State.tcsRetireSet s h stack pages).stackMem.wf = true := by
  unfold State.tcsRetireSet
  refine State.tcsRun_wf _ _ _ _ _ _ (fun u h => ?_) (fun u h => ?_) hw0
  · refine State.within_wf _ _ _ (fun u h => ?_) h
    refine State.barIf_wf _ _ _ (fun u h => ?_) h
    rw [State.retirePersist_mem]; exact State.commit_wf _ _ _ h
  · split <;> simp [h]

@[simp] theorem State.tcsFlashHealth_fuses (s : State) (h : TcsHdr) :
    (State.tcsFlashHealth s h).fuses = s.fuses := by
  unfold State.tcsFlashHealth
  simp

@[simp] theorem State.tcsFlashHealth_mem (s : State) (h : TcsHdr) :
    (State.tcsFlashHealth s h).stackMem = s.stackMem := by
  unfold State.tcsFlashHealth
  simp

@[simp] theorem State.runTcs_fuses (s : State) (c : Instr) :
    (State.runTcs s c).fuses = s.fuses := by
  unfold State.runTcs
  (repeat' split) <;> simp

@[simp] theorem State.runTcs_wf (s : State) (c : Instr) (hw0 : s.stackMem.wf = true) :
    (State.runTcs s c).stackMem.wf = true := by
  unfold State.runTcs
  (repeat' split) <;> simp [hw0]

@[simp] theorem State.runWaiting_fuses (s : State) (w : Waiting) :
    (State.runWaiting s w).fuses = s.fuses := by
  unfold State.runWaiting
  split <;> simp

@[simp] theorem State.runWaiting_wf (s : State) (w : Waiting) (hw0 : s.stackMem.wf = true) :
    (State.runWaiting s w).stackMem.wf = true := by
  unfold State.runWaiting
  split <;> simp [hw0]

@[simp] theorem State.runHeld_fuses (s : State) (k : Nat) :
    (State.runHeld s k).fuses = s.fuses := by
  unfold State.runHeld
  simp [foldl_fuses]

@[simp] theorem State.runHeld_wf (s : State) (k : Nat) (hw0 : s.stackMem.wf = true) :
    (State.runHeld s k).stackMem.wf = true := foldl_wf (fun u a h => State.runWaiting_wf _ _ h) _ _ (by simp [hw0])

@[simp] theorem State.taskDone_fuses (s : State) (c : Instr) :
    (State.taskDone s c).1.fuses = s.fuses := by
  unfold State.taskDone
  (repeat' split) <;> simp

@[simp] theorem State.taskDone_mem (s : State) (c : Instr) :
    (State.taskDone s c).1.stackMem = s.stackMem := by
  unfold State.taskDone
  (repeat' split) <;> simp

@[simp] theorem State.activityEnd_fuses (s : State) (seq fp status : Nat) :
    (State.activityEnd s seq fp status).fuses = s.fuses := by
  unfold State.activityEnd
  (repeat' split) <;> simp

@[simp] theorem State.activityEnd_wf (s : State) (seq fp status : Nat) (hw0 : s.stackMem.wf = true) :
    (State.activityEnd s seq fp status).stackMem.wf = true := by
  unfold State.activityEnd
  (repeat' split) <;> simp [hw0]

@[simp] theorem State.restartBy_fuses (s : State) (p cause : Nat) :
    (State.restartBy s p cause).fuses = s.fuses := by
  unfold State.restartBy
  simp [ite_fuses]

@[simp] theorem State.restartBy_mem (s : State) (p cause : Nat) :
    (State.restartBy s p cause).stackMem = s.stackMem := by
  unfold State.restartBy
  simp [ite_mem]

@[simp] theorem State.lateDone_fuses (s : State) :
    (State.lateDone s).fuses = s.fuses := by
  unfold State.lateDone
  simp [foldl_fuses]

@[simp] theorem State.lateDone_mem (s : State) :
    (State.lateDone s).stackMem = s.stackMem := by
  unfold State.lateDone
  simp [foldl_mem]

@[simp] theorem State.restartDone_fuses (s : State) (p : Nat) :
    (State.restartDone s p).fuses = s.fuses := by
  unfold State.restartDone
  split
  · rfl
  · dsimp only
    rw [State.runHeld_fuses]
    split <;> (repeat' split) <;> simp

@[simp] theorem State.restartDone_wf (s : State) (p : Nat) (hw0 : s.stackMem.wf = true) :
    (State.restartDone s p).stackMem.wf = true := by
  unfold State.restartDone
  split
  · exact hw0
  · dsimp only
    apply State.runHeld_wf
    split <;> (repeat' split) <;> simp [hw0]

@[simp] theorem State.noteMem_fuses (s : State) (u : UnitRef) (off : Nat) :
    (State.noteMem s u off).fuses = s.fuses := by
  unfold State.noteMem
  split
  · split
    · dsimp only
      split <;> simp
    · rfl
  · rfl

@[simp] theorem State.noteMem_mem (s : State) (u : UnitRef) (off : Nat) :
    (State.noteMem s u off).stackMem = s.stackMem := by
  unfold State.noteMem
  split
  · split
    · dsimp only
      split <;> simp
    · rfl
  · rfl

@[simp] theorem State.takeRaised_fuses (s : State) (cls off : Nat) :
    (State.takeRaised s cls off).fuses = s.fuses := by
  unfold State.takeRaised
  (repeat' split) <;> simp

@[simp] theorem State.takeRaised_mem (s : State) (cls off : Nat) :
    (State.takeRaised s cls off).stackMem = s.stackMem := by
  unfold State.takeRaised
  (repeat' split) <;> simp

@[simp] theorem State.ceAdd_fuses (s : State) (r : Reg) (i n : Nat) (z0 : Option (Nat × Nat)) :
    (State.ceAdd s r i n z0).fuses = s.fuses := by
  cases z0 <;> simp [State.ceAdd]

@[simp] theorem State.ceAdd_mem (s : State) (r : Reg) (i n : Nat) (z0 : Option (Nat × Nat)) :
    (State.ceAdd s r i n z0).stackMem = s.stackMem := by
  cases z0 <;> simp [State.ceAdd]

@[simp] theorem State.ceRead_fuses (s : State) (u : UnitRef) (n : Nat) :
    (State.ceRead s u n).fuses = s.fuses := by
  unfold State.ceRead
  simp [ite_fuses]

@[simp] theorem State.ceRead_mem (s : State) (u : UnitRef) (n : Nat) :
    (State.ceRead s u n).stackMem = s.stackMem := by
  unfold State.ceRead
  simp [ite_mem]

@[simp] theorem State.cePoll_fuses (s : State) (u : UnitRef) (count : Nat) :
    (State.cePoll s u count).fuses = s.fuses := by
  unfold State.cePoll
  split
  · rfl
  · split
    · dsimp only
      split <;> simp
    · rfl

@[simp] theorem State.cePoll_mem (s : State) (u : UnitRef) (count : Nat) :
    (State.cePoll s u count).stackMem = s.stackMem := by
  unfold State.cePoll
  split
  · rfl
  · split
    · dsimp only
      split <;> simp
    · rfl

@[simp] theorem State.throttleDie_fuses (s : State) (t d : Nat) :
    (State.throttleDie s t d).fuses = s.fuses := by
  unfold State.throttleDie
  simp [ite_fuses]

@[simp] theorem State.throttleDie_mem (s : State) (t d : Nat) :
    (State.throttleDie s t d).stackMem = s.stackMem := by
  unfold State.throttleDie
  simp [ite_mem]

@[simp] theorem State.thermal_fuses (s : State) (ts : List Nat) :
    (State.thermal s ts).fuses = s.fuses := by
  unfold State.thermal
  simp [foldl_fuses]

@[simp] theorem State.thermal_mem (s : State) (ts : List Nat) :
    (State.thermal s ts).stackMem = s.stackMem := by
  unfold State.thermal
  simp [foldl_mem]

@[simp] theorem State.thermalTrip_fuses (s : State) (r : Nat) :
    (State.thermalTrip s r).fuses = s.fuses := by
  unfold State.thermalTrip
  simp [ite_fuses]

@[simp] theorem State.thermalTrip_wf (s : State) (r : Nat) (hw0 : s.stackMem.wf = true) :
    (State.thermalTrip s r).stackMem.wf = true := by
  unfold State.thermalTrip
  simp [hw0, ite_wf]

@[simp] theorem State.pllLock_fuses (s : State) :
    (State.pllLock s).fuses = s.fuses := by
  unfold State.pllLock
  simp [foldl_fuses, ite_fuses]

@[simp] theorem State.pllLock_mem (s : State) :
    (State.pllLock s).stackMem = s.stackMem := by
  unfold State.pllLock
  simp [foldl_mem, ite_mem]

@[simp] theorem State.stacksRise_fuses (s : State) (d : Nat) :
    (State.stacksRise s d).fuses = s.fuses := by
  unfold State.stacksRise
  simp [ite_fuses]

@[simp] theorem State.stacksRise_mem (s : State) (d : Nat) :
    (State.stacksRise s d).stackMem = s.stackMem := by
  unfold State.stacksRise
  simp [ite_mem]

@[simp] theorem State.nightRegion_fuses (s : State) (r : Nat) :
    (State.nightRegion s r).fuses = s.fuses := by
  unfold State.nightRegion
  simp [foldl_fuses, ite_fuses]

@[simp] theorem State.nightRegion_mem (s : State) (r : Nat) :
    (State.nightRegion s r).stackMem = s.stackMem := by
  unfold State.nightRegion
  simp [foldl_mem, ite_mem]

@[simp] theorem State.nightReload_fuses (s : State) :
    (State.nightReload s).fuses = s.fuses := by
  unfold State.nightReload
  dsimp only
  (repeat' split) <;> simp_all [foldl_fuses]

@[simp] theorem State.nightReload_mem (s : State) :
    (State.nightReload s).stackMem = s.stackMem := by
  unfold State.nightReload
  dsimp only
  (repeat' split) <;> simp_all [foldl_mem]

@[simp] theorem State.zenithStart_fuses (s : State) :
    (State.zenithStart s).fuses = s.fuses := by
  unfold State.zenithStart
  simp [ite_fuses]

@[simp] theorem State.zenithStart_mem (s : State) :
    (State.zenithStart s).stackMem = s.stackMem := by
  unfold State.zenithStart
  simp [ite_mem]

@[simp] theorem State.risen_fuses (s : State) :
    (State.risen s).fuses = s.fuses := by
  unfold State.risen
  simp [ite_fuses]

@[simp] theorem State.risen_wf (s : State) (hw0 : s.stackMem.wf = true) :
    (State.risen s).stackMem.wf = true := by
  unfold State.risen
  dsimp only
  (repeat' split) <;> simp_all

@[simp] theorem State.regionRise_fuses (s : State) (r : Nat) :
    (State.regionRise s r).fuses = s.fuses := by
  unfold State.regionRise
  simp [ite_fuses]

@[simp] theorem State.regionRise_wf (s : State) (r : Nat) (hw0 : s.stackMem.wf = true) :
    (State.regionRise s r).stackMem.wf = true := by
  unfold State.regionRise
  (repeat' split) <;> simp [hw0]

@[simp] theorem State.inputRise_fuses (s : State) :
    (State.inputRise s).fuses = s.fuses := by
  unfold State.inputRise
  simp [ite_fuses]

@[simp] theorem State.inputRise_wf (s : State) (hw0 : s.stackMem.wf = true) :
    (State.inputRise s).stackMem.wf = true := by
  unfold State.inputRise
  (repeat' split) <;> simp [hw0]

@[simp] theorem State.pwrOkFall_fuses (s : State) :
    (State.pwrOkFall s).fuses = s.fuses := by
  unfold State.pwrOkFall
  simp [ite_fuses]

@[simp] theorem State.pwrOkFall_wf (s : State) (hw0 : s.stackMem.wf = true) :
    (State.pwrOkFall s).stackMem.wf = true := by
  unfold State.pwrOkFall
  simp [hw0, ite_wf]

@[simp] theorem State.resetLow_fuses (s : State) :
    (State.resetLow s).fuses = s.fuses := by
  unfold State.resetLow
  simp

@[simp] theorem State.resetLow_wf (s : State) (hw0 : s.stackMem.wf = true) :
    (State.resetLow s).stackMem.wf = true := by
  unfold State.resetLow
  simp [hw0]

@[simp] theorem State.resetHigh_fuses (s : State) (prof : BitVec 2) (smb : BitVec 3) :
    (State.resetHigh s prof smb).fuses = s.fuses := by
  unfold State.resetHigh
  simp [ite_fuses]

@[simp] theorem State.resetHigh_wf (s : State) (prof : BitVec 2) (smb : BitVec 3) (hw0 : s.stackMem.wf = true) :
    (State.resetHigh s prof smb).stackMem.wf = true := by
  unfold State.resetHigh
  simp [hw0, ite_wf]

@[simp] theorem State.smbSend_fuses (s : State) (cmd : Nat) (bs : List Byte) :
    (State.smbSend s cmd bs).fuses = s.fuses := by
  unfold State.smbSend
  simp

@[simp] theorem State.smbSend_mem (s : State) (cmd : Nat) (bs : List Byte) :
    (State.smbSend s cmd bs).stackMem = s.stackMem := by
  unfold State.smbSend
  simp

@[simp] theorem State.smbSetAddr_fuses (s : State) (v : Word) (x : SmbEnd) :
    (State.smbSetAddr s v x).fuses = s.fuses := by
  unfold State.smbSetAddr
  simp [ite_fuses]

@[simp] theorem State.smbSetAddr_mem (s : State) (v : Word) (x : SmbEnd) :
    (State.smbSetAddr s v x).stackMem = s.stackMem := by
  unfold State.smbSetAddr
  simp [ite_mem]

@[simp] theorem State.smbRead_fuses (s : State) (cmd : Nat) :
    (State.smbRead s cmd).fuses = s.fuses := by
  unfold State.smbRead
  simp [ite_fuses]

@[simp] theorem State.smbRead_mem (s : State) (cmd : Nat) :
    (State.smbRead s cmd).stackMem = s.stackMem := by
  unfold State.smbRead
  simp [ite_mem]

@[simp] theorem State.smbWrite_fuses (s : State) (v : Word) :
    (State.smbWrite s v).fuses = s.fuses := by
  unfold State.smbWrite
  simp

@[simp] theorem State.smbWrite_wf (s : State) (v : Word) (hw0 : s.stackMem.wf = true) :
    (State.smbWrite s v).stackMem.wf = true := by
  unfold State.smbWrite
  simp [hw0]

@[simp] theorem State.smbAccess_fuses (s : State) (wr : Option Word) (x : SmbEnd) (step : Nat) :
    (State.smbAccess s wr x step).fuses = s.fuses := by
  unfold State.smbAccess
  (repeat' split) <;> simp

@[simp] theorem State.smbAccess_wf (s : State) (wr : Option Word) (x : SmbEnd) (step : Nat) (hw0 : s.stackMem.wf = true) :
    (State.smbAccess s wr x step).stackMem.wf = true := by
  unfold State.smbAccess
  (repeat' split) <;> simp [hw0]

@[simp] theorem State.jtagLoad_fuses (s : State) (ir : BitVec 8) :
    (State.jtagLoad s ir).fuses = s.fuses := by
  unfold State.jtagLoad
  simp

@[simp] theorem State.jtagLoad_mem (s : State) (ir : BitVec 8) :
    (State.jtagLoad s ir).stackMem = s.stackMem := by
  unfold State.jtagLoad
  simp

@[simp] theorem State.jtagCapture_fuses (s : State) :
    (State.jtagCapture s).fuses = s.fuses := by
  unfold State.jtagCapture
  simp

@[simp] theorem State.jtagCapture_mem (s : State) :
    (State.jtagCapture s).stackMem = s.stackMem := by
  unfold State.jtagCapture
  simp

@[simp] theorem State.debugAccess_fuses (s0 : State) (wr : Bool) (off : BitVec 24) (data : Word) :
    (State.debugAccess s0 wr off data).fuses = s0.fuses := by
  unfold State.debugAccess
  simp [ite_fuses]

@[simp] theorem State.debugAccess_wf (s0 : State) (wr : Bool) (off : BitVec 24) (data : Word) (hw0 : s0.stackMem.wf = true) :
    (State.debugAccess s0 wr off data).stackMem.wf = true := by
  unfold State.debugAccess
  dsimp only
  (repeat' split) <;> simp_all

@[simp] theorem State.rdmaPiece_fuses (s : State) (p : EthPort) (phys : Option Nat) (wr : Bool) (i lo len : Nat) (data : List Byte) :
    (State.rdmaPiece s p phys wr i lo len data).fuses = s.fuses := by
  unfold State.rdmaPiece
  (repeat' split) <;> simp

@[simp] theorem State.rdmaPiece_mem (s : State) (p : EthPort) (phys : Option Nat) (wr : Bool) (i lo len : Nat) (data : List Byte) :
    (State.rdmaPiece s p phys wr i lo len data).stackMem = s.stackMem := by
  unfold State.rdmaPiece
  (repeat' split) <;> simp

@[simp] theorem State.rdmaSplit_fuses (s : State) (p : EthPort) (phys : Option Nat) (wr : Bool) (va len : Nat) (data : List Byte) :
    (State.rdmaSplit s p phys wr va len data).fuses = s.fuses := by
  unfold State.rdmaSplit
  simp [foldl_fuses]

@[simp] theorem State.rdmaSplit_mem (s : State) (p : EthPort) (phys : Option Nat) (wr : Bool) (va len : Nat) (data : List Byte) :
    (State.rdmaSplit s p phys wr va len data).stackMem = s.stackMem := by
  unfold State.rdmaSplit
  simp [foldl_mem]

@[simp] theorem State.rdmaOpen_fuses (s : State) (k : Nat) (wr : Bool) (va len : Nat) (psn : BitVec 24) (again : Bool) :
    (State.rdmaOpen s k wr va len psn again).fuses = s.fuses := by
  unfold State.rdmaOpen
  simp

@[simp] theorem State.rdmaOpen_mem (s : State) (k : Nat) (wr : Bool) (va len : Nat) (psn : BitVec 24) (again : Bool) :
    (State.rdmaOpen s k wr va len psn again).stackMem = s.stackMem := by
  unfold State.rdmaOpen
  simp

@[simp] theorem State.rdmaAgain_fuses (s : State) (p : EthPort) (k qpn : Nat) :
    (State.rdmaAgain s p k qpn).fuses = s.fuses := by
  unfold State.rdmaAgain
  simp

@[simp] theorem State.rdmaAgain_mem (s : State) (p : EthPort) (k qpn : Nat) :
    (State.rdmaAgain s p k qpn).stackMem = s.stackMem := by
  unfold State.rdmaAgain
  simp

@[simp] theorem State.rdmaGap_fuses (s : State) (p : EthPort) (k qpn : Nat) :
    (State.rdmaGap s p k qpn).fuses = s.fuses := by
  unfold State.rdmaGap
  simp [ite_fuses]

@[simp] theorem State.rdmaGap_mem (s : State) (p : EthPort) (k qpn : Nat) :
    (State.rdmaGap s p k qpn).stackMem = s.stackMem := by
  unfold State.rdmaGap
  simp [ite_mem]

@[simp] theorem State.rdmaGo_fuses (s : State) (p : EthPort) (k qpn : Nat) (wr : Bool) (rkey va len : Nat) (data : List Byte) (psn : BitVec 24) (again : Bool) :
    (State.rdmaGo s p k qpn wr rkey va len data psn again).fuses = s.fuses := by
  unfold State.rdmaGo
  dsimp only
  split
  · simp
  · split
    · simp
    · split
      · simp
      · simp
      · split <;> simp
      · simp

@[simp] theorem State.rdmaGo_mem (s : State) (p : EthPort) (k qpn : Nat) (wr : Bool) (rkey va len : Nat) (data : List Byte) (psn : BitVec 24) (again : Bool) :
    (State.rdmaGo s p k qpn wr rkey va len data psn again).stackMem = s.stackMem := by
  unfold State.rdmaGo
  dsimp only
  split
  · simp
  · split
    · simp
    · split
      · simp
      · simp
      · split <;> simp
      · simp

@[simp] theorem State.rdmaStart_fuses (s : State) (p : EthPort) (qpn : Nat) (wr : Bool) (rkey va len : Nat) (data : List Byte) (psn : BitVec 24) :
    (State.rdmaStart s p qpn wr rkey va len data psn).fuses = s.fuses := by
  unfold State.rdmaStart
  split
  · rfl
  · split
    · simp
    · split <;> simp
    · simp

@[simp] theorem State.rdmaStart_mem (s : State) (p : EthPort) (qpn : Nat) (wr : Bool) (rkey va len : Nat) (data : List Byte) (psn : BitVec 24) :
    (State.rdmaStart s p qpn wr rkey va len data psn).stackMem = s.stackMem := by
  unfold State.rdmaStart
  split
  · rfl
  · split
    · simp
    · split <;> simp
    · simp

@[simp] theorem State.opTx_fuses (s : State) (p : EthPort) (qpn mtu : Nat) (o : RdmaOp) (n : Nat) (data : List Byte) :
    (State.opTx s p qpn mtu o n data).fuses = s.fuses := by
  unfold State.opTx
  simp [foldl_fuses, ite_fuses]

@[simp] theorem State.opTx_mem (s : State) (p : EthPort) (qpn mtu : Nat) (o : RdmaOp) (n : Nat) (data : List Byte) :
    (State.opTx s p qpn mtu o n data).stackMem = s.stackMem := by
  unfold State.opTx
  simp [foldl_mem, ite_mem]

@[simp] theorem State.pieceFail_fuses (s : State) (p : EthPort) (k qpn nak : Nat) :
    (State.pieceFail s p k qpn nak).fuses = s.fuses := by
  unfold State.pieceFail
  simp

@[simp] theorem State.pieceFail_mem (s : State) (p : EthPort) (k qpn nak : Nat) :
    (State.pieceFail s p k qpn nak).stackMem = s.stackMem := by
  unfold State.pieceFail
  simp

@[simp] theorem State.qpAnswer_fuses (s : State) (p : EthPort) (k qpn : Nat) (z0 : List RdmaOp) :
    (State.qpAnswer s p k qpn z0).fuses = s.fuses := by
  induction z0 generalizing s with
  | nil => simp [State.qpAnswer]
  | cons o rest ih =>
    unfold State.qpAnswer
    dsimp only
    split
    · rw [ih]; simp
    · split <;> simp

@[simp] theorem State.qpAnswer_mem (s : State) (p : EthPort) (k qpn : Nat) (z0 : List RdmaOp) :
    (State.qpAnswer s p k qpn z0).stackMem = s.stackMem := by
  induction z0 generalizing s with
  | nil => simp [State.qpAnswer]
  | cons o rest ih =>
    unfold State.qpAnswer
    dsimp only
    split
    · rw [ih]; simp
    · split <;> simp

@[simp] theorem State.pieceDone_fuses (s : State) (p : EthPort) (qpn : Nat) (x : PieceEnd) (data : List Byte) :
    (State.pieceDone s p qpn x data).fuses = s.fuses := by
  unfold State.pieceDone
  split <;> simp

@[simp] theorem State.pieceDone_mem (s : State) (p : EthPort) (qpn : Nat) (x : PieceEnd) (data : List Byte) :
    (State.pieceDone s p qpn x data).stackMem = s.stackMem := by
  unfold State.pieceDone
  split <;> simp

@[simp] theorem State.ginjDue_fuses (s : State) (i t : Nat) :
    (State.ginjDue s i t).fuses = s.fuses := by
  unfold State.ginjDue
  simp [foldl_fuses, ite_fuses]

@[simp] theorem State.ginjDue_mem (s : State) (i t : Nat) :
    (State.ginjDue s i t).stackMem = s.stackMem := by
  unfold State.ginjDue
  simp [foldl_mem, ite_mem]

@[simp] theorem State.tickWork_fuses (s : State) (i t : Nat) :
    (State.tickWork s i t).fuses = s.fuses := by
  unfold State.tickWork
  dsimp only
  (repeat' split) <;> simp_all

@[simp] theorem State.tickWork_mem (s : State) (i t : Nat) :
    (State.tickWork s i t).stackMem = s.stackMem := by
  unfold State.tickWork
  dsimp only
  (repeat' split) <;> simp_all

@[simp] theorem State.endTick_fuses (s : State) (r : Nat) :
    (State.endTick s r).fuses = s.fuses := by
  unfold State.endTick
  repeat' (first | (simp_all; done) | refine foldl_fuses (fun _ _ => ?_) _ _ | refine State.within_fuses _ _ _ (fun _ => ?_) | refine State.barIf_fuses _ _ _ (fun _ => ?_) | refine State.tcsRun_fuses _ _ _ _ _ _ (fun _ => ?_) (fun _ => ?_) | dsimp only | split)

@[simp] theorem State.endTick_mem (s : State) (r : Nat) :
    (State.endTick s r).stackMem = s.stackMem := by
  unfold State.endTick
  repeat' (first | (simp_all; done) | refine foldl_mem (fun _ _ => ?_) _ _ | refine State.within_mem _ _ _ (fun _ => ?_) | refine State.barIf_mem _ _ _ (fun _ => ?_) | refine State.tcsRun_mem _ _ _ _ _ _ (fun _ => ?_) (fun _ => ?_) | dsimp only | split)

@[simp] theorem State.stopDue_fuses (s : State) (i : Nat) :
    (State.stopDue s i).fuses = s.fuses := by
  unfold State.stopDue
  (repeat' split) <;> simp

@[simp] theorem State.stopDue_mem (s : State) (i : Nat) :
    (State.stopDue s i).stackMem = s.stackMem := by
  unfold State.stopDue
  (repeat' split) <;> simp

@[simp] theorem State.stopsDue_fuses (s : State) (r : Nat) :
    (State.stopsDue s r).fuses = s.fuses := by
  unfold State.stopsDue
  simp [foldl_fuses]

@[simp] theorem State.stopsDue_mem (s : State) (r : Nat) :
    (State.stopsDue s r).stackMem = s.stackMem := by
  unfold State.stopsDue
  simp [foldl_mem]

@[simp] theorem State.ringLeave_fuses (s : State) (r : Nat) (w : RingWord) :
    (State.ringLeave s r w).fuses = s.fuses := by
  unfold State.ringLeave
  simp [ite_fuses]

@[simp] theorem State.ringLeave_mem (s : State) (r : Nat) (w : RingWord) :
    (State.ringLeave s r w).stackMem = s.stackMem := by
  unfold State.ringLeave
  simp [ite_mem]

@[simp] theorem State.ringFirst_fuses (s : State) (r : Nat) :
    (State.ringFirst s r).1.fuses = s.fuses := by
  unfold State.ringFirst
  (repeat' split) <;> simp

@[simp] theorem State.ringFirst_mem (s : State) (r : Nat) :
    (State.ringFirst s r).1.stackMem = s.stackMem := by
  unfold State.ringFirst
  (repeat' split) <;> simp

@[simp] theorem State.ringShift_fuses (s : State) (r : Nat) :
    (State.ringShift s r).fuses = s.fuses := by
  unfold State.ringShift
  simp

@[simp] theorem State.ringShift_mem (s : State) (r : Nat) :
    (State.ringShift s r).stackMem = s.stackMem := by
  unfold State.ringShift
  simp

@[simp] theorem State.traceMerge_fuses (s : State) (d : Nat) :
    (State.traceMerge s d).fuses = s.fuses := by
  unfold State.traceMerge
  (repeat' split) <;> simp

@[simp] theorem State.traceMerge_mem (s : State) (d : Nat) :
    (State.traceMerge s d).stackMem = s.stackMem := by
  unfold State.traceMerge
  (repeat' split) <;> simp

@[simp] theorem State.traceDrain_fuses (s : State) (d : Nat) (xs : List XferAt) :
    (State.traceDrain s d xs).fuses = s.fuses := by
  unfold State.traceDrain
  dsimp only
  (repeat' split) <;> simp_all

@[simp] theorem State.traceDrain_wf (s : State) (d : Nat) (xs : List XferAt) (hw0 : s.stackMem.wf = true) :
    (State.traceDrain s d xs).stackMem.wf = true := by
  unfold State.traceDrain
  dsimp only
  (repeat' split) <;> simp_all

@[simp] theorem State.dieTick_fuses (s : State) (d : Nat) (xs : List XferAt) :
    (State.dieTick s d xs).fuses = s.fuses := by
  unfold State.dieTick
  simp

@[simp] theorem State.dieTick_wf (s : State) (d : Nat) (xs : List XferAt) (hw0 : s.stackMem.wf = true) :
    (State.dieTick s d xs).stackMem.wf = true := by
  unfold State.dieTick
  simp [hw0]

@[simp] theorem State.refTick_fuses (s : State) (r : Nat) :
    (State.refTick s r).fuses = s.fuses := by
  unfold State.refTick
  simp

@[simp] theorem State.refTick_mem (s : State) (r : Nat) :
    (State.refTick s r).stackMem = s.stackMem := by
  unfold State.refTick
  simp

@[simp] theorem State.freeLanes_fuses (s : State) (r : Nat) :
    (State.freeLanes s r).fuses = s.fuses := by
  unfold State.freeLanes
  simp

@[simp] theorem State.freeLanes_mem (s : State) (r : Nat) :
    (State.freeLanes s r).stackMem = s.stackMem := by
  unfold State.freeLanes
  simp

@[simp] theorem State.runTick_fuses (s : State) (r : Nat) :
    (State.runTick s r).fuses = s.fuses := by
  unfold State.runTick
  simp

@[simp] theorem State.runTick_mem (s : State) (r : Nat) :
    (State.runTick s r).stackMem = s.stackMem := by
  unfold State.runTick
  simp

@[simp] theorem State.coldTick_fuses (s : State) (r : Nat) :
    (State.coldTick s r).fuses = s.fuses := by
  unfold State.coldTick
  simp [ite_fuses]

@[simp] theorem State.coldTick_mem (s : State) (r : Nat) :
    (State.coldTick s r).stackMem = s.stackMem := by
  unfold State.coldTick
  simp [ite_mem]

@[simp] theorem State.xNearer_fuses (s : State) (r : Nat) :
    (State.xNearer s r).fuses = s.fuses := by
  unfold State.xNearer
  simp [foldl_fuses]

@[simp] theorem State.xNearer_mem (s : State) (r : Nat) :
    (State.xNearer s r).stackMem = s.stackMem := by
  unfold State.xNearer
  simp [foldl_mem]

@[simp] theorem State.tick_fuses (s : State) (r : Nat) (xs : List XferAt) :
    (State.tick s r xs).fuses = s.fuses := by
  unfold State.tick
  simp [ite_fuses]

@[simp] theorem State.tick_wf (s : State) (r : Nat) (xs : List XferAt) (hw0 : s.stackMem.wf = true) :
    (State.tick s r xs).stackMem.wf = true := by
  unfold State.tick
  (repeat' split) <;> simp [hw0]

end Sys2Proof.Machine
end

