-- ==== Sys2Proof/Laws/Land.lean ====
section
/-! SUPPORT. What the writes in flight of a station do when they land, said once: the order of one tick, and what a landing leaves alone. -/

namespace Sys2Proof.Machine

/-! ### The order of the writes of one tick -/

theorem insPri_perm (w : Late) (l : List Late) : (insPri w l).Perm (w :: l) := by
  induction l with
  | nil => exact .refl _
  | cons v vs ih =>
    unfold insPri
    split
    · exact .refl _
    · exact (List.Perm.cons v ih).trans (List.Perm.swap w v vs)

theorem insPri_pairwise (w : Late) (l : List Late) (h : l.Pairwise (fun a b => a.pri.rank ≤ b.pri.rank)) :
    (insPri w l).Pairwise (fun a b => a.pri.rank ≤ b.pri.rank) := by
  induction l with
  | nil => simp [insPri]
  | cons v vs ih =>
    obtain ⟨h1, h2⟩ := List.pairwise_cons.1 h
    unfold insPri
    split
    · next c => exact List.pairwise_cons.2 ⟨fun a ha => by
        rcases List.mem_cons.1 ha with rfl | ha
        · omega
        · have := h1 a ha; omega, h⟩
    · next c => exact List.pairwise_cons.2 ⟨fun a ha => by
        rcases List.mem_cons.1 ((insPri_perm w vs).mem_iff.1 ha) with rfl | ha
        · omega
        · exact h1 a ha, ih h2⟩

theorem foldl_insPri (ws l : List Late) (h : l.Pairwise (fun a b => a.pri.rank ≤ b.pri.rank)) :
    (ws.foldl (fun a w => insPri w a) l).Perm (ws ++ l) ∧
      (ws.foldl (fun a w => insPri w a) l).Pairwise (fun a b => a.pri.rank ≤ b.pri.rank) := by
  induction ws generalizing l with
  | nil => exact ⟨.refl _, h⟩
  | cons w ws ih =>
    obtain ⟨p, q⟩ := ih (insPri w l) (insPri_pairwise w l h)
    exact ⟨p.trans (((insPri_perm w l).append_left ws).trans List.perm_middle), q⟩

/-- All the writes of a tick land, each once, in the order of their ports. -/
theorem sortPri_sorted (ws : List Late) :
    (sortPri ws).Perm ws ∧ (sortPri ws).Pairwise (fun a b => a.pri.rank ≤ b.pri.rank) := by
  have h := foldl_insPri ws [] .nil
  exact ⟨by simpa [sortPri] using h.1, h.2⟩

@[simp] theorem sortPri_nil : sortPri [] = [] := rfl

@[simp] theorem sortPri_one (w : Late) : sortPri [w] = [w] := rfl

/-! ### What a landing leaves alone -/

/-- From `s` to `u`, nothing differs but the station `n`, its VEC_FLAGS, and the Lens posts of its die. -/
structure State.LandFrame (s u : State) (n : Nat) : Prop where
  others : ∀ j, j ≠ n → u.station j = s.station j
  regs : ∀ (r : Reg) (o : Nat), o ≠ Reg.at .vecFlags n → u.regAt r o = s.regAt r o
  dies : ∀ d, { u.die d with posts := (s.die d).posts } = s.die d
  rest : u = { s with stations := u.stations, regs := u.regs, dies := u.dies }

theorem State.LandFrame.refl (s : State) (n : Nat) : s.LandFrame s n := ⟨fun _ _ => rfl, fun _ _ _ => rfl, fun _ => rfl, rfl⟩

theorem State.LandFrame.trans {s u v : State} {n : Nat} (a : s.LandFrame u n) (b : u.LandFrame v n) : s.LandFrame v n := by
  refine ⟨fun j h => (b.others j h).trans (a.others j h), fun r o h => (b.regs r o h).trans (a.regs r o h), fun d => ?_, ?_⟩
  · have h1 := a.dies d
    have h2 := b.dies d
    rw [← h1, ← h2]
  · rw [b.rest, a.rest]

theorem State.LandFrame.foldl {α : Type} {n : Nat} {f : State → α → State} (h : ∀ (s : State) (a : α), s.LandFrame (f s a) n) (l : List α) (s : State) :
    s.LandFrame (l.foldl f s) n := by
  induction l generalizing s with
  | nil => exact .refl _ _
  | cons a l ih => exact (h s a).trans (ih _)

theorem State.setStation_land (s : State) (n : Nat) (x : Station) : s.LandFrame (s.setStation n x) n :=
  ⟨fun j h => by rw [State.station_setStation, if_neg (fun e => h e.symm)], fun _ _ _ => rfl, fun _ => rfl, rfl⟩

theorem State.modStation_land (s : State) (n : Nat) (f : Station → Station) : s.LandFrame (s.modStation n f) n :=
  State.setStation_land _ _ _

theorem State.modStream_land (s : State) (n : Nat) (m : Strm) (f : StreamSt → StreamSt) : s.LandFrame (s.modStream n m f) n :=
  State.modStation_land _ _ _

theorem State.setFlags_land (s : State) (n : Nat) (m : Strm) (c : Nat) : s.LandFrame (s.setFlags n m c) n :=
  ⟨fun _ _ => rfl, fun _ _ h => State.regAt_setReg_ne _ _ _ _ _ (fun e => h e.symm), fun _ => rfl, rfl⟩

theorem State.postRec_land (s : State) (n : Nat) (m : Strm) (tag : BitVec 12) (r : LensRec) : s.LandFrame (s.postRec n m tag r) n := by
  refine ⟨fun _ _ => rfl, fun _ _ _ => rfl, fun d => ?_, rfl⟩
  unfold State.postRec
  rw [State.die_modDie]
  split
  · next e => subst e; rfl
  · rfl

theorem State.lensTake_land (s : State) (n : Nat) (l : LensSrc) (f : LensRec → LensRec) : s.LandFrame (s.lensTake n l f) n := by
  unfold State.lensTake
  split
  · exact State.modStation_land _ _ _
  · exact .refl _ _

theorem State.entWrite_land (s : State) (n k row : Nat) (bs : List Byte) : s.LandFrame (s.entWrite n k row bs) n := by
  unfold State.entWrite
  dsimp only
  split
  · split <;> first | exact State.modStation_land _ _ _ | exact .refl _ _
  · exact .refl _ _

theorem State.lensPost_land (s : State) (n : Nat) (m : Strm) : s.LandFrame (s.lensPost n m) n :=
  (State.modStation_land s n _).trans (State.postRec_land _ _ _ _ _)

theorem State.setPhase_land (s : State) (n : Nat) (m : Strm) (tag : BitVec 12) (lens : Bool) :
    s.LandFrame (s.setPhase n m tag lens) n := by
  unfold State.setPhase State.leaveTag
  dsimp only
  split
  · split
    · exact (State.modStation_land s n _).trans (State.modStream_land _ _ _ _)
    · exact (State.lensPost_land s n m).trans (State.modStream_land _ _ _ _)
  · exact State.modStream_land _ _ _ _

/-- Everything a landing write can change. -/
theorem State.land_frame (s : State) (n : Nat) (w : Wr) : s.LandFrame (s.land n w) n := by
  cases w <;> simp only [State.land] <;>
    first
    | exact State.modStation_land _ _ _
    | exact State.modStream_land _ _ _ _
    | exact State.setFlags_land _ _ _ _
    | exact State.lensTake_land _ _ _ _
    | exact State.entWrite_land _ _ _ _ _
    | exact State.setPhase_land _ _ _ _ _
    | exact (State.modStream_land _ _ _ _).trans (State.setFlags_land _ _ _ _)

theorem State.landAll_frame (s : State) (n : Nat) (ws : List Late) : s.LandFrame (s.landAll n ws) n :=
  .foldl (fun t (w : Late) => State.land_frame t n w.wr) _ _

theorem State.postOld_frame (s : State) (n : Nat) : s.LandFrame (s.postOld n) n :=
  (State.modStation_land s n _).trans (.foldl (fun t _ => State.postRec_land t n _ _ _) _ _)

/-- Everything the end of a tick in a station's pipelines can change. -/
theorem State.pipeTick_frame (s : State) (n u : Nat) : s.LandFrame (s.pipeTick n u) n := by
  unfold State.pipeTick
  exact (((State.setStation_land _ _ _).trans (State.landAll_frame _ _ _)).trans (State.postOld_frame _ _)).trans
    (State.modStation_land _ _ _)

/-- A write that arrives waits for the end of the tick under way, or lands at once: either way it touches its own station alone. -/
theorem State.arrive_frame (s : State) (n : Nat) (p : Pri) (w : Wr) : s.LandFrame (s.arrive n p w) n := by
  unfold State.arrive State.later
  split
  · exact State.modStation_land _ _ _
  · exact State.land_frame _ _ _

/-- Where nothing is in flight, the end of a tick lands nothing. -/
theorem Station.dueWrites_still (x : Station) (u : Nat) (h : x.still = true) : (x.reads u).dueWrites u = [] := by
  simp only [Station.still, Bool.and_eq_true, List.isEmpty_iff] at h
  obtain ⟨⟨⟨⟨h1, h2⟩, h3⟩, h4⟩, -⟩ := h
  simp [Station.dueWrites, Station.reads, h1, h2, h3, h4]

end Sys2Proof.Machine
end

