-- ==== Sys2Proof/WellFormed.lean ====
section
/-! DEFINITION. Which commands are well formed: operands inside the ranges that their tables give. -/

namespace Sys2Proof

/-- A message covers 1 to 4,096 bytes, and a message with data carries as many bytes as its length says (R310, R311). -/
def ReqMsg.wf (m : ReqMsg) (data : Bool) : Bool :=
  decide (1 ≤ m.len) && decide (m.len ≤ 4096) && (!data || decide (m.data.length = m.len))

/-- A link unit is 64 flit bytes with its trailer (R306). -/
def LinkUnit.wf (u : LinkUnit) : Bool := decide (u.flit.length = 64)

/-- A unit kind of Table 15-2. -/
def UnitRef.wf (u : UnitRef) : Bool := decide (1 ≤ u.kind.toNat) && decide (u.kind.toNat ≤ 11)

/-- A run of stations of a bank descriptor lies among the 1,024 stations (Table 13-6). -/
def BankDesc.wf (b : BankDesc) : Bool := decide (1 ≤ b.count) && decide (b.first + b.count ≤ 1024)

/-- The offset of a register access lies in the 64 MiB of CSR space (Table 1-6); a misaligned one is answered with an error (R9). -/
def csrOffOk (off : Nat) : Bool := decide (off < 2 ^ 26)

/-- A reduction names an operand type of R199 and at most 64 members (Table 11-25). -/
def RedMsg.wf (m : RedMsg) : Bool := decide (m.par.dt.toNat ≠ 3) && decide (m.data.length = m.par.len)

/-- The slot of a word that a command issues, with the word. -/
def Instr.slotOf : Instr → Option (Issue × Slot)
  | .mld i _ | .mma i _ | .mdrn i _ | .mclr i _ => some (i, .m)
  | .vadd i _ | .vmul i _ | .vfma i _ | .vmax i _ | .vexp i _ | .vrsq i _ | .vcmp i _ | .vsel i _ => some (i, .v)
  | .vcmpr i _ | .vexpd i _ | .vredRow i _ | .vredCol i _ | .vnrm2 i _ | .vcvt i _ => some (i, .v)
  | .ginj i _ | .gtap i _ | .gej i _ | .gpass i _ => some (i, .g)
  | .lld i _ | .lst i _ | .lstash i _ | .lunst i _ => some (i, .l)
  | .xfetch i _ | .xput i _ | .xfetchFeed i _ | .xcancel i _ | .xred i _ | .xnorm i _ => some (i, .x)
  | .epoch i _ _ | .rept i _ | .call i _ | .ret i | .phase i _ | .waitev i _ | .swapbank i _ _ _ => some (i, .c)
  | _ => none

/-- A slot command is the one that the bits of its slot spell, so its slot is in the word (R156, R184); a WAIT word has no slots, and a break
is met at a word that has one (R157, R180). -/
def Instr.slotWf (c : Instr) : Bool :=
  match c.slotOf with
  | some (i, sl) => decide (i.command sl = some c)
  | none =>
    match c with
    | .waitWord i => decide (i.hdr.toNat < 1024) && i.slots.isEmpty
    | .breakHit i _ => decide (1024 ≤ i.hdr.toNat)
    | _ => true

/-- Operand ranges of the other commands. -/
def Instr.argWf : Instr → Bool
  | .registerWrite _ off w _ => csrOffOk off && decide (1 ≤ w)
  | .pairLoRead _ off | .pairHiRead _ off => csrOffOk off
  | .read m => m.wf false
  | .write m | .mcWrite m => m.wf true
  | .redUp m | .redDown m => m.wf
  | .linkUnitRx _ e => e.unit.wf && (e.lanes.getD []).length ≤ 8
  | .binLoad _ _ banks => banks.all BankDesc.wf
  | .variantStage _ v => v.banks.all BankDesc.wf
  | .errorReport _ _ u _ _ => u.wf
  | .cePoll u _ => u.wf
  | .thermalReading temps => decide (temps.length = 128)
  | .buddyPageRx _ _ data => decide (data.length = 65536) || decide (data.length = 4096)
  | _ => true

/-- A well-formed command. -/
def Instr.wf (i : Instr) : Bool := i.slotWf && i.argWf

end Sys2Proof
end

