-- ==== Sys2Proof/Tests/Slice0.lean ====
section
/-! SUPPORT. Small tests: the words of the spec's encoding tables decode to their ops, ill-formed commands are refused, the hypotheses of
every statement are met somewhere, and single results that the spec gives. -/

open Sys2Proof Sys2Proof.Machine

-- One theorem at a time: each evaluation waits for every earlier check, and waiting threads hold memory.
set_option Elab.async false

namespace Sys2Proof.Tests

/-! ### States and words -/

/-- Die 0 runs: regions, stacks and domains powered, station 0 running on schedule tick 64 with stream F owning every slot. -/
def up : State :=
  (List.range 5).foldl (fun s r => s.setReg .stnOwnMap (4 * r) 1)
    { State.reset with
      stations := [(0, { Station.reset with run := .running })], refc := [(0, 64)], pwr := { State.reset.pwr with on := 0x3FFF#14 } }

/-- The state with station 0, or its stream F, changed. -/
def at0 (f : Station → Station) : State := up.modStation 0 f

def atF (f : StreamSt → StreamSt) : State := up.modStream 0 .F f

/-- A word of stream F of station 0. -/
def word (h : BitVec 16) (bits : List Word) : Issue := ⟨0, .F, h, bits, .clean⟩

/-- One word for each slot, and a WAIT word. -/
def wM : Issue := word 0x8000 [0xCC000000]
def wV : Issue := word 0x4000 [0x09885201]
def wG : Issue := word 0x2000 [0x60000000]
def wL : Issue := word 0x1000 [0x01816200]
def wX : Issue := word 0x0800 [0x21253F80]
def wC : Issue := word 0x0400 [0xC0800000]
def wWait : Issue := word 0x00FF []

/-- The state with every stack out of retention. -/
def hot : State := (up.setFld .pwrState 0 3 0 15).setReg .shtCtrl 0 0x100

/-! ### The spec's example words (Tables 7-3 to 7-10 and 7-12) -/

/-- The command that one slot's 32 bits spell in a word of that slot alone. -/
def spells (h : BitVec 16) (bits : Word) (sl : Slot) : Option Instr := (word h [bits]).command sl

theorem test_decode_m :
    spells 0x8000 0x295E0060 .m = some (.mld (word 0x8000 [0x295E0060]) ⟨3, 0, 175, false, 0xA⟩) ∧
    spells 0x8000 0x557FFAA0 .m = some (.mma (word 0x8000 [0x557FFAA0]) ⟨1, false, 1407, 15, 0xA, 0xA⟩) ∧
    spells 0x8000 0x90462800 .m = some (.mdrn (word 0x8000 [0x90462800]) ⟨1, false, 8, 3, 2, true⟩) ∧
    spells 0x8000 0xCC000000 .m = some (.mclr (word 0x8000 [0xCC000000]) 3) := by decide

theorem test_decode_v1 :
    spells 0x4000 0x09885201 .v = some (.vadd (word 0x4000 [0x09885201]) ⟨6, 4, 5, 0, 2, 0, 1⟩) ∧
    spells 0x4000 0x118C7000 .v = some (.vmul (word 0x4000 [0x118C7000]) ⟨6, 6, 7, 0, 0, 0, 0⟩) ∧
    spells 0x4000 0x1A54B00C .v = some (.vfma (word 0x4000 [0x1A54B00C]) ⟨9, 10, 11, 0, 0, 0, 12⟩) ∧
    spells 0x4000 0x20C60300 .v = some (.vmax (word 0x4000 [0x20C60300]) ⟨3, 3, 0, 0, 3, 0, 0⟩) ∧
    spells 0x4000 0x298C0000 .v = some (.vexp (word 0x4000 [0x298C0000]) ⟨6, 6, 0, 0, 0, 0, 0⟩) ∧
    spells 0x4000 0x31CE0801 .v = some (.vrsq (word 0x4000 [0x31CE0801]) ⟨7, 7, 0, 2, 0, 0, 1⟩) ∧
    spells 0x4000 0x38443004 .v = some (.vcmp (word 0x4000 [0x38443004]) ⟨1, 2, 3, 0, 0, 0, 4⟩) := by decide

theorem test_decode_v2 :
    spells 0x4000 0x41043040 .v = some (.vsel (word 0x4000 [0x41043040]) ⟨4, 2, 3, 0, 0, 1, 0⟩) ∧
    spells 0x4000 0x4D040045 .v = some (.vcmpr (word 0x4000 [0x4D040045]) ⟨20, 2, 0, 0, 0, 1, 5⟩) ∧
    spells 0x4000 0x50A80045 .v = some (.vexpd (word 0x4000 [0x50A80045]) ⟨2, 20, 0, 0, 0, 1, 5⟩) ∧
    spells 0x4000 0x59480001 .v = some (.vredRow (word 0x4000 [0x59480001]) ⟨5, 4, 0, 0, 0, 0, 1⟩) ∧
    spells 0x4000 0x62120000 .v = some (.vredCol (word 0x4000 [0x62120000]) ⟨8, 9, 0, 0, 0, 0, 0⟩) ∧
    spells 0x4000 0x6A8C05CC .v = some (.vcvt (word 0x4000 [0x6A8C05CC]) ⟨10, 6, 0, 11, 9, true, 0⟩) ∧
    spells 0x4000 0x70022003 .v = some (.vnrm2 (word 0x4000 [0x70022003]) ⟨0, 1, 2, 0, 0, 0, 3⟩) ∧
    spells 0x4000 0x00000000 .v = none := by decide

theorem test_decode_g :
    spells 0x2000 0x0234A700 .g = some (.ginj (word 0x2000 [0x0234A700]) ⟨0, 2, 3, 4, 0xA, false, true, true, true⟩) ∧
    spells 0x2000 0x10000800 .g = some (.ginj (word 0x2000 [0x10000800]) ⟨1, 0, 0, 0, 0, true, false, false, false⟩) ∧
    spells 0x2000 0x70000340 .g = some (.gtap (word 0x2000 [0x70000340]) ⟨true, true, 0x340⟩) ∧
    spells 0x2000 0x99E00000 .g = some (.gpass (word 0x2000 [0x99E00000]) ⟨6, 7, true, false, 0⟩) ∧
    spells 0x2000 0xC8000000 .g = some (.gej (word 0x2000 [0xC8000000]) ⟨false, false, true, 0⟩) := by decide

theorem test_decode_l :
    spells 0x1000 0x01816200 .l = some (.lld (word 0x1000 [0x01816200]) ⟨0, 3, 0, 5, 8, true, false⟩) ∧
    spells 0x1000 0x20882600 .l = some (.lld (word 0x1000 [0x20882600]) ⟨2, 1, 2, 0, 9, true, false⟩) ∧
    spells 0x1000 0x5003EA00 .l = some (.lst (word 0x1000 [0x5003EA00]) ⟨1, 0, 0, 15, 10, true, false⟩) ∧
    spells 0x1000 0x8C780000 .l = some (.lstash (word 0x1000 [0x8C780000]) ⟨6, 3, 12⟩) ∧
    spells 0x1000 0xCC780000 .l = some (.lunst (word 0x1000 [0xCC780000]) ⟨6, 3, 12⟩) := by decide

theorem test_decode_x :
    spells 0x0800 0x21253F80 .x = some (.xfetch (word 0x0800 [0x21253F80]) ⟨false, 9, 1, 4, 63, true⟩) ∧
    spells 0x0800 0x28414000 .x = some (.xfetchFeed (word 0x0800 [0x28414000]) ⟨2, false, 5, false⟩) ∧
    spells 0x0800 0x45099F00 .x = some (.xput (word 0x0800 [0x45099F00]) ⟨false, 40, 2, 6, 31, false⟩) ∧
    spells 0x0800 0x64000000 .x = some (.xcancel (word 0x0800 [0x64000000]) 1) ∧
    spells 0x0800 0x8716DF80 .x = some (.xred (word 0x0800 [0x8716DF80]) ⟨0, 56, 11, 6, 63⟩) ∧
    spells 0x0800 0xA7F7C000 .x = some (.xnorm (word 0x0800 [0xA7F7C000]) ⟨63, 11, 14⟩) := by decide

theorem test_decode_c :
    spells 0x0400 0x20000107 .c = some (.epoch (word 0x0400 [0x20000107]) false 0x107) ∧
    spells 0x0400 0x400082BE .c = some (.rept (word 0x0400 [0x400082BE]) ⟨0, 2, 351⟩) ∧
    spells 0x0400 0x60000030 .c = some (.call (word 0x0400 [0x60000030]) 0x30) ∧
    spells 0x0400 0x80000000 .c = some (.ret (word 0x0400 [0x80000000])) ∧
    spells 0x0400 0xB844C0A2 .c = some (.phase (word 0x0400 [0xB844C0A2]) ⟨true, true, false, 0x113, 0x0A2⟩) ∧
    spells 0x0400 0xC0800000 .c = some (.waitev (word 0x0400 [0xC0800000]) 1) ∧
    spells 0x0400 0xFE000000 .c = some (.swapbank (word 0x0400 [0xFE000000]) 7 true 0) := by decide

/-- The word of Table 7-12: 14 bytes, stream F, tag 0x2E, with M, G and X slots. -/
def table712 : Issue := word 0xA92E [0x457EFAA0, 0x60000000, 0x21253F80]

theorem test_word_of_table_7_12 :
    2 * hdrLen 0xA92E = 14 ∧ hdrSlots 0xA92E = [.m, .g, .x] ∧ hdrSchk 0xA92E = Strm.F.code ∧ hdrTag 0xA92E = 0x2E ∧ table712.encOk = true ∧
    table712.command .m = some (.mma table712 ⟨0, false, 1406, 15, 0xA, 0xA⟩) ∧
    table712.command .g = some (.gtap table712 ⟨true, false, 0⟩) ∧
    table712.command .x = some (.xfetch table712 ⟨false, 9, 1, 4, 63, true⟩) ∧ table712.command .c = none := by decide

/-- A reserved opcode, a reserved bit and a reserved event each fail the encoding check (R184). -/
theorem test_reserved_encodings :
    slotOk .m 0xCC000001 = false ∧ slotOk .v 0 = false ∧ slotOk .x 0x38000000 = false ∧ slotOk .c 0xC4800000 = false ∧
    slotOk .c 0 = false ∧ slotOk .g 0x50010000 = false ∧ slotOk .l 0x8C780001 = false ∧ slotOk .m 0x295E0060 = true ∧
    slotOk .v 0x6A8C05CC = true ∧ slotOk .g 0x0234A700 = true ∧ slotOk .l 0x20882600 = true ∧ slotOk .x 0x28414000 = true := by decide

/-! ### Ill-formed commands, one for each check -/

/-- A message of `n` data bytes whose length field says `l`. -/
def reqMsg (l n : Nat) : ReqMsg := ⟨none, 0, 0xFFFF, 0x400, 0, 0, 0, l, List.replicate n 0, 0, .clean, 0⟩

def vop : VOp := ⟨6, 4, 5, 0, 2, 0, 1⟩

theorem test_wf_messages :
    (Instr.read (reqMsg 64 0)).wf = true ∧ (Instr.read (reqMsg 0 0)).wf = false ∧ (Instr.read (reqMsg 4097 0)).wf = false ∧
    (Instr.write (reqMsg 8 8)).wf = true ∧ (Instr.write (reqMsg 8 7)).wf = false ∧ (Instr.mcWrite (reqMsg 8 7)).wf = false := by decide

theorem test_wf_registers :
    (Instr.registerWrite .host 0 4 0).wf = true ∧ (Instr.registerWrite .host (2 ^ 26) 4 0).wf = false ∧
    (Instr.registerWrite .host 0 0 0).wf = false ∧ (Instr.pairLoRead .host (2 ^ 26)).wf = false := by decide

theorem test_wf_slots :
    (Instr.mclr wM 3).wf = true ∧ (Instr.mclr wM 1).wf = false ∧ (Instr.mclr (word 0x4000 [0xCC000000]) 3).wf = false ∧
    (Instr.vadd wV vop).wf = true ∧ (Instr.vmul wV vop).wf = false ∧ (Instr.gtap wG ⟨true, false, 0⟩).wf = true ∧
    (Instr.gtap wG ⟨false, false, 0⟩).wf = false ∧ (Instr.lld wL ⟨0, 3, 0, 5, 8, true, false⟩).wf = true ∧
    (Instr.lst wL ⟨0, 3, 0, 5, 8, true, false⟩).wf = false ∧ (Instr.xcancel wX 0).wf = false ∧ (Instr.ret wC).wf = false ∧
    (Instr.waitev wC 1).wf = true ∧ (Instr.waitWord wC).wf = false ∧ (Instr.waitWord wWait).wf = true ∧
    (Instr.breakHit wWait 0).wf = false ∧ (Instr.breakHit wC 0).wf = true := by decide

theorem test_wf_units_and_banks :
    (Instr.errorReport 1 0 ⟨11, 0⟩ 0 0).wf = true ∧ (Instr.errorReport 1 0 ⟨0, 0⟩ 0 0).wf = false ∧ (Instr.cePoll ⟨12, 0⟩ 0).wf = false ∧
    BankDesc.wf ⟨0, 1024, .F, false, 0, 0⟩ = true ∧ BankDesc.wf ⟨1, 1024, .F, false, 0, 0⟩ = false ∧ BankDesc.wf ⟨0, 0, .F, false, 0, 0⟩ = false :=
  by decide

theorem test_wf_lists :
    (Instr.thermalReading (List.replicate 128 40)).wf = true ∧ (Instr.thermalReading [40]).wf = false ∧
    (Instr.buddyPageRx 0 0 [0]).wf = false := by decide +kernel

theorem test_wf_reductions :
    (Instr.redUp ⟨⟨0, 0, 0, 1, false, false, 0, 4⟩, 0, 0, true, false, 0, 0, 0, zeros 4⟩).wf = true ∧
    (Instr.redUp ⟨⟨0, 0, 0, 1, false, false, 3, 4⟩, 0, 0, true, false, 0, 0, 0, zeros 4⟩).wf = false ∧
    (Instr.redDown ⟨⟨0, 0, 0, 1, false, false, 0, 4⟩, 0, 0, true, false, 0, 0, 0, zeros 3⟩).wf = false ∧
    (Instr.linkUnitRx 0 ⟨⟨zeros 64, 0⟩, 0, 0, none⟩).wf = true ∧ (Instr.linkUnitRx 0 ⟨⟨zeros 63, 0⟩, 0, 0, none⟩).wf = false := by decide

/-! ### Words in the queue -/

/-- The table gives no bits: no word spells a command, and the queue stays as it is. -/
theorem test_no_table_words (n w : Nat) : decodeTableWord n w = none ∧ State.reset.withFetchWord n w = State.reset := ⟨rfl, rfl⟩

/-! ### Results that the spec gives -/

/-- R387: 600 mV up to multiplier 20, 760 mV at 40. -/
theorem test_minimum_voltage : minMv 20 = 600 ∧ minMv 30 = 680 ∧ minMv 40 = 760 := by decide

/-- R103: 33 positions a segment, 4 more in half 1, 280 a die in package mode. -/
theorem test_lags : up.lagAt 0 0 = 0 ∧ up.lagAt 1 0 = 33 ∧ up.lagAt 4 0 = 136 ∧ { up with pkgRing := true }.lagAt 8 0 = 280 := by decide

/-- IDCODE (after R423): bit 0 is 1, the manufacturer 0x2B7, the part and its stepping above. -/
theorem test_idcode : (match exec .jtagIdcode State.reset with | .next u => u.out | _ => []) = [.jtag 0x10A0156F] := by decide +kernel

/-- R54: MCLR of groups 0 and 1 on its word's tick clears them and leaves group 2. -/
theorem test_mclr : (match exec (.mclr wM 3) (at0 (fun x => { x with acc := [(0, [1]), (2, [2])] })) with
    | .next u => some ((u.station 0).acc.map (·.1)) | _ => none) = some [2] := by decide +kernel

/-- R138: 1 + 1 in FP32 is 2, without flags, and -0 and +0 sum to +0 as IEEE 754 has it. -/
theorem test_add32 : add32 0x3F800000 0x3F800000 = (0x40000000, Flg.none) ∧ add32 0x80000000 0 = (0, Flg.none) := by decide +kernel

/-- R156: a word of M, V and C slots has seven halfwords. -/
theorem test_word_length : hdrLen 0xC400 = 7 ∧ hdrSlots 0xC400 = [.m, .v, .c] := by decide

/-- R112: GPASS of an empty slot copies nothing. -/
theorem test_gpass_empty : (match exec (.gpass (word 0x2000 [0x99E00000]) ⟨6, 7, true, false, 0⟩) up with
    | .next u => some ((u.station 0).late.map (·.pri)) | _ => none) = some [.gInc, .gInc] := by decide +kernel

/-- The powered part with the mailbox QP of Ethernet port 0 connected. -/
def live : State := { State.reset with pwr := up.pwr }.setFld .ethQpStatus 0 31 30 1

/-- R349: a command with a sequence number above E is refused with status 4 and E. -/
theorem test_seq_high : (match exec (.query (⟨0, 1, 0, 1, 0, 32, 2, 0, 0, 32, false⟩)) live with
    | .next u => u.out.head? | _ => none) = some (.completion 0 0 1 2 0 4 0 0 [1]) := by decide +kernel

/-- R192: an LLD writes its row three ticks after its own under profile 1, and INC the register at the end of its tick. -/
theorem test_lld_ticks : (match exec (.lld wL ⟨0, 3, 0, 5, 8, true, false⟩) (up.setReg .shtCtrl 0 0x100) with
    | .next u => some ((u.station 0).late.map (fun l => (l.due, l.pri))) | _ => none) = some [(64, .lInc), (67, .lPort)] := by decide +kernel

/-- R127: of an L write, a V write and a drain write that land on one tick in one element, the drain's stands. -/
theorem test_order_of_one_tick :
    (((up.landAll 0 [⟨64, .drain, .els 3 [(0, 3)]⟩, ⟨64, .lPort, .els 3 [(0, 1)]⟩, ⟨64, .v, .els 3 [(0, 2)]⟩]).station 0).tile 3).el 0 = 3 ∧
    ((up.landAll 0 [⟨64, .lReg, .sreg .F 5 1⟩, ⟨64, .gInc, .sreg .F 5 3⟩, ⟨64, .v, .sreg .F 5 2⟩]).stream 0 .F).sreg 5 = 1 := by
  decide +kernel

/-! ### The hypotheses of the statements are met -/

theorem test_meets_StepKeeps : step State.reset = .next State.reset ∧ State.reset.stackMem.wf = true := ⟨rfl, by decide⟩

theorem test_meets_StationThatIsNotLive :
    State.reset.running 0 = false ∧ (up.setDie 0 { DieSt.reset with frozen := true }).halted (regionOf 0) = true ∧
    ({ up with refc := [] }).tickOf 1 = none ∧ up.running 0 = true ∧ (up.station 0).run ≠ .brk ∧ slotOf (.mclr wM 3) = some (wM, .m) ∧
    up.tickOf 0 = some 64 ∧ ((at0 (fun x => { x with bounds := [⟨64, false, 1, .U, 32⟩] })).station 0).boundaryDue 64 = true := by decide

theorem test_meets_FailingWord :
    up.issueTick 0 = some 64 ∧ .m ∈ hdrSlots 0x8000 ∧ up.ringFree 0 = true ∧ (up.stream 0 .F).sameWord 0x8000 64 = false ∧
    up.ready 0 .F 64 = true ∧ up.brkHits 0 .F 0x8200 = false ∧
    ((up.setReg .dbgBrkF 0 0x40000).brkHits 0 .F 0x8000 = true ∧ (atF (fun y => { y with skip := some 64 })).stream 0 .F = { up.stream 0 .F with skip := some 64 }
      ∧ ({ up.stream 0 .F with skip := some 64 } : StreamSt).skips 64 = true) ∧
    up.wordFails (word 0x8200 [0xCC000000]) 64 = some (4, 2, 6) ∧ up.wordFails (word 0x8000 [0xCC000001]) 64 = some (4, 12, 6) ∧
    ({ up with regs := [] }).wordFails wM 64 = some (4, 1, 0) ∧ up.wordFails (word 0x0400 [0x60000100]) 64 = some (9, 10, 5) ∧
    up.wordFails (word 0x8100 [0xCC000000]) 64 = none := by decide

theorem test_meets_Sequencing :
    up.opens wC .c 64 = true ∧ (atF (fun y => { y with word := some ⟨64, 0x0400, true, [], 0, false⟩ })).opens wC .c 64 = true ∧
    hdrSlots 0x00FF = [] ∧ up.issueTick 0 = some 64 ∧ (up.stream 0 .F).sameWord 0x00FF 64 = false ∧ up.ready 0 .F 64 = true ∧
    up.wordFails wWait 64 = none ∧ up.brkHits 0 .F 0x00FF = false ∧
    (let s := atF (fun y => { y with rets := [⟨5, 0⟩] })
     s.opens wC .c 64 = true ∧ (((s.station 0).opened wC .c 64).stream .F).rets = ⟨5, 0⟩ :: []) := by decide

theorem test_meets_Call :
    (up.setReg .shtCtrl 0 0x200).opens (word 0x0400 [0x60000030]) .c 64 = true ∧ (word 0x0400 [0x60000100]).callId = some 0x100 ∧
    (word 0x0400 [0x60000100]).encOk = true ∧ hdrSchk 0x0400 = 0 ∧ hdrSchk 0x0500 = Strm.F.code ∧
    up.unowned 0 .F 0x0400 64 = none ∧ (up.setReg .shtCtrl 0 0x200).callOk 0 0x001 = true ∧ up.callOk 0 0x100 = false := by decide

theorem test_meets_Epoch :
    up.opens wC .c 64 = true ∧ (up.stream 0 .F).ltag ≠ 7 ∧ (up.station 0).owesLens .F 0 = false ∧ (up.station 0).lensOld = [] ∧
    (let d : DFlight := ⟨60, Tile.zero, false, 3, 0, 0, true, up.lensSrc 0 .F, [], []⟩
     ((at0 (fun x => { x with dq := [d] })).station 0).owesLens .F 0 = true) := by decide +kernel

theorem test_meets_Waits :
    (let s := atF (fun y => { y with wait := some ⟨16, 63, some 63⟩ })
     s.issueTick 0 = some 64 ∧ (s.stream 0 .F).wait = some ⟨16, 63, some 63⟩ ∧ 63 < 64 ∧ 63 + 1 ≤ 64 ∧ (64 - (63 + 1)) % 64 = 0) ∧
    (let s := up.setReg .dbgBrkF 0 0x40000
     s.brkHits 0 .F 0x8000 = true ∧ s.brkScope 0 .F = 0 ∧ s.brkTick 0 = some 64 ∧ (s.stream 0 .F).skip = none ∧ s.ready 0 .F 64 = true) ∧
    (let s := up.setReg .dbgBrkF 0 0x140000
     s.brkHits 0 .F 0x8000 = true ∧ s.brkScope 0 .F ≠ 0 ∧ s.brkTick 0 = some 64 ∧ brkHorizon (s.brkScope 0 .F) = 64) ∧
    (let s := up.setReg .dbgBrkF 0 0xC0000
     s.brkHits 0 .F 0x8000 = true ∧ s.brkScope 0 .F ≠ 0 ∧ s.brkTick 0 = some 64 ∧ brkHorizon (s.brkScope 0 .F) = 32) := by
  decide

/-- The state in which stream F of station 0 owns every slot on every tick, and has called a ROM routine `k` ticks before tick 20000. -/
def romAt (id k : Nat) : State :=
  ((List.range 20).foldl (fun (s : State) w => s.setReg .stnOwnMap w 0x55555555) { up with refc := [(0, 20000)] }).modStream 0 .F (fun y =>
    { y with rom := some ⟨id, 20000 - k, 0, 0, none⟩, next := 20001 - k + (romRtn id).dur })

theorem romAt_owner_frame (id k r f : Nat) : r < 5 → f < 64 → (romAt id k).owner 0 r f = 1 := by
  have h : ∀ r < 5, ∀ f < 64, (romAt 0 0).owner 0 r f = 1 := by decide +kernel
  exact fun h1 h2 => h r h1 f h2

theorem romAt_owner (id k r t : Nat) (h : r < 5) : (romAt id k).owner 0 r t = 1 := by
  have h1 := romAt_owner_frame id k r (t % 64) h (Nat.mod_lt _ (by decide))
  simpa [State.owner] using h1

/-- No word of whatever program the ROM holds is turned away there. -/
theorem romAt_unowned (id k : Nat) (h : BitVec 16) (t : Nat) : (romAt id k).unowned 0 .F h t = none := by
  rw [State.unowned, List.find?_eq_none]
  intro sl _ hs
  cases sl <;> simp [romAt_owner, Slot.idx, Strm.code] at hs

/-- No break stands there. -/
theorem romAt_brkHits (id k : Nat) (h : BitVec 16) : (romAt id k).brkHits 0 .F h = false := by
  have hb : (romAt id k).reg (brkReg .F) 0 = 0 := by
    have h0 : (romAt 0 0).reg (brkReg .F) 0 = 0 := by decide +kernel
    exact h0
  simp [State.brkHits, hb, bitOf]

/-- The last word of a routine, whatever the ROM holds there, and the first one. -/
theorem test_meets_RomRoutines : ∀ id ∈ [0x001, 0x030, 0x021, 0x020], ∀ k ∈ [(romRtn id).dur, 1],
    (romAt id k).issueTick 0 = some 20000 ∧ ((romAt id k).stream 0 .F).rom = some ⟨id, 20000 - k, 0, 0, none⟩ ∧
    (((romAt id k).stream 0 .F).next ≤ 20000 + 1 ↔ k = (romRtn id).dur) := by decide +kernel

/-- Whether a Lens record lies in a quarantined page group is for the registers to say. -/
theorem fld_regs (s u : State) (h : s.regs = u.regs) : s.fld = u.fld := by
  funext r i a b; simp only [State.fld, State.reg, State.regAt, h]

theorem staleRange_regs (s u : State) (h : s.regs = u.regs) : s.staleRange = u.staleRange := by
  have hp : s.pgQuarantined = u.pgQuarantined := by funext g; unfold State.pgQuarantined; rw [fld_regs s u h]
  funext off len; unfold State.staleRange; rw [hp]

theorem lensStale_regs (s u : State) (h : s.regs = u.regs) : s.lensStale = u.lensStale := by
  funext d f; unfold State.lensStale State.lensAddr; rw [staleRange_regs s u h, fld_regs s u h]

theorem selectStale_regs (s u : State) (h : s.regs = u.regs) : s.selectStale = u.selectStale := by
  funext i f
  have hr : s.reg = u.reg := by funext r i; simp only [State.reg, State.regAt, h]
  unfold State.selectStale; rw [lensStale_regs s u h, staleRange_regs s u h, hr]

theorem romAt_issue_regs (id k : Nat) (w : BitVec 16 × Nat) : ((romAt id k).romIssue 0 .F 20000 w).regs = (romAt 0 0).regs := by
  have hb : ∀ (s : State), s.regs = (romAt 0 0).regs → ∀ n, n < 32 → s.bit (brkReg .F) 0 n = false := by
    intro s hs n hn
    have h0 : (romAt 0 0).reg (brkReg .F) 0 = 0 := by decide +kernel
    have : s.reg (brkReg .F) 0 = 0 := by simpa only [State.reg, State.regAt, hs] using h0
    simp [State.bit, this, bitOf]
  have h2 : ((romAt id k).modStream 0 .F (·.romStep 20000)).regs = (romAt 0 0).regs := rfl
  have h3 : ∀ p : OpPlace, p.strm = .F → ∀ s : State, s.regs = (romAt 0 0).regs → s.traceWord 0 w.1 p false = s := by
    intro p hp s hs
    simp [State.traceWord, hp, hb s hs 16 (by decide)]
  have h4 : (((romAt id k).stream 0 .F).romPlace .F 20000 w.2).strm = .F := by simp [StreamSt.romPlace]
  unfold State.romIssue
  rw [h3 _ h4 _ h2]
  rw [State.brkCount, if_neg (by rw [hb _ h2 18 (by decide)]; decide)]
  exact h2

/-- Where no post is pending and no page group is quarantined the last words of LENS_CLEAR and LENS_SELECT wait for nothing. -/
theorem test_meets_RomPosts (k : Nat) (w : BitVec 16 × Nat) :
    (romAt 0x021 k).clearWaits 0 ⟨0x021, 20000 - k, 0, 0, none⟩ = [] ∧ ((romAt 0x021 k).romIssue 0 .F 20000 w).lensStale 0 0 = false ∧
    (romAt 0x020 k).selectWaits 0 ⟨0x020, 20000 - k, 0, 0, none⟩ = [] ∧ ((romAt 0x020 k).romIssue 0 .F 20000 w).selectStale 0 0 = false := by
  have h1 : (romAt 0 0).lensStale 0 0 = false := by decide +kernel
  have h2 : (romAt 0 0).selectStale 0 0 = false := by decide +kernel
  have hp : ∀ id k d, ((romAt id k).die d).posts = [] := fun _ _ _ => rfl
  refine ⟨?_, ?_, ?_, ?_⟩
  · simp [State.clearWaits, State.blockPosts, hp]
  · rw [lensStale_regs _ _ (romAt_issue_regs _ _ _)]; exact h1
  · simp [State.selectWaits, State.blockPosts, hp]
  · rw [selectStale_regs _ _ (romAt_issue_regs _ _ _)]; exact h2

theorem romWordAt_ends (id k : Nat) (h : k = 0 ∨ k + 1 = (romRtn id).dur) (hk : k < (romRtn id).dur) : ∃ w, romWordAt id k = some w := by
  rcases h with h | h
  · subst h; simp [romWordAt, hk]
  · simp [romWordAt, h, hk]

theorem romWord_at (y : StreamSt) (r : RomSt) (u k : Nat) (hr : y.rom = some r) (hd : r.done = none) (hu : u = r.at_ + 1 + k) :
    y.romWord u = romWordAt r.id k := by
  have h1 : r.at_ < u := by omega
  have h2 : u - (r.at_ + 1) = k := by omega
  simp [StreamSt.romWord, hr, hd, h1, h2]

/-- There is such a word, whatever the ROM holds. -/
theorem test_meets_RomWord : ∀ id ∈ [0x001, 0x030, 0x021, 0x020], ∀ k ∈ [(romRtn id).dur, 1],
    ∃ w, ((romAt id k).stream 0 .F).romWord 20000 = some w := by
  have h0 : ∀ id ∈ [0x001, 0x030, 0x021, 0x020], ∀ k ∈ [(romRtn id).dur, 1],
      (k - 1 = 0 ∨ k - 1 + 1 = (romRtn id).dur) ∧ k - 1 < (romRtn id).dur ∧ 0 < k ∧ k ≤ 20000 := by decide +kernel
  intro id hid k hk
  obtain ⟨a, b, c, d⟩ := h0 id hid k hk
  rw [romWord_at _ _ 20000 (k - 1) (test_meets_RomRoutines id hid k hk).2.1 rfl (by simp only; omega)]
  exact romWordAt_ends id (k - 1) a b

/-- With a post to tag 3 pending, LENS_CLEAR waits, and for a post of B LENS_SELECT. -/
theorem test_meets_RomWaits :
    (let s := up.modDie 0 (fun d => { d with posts := [⟨3, .B, LensRec.empty⟩] })
     s.clearWaits 0 ⟨0x021, 0, 0, 0, none⟩ = [0] ∧ s.selectWaits 0 ⟨0x020, 0, 0, 0, none⟩ = [0]) := by decide +kernel

/-- Where the map gives stream F no slot, a word with a slot other than C fails there: the words are the ROM's (log entry 71). -/
theorem test_meets_RomFailure (id k : Nat) (h : BitVec 16) (sl : Slot) (hs : sl ∈ hdrSlots h) (hc : sl ≠ .c) :
    ({ romAt id k with regs := [] }).unowned 0 .F h 20000 ≠ none := by
  intro hu
  rw [State.unowned, List.find?_eq_none] at hu
  have h2 := hu sl hs
  cases sl <;> simp [State.owner, State.reg, State.regAt, Tbl.get, Strm.code, Reg.info, bitsOf] at h2 hc
/-- A station whose group 0 is held by a chain of stream F, and one that drains it. -/
def held : Station → Station := fun x => x.setWin 0 ⟨some .F, 63, none, none⟩

def drains : Station → Station := fun x => { x with drain := some (0, 70) }

theorem test_meets_Mld :
    up.opens wM .m 64 = true ∧ wclass 1 ≠ none ∧ wclass 15 = none ∧ (up.station 0).portBusy ≤ 64 ∧
    (let s := at0 (fun x => { x with portBusy := 65 }); s.opens wM .m 64 = true ∧ 64 < (s.station 0).portBusy) ∧
    (⟨64, 0, 0, 3, false, isFp6 1, true⟩ : MFlight).six = false ∧ 15 < 16 ∧ 4095 < 4096 ∧ 3 ≤ (⟨64, 0, 0, 3, false, false, true⟩ : MFlight).len ∧
    (⟨64, 0, 0, 3, false, false, true⟩ : MFlight).len < 4 := by decide

/-- The MMA of Table 7-3 ends a block, one of KBASE 0 does not; both have active rows and, with fewer rows, inactive ones. -/
theorem test_meets_Mma :
    (up.station 0).mmaFault ⟨0, false, 0, 0, 1, 1⟩ .F 64 = none ∧ (up.station 0).mmaFault ⟨0, false, 0, 0, 1, 15⟩ .F 64 = some 3 ∧
    (drains (up.station 0)).mmaFault ⟨0, false, 0, 0, 1, 1⟩ .F 64 = some 1 ∧
    ((up.setReg .stnArrayCtrl 0 4).opens wM .m 64 = true ∧ (up.setReg .stnArrayCtrl 0 4).bit .stnArrayCtrl 0 2 = true) ∧
    ((up.setReg .stnArrayCtrl 0 0).opens wM .m 64 = true ∧ (up.setReg .stnArrayCtrl 0 0).bit .stnArrayCtrl 0 2 = false) ∧
    (∀ c ∈ wclass 0xA, mmaEnds ⟨1, false, 1407, 15, 0xA, 0xA⟩ c = true ∧ mmaEnds ⟨1, false, 0, 3, 0xA, 0xA⟩ c = false ∧
      mmaEnds ⟨1, false, 1407, 3, 0xA, 0xA⟩ c = true) ∧
    wclass 0xA ≠ none ∧ 1023 / 64 ≤ 15 ∧ ¬ 1023 / 64 ≤ 3 ∧ 0 / 64 ≤ 3 := by decide

theorem test_meets_Mdrn :
    (up.station 0).mdrnFault ⟨0, false, 0, 0, 0, false⟩ false 64 = none ∧
    (drains (up.station 0)).mdrnFault ⟨0, false, 0, 0, 0, false⟩ false 64 = some 1 ∧
    (let x := (up.station 0).setWin 0 ⟨some .F, 62, some 4, some 66⟩
     x.mdrnFault ⟨0, false, 0, 0, 0, false⟩ false 64 = some 2 ∧ (x.win 0).till ≠ none ∧ x.drainHeld 64 = false ∧
     ({ x with settleAt := [64] } : Station).settleAt.contains 64 = true) ∧
    ((up.station 0).win 0).cls = none := by decide

/-- Station 0 in settle mode, with a WAIT of 31 ticks, an MMA of group 0 on tick 95 and an MDRN of it on tick 96 in F's bank. -/
def settles : State :=
  let code : List Byte := [0x1E, 0x00, 0x00, 0x80, 0xA0, 0xFA, 0x7E, 0x45, 0x00, 0x80, 0x00, 0x00, 0x00, 0x80]
  (at0 (fun x => { x with imem := x.imem.wrN (bankOff .F (x.stream .F).bank) code })).setReg .stnArrayCtrl 0 1

theorem test_meets_SettleAsk :
    settles.liveTick 0 = some 64 ∧ settles.bit .stnArrayCtrl 0 0 = true ∧
    (let h := settles.horizon 0
     let l := settles.lookAhead 0 (h + 1) 64 (settles.station 0)
     ∃ e ∈ l, e.tick = 64 + h ∧ e.isOp 2 = true ∧ mmaBefore l e = true) := by decide +kernel

/-- Its break by count, in die scope, with one word to go hits at the MMA, 31 ticks ahead; a stream that stands before such a word. -/
theorem test_meets_BreakAhead :
    (let s := (settles.setReg .dbgBrkF 0 0xC0000).setReg .dbgCntF 0 1
     s.brkTick 0 = some 64 ∧ (s.stream 0 .F).skip = none ∧ s.brkAhead 0 .F 0x8000 31 64 = true ∧ s.brkScope 0 .F ≠ 0 ∧
     31 ≤ brkHorizon (s.brkScope 0 .F)) ∧
    (let s := atF (fun y => { y with skip := some 64 })
     s.tickOf 0 = some 64 ∧ (s.station 0).run ≠ .brk ∧ (s.stream 0 .F).skip = some 64) ∧
    (up.setReg .dbgBrkF 0 0x40000).wordDue 0 .F 0x8000 64 = true := by decide +kernel

theorem test_meets_Mclr :
    (at0 held).opens wM .m 64 = true ∧ ((held (up.station 0)).win 0).chain 64 = true ∧ 0 ∈ maskGroups 3 ∧
    (maskGroups 3).find? (fun g => ((held (up.station 0)).win g).chain 64 || (held (up.station 0)).draining g 64) = some 0 ∧
    ((up.station 0).win 0).chain 64 = false ∧ (up.station 0).draining 0 64 = false ∧ ((up.station 0).win 1).chain 64 = false ∧
    (up.station 0).draining 1 64 = false ∧ bitOf 3 0 = true ∧ bitOf 3 2 = false := by decide

theorem test_meets_Vector :
    up.opens wV .v 64 = true ∧ (up.station 0).vBusy ≤ 64 ∧
    (let s := at0 (fun x => { x with vBusy := 65 }); s.opens wV .v 64 = true ∧ 64 < (s.station 0).vBusy) ∧
    slotOf (.vadd wV vop) = some (wV, .v) ∧ up.sreg 0 .F 0 % 2 ^ 13 = 0 ∧ bitsOf (up.sreg 0 .F 0) 23 20 ≤ 10 ∧
    (let f := up.vFlight wV 64 (.cmp 4) 1 0 2 3 0 0 0 0 0 false; f.a = [] ∧ f.b = [] ∧ f.c = [] ∧ f.m = [] ∧ f.kind = .cmp 4 ∧ f.sta = 0) := by
  decide

/-- Words that pass a station: a sound one with tag 7, a poisoned one, one whose parity is wrong. -/
def sound : RingWord := RingWord.mk' 0 0 7 0

def bads : List RingWord := [sound.poisoned, { sound with tag := 6 }]

theorem test_meets_Ring :
    up.opens wG .g 64 = true ∧ up.ringFree 0 = true ∧
    (let s := up.setSlot (up.stnKey 0) sound; s.opens wG .g 64 = true ∧ s.slotAt (s.stnKey 0) = sound ∧ s.ringFree 0 = true) ∧
    sound.bad = false ∧ sound.valid = true ∧ sound.misses true 7 = false ∧ sound.misses false 0 = false ∧
    RingWord.empty.bad = false ∧ RingWord.empty.misses false 0 = false ∧ RingWord.empty.valid = false ∧
    (∀ w ∈ bads, w.bad = true) ∧ (bads.map (·.ok)) = [true, false] ∧
    (∀ w ∈ bads, (up.setSlot (up.stnKey 0) w).opens wG .g 64 = true ∧ (up.setSlot (up.stnKey 0) w).ringFree 0 = true) ∧
    (⟨66, ⟨0, 2, 3, 4, 0xA, false, true, true, true⟩, some sound, ⟨64, 0, false, false, .F⟩⟩ : GPend).word = some sound := by
  decide +kernel

theorem test_meets_Lane : up.opens wG .g 64 = true ∧ up.opens wL .l 64 = true ∧ up.opens wX .x 64 = true ∧ up.opens wC .c 64 = true ∧
    wclass 0xA ≠ none ∧ storeSize - 4 + [1, 2, 3, (4 : Byte)].length ≤ storeSize := by decide

/-- Station 0 with a stash window of four entries, one of which entry 1 fills. -/
def win (es : List StashEnt) : State := (at0 (fun x => { x with stash := es })).setReg .stnStashWin 0 (4 * 512)

def one : StashEnt := ⟨1, .resident, 0xFFFF, 0⟩

theorem test_meets_Stash :
    (win [one]).winFull 0 5 = true ∧ (win [one]).winFull 0 2 = false ∧ ((win [one]).station 0).ent 5 = none ∧
    (win [one]).opens wL .l 64 = true ∧ bitsOf ((win [one]).sreg 0 .F 12) 27 16 = 0 ∧
    (let s := ((win [one]).setReg .stnStashMark 0 (2 ^ 31)).setReg .stnStashSpill 0 (2 ^ 22)
     (s.spillEn 0 && (s.station 0).bufEmpty && s.spillFree 0 5 && s.hasSpillTick 0) = true) ∧
    (win [one]).spillEn 0 = false ∧ ((win [one]).station 0).ent 1 = some one ∧
    ((win [⟨1, .spilled, 0, 0⟩, ⟨2, .dropped, 0, 0⟩, ⟨3, .buffered true, 0, 0⟩, ⟨4, .spilling, 0, 0⟩]).station 0).ent 1 = some ⟨1, .spilled, 0, 0⟩ ∧
    ((win [⟨1, .spilled, 0, 0⟩, ⟨2, .dropped, 0, 0⟩, ⟨3, .buffered true, 0, 0⟩, ⟨4, .spilling, 0, 0⟩]).station 0).ent 2 = some ⟨2, .dropped, 0, 0⟩ ∧
    ((win [⟨1, .spilled, 0, 0⟩, ⟨2, .dropped, 0, 0⟩, ⟨3, .buffered true, 0, 0⟩, ⟨4, .spilling, 0, 0⟩]).station 0).ent 3 = some ⟨3, .buffered true, 0, 0⟩ ∧
    ((win [⟨1, .spilled, 0, 0⟩, ⟨2, .dropped, 0, 0⟩, ⟨3, .buffered true, 0, 0⟩, ⟨4, .spilling, 0, 0⟩]).station 0).ent 4 = some ⟨4, .spilling, 0, 0⟩ := by
  decide

/-- The same station with a window full of entry 5 and no spilling, and S12 naming entry 1 with no recipe. -/
theorem test_meets_StashFull :
    (let s := (win [⟨5, .resident, 0, 0⟩]).modStream 0 .F (·.setSreg 12 1)
     s.opens wL .l 64 = true ∧ bitsOf (s.sreg 0 .F 12) 15 0 = 1 ∧ (s.station 0).ent 1 = none ∧ s.winFull 0 1 = true ∧
     bitsOf (s.sreg 0 .F 12) 27 16 = 0 ∧ (s.spillEn 0 && (s.station 0).bufEmpty && s.spillFree 0 1 && s.hasSpillTick 0) = false) := by decide

theorem test_meets_StashEvents :
    (let s := (at0 (fun x => { x with stopAt := some 64 })).setReg .stnLxFault 0 (2 ^ 31 + 7 * 2 ^ 24)
     s.stashStops 0 = true ∧ s.running 0 = true ∧ s.halted (regionOf 0) = false) ∧
    (∀ back ∈ [false, true],
      let s := at0 (fun x => { x with xfer := some ⟨1, back, 0⟩, stash := [one] })
      s.xferDue 0 = some ⟨1, back, 0⟩ ∧ (s.station 0).ent 1 = some one ∧ (∀ f ∈ (s.station 0).stash, f.n = 1 → f = one) ∧
      s.staleRange (s.spillAddr 0 1) 4096 = false ∧ (s.station 0).unst = []) ∧
    (win []).winFull 0 1 = false := by decide +kernel

/-- An op of the X queue on tag 3, to this module, and a state in which it is busy. -/
def xop (k : XKind) : XEntry :=
  { XEntry.base k 3 ⟨60, 0, false, false, .F⟩ with addr := 0xFFFF000000000000, len := 1, wait := 0 }

def busy (k : XKind) (c : Bool) : State := at0 (fun x => x.setTag 3 ⟨2, some (xop k), c⟩)

theorem test_meets_XQueue :
    ((at0 (fun x => { x with xq := [xop .fetch, xop .put] })).station 0).xq = xop .fetch :: [xop .put] ∧
    (∀ k ∈ [XKind.fetch, .put, .feed], up.xReady 0 (xop k) = true) ∧ up.target (modOf (xop .fetch).addr) = .loc ∧
    up.feedSeg 0 (xop .feed) = some 0 ∧ up.openTick 0 = none ∧ (up.setFld .clkRegionStatus 0 31 26 20).openTick 0 = some 64 ∧
    up.running 0 = true ∧ up.halted (regionOf 0) = false ∧
    (busy .fetch false).opens wX .x 64 = true ∧ ((busy .put false).station 0).tag 3 = ⟨2, some (xop .put), false⟩ ∧
    (∀ k ∈ [XKind.fetch, .put, .red, .norm], ∀ c ∈ [true, false], ((busy k c).station 0).tag 3 = ⟨2, some (xop k), c⟩) := by decide

/-- Module 7 has a valid route by port 2, and the op at the head of the X queue names it, with the landing cache on or off. -/
def away (lc : Bool) (k : XKind) : State :=
  (((at0 (fun x => { x with xq := [{ xop k with addr := 0x0007000000000000 }] })).setReg .pyRoute 7 (2 ^ 31 + 0x22)).setFld .pyModuleId 0 31 0
    (2 ^ 31 + 5)).setFld .msLcCtrl 0 0 0 (b2n lc)

theorem test_meets_RemoteSends :
    (∀ lc ∈ [true, false], ∀ k ∈ [XKind.fetch, .put], (away lc k).target (modOf 0x0007000000000000) = .remote 7 ∧
      (away lc k).xReady 0 { xop k with addr := 0x0007000000000000 } = true ∧ (away lc k).bit .msLcCtrl 0 0 = lc) ∧
    (xop .fetch).bypass = false ∧ 64 * (xop .fetch).len ≤ 256 - (withMod 0x0007000000000000 7).toNat % 256 ∧
    (let a := (withMod 0x0007000000000000 7).toNat
     ((away true .fetch).die 0).lcFind (lcLine a) = none ∧ (((away true .fetch).die 0).homeFills (lcHome a)).length < 128 ∧
     ((away true .fetch).die 0).owes 0 3 = false ∧
     (let s := (away true .fetch).modDie 0 (fun d => { d with fills := [⟨lcLine a, [], false⟩] })
      (s.die 0).lcFind (lcLine a) = none ∧ (s.die 0).fills.any (fun f => decide (f.line = lcLine a) && !f.stale) = true)) := by decide +kernel

/-- A member of the reduction that 64 bytes describe: base and stride 1, count 0, and a reduction with a reserved bit. -/
theorem test_meets_ReduceSends :
    (let desc := leBytes 64 (2 ^ 64)
     let s := up.setReg .pySelfLogical 0 (2 ^ 31)
     (∀ k ∈ [XKind.red, .norm], s.descBad desc (xop k) = false ∧ s.descBad (leBytes 64 (2 ^ 64 + 2 ^ 82)) (xop k) = true)) := by decide +kernel

/-- Some station is a member of the norm's trees, which has not contributed yet, and none is. -/
theorem test_meets_NormSends : 0 ∈ (up.setReg .shtCtrl 0 1).normMembers ∧ (up.setReg .shtCtrl 0 0).normMembers = [] := by
  have h : ∀ d < 4, (up.setReg .shtCtrl 0 0).reg .shtCtrl d % 256 = 0 := by decide +kernel
  refine ⟨List.mem_filter.2 ⟨List.mem_range.2 (by decide), by decide +kernel⟩, List.filter_eq_nil_iff.2 (fun i hi => ?_)⟩
  have hi := List.mem_range.1 hi
  have h1 := h (dieOf i) (by simp only [dieOf]; omega)
  have h2 : i / 32 % 8 < 8 := Nat.mod_lt _ (by decide)
  have h3 : bitOf ((up.setReg .shtCtrl 0 0).reg .shtCtrl (dieOf i)) (i / 32 % 8) = false := by
    generalize (up.setReg .shtCtrl 0 0).reg .shtCtrl (dieOf i) = r at h1 ⊢
    generalize i / 32 % 8 = k at h2 ⊢
    have hk := Nat.testBit_mod_two_pow r 8 k
    rw [show 2 ^ 8 = 256 from rfl, h1] at hk
    simpa [bitOf, h2] using hk.symm
  simp [h3]

/-- What a GINJ meets on its ring side: a free or a taken slot, a word of a feed queue or none, twelve lanes taken or not. -/
theorem test_meets_RingSide :
    (let g : GPend := ⟨66, ⟨1, 2, 3, 4, 0xA, false, true, false, true⟩, none, ⟨64, 0, false, false, .F⟩⟩
     let s := up.setFeed 0 2 ⟨[sound], [], none⟩
     g.word = none ∧ g.op.loc = false ∧ (s.slotAt (s.stnKey 0)).valid = false ∧ g.op.src.toNat % 4 = 2 ∧ s.lanesUsed (segOf 0) < 12 ∧
     (s.feed (segOf 0) 2).words = sound :: [] ∧ (up.feed (segOf 0) 2).words = [] ∧
     ((s.setSlot (s.stnKey 0) sound).slotAt (s.stnKey 0)).valid = true ∧ 12 ≤ ({ s with injected := [(0, 12)] } : State).lanesUsed (segOf 0)) := by
  decide +kernel

theorem test_meets_FillTimeout :
    (let f : LcFill := ⟨5, [], false⟩
     ((up.modDie 0 (fun x => { x with fills := [f] })).die 0).fills.find? (fun f => f.line = 5) = some f) := by decide

/-- A descriptor of the region at 0: one word, injected on local tick 64, read or not. -/
def desc (r : Bool) : Desc :=
  { stn := 0, place := ⟨60, 0, false, false, .F⟩, la := 0, isRead := r, origin := 0, k0 := 0, j0 := 0, nk := 0, ncb := 0, cstep := 1,
    tag0 := 7, col := false, inj := true, tagInc := false, twin := false, period := 0, start := 64, fetched := 0, used := 0, missed := false }

/-- Segment 0 with one BF16 region at 0 and one descriptor in queue 0. -/
def fed (ws : List RingWord) (r : Bool) : State :=
  ((up.setReg .prismRgnBase 0 (2 ^ 31)).setReg .prismRgnShape 0 16).setFeed 0 0 ⟨ws, [desc r], none⟩

theorem test_meets_Feeds :
    ((fed [] false).feed 0 0).descs = [] ++ desc false :: [] ∧
    (fed [] false).descRefused 0 ((desc false).parse (leBytes 32 (2 ^ 96 + 2 ^ 129))) (leBytes 32 (2 ^ 96 + 2 ^ 129)) = false ∧
    (fed [] false).descRefused 0 ((desc false).parse (List.replicate 32 0)) (List.replicate 32 0) = true ∧
    ((fed [] true).rgns 0).find? (fun r => r.base = (desc true).origin) = some (rgnOf (2 ^ 31) 16 0 0) ∧
    (desc true).fetched < (desc true).total ∧ (fed [] true).feedStale 0 (desc true) (rgnOf (2 ^ 31) 16 0 0) 0 = false := by decide +kernel

/-- Where the state epoch of the page group differs from the die's, the word is stale. -/
theorem test_meets_StaleFeed :
    ((fed [] true).setReg .msPgEpoch 0 2).feedStale 0 (desc true) (rgnOf (2 ^ 31) 16 0 0) 0 = true := by decide +kernel

theorem test_meets_Injections : ∀ ws ∈ [[sound], []],
    ((fed ws true).feed 0 0).words = ws ∧ ((fed ws true).feed 0 0).descs = desc true :: [] ∧ (fed ws true).feedTick 0 = some 64 ∧
    ((fed ws true).feed 0 0).acted ≠ some ((fed ws true).ref (segRegion 0)) ∧ (desc true).isRead = true ∧ (desc true).missed = false ∧
    (desc true).named 64 = some (desc true).used ∧ ((fed ws true).slotAt (posKey 0 0)).valid = false := by decide +kernel

theorem test_meets_Crossings :
    up.pkgRing = false ∧ up.halted 0 = false ∧ up.arriving 1 = [] ∧ up.arriving 0 = [] ∧
    (∀ k ∈ [0, 1], ∀ w ∈ [sound, { sound with tag := 6 }, RingWord.empty], (up.setSeamQ k [w, RingWord.empty]).seamQ k = w :: [RingWord.empty]) ∧
    sound.valid = true ∧ sound.ok = true ∧ ({ sound with tag := 6 } : RingWord).ok = false ∧
    (let s := ({ up with pkgRing := true }.setBridgeQ 0 [sound]).setReg .ringBridge 0 1
     s.pkgRing = true ∧ s.arriving 0 = [] ∧ s.bridgeQ 0 = sound :: [] ∧ s.bit .ringBridge 0 0 = true) ∧
    up.occ 0 .s01 = 4 ∧ (∀ f ∈ [Fifo.s01, .s10, .br], (up.setOcc 0 f 0).occ 0 f = 0 ∧ (up.setOcc 0 f 8).occ 0 f = 8 ∧
      (up.setOcc 0 f 0).halted 0 = false ∧ (up.setOcc 0 f 0).halted 1 = false) := by decide +kernel

/-- Die 0 changed, and its first region's clock running. -/
def d0 (f : DieSt → DieSt) : State := up.modDie 0 f

def clocked (s : State) : State := s.setFld .clkRegionStatus 0 31 26 20

theorem test_meets_Freezes :
    (let s := clocked (d0 (fun x => { x with target := some 64 })); s.freezeDue 0 = true ∧ 0 ∈ s.scope 0 ∧ s.dieDue 0 = true) ∧
    (let s := d0 (fun x => { x with frozen := true }); (s.die 0).frozen = true ∧ (s.die 0).resumeIn = none ∧ s.scopePending 0 = false) ∧
    (∀ hold ∈ [true, false], let s := d0 (fun x => { x with frozen := true, resumeIn := some 0, hold := hold })
      (s.die 0).frozen = true ∧ (s.die 0).resumeIn = some 0 ∧ (s.die 0).hold = hold) ∧
    (let f : FaultFlit := ⟨0, 14, 0, true, 0, 0⟩
     let s := d0 (fun x => { x with flits := [f] })
     firstFlit (((s.die 0).flits.filter (fun f => decide (f.left = 0))).filter (fun f => f.code ≠ 0)) = some f) := by decide

theorem test_meets_Ticks :
    (let s := clocked up; s.ticking 0 = true ∧ s.tickWaits 0 = false ∧ (s.die 0).frozen = false ∧ s.used.Nodup ∧ 0 ∈ s.used ∧
      regionOf 0 = 0 ∧ s.tickOf 0 = some 64 ∧ (s.endTick 0).arriving 0 = [] ∧ (s.setArriving 0 [sound]).arriving 0 = [sound]) ∧
    (let s := clocked (d0 (fun x => { x with frozen := true, resumeIn := some 3 }))
     s.ticking 0 = true ∧ s.tickWaits 0 = false ∧ (s.die 0).frozen = true) ∧
    up.ticking 0 = false ∧
    (let s := clocked (d0 (fun x => { x with target := some 64 })); s.halted 0 = true ∧ (s.die 0).frozen = false) ∧
    (let b : Boundary := ⟨64, false, 1, .U, 32⟩
     let s := clocked (at0 (fun x => { x with bounds := [b] }))
     0 ∈ s.used ∧ s.liveTick 0 = some 64 ∧ (s.station 0).bounds.head? = some b ∧ (s.die 0).frozen = false) ∧
    (let s := clocked (d0 (fun x => { x with flits := [⟨0, 14, 0, true, 0, 0⟩] })); s.flitDue 0 = true ∧ s.netRegion 0 = 0) ∧
    (let s := clocked (d0 (fun x => { x with frozen := true })); (s.die 0).frozen = true ∧ s.announceDue 0 = true) ∧
    (let s := clocked (d0 (fun x => { x with frozen := true, resumeIn := some 0 })); (s.die 0).frozen = true ∧ (s.die 0).resumeIn = some 0) ∧
    (let s := clocked (atF (fun y => { y with wait := some ⟨16, 63, some 63⟩ }))
     0 ∈ s.used ∧ s.liveTick 0 = some 64 ∧ (s.stream 0 .F).wait = some ⟨16, 63, some 63⟩ ∧ (⟨16, 63, some 63⟩ : WaitSt).ends 64 = true) := by
  decide +kernel

/-- A word arrives on a ring position whose half takes it. -/
theorem test_meets_Arrival :
    (let s := clocked (up.setArriving 0 [sound]); (s.endTick 0).arriving 0 = [sound] ∧ (s.endTick 0).ringTakes 0 = true) := by decide +kernel

/-- Writes of one scalar register and of one element, each with one that comes last. -/
theorem test_meets_OneTick :
    (let ws : List Late := [⟨64, .gInc, .sreg .F 5 3⟩, ⟨64, .lReg, .sreg .F 5 1⟩]
     ∀ z ∈ ws, z ≠ ⟨64, .lReg, .sreg .F 5 1⟩ → z.pri.rank < Pri.lReg.rank) ∧
    (let ws : List Late := [⟨64, .v, .els 3 [(0, 2)]⟩, ⟨64, .drain, .els 3 [(0, 3)]⟩]
     ∀ z ∈ ws, z ≠ ⟨64, .drain, .els 3 [(0, 3)]⟩ → z.pri.rank < Pri.drain.rank) ∧
    0 < ((up.station 0).tile 3).length := by decide +kernel

/-- An EPOCH flit of a station for the boundary at tick 64. -/
def flit (n : Nat) : EpochFlit := ⟨n, .U, 64, false, 1, false⟩

theorem test_meets_Epochs :
    (let s := at0 (fun x => { x with bounds := [⟨64, false, 1, .U, 32⟩] })
     (s.station 0).bounds = [⟨64, false, 1, .U, 32⟩] ∧ s.liveTick 0 = some 64 ∧ s.participates 0 = false) ∧
    (∀ r ∈ [0, 2], let s := at0 (fun x => { x.modStream .F (fun y => { y with swap := some 9 }) with ready := BitVec.ofNat 6 r })
      (s.stream 0 .F).swap = some 9 ∧ (s.station 0).otherReady .F = decide (r = 2)) ∧
    up.epochDue 0 [flit 0] (flit 0) = true ∧ up.epochBad 0 [flit 0] (flit 0) = true ∧ up.fw.closing = false ∧
    (let s := (up.setReg .shtCtrl 0 1)
     s.epochDue 0 ((List.range 32).map flit) (flit 0) = true ∧ s.epochBad 0 ((List.range 32).map flit) (flit 0) = false) := by decide +kernel

/-- The same with every core rail at 800 mV and a Zenith record that passes. -/
def railed : State :=
  (hot.setReg .pwrZenithClkv 0 (20 * 2 ^ 26 + 20 * 2 ^ 20 + 600 * 2 ^ 10 + 600)).pwrUpd
    (fun w => { w with rails := (List.range 8).map (fun r => (r, 800)) })

/-- `State.accepts`, as a Bool. -/
def takes (s : State) (who : Requester) (r : Reg) (i v : Nat) : Bool :=
  (match s.regLocate (r.at i) 4 with | .ok q => decide (q = (r, i, false)) | .error _ => false) && decide (s.csrCheck who r i v = stOk)

theorem accepts_of_takes {s : State} {who : Requester} {r : Reg} {i v : Nat} (h : takes s who r i v = true) : s.accepts who r i v := by
  unfold takes at h
  simp only [Bool.and_eq_true, decide_eq_true_eq] at h
  refine ⟨?_, h.2⟩
  have h1 := h.1
  split at h1 <;> simp_all

theorem test_meets_CounterClears : ∀ q ∈ [(Reg.stnArrayCtrl, 6), (.ringBridge, 2), (.shtCtrl, 0x2100), (.dbgTraceDrop, 0), (.msLcCtrl, 4),
    (.msCtrl, 8), (.pyPortCtrl, 2 ^ 29), (.pyErrCount, 0), (.ethPortCtrl, 2 ^ 30 + 5)], takes hot .host q.1 0 q.2 = true := by decide +kernel

theorem test_meets_Pairs :
    Reg.shtTicks.info.pair = true ∧ Reg.find (Reg.at .shtTicks 0) = some (.shtTicks, 0, false) ∧
    Reg.find (Reg.at .shtTicks 0 + 4) = some (.shtTicks, 0, true) ∧ up.regPowered .shtTicks 0 = true ∧
    State.reset.regPowered .shtTicks 0 = false ∧ Reg.find 0x3FFFFFC = none := by decide +kernel

theorem test_meets_RegisterWrites :
    (∀ q ∈ [(Reg.pyTimeout, 0, 1), (.dbgBrkF, 0, 1), (.dbgBrkF, 32, 1), (.lensCtrl, 0, 7), (.lensCtrl, 32, 7), (.fmtTable, 0, 1)],
      takes hot .host q.1 q.2.1 q.2.2 = true ∧ q.1.acts = false) ∧
    Reg.pyTimeout.info.rwe = 0 ∧ hot.csrCheck .host .pwrZenithClkv 0 (41 * 2 ^ 26) ≠ stOk ∧
    (let s := hot.setReg .pwrZenithClkv 0 (40 * 2 ^ 26 + 40 * 2 ^ 20 + 1023 * 2 ^ 10 + 1023)
     s.csrCheck .host .pwrZenithCfg 0 (2 ^ 31) ≠ stOk ∧ bitOf (2 ^ 31) 31 = true ∧ zenithOver (s.reg .pwrZenithClkv 0) = true) ∧ Reg.lensCtrl.info.rwe ≠ 0 ∧ hot.ownerStopped .lensCtrl 0 = false ∧ hot.ownerStopped .lensCtrl 32 = true ∧
    hot.csrCheck .host .fmtTable 0 0x0F ≠ stOk ∧ hot.ownerStopped .fmtTable 0 = false := by decide +kernel

theorem test_meets_DieAndStackControl :
    (∀ q ∈ [(Reg.shtCtrl, 0, 0x4100), (.shtCtrl, 0, 0x100), (.fmtTable, 0, 1), (.fmtTable, 4096, 1),
      (.segSpare, 8, 31), (.msLcCtrl, 0, 2), (.msTgCtrl, 32, 2 ^ 31), (.msTgCtrl, 0, 2 ^ 30)],
      takes hot .host q.1 q.2.1 q.2.2 = true) ∧
    (∀ r ∈ [Reg.stnStateEpoch, .msPgEpoch], takes hot (.fp 3) r 0 5 = true) ∧ hot.ownerStopped .segSpare 8 = true ∧ hot.dieRunning 0 = true ∧ hot.dieRunning 1 = false ∧
    (hot.setReg .msTgStatus 0 (2 ^ 31)).bit .msTgStatus 0 31 = true ∧ ((hot.setReg .msCtrl 0 4).bit .msCtrl 0 2) = true ∧
    (∀ v ∈ [2 ^ 31 + 2 ^ 30, 2 ^ 31], takes (hot.modStation 0 (fun x => { x with run := .brk })) .host .dbgStep 0 v = true) := by
  decide +kernel

theorem test_meets_PortPowerAttest :
    (∀ q ∈ [(Reg.pyPortCtrl, 2 ^ 31), (.pyPortCtrl, 2 ^ 30 + 2 ^ 31), (.pyPortCtrl, 0), (.ethPortCtrl, 2 ^ 31 + 5), (.ethPortCtrl, 5),
      (.pwrProfile, 2 ^ 31 + 2 ^ 16), (.pwrZenithCfg, 2 ^ 31 + 100 * 2 ^ 16), (.pwrIdleHint, 2 ^ 10), (.pwrAvsCmd, 2 ^ 31 + 600), (.pwrAvsCmd, 2 ^ 31 + 2 ^ 30),
      (.idAttest, 2 ^ 31)], takes railed .host q.1 0 q.2 = true) ∧
    hot.pyState 0 = 0 ∧ (hot.setReg .pyModuleId 0 (2 ^ 31)).ownId ≠ none ∧ (hot.setReg .pyPortCtrl 0 (2 ^ 31)).bit .pyPortCtrl 0 31 = true ∧
    (hot.setFld .pyPortStatus 0 31 28 4).pyState 0 = 4 ∧ (hot.setFld .pyPortStatus 0 31 28 6).pyState 0 = 6 ∧
    hot.legacyMode = false ∧ hot.pwr.avs = none ∧ hot.avsRefused ⟨true, 0, 0, 600, 0, false, .command⟩ = false ∧
    ({ hot with attest := some ([], []) }).attest = some ([], []) := by decide +kernel

/-- Port 0 in a state of Table 11-2. -/
def port (n : Nat) : State := hot.setPyState 0 n

/-- A unit of a kind with a sequence number. -/
def unitOf (kind seq : Nat) : LinkUnit := (⟨seq, 0, 0, false, kind, 0, false, 0⟩ : Trailer).unit []

theorem test_meets_Ports :
    (∀ n ∈ [1, 2, 3, 4, 5], (port n).pyState 0 = n) ∧ rolesMatch ((port 3).role 0) 0 = true ∧
    rolesMatch (((port 3).setFld .pyPortCtrl 0 19 16 1).role 0) 1 = false ∧
    (let s := (port 4).mapLanes 0 (List.range 8)
     s.pyState 0 = 4 ∧ 3 ∈ s.lanesUsedOf 0 ∧ (s.killLane 0 3).spareLane 0 = some 8 ∧
     ((s.killLane 0 8).killLane 0 3).spareLane 0 = none ∧ (s.setFld .pyPortCtrl 0 27 27 1).bit .pyPortCtrl 0 27 = true ∧
     s.bit .pyPortCtrl 0 28 = true ∧ 4 ≤ (((s.killLane 0 8).killLane 0 3).port 0).working.length ∧
     (s.setFld .pyPortCtrl 0 28 28 0).bit .pyPortCtrl 0 28 = false ∧ [1, 2, 3, 4, 5, 6, 7, 8] ≠ s.lanesUsedOf 0) ∧
    (port 1).bit .pyPortCtrl 0 28 = true ∧
    [(1 : Fin 9), 2, 3, 4, 5, 6, 7, 8].map (·.val) = [1, 2, 3, 4, 5, 6, 7, 8] := by decide +kernel

/-- Lanes that a TRAIN ends on: all nine, all but lane 0, six, three. -/
theorem test_meets_Training :
    [0x1FF#9, 0x1FE, 0x03F, 0x007].map (fun b => ((List.range 9).filter (fun l => bitOf b.toNat l)).length) = [9, 8, 6, 3] := by decide

theorem test_meets_LinkUnits :
    unitIntact ⟨[], 0⟩ = false ∧ (∀ k ∈ [0, 1, 2, 3], unitIntact (unitOf k 0) = true ∧ (trailerOf (unitOf k 0).trailer).kind = k) ∧
    unitIntact (unitOf 1 5) = true ∧ (trailerOf (unitOf 1 5).trailer).seq = 5 ∧ ((port 4).port 0).rxSeq = 0 ∧
    (let q : QMsg := ⟨0, false, 0, 16, false, false, [zeros 64]⟩
     let s := ((port 4).setFld .pyPortCtrl 0 19 16 1).modPort 0 (fun x => { x with outq := [q] })
     s.pyState 0 = 4 ∧ (s.port 0).choose (s.flitClass 0) (decide (s.role 0 ≠ 0)) = some q ∧ (s.port 0).again = [] ∧
     (s.port 0).replay.length < 2048) ∧
    ((port 4).port 0).choose ((port 4).flitClass 0) false = none ∧
    (((port 4).modPort 0 (fun x => { x with again := [(0, unitOf 1 0)], skip := true })).port 0).again = (0, unitOf 1 0) :: [] ∧
    (let s := (port 4).modPort 0 (fun x => { x with naks := 7, replay := [(0, unitOf 1 0)] })
     (s.port 0).nakSeq = 0 ∧ 8 ≤ (s.port 0).naks + 1 ∧ (s.port 0).replay.map (·.1) = [0]) := by
  decide +kernel

/-- A multicast group 0 with members 0 and 1 and one message. -/
def mmsg (left : Bool) (sent ackd : BitVec 64) : McMsg := ⟨0, 1030, 0, 0, 0, [], left, sent, ackd, ackd, 0⟩

def cast (m : McMsg) : State :=
  ((hot.setReg .pyMcastMember 0 (2 ^ 31)).setReg .pyMcastMember 1 (2 ^ 31 + 1)).setGroup' 0 ⟨1, [m], 0⟩

theorem test_meets_Multicast :
    (cast (mmsg false 0 0)).members 0 = [0, 1] ∧ ((cast (mmsg false 0 0)).group 0).msgs.find? (fun m => !m.left) = some (mmsg false 0 0) ∧
    (∀ j ∈ [0, 1], hasBit ((cast (mmsg false 0 0)).group 0).off j = false ∧ ((cast (mmsg false 0 0)).group 0).outOf j < 16) ∧
    (cast (mmsg false 0 0)).mcBuffered + (mmsg false 0 0).data.length ≤ 2 ^ 21 ∧
    ((cast (mmsg true 3 0)).group 0).msgs = [mmsg true 3 0] ∧ hasBit (mmsg true 3 0).ackd 1 = false ∧ hasBit (mmsg true 3 2).ackd 1 = true ∧
    hasBit (mmsg true 3 2).good 1 = true ∧ 0 ∈ (cast (mmsg true 3 2)).members 0 ∧
    (let m := { mmsg true 1 0 with held := 2 }; ((cast m).group 0).msgs.find? (fun m => hasBit m.held 1) = some m) ∧
    ((cast (mmsg true 3 0)).group 0).msgs.find? (fun m => hasBit m.held 1) = none ∧
    0 ∈ (cast (mmsg true 3 2)).onPath 0 ∧ (cast (mmsg true 3 2)).mcLags 0 0 = true ∧ (cast (mmsg true 3 0)).mcLags 0 0 = false ∧
    ((cast (mmsg true 3 2)).group 0).msgs.find? (fun y => y.mseq = 0) = some (mmsg true 3 2) ∧ 1024 ≤ (mmsg true 3 2).agent := by decide +kernel

/-- A chain of two ranks of FP32, and this module at rank 0 or 1 of it. -/
def redn : RedParams := ⟨5, 0, 1, 1, false, false, 0, 64⟩

def rank (r : Nat) : State := (hot.setReg .pySelfLogical 0 (2 ^ 31 + r)).setReg .pyModuleId 0 (2 ^ 31)

def part (own : Bool) : RedMsg := ⟨redn, 0, 0, own, false, 1030, 0, 0, zeros 64⟩

theorem test_meets_Reductions :
    (rank 0).rankOf redn = some 0 ∧ (rank 1).rankOf redn = some 1 ∧ (rank 0).redHeld redn < 2048 ∧ (rank 0).redWait = [] ∧
    1024 ≤ (part true).agent.toNat ∧ (rank 0).redKeys.find? (fun k => k.par.key = redn.key) = none ∧
    (let k := (⟨redn, none, 0, 0, 0, [], false, false⟩ : RedKey)
     (k.arrive (part false)).ready 1 = none ∧ (k.arrive (part true)).ready 0 = some (zeros 64) ∧ 0 ≠ redRoot redn ∧
     ((rank 0).setReg .pyRemap (redLogical redn (redUpTo redn 0)) (2 ^ 31)).target (0x8000 + redLogical redn (redUpTo redn 0)) = .loc ∧
     (let one := { redn with count := 0 }
      (rank 0).rankOf one = some 0 ∧ redRoot one = 0 ∧ (({ k with par := one }).arrive { part true with par := one }).ready 0 = some (zeros 64)) ∧
     (let q := { k with own := some (zeros 64), agent := 1030 }
      ({ rank 1 with redKeys := [q] }).redKeys.find? (fun k => k.par.key = (part true).par.key) = some q ∧ q.par = (part true).par) ∧
     (let q := { k with par := { redn with len := 128 } }
      ({ rank 1 with redKeys := [q] }).redKeys.find? (fun k => k.par.key = (part true).par.key) = some q ∧ q.par ≠ (part true).par) ∧
     (let q := { k with own := some (zeros 64), parts := [(0, zeros 64)] }; q.part (1 - 1) = some (zeros 64)) ∧
     redChildren 2 4 = [3]) := by decide +kernel

/-- The engine's slots are all held. -/
theorem test_meets_SlotsHeld :
    (let k := (⟨redn, none, 0, 0, 0, [], false, false⟩ : RedKey)
     let s := { rank 0 with redKeys := List.replicate 2048 { k with par := { redn with key := 9 } } }
     s.redKeys.find? (fun k => k.par.key = redn.key) = none ∧ 2048 ≤ s.redHeld redn) := by decide +kernel

/-- A message of the agent 0x40C of this module to a range of a region. -/
def msg (a : BitVec 64) (n : Nat) : ReqMsg := ⟨none, 0, 0xFFFF, 0x40C, 0, 0, a, n, List.replicate n 0, 0, .clean, 0⟩

theorem test_meets_Messages :
    (let a : BitVec 64 := 0xFFFF100000000000
     hot.refusedAt 0x40C 1 0 64 = 0 ∧ hot.holds (msg a 64) = false ∧ hot.behind (msg a 64) = false ∧ modOf (msg a 64).addr = 0xFFFF ∧
     ReqMsgBad (msg a 64) = false ∧ ReqMsgBad { msg a 64 with via := some 0 } = true ∧ regionOfAddr a = 1) ∧
    (let a : BitVec 64 := 0xFFFF000000000000
     hot.refusedAt 0x40C 0 0 64 = 0 ∧ hot.refusedAt 0x40C 0 0 5000 ≠ 0 ∧ regionOfAddr a = 0 ∧ hot.holds (msg a 64) = false ∧
     hot.behind (msg a 64) = false ∧ hot.readPosts (msg a 64) = 0 ∧
     ((hot.setFld .snapStatus 0 31 30 2).fwUpd (fun f => { f with uncopied := [(0, 1)] })).holds (msg a 64) = true ∧
     (hot.fwUpd (fun f => { f with heldWr := [⟨.write, 0, msg a 64⟩] })).behind (msg a 64) = true ∧
     (let m := { msg 0 64 with via := some 0, agent := 0x403 }
      ReqMsgBad m = false ∧ hot.restoreRefused m = true)) ∧
    modOf (msg 0xFF00000000000000 64).addr = 0xFF00 ∧ (cast (mmsg false 0 0)).members 0 ≠ [] ∧
    hot.mcSlots < 64 ∧ 64 ≤ ({ hot with mcSlots := 64 }).mcSlots := by decide +kernel

/-- Ethernet port 0 enabled and up, QP 0x100 and the mailbox QP connected. -/
def eth : State :=
  (((hot.setReg .ethPortCtrl 0 (2 ^ 31 + 2 ^ 29 + 5)).setReg .ethPortStatus 0 (3 * 2 ^ 30)).setFld .ethQpStatus 1 31 30 1).setFld .ethQpStatus 0 31 30 1

theorem test_meets_Ethernet :
    eth.ethUp 0 = true ∧ hot.ethUp 0 = false ∧ eth.qpLive 0 0x13F = none ∧ eth.qpLive 0 0x100 = some 1 ∧ (eth.qp 1).cnp = none ∧
    ((eth.setQp 1 { QpSt.reset with cnp := some 0 }).qp 1).cnp = some 0 ∧ eth.fw.refTime < 0 + 5000 ∧
    eth.bit .ethPortCtrl 0 29 = true ∧
    eth.bit .ethPortStatus 0 29 = false ∧ pauseHigh < ethBuf ∧ (eth.ethSt 0).fill + 64 ≤ pauseHigh ∧
    (let s := eth.setEth 0 ⟨pauseHigh, 256, [], []⟩; pauseHigh < (s.ethSt 0).fill + 64 ∧ (s.ethSt 0).fill + 64 ≤ ethBuf) ∧
    (let s := eth.setEth 0 ⟨ethBuf, 256, [], []⟩; ethBuf < (s.ethSt 0).fill + 64) ∧
    (eth.setFld .ethPortStatus 0 29 29 1).bit .ethPortStatus 0 29 = true ∧ (eth.ethSt 0).fill - 0 < pauseLow ∧
    (let s := eth.setEth 0 ⟨pauseLow, 256, [], []⟩; pauseLow ≤ (s.ethSt 0).fill - 0) ∧ eth.fld .ethPortCtrl 0 18 16 = 0 ∧
    (eth.setReg .ethIpv4Addr 0 7).reg .ethIpv4Addr 0 = 7 ∧ eth.bit .ethPortStatus 0 31 = true ∧ eth.bit .ethPortCtrl 0 31 = true ∧
    (let s := ((eth.setReg .pwrWakeEn 0 31).setFld .pwrState 0 31 30 3)
     s.idleState = 3 ∧ s.waking = false ∧ s.bit .pwrWakeEn 0 1 = true ∧ s.pins.resetL = true ∧ s.pins.pwrOk = true) := by decide +kernel

theorem test_meets_WakePattern : holdsPattern (wolPattern (hot.mac 0)) (wolPattern (hot.mac 0)) = true := by decide +kernel

theorem test_meets_QueuePairs :
    qpNum 0x10 = some 0 ∧ qpNum 0x100 = some 1 ∧ eth.qpState (qpKey 0 1) = 1 ∧ eth.qpState (qpKey 0 2) = 0 ∧ eth.qpState (qpKey 0 0) = 1 ∧
    ((eth.setQp 1 { QpSt.reset with rtu := true }).qp 1).rtu = true ∧ 0 < (eth.ethSt 0).entries ∧ (eth.qp 1).ops = [] ∧
    (let s := eth.setEth 0 ⟨0, 0, [], []⟩; (s.ethSt 0).entries = 0) ∧
    (let s := (eth.setReg .ethMkeyCtrl 0 (7 * 2 ^ 29)).setPair .ethMkeyLimit 0 (2 ^ 64 - 1)
     s.rdmaOk 0 0 0xFFFF000000000000 64 true = true ∧ s.rdmaOk 0 0 0xFFFF000000000000 64 false = true ∧
     s.target (modOf 0xFFFF000000000000) = .loc) ∧
    eth.rdmaOk 0 0 0 64 true = false ∧
    (let x := (eth.setQp 1 { QpSt.reset with ops := List.replicate 16 ⟨false, 0, 0, 1, [], 0⟩ }).qp 1
     16 ≤ (x.ops.filter (fun o => !o.write)).length ∧ (∃ o ∈ x.ops, o.write = false)) ∧
    (∀ w ∈ [true, false], ∀ n ∈ [1, 2], ((eth.setQp 1 { QpSt.reset with ops := [⟨w, 0, 0, n, [], 0⟩] }).qp 1).ops = ⟨w, 0, 0, n, [], 0⟩ :: []) ∧
    eth.bit .ethPortStatus 0 28 = false := by decide +kernel

/-- A port that trains, runs or retrains keeps its lanes. -/
theorem test_meets_LanesLive : (∀ n ∈ [2, 3, 4, 5], (port n).lanesLive 0 = true) ∧ bitOf hot.pwr.on.toNat 12 = true ∧
    (hot.setFld .fwStatus 2 31 30 2).fld .fwStatus 2 31 30 = 2 ∧ hot.fld .fwStatus 2 31 30 ≠ 2 := by decide +kernel

/-- A multicast message that tag 3 of station 0 waits for. -/
theorem test_meets_StationMulticast :
    (let m : McMsg := ⟨0, 0, 2, 3, 0, [], true, 3, 2, 2, 0⟩
     let s := (cast m).modStation 0 (fun x => x.setTag 3 ⟨2, some (xop .put), false⟩)
     (s.group 0).msgs = [m] ∧ m.agent < 1024 ∧ (s.station m.agent).tag m.tag = ⟨m.gen, some (xop .put), false⟩ ∧ 0 ∈ s.members 0 ∧
     (∀ j ∈ s.members 0, j ≠ 0 → hasBit m.ackd j = true ∧ hasBit m.good j = true)) := by decide +kernel

/-- Rank 0 of a tree of three, whose own operand and nearer child have come. -/
theorem test_meets_TwoChildren :
    (let p : RedParams := { redn with tree := true, count := 2 }
     let q : RedKey := ⟨p, some (zeros 64), 1030, 0, 0, [(1, zeros 64)], false, false⟩
     let m : RedMsg := ⟨p, 2, 1, false, false, 1030, 0, 0, zeros 64⟩
     let s := { rank 0 with redKeys := [q] }
     s.rankOf m.par = some 0 ∧ s.redWait = [] ∧ s.redKeys.find? (fun k => k.par.key = m.par.key) = some q ∧
     redChildren 0 (redSize q.par) = [1, m.rank] ∧ q.part 1 = some (zeros 64) ∧ q.part m.rank = none ∧ 1024 ≤ q.agent) ∧
    redChildren 4 7 = [5, 6] ∧ redParent 4 = 0 := by decide +kernel

/-- A READ of tag 3's B record that a pending post precedes. -/
theorem test_meets_HeldRead :
    (let s := hot.modDie 0 (fun d => { d with posts := [⟨3, .B, LensRec.empty⟩] })
     s.readPosts (msg (BitVec.ofNat 64 (0xFFFF000000000000 + s.lensAddr 0 3 1)) 64) = 1) := by decide +kernel

/-- A wake source that is enabled, and one that is not. -/
theorem test_meets_WakeLatch : (let s := hot.setReg .pwrWakeEn 0 0; s.bit .pwrWakeEn 0 1 = false ∧ s.wakeLevels &&& s.fld .pwrWakeEn 0 4 0 = 0) ∧
    hot.wakeLevels = 0 := by decide +kernel

/-- The three places of a PSN, and a READ of two pieces in its three states once the second piece is answered. -/
theorem test_meets_Pieces :
    psnAt 5 5 = .next ∧ psnAt 5 4 = .dup ∧ psnAt 5 6 = .ahead ∧
    (let o : RdmaOp := ⟨false, 5, 0, 8192, [], 0⟩
     let add := fun (q : List (Nat × Nat × List Byte)) => { o with got := q ++ [(1, 0, zeros 4)] }
     o.pieces = 2 ∧ o.piece 1 = none ∧ (add []).prefix.1 < (add []).pieces ∧ (add []).piece (add []).prefix.1 = none ∧
     (add [(0, 0, zeros 4)]).prefix.1 = (add [(0, 0, zeros 4)]).pieces ∧
     (add [(0, 2, [])]).prefix.1 < (add [(0, 2, [])]).pieces ∧ (add [(0, 2, [])]).piece (add [(0, 2, [])]).prefix.1 = some (2, []) ∧
     o.whole (eth.qpMtu 1) o.prefix.1 ≤ o.sent) ∧
    (let s := eth.setEth 0 ⟨0, 0, [.rnrNak 0, .rnrNak 0], []⟩; (s.ethSt 0).sends.drop 1 = [.rnrNak 0]) := by decide +kernel

/-! Hypotheses that an opaque choice of Config decides (an image's signature, a width-class match) have no witness by computation. -/

/-- Every processor runs its image. -/
def fwUp : State := ((List.range 4).foldl (fun s p => s.setFld .fwStatus p 31 30 2) hot).setFld .ethQpStatus 0 31 30 1

/-- A header for a processor with a sequence number. -/
def hd (p : BitVec 8) (seq : Word) : TcsHdr := ⟨0, 1, 0, 1, p, 32, seq, 0, 0, 32, false⟩

theorem test_meets_Tcs :
    fwUp.qpState (qpKey 0 0) = 1 ∧ fwUp.qpState (qpKey 1 0) ≠ 1 ∧
    bitOf fwUp.pwr.on.toNat 12 = true ∧ fwUp.restarting 0 = false ∧ (∀ p < 4, fwUp.tcsCheck (hd (BitVec.ofNat 8 p) 1) = .pass p) ∧
    (∀ p < 4, fwUp.inRom p = false) ∧ fwUp.idleState = 0 ∧ hot.inRom 0 = true ∧
    fwUp.tcsCheck { hd 0 1 with session := 9 } = .refuse 3 [] ∧ fwUp.bit .mbxStatus 0 30 = false ∧
    (fwUp.setFld .fwStatus 1 31 30 3).tcsCheck (hd 1 1) = .wait 1 ∧
    ((fwUp.journalAdd 0 ⟨1, 1, 0, 0, 0, 0, []⟩).tcsCheck (hd 0 1)) = .again ⟨1, 1, 0, 0, 0, 0, []⟩ ∧
    (fwUp.setFld .fwStatus 0 31 30 3).restarting 0 = true ∧ { hd 0 1 with rsvBad := true }.rsvBad = true := by decide +kernel

theorem tcsRuns_of {s : State} {h : TcsHdr} {opc : Nat} {rom : Bool} (h1 : bitOf s.pwr.on.toNat 12 = true)
    (hq : s.qpState (qpKey h.port 0) = 1) (h2 : s.restarting 0 = false) (h3 : s.tcsCheck h = .pass (opc / 0x1000)) (h4 : s.inRom 0 = false ∧ s.inRom (opc / 0x1000) = false) (h5 : h.rsvBad = false)
    (h6 : s.idleState = 0) : s.tcsRuns h opc rom := ⟨h1, hq, h2, h3, .inr h4, h5, h6⟩

/-- An image for Liaison stands in the stacks: one table of kind 0 and no bytes. -/
def imaged : State :=
  { fwUp with stackMem := ⟨none, [(0, 0x54), (1, 0x58), (2, 0x49), (3, 0x53), (5, 1), (6, 1), (12, 8)]⟩ }

/-- It passes its checks where the digests, the signature and the table are good: these are opaque. -/
theorem test_meets_ImageCommit :
    let bs := imaged.stackRdN 0 0 5640
    imaged.image 0 = none ∧ imaged.regRead .idMinSvn 0 false ≤ imgNum bs 8 4 ∧ imgHeadOk 0 bs = true ∧ bs.drop 5632 = zeros 8 := by
  decide +kernel

theorem imageStatus_of (h1 : takeN 64 (Config.shake256 (imgSlice (imaged.stackRdN 0 0 5640) 128 1952)) = imaged.regBytes .idImgKeyDigest 16)
    (h2 : Config.imageOk 0 (imaged.stackRdN 0 0 5640) = true)
    (h3 : takeN 64 (Config.shake256 (zeros 8)) = imgSlice (imaged.stackRdN 0 0 5640) 16 64) (h4 : Config.tableKnown 0 0 = true) :
    imaged.imageStatus 0 (imaged.stackRdN 0 0 5640) = 0 := by
  obtain ⟨-, hs, hh, hd⟩ := test_meets_ImageCommit
  have ht : tablesOk 0 8 (zeros 8) = true := by
    have hk : leNat ((zeros 8).take 4) = 0 := by decide
    simp [tablesOk, hk, h4, show (zeros 8).isEmpty = false from rfl, show (zeros 8).length = 8 from rfl,
      show leNat (((zeros 8).drop 4).take 4) = 0 by decide, show (List.drop 8 (zeros 8)) = [] from rfl]
  have hz : (zeros 8).length = 8 := rfl
  simp only [State.imageStatus, hd, hh, h2, h3, hz, ht, h1, ne_eq, not_true_eq_false, Bool.not_true, Bool.false_eq_true, ↓reduceIte]
  exact if_neg (Nat.not_lt.mpr hs)

/-- A variant of no banks. -/
def variant : VariantDecl := ⟨3, 0, 0, 0, 1000000, 0, 0, ⟨1, 1, false, 0, false⟩, [], []⟩

/-- The stations of `fwUp` stopped. -/
def still : State := { fwUp with stations := [] }

theorem test_meets_TcsReads :
    (let e : EventRec := ⟨4, 0x8004, 1, 0, 0, 0, []⟩; (fwUp.fwUpd (fun f => { f with events := [e] })).fw.events = e :: [] ∧ e.num = 4) ∧ fwUp.fw.work.length < 32 ∧
    (fwUp.fwUpd (fun f => { f with item := some ⟨0, 0, 0, 0, false⟩ })).fw.item ≠ none ∧ leadOk [3] 3 = true ∧
    (let s := fwUp.setReg .pySelfLogical 0 (2 ^ 31 + 3); s.bit .pySelfLogical 0 31 = true ∧ [(3 : BitVec 14)].contains s.ownLogical = true) := by
  decide +kernel

theorem test_meets_TcsActs :
    fwUp.rdmaBusy 0 = false ∧ bitOf fwUp.pwr.on.toNat 13 = true ∧ fwUp.image 0 = none ∧ banksOk [] = true ∧
    still.declRefused variant.decl [] = none ∧ 800 * still.vMult variant ≤ variant.ticks ∧ still.variantDiffers variant = false ∧
    still.bit .mbxStatus 0 31 = false ∧ still.startSet 15 = [] ∧
    (let s := still.fwUpd (fun f => { f with variants := [variant] }); s.variantOf 3 = some variant ∧ s.bit .fwVariantStatus 0 22 = false) ∧
    (let s := (still.setReg .clkStatus 0 0xA0000000).pwrUpd (fun w => { w with rails := (List.range 8).map (fun r => (r, 800)) })
     s.profBarred 1 = false ∧ 1 ≠ s.active ∧ s.armOver 1 = false ∧ s.railLow 1 = false ∧ s.legacyMode = false ∧
     (∀ r < 8, s.profMult 1 (r % 2) = 0 ∨ s.profMv 1 (r % 2) ≤ s.rail r)) ∧
    still.idleBarred .twilight = false ∧ still.aonUp = true ∧ still.wakeLevels = 0 ∧ fmtOk 0x001 = true ∧ fmtOk 0x00F = false ∧ wakeable 1 0 = 0 ∧ wakeable 1 1 ≠ 0 ∧ hdrStatus (hd 0 1) = 0 ∧ still.fw.queued = [] := by
  decide +kernel

/-- One die of one station, stopped, its three active banks READY, in the mask of a loaded binary. -/
def ready : State :=
  ({ still with stations := (List.range 32).map (fun i => (i, { Station.reset with ready := 0x15 })) }).fwUpd (fun f =>
    { f with binary := some ⟨variant.decl, []⟩ })

theorem test_meets_Start :
    0 ∈ ready.startSet 1 ∧ (∀ i ∈ ready.startSet 1, ready.startBusy i = false ∧ ready.quarantined i = false ∧
      (ready.station i).unready = false ∧ dieOf i < 4) := by decide +kernel

theorem test_meets_StewardKeeper :
    (∀ p < 16, fwUp.pyState p = 0) ∧ roleOk 1 = true ∧ still.anyRunning = false ∧ fwUp.anyRunning = true ∧ fwUp.mirrorIdle = true ∧
    fwUp.bit .snapCtrl 0 31 = false ∧ (fwUp.group 0).msgs = [] ∧ still.stacksUp 0 = true ∧ still.dieRunning 0 = false ∧
    (let s := still.fwUpd (fun f => { f with slots := [(2, { Slot_.never with state := 1, magic := 0x50414E53, format := 1 })] }); (s.slot 2).good = true) := by decide +kernel

theorem test_meets_Processors :
    fwUp.bit .mbxStatus 0 30 = false ∧ fwUp.qpState (qpKey fwUp.fw.lastPort 0) = 1 ∧ fwUp.fw.late = [] ∧ fwUp.fw.memErrs = [] ∧ fwUp.fw.steward = [] ∧ fwUp.fw.tasks = [] ∧
    (Reg.find (Reg.at .fwStatus 0)).map (·.1) = some .fwStatus ∧
    (let r : Report := ⟨0, 0, 0, ⟨0, 0⟩, 0, 0, 0, 0, 0⟩
     256 ≤ (fwUp.fwUpd (fun f => { f with errQ := List.replicate 256 r })).fw.errQ.length) ∧
    ceReg ⟨1, 0⟩ = some (.stnMemErr, 1024, some (23, 16)) ∧ ceReg ⟨4, 0⟩ = some (.pyFecCorr, 16, none) ∧ ceReg ⟨6, 0⟩ = none ∧
    (fwUp.ceAdd .pyFecCorr 0 1024 none).ceCount .pyFecCorr 0 none = 1024 := by
  decide +kernel

theorem test_meets_Activities :
    (let h := hd 0 7
     let s := fwUp.fwUpd (fun f => { f with tasks := [(7, .binLoad h variant.decl [])] })
     s.fw.tasks.find? (fun q => q.1 = 7) = some (7, .binLoad h variant.decl [])) ∧
    still.declRefused variant.decl [] = none ∧ still.codeRefused 1 [] = none ∧ fwUp.declRefused variant.decl [] ≠ none ∧
    takes fwUp (.fp 0) .fwRestart 0 2 = true ∧ fwUp.fw.held = [] ∧ (fwUp.setFld .fwStatus 3 31 30 3).restarting 3 = true ∧
    fwUp.restarting 3 = false ∧ fwUp.fw.errQ.length < 256 ∧ fwUp.fw.ceSeen = [] ∧ still.parkedStill = true ∧ still.idleState = 0 ∧
    (still.fwUpd (fun f => { f with parkDue := true })).fw.parkDue = true ∧ fwUp.regionOn 0 = true ∧
    (fwUp.setReg .mbxCtrl 0 (2 ^ 16 + 100)).bit .mbxCtrl 0 16 = true ∧ (fwUp.setFld .mbxStatus 0 30 30 1).bit .mbxStatus 0 30 = true := by
  decide +kernel

/-- Sundial chooses variant 3 by its policy. -/
def chooses : State := fwUp.fwUpd (fun f => { f with variants := [variant], policy := (1, 3) })

theorem test_meets_Steps :
    (let s := chooses.fwUpd (fun f => { f with group := some (1, [0, 3], 0) })
     s.ownLogical = 0 ∧ [0, 3].contains (3 : BitVec 14) = true ∧ s.fw.group ≠ none) ∧
    (fwUp.setFld .snapStatus 0 31 30 1).fld .snapStatus 0 31 30 = 1 ∧
    (let s := (fwUp.setReg .snapCtrl 0 1).setFld .snapStatus 0 31 30 2; s.fw.stepCnt % 1 = 0 ∧ s.restarting 3 = false) ∧
    (let s := (fwUp.setReg .shtCtrl 0 0x101).modStream 0 .F (fun y => { y with swap := some 0 })
     s.party 0 = [0] ∧ (s.station 0).strmBits 0 (fun y => y.swap.isSome) ≠ 0) ∧
    chooses.sundialUp = true ∧ chooses.fw.group = none ∧ (chooses.fwUpd (fun f => { f with stepCnt := f.stepCnt + 1 })).choice = (some 3, false) ∧
    chooses.variantOf 3 = some variant ∧ variant.prof.toNat = chooses.active ∧ hot.sundialUp = false ∧ hot.bit .fwNextVariant 0 31 = false ∧
    (let s := hot.setReg .fwNextVariant 0 (2 ^ 31 + 3)
     s.bit .fwNextVariant 0 31 = true ∧ (s.fwUpd (fun f => { f with stepCnt := f.stepCnt + 1 })).copyWhich = (0, true)) ∧
    (let s := chooses.fwUpd (fun f => { f with group := some (1, [3, 4], 4), choices := [(2, 3)] })
     s.ownLogical ≠ 4 ∧ s.fw.choices.find? (fun q => q.1 = s.fw.stepCnt + 2) = some (s.fw.stepCnt + 2, 3)) ∧
    (let s := chooses.fwUpd (fun f => { f with group := some (1, [0, 3], 0) })
     s.fw.choices.find? (fun q => q.1 = s.fw.stepCnt + 2) = none ∧ s.bit .fwNextVariant 0 31 = false ∧ s.ownLogical = 0) ∧
    (let s := fwUp.setReg .snapCtrl 0 1; s.fld .snapCtrl 0 15 0 ≠ 0 ∧ s.fw.stepCnt % 1 = 0 ∧ s.mirrorIdle = true ∧ s.anyRunning = true) ∧
    (fwUp.setFld .snapStatus 0 31 30 2).fld .snapStatus 0 31 30 = 2 ∧
    (let s := chooses.fwUpd (fun f => { f with copying := some 3, classSw := some (3, []), current := 3 })
     s.fw.copying = some 3 ∧ (s.setFld .fwVariantStatus 0 22 22 1).bit .fwVariantStatus 0 22 = true ∧ s.party 0 = [] ∧ s.fw.classSw = some (3, []) ∧ s.fw.current = 3 ∧ s.fw.copying = some 3 ∧ fwUp.fw.copying = none) ∧
    ((fwUp.setReg .shtCtrl 0 0x101).party 0 = [0] ∧ (fwUp.station 0).strmBits 0 (fun y => y.swap.isSome) = 0) := by decide +kernel

theorem test_meets_Ledger :
    (let e : Ledger := ⟨5, 1, 0, true, false, 0, 0, 0, 0, 0, false⟩
     let s := fwUp.fwUpd (fun f => { f with ledger := [e], starved := true })
     s.fw.ledger = [] ++ e :: [] ∧ e.isOpen = true ∧ s.fw.stream = none ∧ s.fw.starved = true) ∧
    (let s := still.modStation 0 (fun x => { x with run := .brk })
     s.anyLoaded = true ∧ s.parkedStill = true ∧ s.idleState = 0) := by decide +kernel

theorem test_meets_Snapshots :
    ((fwUp.setFld .snapStatus 0 31 30 2).fld .snapStatus 0 31 30) = 2 ∧
    (let x := { Slot_.never with
       state := 1, flags := 1, pages := [(64, zeros 65536, false)], stns := [(0, .zero, .zero, false)], regs := [(Reg.at .lensBase 0, 5)] }
     (∀ q ∈ x.regs, inRecord q.1 = true) ∧ x.flags.testBit 0 = true ∧ Slot_.never.flags.testBit 0 = false ∧
     [64].filter (fun p => x.pages.any (fun q => q.1 = p)) = [64]) ∧
    (fwUp.fwUpd (fun f => { f with buddySlot := some 16 })).fw.buddySlot = some 16 ∧
    (let bs : List Byte := List.replicate 5 0 ++ 1 :: List.replicate 4090 0; bs.length = 4096 ∧ leNat ((bs.drop 5).take 1) = 1) ∧
    (let s := fwUp.fwUpd (fun f => { f with buddyWait := [64], slots := [(0, { Slot_.never with pages := [(64, [], false)] })] })
     s.fw.buddyWait = 64 :: [] ∧ (s.slot s.fw.snapSlot).pages.find? (fun q => q.1 = 64) = some (64, [], false)) ∧
    fwUp.fw.buddyWait = [] ∧ (fwUp.fwUpd (fun f => { f with buddyOut := 3 })).fw.buddyOut ≠ 0 ∧
    (let a := fwUp.lensAddr 0 0 0
     fwUp.readOk (a / stackSize) 0 .clean = true ∧ fwUp.staleRange a 160 = false ∧ fwUp.readOk (a / stackSize) 0 (.bad 0 0) = false) := by decide +kernel

theorem test_meets_SnapshotCopies :
    fwUp.fw.nand.ro = false ∧ fwUp.copyWaits = [] ∧ (fwUp.fwUpd (fun f => { f with slots := [(0, { Slot_.never with state := 2 })] })).slot 0 =
      { Slot_.never with state := 2 } ∧
    (let s := (fwUp.modDie 0 (fun d => { d with posts := [⟨0, .F, LensRec.empty⟩] })).fwUpd (fun f => { f with
       uncopied := [(fwUp.lensAddr 0 0 0 / 2 ^ 22, 1)] })
     s.copyWaits = [0]) ∧
    (let n : NandSt := { NandSt.new with blocks := [(3, ⟨5, 100000, true, false⟩)] }
     n.blocks.find? (fun q => q.2.full && decide (100000 ≤ q.2.reads)) = some (3, ⟨5, 100000, true, false⟩) ∧ n.nextBlock = some 0) ∧
    fwUp.fw.nand.blocks = [] ∧ fwUp.noBoundary 0 = false ∧ still.noBoundary 0 = true ∧
    (let s := (fwUp.setReg .snapReserve 0 (2 ^ 31 + 1)).fwUpd (fun f => { f with uncopied := [(0, 2)] })
     s.isUncopied 1 = true ∧ s.reserveSize (1 / 65536) = 64 ∧ s.reserved (1 / 65536) = 0 ∧ s.postsBefore (65536 * 1) 65536 = 0 ∧
     (s.fwUpd (fun f => { f with reserve := [(0, 64)] })).reserved 0 = 64) ∧ fwUp.reserveSize 0 = 0 ∧
    fwUp.fw.heldWr = [] ∧ fwUp.fw.heldBit = [] ∧ ((fwUp.setFld .snapStatus 0 31 30 3).fld .snapStatus 0 31 30) = 3 ∧ fwUp.fw.restSlot < 16 ∧
    fwUp.fromBuddy 9 = false ∧
    ((((fwUp.setReg .snapCtrl 0 (2 ^ 30)).setReg .snapBuddy 0 (2 ^ 30)).setReg .snapInbound 0 (2 ^ 31 + 1)).setReg .pyRemap 0 (2 ^ 31 + 9)).fromBuddy 9 =
      true ∧
    (let s := (fwUp.setReg .snapCtrl 0 (2 ^ 30)).setReg .snapBuddy 0 (2 ^ 31)
     s.bit .snapCtrl 0 30 = true ∧ s.bit .snapBuddy 0 31 = true ∧ s.fw.buddyOut ≤ 1024) := by decide +kernel

theorem test_meets_SparesAndPosts :
    fwUp.stacksUp 0 = true ∧ State.reset.stacksUp 0 = false ∧ bitOf (fwUp.segSpareWord 0) 16 = true ∧
    bitOf (({ fwUp with fuses := { fwUp.fuses with spareOk := 0 } }).segSpareWord 0) 16 = false ∧ fwUp.dieRunning 0 = true ∧
    (fwUp.die 0).frozen = false ∧ still.dieRunning 0 = false ∧ fwUp.fw.subst = [] ∧
    (fwUp.fwUpd (fun f => { f with uncopied := [(0, 1)] })).isUncopied 0 = true ∧
    (let p : LensPost := ⟨0, .F, LensRec.empty⟩
     ((up.modDie 0 (fun x => { x with posts := [p] })).die 0).posts = p :: []) := by decide +kernel

/-- An AVSBus write in progress. -/
def tx (n : Nat) (acked : Bool) : AvsTx := ⟨true, 0, 0, 700, n, acked, .command⟩

theorem test_meets_Power :
    State.reset.allStill = true ∧ State.reset.pwr.lostRef = false ∧ State.reset.pwr.trigger = false ∧
    (State.reset.pwrUpd (fun w => { w with trigger := true })).allStill = true ∧ (State.reset.pwrUpd (fun w => { w with lostRef := true })).allStill = true ∧
    (tx 0 false).sets = true ∧ ({ tx 0 false with typ := 1 } : AvsTx).sets = false ∧ ({ tx 0 false with what := .loss } : AvsTx).what = .loss ∧ (tx 0 false).tries < 3 ∧ 3 ≤ (tx 3 false).tries ∧ (tx 0 true).acked = true ∧
    State.reset.pwr.legacy = [] ∧ State.reset.pwr.avsWait = [] ∧ dieTemp (List.replicate 128 105) 0 = 105 ∧
    (let s := State.reset.setFld .clkStatus 0 29 29 1; s.rising = true ∧ s.stacksUp 0 = false) ∧ State.reset.rising = false ∧
    (let s := (State.reset.setFld .clkStatus 0 29 29 1).setFld .pwrState 0 3 0 15
     s.rising = true ∧ s.regionOn 0 = false ∧ (∀ d < 4, s.stacksUp d = true) ∧ s.fw.held = []) ∧
    up.regionOn 0 = true ∧ State.reset.regionOn 0 = false := by decide +kernel

theorem test_meets_Pins :
    (∀ n ∈ [1, 2, 3], (let s := (State.reset.setFld .pwrState 0 31 30 n).setReg .pwrWakeEn 0 31
      s.idleState = n ∧ s.waking = false ∧ (∀ b < 5, s.bit .pwrWakeEn 0 b = true))) ∧
    State.reset.pins.resetL = true ∧ State.reset.pins.pwrOk = true ∧ State.reset.pins.aux = true ∧
    ({ State.reset with pins := ⟨false, false, false, true, false, false⟩ }).pins.aux = false ∧ (State.reset.setReg .pwrWakeEn 0 0).bit .pwrWakeEn 0 0 = false := by
  decide +kernel

/-- A wake source that is not enabled, in each idle state. -/
theorem test_meets_Latches :
    (∀ n ∈ [1, 2, 3], (let s := (State.reset.setFld .pwrState 0 31 30 n).setReg .pwrWakeEn 0 0
      s.idleState ≠ 0 ∧ (∀ b < 5, s.bit .pwrWakeEn 0 b = false) ∧ s.wakeLevels &&& s.fld .pwrWakeEn 0 4 0 = 0 ∧
      s.pwr.latch.toNat &&& s.fld .pwrWakeEn 0 4 0 = 0)) ∧ State.reset.idleState = 0 := by decide +kernel

/-- A running member of a budget group, as its lead and not. -/
theorem test_meets_HostLossInAGroup :
    (let s := fwUp.fwUpd (fun f => { f with group := some (1, [0, 3], 0) }); s.anyRunning = true ∧ s.ownLogical = 0) ∧
    (let s := fwUp.fwUpd (fun f => { f with group := some (1, [0, 3], 3) }); s.ownLogical ≠ 3) ∧ fwUp.fw.group = none := by decide +kernel

theorem test_meets_Management :
    State.reset.aonUp = true ∧ ({ State.reset with pins := { State.reset.pins with resetL := false } }).aonUp = false ∧
    State.reset.alertOn = false ∧ ((State.reset.setReg .pwrAlertStatus 0 1).setReg .pwrAlertEn 0 1).alertOn = true := by decide +kernel

end Sys2Proof.Tests
end

section
/-! SUPPORT. Bits and fields of register words: a read of a bit or field after a write of a field, of the same or of another register. -/

namespace Sys2Proof.Machine

/-! ### Bits of numbers -/

/-- Fields of two numbers that agree bit by bit are equal. -/
theorem bitsOf_congr {n m hi lo : Nat} (h : ∀ k, lo ≤ k → k ≤ hi → n.testBit k = m.testBit k) : bitsOf n hi lo = bitsOf m hi lo := by
  refine Nat.eq_of_testBit_eq fun k => ?_
  simp only [bitsOf, Nat.testBit_mod_two_pow, Nat.testBit_shiftRight]
  by_cases hk : k < hi + 1 - lo
  · rw [h (lo + k) (by omega) (by omega)]
  · simp [hk]

/-- A number as the bits above a field, the field, and the bits below it. -/
theorem setBits_eq (n v : Nat) {hi lo : Nat} (h : lo ≤ hi) :
    setBits n hi lo v = 2 ^ lo * (2 ^ (hi + 1 - lo) * (n >>> (hi + 1)) + v % 2 ^ (hi + 1 - lo)) + n % 2 ^ lo := by
  have hlow : 2 ^ lo * (n >>> lo) + n % 2 ^ lo = n := by
    rw [Nat.shiftRight_eq_div_pow]
    exact Nat.div_add_mod _ _
  have hfield : 2 ^ (hi + 1 - lo) * (n >>> (hi + 1)) + bitsOf n hi lo = n >>> lo := by
    have hshift : n >>> (hi + 1) = (n >>> lo) / 2 ^ (hi + 1 - lo) := by
      rw [← Nat.shiftRight_eq_div_pow, ← Nat.shiftRight_add]
      congr 1
      omega
    rw [hshift]
    exact Nat.div_add_mod _ _
  unfold setBits
  rw [← hfield] at hlow
  simp only [Nat.mul_add, Nat.mul_comm (bitsOf n hi lo), Nat.mul_comm (v % _)] at hlow ⊢
  omega

/-- Bit `k` of a number in which a field has been replaced. -/
theorem testBit_setBits (n v k : Nat) {hi lo : Nat} (h : lo ≤ hi) :
    (setBits n hi lo v).testBit k = if lo ≤ k ∧ k ≤ hi then v.testBit (k - lo) else n.testBit k := by
  rw [setBits_eq n v h, Nat.testBit_two_pow_mul_add _ (Nat.mod_lt _ (Nat.two_pow_pos lo)), Nat.testBit_mod_two_pow]
  by_cases hk : k < lo
  · have hout : ¬ (lo ≤ k ∧ k ≤ hi) := by omega
    simp [hk, hout]
  · rw [if_neg hk, Nat.testBit_two_pow_mul_add _ (Nat.mod_lt _ (Nat.two_pow_pos _)), Nat.testBit_mod_two_pow]
    by_cases hh : k ≤ hi
    · have hin : k - lo < hi + 1 - lo := by omega
      have hcond : lo ≤ k ∧ k ≤ hi := by omega
      simp [hin, hcond]
    · have hin : ¬ k - lo < hi + 1 - lo := by omega
      have hcond : ¬ (lo ≤ k ∧ k ≤ hi) := by omega
      have hsum : hi + 1 + (k - lo - (hi + 1 - lo)) = k := by omega
      rw [if_neg hin, if_neg hcond, Nat.testBit_shiftRight, hsum]

/-! ### Words of the register file -/

/-- A bit of a register after a write of its word. -/
theorem State.bit_setReg (s : State) (r : Reg) (i v : Nat) {b : Nat} (h : b < 32) : (s.setReg r i v).bit r i b = v.testBit b := by
  simp only [State.bit, bitOf, State.reg_setReg, Nat.testBit_mod_two_pow, h, decide_true, Bool.true_and]

/-- A bit of a register after a write of one of its fields. -/
theorem State.bit_setFld (s : State) (r : Reg) (i v : Nat) {hi lo b : Nat} (h : lo ≤ hi) (hb : b < 32) :
    (s.setFld r i hi lo v).bit r i b = if lo ≤ b ∧ b ≤ hi then v.testBit (b - lo) else s.bit r i b := by
  rw [State.setFld, s.bit_setReg _ _ _ hb, testBit_setBits _ _ _ h]
  rfl

/-- A field of a register after a write of its word. -/
theorem State.fld_setReg (s : State) (r : Reg) (i v : Nat) {hi lo : Nat} (h : hi < 32) : (s.setReg r i v).fld r i hi lo = bitsOf v hi lo := by
  refine bitsOf_congr fun k _ hk => ?_
  have hk32 : k < 32 := by omega
  rw [State.reg_setReg, Nat.testBit_mod_two_pow]
  simp [hk32]

/-- A field reads as what was written to it. -/
theorem State.fld_setFld_self (s : State) (r : Reg) (i v : Nat) {hi lo : Nat} (h : lo ≤ hi) (hh : hi < 32) :
    (s.setFld r i hi lo v).fld r i hi lo = v % 2 ^ (hi + 1 - lo) := by
  rw [State.setFld, State.fld_setReg _ _ _ _ hh]
  refine Nat.eq_of_testBit_eq fun k => ?_
  simp only [bitsOf, Nat.testBit_mod_two_pow, Nat.testBit_shiftRight, testBit_setBits _ _ _ h]
  by_cases hk : k < hi + 1 - lo
  · have hin : lo ≤ lo + k ∧ lo + k ≤ hi := by omega
    simp [hin]
  · simp [hk]

/-- A write of one field leaves a field that does not meet it. -/
theorem State.fld_setFld_apart (s : State) (r : Reg) (i v : Nat) {hi lo hi' lo' : Nat} (h : lo ≤ hi) (hh : hi' < 32)
    (hd : hi < lo' ∨ hi' < lo) : (s.setFld r i hi lo v).fld r i hi' lo' = s.fld r i hi' lo' := by
  rw [State.setFld, State.fld_setReg _ _ _ _ hh]
  refine bitsOf_congr fun k hlo hhi => ?_
  rw [testBit_setBits _ _ _ h, if_neg (by omega)]

theorem State.regAt_setFld_ne (s : State) (r q : Reg) (i v : Nat) {hi lo p : Nat} (h : r.at i ≠ p) :
    (s.setFld r i hi lo v).regAt q p = s.regAt q p := s.regAt_setReg_ne r q i _ h

/-! ### Registers that read the same -/

theorem State.bit_congr {s t : State} {r : Reg} {i : Nat} (h : s.regAt r (r.at i) = t.regAt r (r.at i)) (b : Nat) :
    s.bit r i b = t.bit r i b := by
  unfold State.bit State.reg
  rw [h]

theorem State.fld_congr {s t : State} {r : Reg} {i : Nat} (h : s.regAt r (r.at i) = t.regAt r (r.at i)) (hi lo : Nat) :
    s.fld r i hi lo = t.fld r i hi lo := by
  unfold State.fld State.reg
  rw [h]

end Sys2Proof.Machine
end

section
/-! SUPPORT. What reset leaves (R12, R130, R164). -/

namespace Sys2Proof.Machine

/-- The register file is empty after reset, so each word reads as its Reset value (R12). -/
@[simp] theorem State.regAt_reset (r : Reg) (o : Nat) : State.reset.regAt r o = r.info.reset % 2 ^ 32 :=
  BitVec.toNat_ofNat _ _

@[simp] theorem State.station_reset (n : Nat) : State.reset.station n = Station.reset := rfl

/-- A station after reset is stopped, has nothing in flight and reads 0 in every tile register (R130, R164). -/
theorem Station.reset_idle : Station.reset.run = .stopped ∧ Station.reset.still = true ∧ ∀ k, Station.reset.tile k = Tile.zero :=
  ⟨rfl, rfl, fun _ => rfl⟩

@[simp] theorem State.slotAt_reset (k : Nat) : State.reset.slotAt k = RingWord.empty := rfl

@[simp] theorem State.ref_reset (r : Nat) : State.reset.ref r = 0 := rfl

/-- No clock region is powered yet (R371). -/
theorem State.regionOn_reset : ∀ r < 8, State.reset.regionOn r = false := by decide

/-- Settles O3: the sparse tables of the reset state are empty, and an unlisted key reads as its reset value. -/
theorem resetState : Obligations.ResetState :=
  ⟨State.regAt_reset, fun n => ⟨State.station_reset n, Station.reset_idle⟩, State.slotAt_reset, State.ref_reset,
    State.regionOn_reset, rfl, rfl, rfl⟩

end Sys2Proof.Machine
end

section
/-! SUPPORT. No step changes a fused value (R6, R426): the shared operations of the commands keep the fuses, and so does what each command does. -/

namespace Sys2Proof.Machine

/-- Whatever state an outcome answers has the fuses of `s`. -/
def State.FusesKeptBy (s : State) (o : Host.Outcome State Fault Refusal) : Prop := ∀ t, o = .next t → t.fuses = s.fuses

theorem State.fusesKeptBy_next {s t : State} (h : t.fuses = s.fuses) : s.FusesKeptBy (.next t) := by
  rintro u ⟨⟩
  exact h

/-- A slot of a word, issued: the op's effect decides. -/
theorem State.issue_fusesKept (s : State) (i : Issue) (sl : Slot) {eff : OpPlace → State → State}
    (h : ∀ p t, (eff p t).fuses = t.fuses) : s.FusesKeptBy (.next (s.issue i sl eff)) :=
  State.fusesKeptBy_next (State.issue_fuses s i sl eff h)

/-- A word of a ROM routine: the routine's effect decides. -/
theorem State.romRun_fusesKept (s : State) (n : Nat) (m : Strm) (id : Nat) (waits : RomSt → List Nat) {eff : RomSt → State → State}
    (h : ∀ r t, (eff r t).fuses = t.fuses) : s.FusesKeptBy (.next (s.romRun n m id waits eff)) :=
  State.fusesKeptBy_next (State.romRun_fuses s n m id waits eff h)

/-- A command of the Tharax Command Set: its own part decides. -/
theorem State.receive_fusesKept (s : State) (h : TcsHdr) (c : Instr) {go : State → State}
    (hgo : ∀ t, (go t).fuses = t.fuses) : s.FusesKeptBy (.next (s.receive h c go)) :=
  State.fusesKeptBy_next (State.receive_fuses s h c go hgo)

/-- A command that writes a register whole. -/
theorem State.writeOut_fusesKept (s : State) (who : Requester) (off width v : Nat) :
    s.FusesKeptBy (.next (s.writeOut who off width v)) :=
  State.fusesKeptBy_next (State.writeOut_fuses s who off width v)

/-- A command that writes a register with some bits forced on. -/
theorem State.writeBit_fusesKept (s : State) (who : Requester) (r : Reg) (i : Nat) (val : Word) (on : Nat) :
    s.FusesKeptBy (.next (s.writeBit who r i val on)) :=
  State.fusesKeptBy_next (State.writeBit_fuses s who r i val on)

/-- A command that writes a register with some bits forced off. -/
theorem State.writeClear_fusesKept (s : State) (who : Requester) (r : Reg) (i : Nat) (val : Word) (off : Nat) :
    s.FusesKeptBy (.next (s.writeClear who r i val off)) :=
  State.fusesKeptBy_next (State.writeClear_fuses s who r i val off)

/-! ### Commands that act by what they find -/

theorem execWaitWord_fusesKept (i : Issue) (s : State) : s.FusesKeptBy (execWaitWord i s) := by
  refine State.fusesKeptBy_next ?_
  split
  · simp [ite_fuses]
  · rfl

theorem execBreakHit_fusesKept (i : Issue) (n : Nat) (s : State) : s.FusesKeptBy (execBreakHit i n s) := by
  refine State.fusesKeptBy_next ?_
  split
  · simp
  · rfl

theorem execStashTransferDone_fusesKept (x : StashEnd) (s : State) : s.FusesKeptBy (execStashTransferDone x s) := by
  refine State.fusesKeptBy_next ?_
  split
  · simp
  · rfl

theorem execXQueueSend_fusesKept (x : StnXfer) (s : State) : s.FusesKeptBy (execXQueueSend x s) := by
  refine State.fusesKeptBy_next ?_
  split
  · rfl
  · next e rest _ => split
                     · cases e.kind <;> simp
                     · rfl

theorem execFetchTimeout_fusesKept (who : TimedOut) (tag : BitVec 6) (s : State) : s.FusesKeptBy (execFetchTimeout who tag s) :=
  State.fusesKeptBy_next (by cases who <;> simp)

theorem execStateEpochWrite_fusesKept (who : Requester) (u : EpochUnit) (val : Word) (s : State) :
    s.FusesKeptBy (execStateEpochWrite who u val s) := by
  cases u with
  | station i => exact s.writeOut_fusesKept _ _ _ _
  | pageGroup g => exact s.writeOut_fusesKept _ _ _ _

theorem execCtrl_fusesKept (src : BitVec 16) (fp : Proc) (data : List Byte) (s : State) : s.FusesKeptBy (execCtrl src fp data s) := by
  refine State.fusesKeptBy_next ?_
  dsimp only
  split
  · split <;> simp
  · simp

theorem execGroupEnergyReport_fusesKept (member : BitVec 14) (step energy : Nat) (s : State) :
    s.FusesKeptBy (execGroupEnergyReport member step energy s) := by
  refine State.fusesKeptBy_next ?_
  split
  · simp [ite_fuses]
  · rfl

theorem execReadDisturbRefresh_fusesKept (s : State) : s.FusesKeptBy (execReadDisturbRefresh s) := by
  refine State.fusesKeptBy_next ?_
  split
  · simp
  · rfl

theorem execNandProgramFail_fusesKept (s : State) : s.FusesKeptBy (execNandProgramFail s) := by
  refine State.fusesKeptBy_next ?_
  split
  · simp
  · rfl

theorem execSmbAddr_fusesKept (wr : Option Word) (x : SmbEnd) (s : State) : s.FusesKeptBy (execSmbAddr wr x s) := by
  refine State.fusesKeptBy_next ?_
  split
  · cases wr <;> simp
  · rfl

theorem execPackageFault_fusesKept (link : BitVec 12) (s : State) : s.FusesKeptBy (execPackageFault link s) := by
  refine State.fusesKeptBy_next ?_
  have hreq : ((List.range 4).foldl (fun u d => u.shutReq d 12 0) s).fuses = s.fuses := foldl_fuses (by simp) _ _
  dsimp only
  split
  · simpa using hreq
  · exact hreq

/-! ### Every command -/

/-- No command changes a fused value. -/
theorem exec_fusesKept (c : Instr) (s : State) : s.FusesKeptBy (exec c s) := by
  cases c with
  -- slots M, V, G, L, X and C of a word
  | mld | mma | mdrn | mclr => exact s.issue_fusesKept _ _ (by simp)
  | vadd | vmul | vfma | vmax | vexp | vrsq | vcmp | vsel | vcmpr | vexpd | vredRow | vredCol | vnrm2 | vcvt =>
    exact s.issue_fusesKept _ _ (by simp)
  | ginj => exact s.issue_fusesKept _ _ (by simp)
  | gtap | gej | gpass => exact State.fusesKeptBy_next (State.issueRing_fuses s _ _ (by simp))
  | lld | lst | lstash | lunst => exact s.issue_fusesKept _ _ (by simp)
  | xfetch | xfetchFeed | xput | xcancel | xred | xnorm => exact s.issue_fusesKept _ _ (by simp)
  | epoch | rept | call | ret | phase | waitev | swapbank => exact s.issue_fusesKept _ _ (by simp)
  -- words and streams
  | waitWord i => exact execWaitWord_fusesKept i s
  | breakHit i n => exact execBreakHit_fusesKept i n s
  | waitevResume => exact State.fusesKeptBy_next (by simp)
  | tilesZero | lensSelect | lensClear | tieSumTile => exact s.romRun_fusesKept _ _ _ _ (by simp)
  -- stash, X queue, responses
  | stashFullStop => exact State.fusesKeptBy_next (by simp [ite_fuses])
  | stashTransferDone x => exact execStashTransferDone_fusesKept x s
  | xQueueSend x => exact execXQueueSend_fusesKept x s
  | xResponse | xnormResult => exact State.fusesKeptBy_next (by simp)
  | fetchTimeout who tag => exact execFetchTimeout_fusesKept who tag s
  -- ring, Shutter, epochs and time
  | feedPointInjection | feedDescriptorRead | feedQueueFill | seamCrossing | bridgeDelivery | fifoDriftRequest | crossingPoison
  | clockStretch | freeze | resumeAnnounce | resume | faultFlit | epochBoundary | epochUnitDecision | tick =>
    exact State.fusesKeptBy_next (by simp)
  | packageFault link => exact execPackageFault_fusesKept link s
  | lensPostMerge => exact State.fusesKeptBy_next (by simp [ite_fuses])
  -- registers
  | pairLoRead | pairHiRead => exact State.fusesKeptBy_next (by simp)
  | registerWrite | spareSubstitution | fmtTableWrite | dbgStepTicks | traceDropClr | pyErrCountClr | idleHint | fwRestart =>
    exact s.writeOut_fusesKept _ _ _ _
  | stateEpochWrite who u val => exact execStateEpochWrite_fusesKept who u val s
  | arrayCntClr | bridgeCntClr | shtCntClr | fwHoldSet | dbgStepFree | lcInv | lcCntClr | msCntClr | tgStart | tgStop | portEnable
  | portRetrain | pyCntClr | ethPortEnable | ethCntClr | profileArm | zenithRecordWrite | attestGo =>
    exact s.writeBit_fusesKept _ _ _ _ _
  | fwHoldRelease | portDisable | ethPortDisable => exact s.writeClear_fusesKept _ _ _ _ _
  | avsWrite | avsRead => exact State.fusesKeptBy_next (by simp [ite_fuses])
  | attestDone => exact State.fusesKeptBy_next (by simp)
  | tgRunDone | patrolScrub => exact State.fusesKeptBy_next (by simp [ite_fuses])
  -- the Pycia fabric
  | trainComplete | probeExchange | laneLoss | laneFecLimit | retrainDone | linkUnitRx | nakRx | flitSend =>
    exact State.fusesKeptBy_next (by simp)
  | trainTimeout | alignComplete | alignTimeout | nakRepeat => exact State.fusesKeptBy_next (by simp [ite_fuses])
  | read | write | readRsp | writeAck | mcastSend | mcWrite | mcAck | mcastHoldRetry | mcastTimeout | redUp | redDown =>
    exact State.fusesKeptBy_next (by simp)
  | mcastLagExpiry => exact State.fusesKeptBy_next (by simp [ite_fuses])
  | ctrl src fp data => exact execCtrl_fusesKept src fp data s
  -- Ethernet
  | ethFrameRx | pfcRelease | pauseFrameRx | rdmaWrite | rdmaReadRequest | rdmaPieceDone | mailboxSendRx | mailboxRnrRetry | cmReq
  | cmRtu | cmDreq | cnpRx | cnpRateRecovery | ethLinkDown => exact State.fusesKeptBy_next (by simp)
  | arpRequest | neighborSolicitation | icmpEcho | ethLinkUp | wakeOnLan => exact State.fusesKeptBy_next (by simp [ite_fuses])
  -- the Tharax Command Set
  | query | heartbeat | reclaim | mkeySet | imageCommit | binLoad | stnStart | stnStop | variantStage | classSwitch | eventRead
  | hostlossSet => exact s.receive_fusesKept _ _ (by simp)
  | profileSet | budgetSet | policySet | stepHint | gatherSet | workQueue | groupSet | idleEnter | ledgerRead | ledgerStream =>
    exact s.receive_fusesKept _ _ (by simp)
  | moduleIdSet | portSet | routeSet | remapSet | mcastSet => exact s.receive_fusesKept _ _ (by simp)
  | snapTake | snapRestore | snapList | errRead | retireSet | flashHealth => exact s.receive_fusesKept _ _ (by simp)
  -- firmware
  | activityDone | watchdogExpiry | processorRestart | restartComplete | stepStartMarker | variantCopyDone | classSwitchSubmit =>
    exact State.fusesKeptBy_next (by simp)
  | hostLossTimeout | hostLossPark | snapEveryArm | groupChoice | ledgerMarker | energySample | budgetIntervalStart =>
    exact State.fusesKeptBy_next (by simp [ite_fuses])
  | groupEnergyReport member step energy => exact execGroupEnergyReport_fusesKept member step energy s
  | cePoll | stationFailed | snapshotComplete | buddyPageRx | buddyAck | buddyTimeout | restoreComplete | retentionScan =>
    exact State.fusesKeptBy_next (by simp)
  | errorReport | copyAheadOfWrite | copyAheadRelease | buddyStamp => exact State.fusesKeptBy_next (by simp [ite_fuses])
  | readDisturbRefresh => exact execReadDisturbRefresh_fusesKept s
  | nandProgramFail => exact execNandProgramFail_fusesKept s
  -- power, clocks and pins
  | regionStopDone | avsStatusPoll | avsVdoneTimeout | thermalReading | thermalTrip | refLoss | refRestored | pllLock
  | stacksOutOfRetention | regionPowerUp | wakePin | wakeTimer | pyciaWake | inputPowerUp | pwrOkFall | resetAssert | resetRelease =>
    exact State.fusesKeptBy_next (by simp)
  | moduleSensorRead | inputAlert | pwrOkRise | inputStageTrip => exact State.fusesKeptBy_next (by simp [ite_fuses])
  -- SMBus and JTAG
  | smbAddr wr x => exact execSmbAddr_fusesKept wr x s
  | smbData | smbDataInc | jtagIdcode | jtagSamplePreload | jtagClamp | jtagHighz | jtagDebug | jtagBypass =>
    exact State.fusesKeptBy_next (by simp)
  | smbStatus | smbusAlertResponse | jtagExtest => exact State.fusesKeptBy_next (by simp [ite_fuses])

/-- Settles O4: the step runs the command at the front of the queue or idles, and neither writes a fuse. -/
theorem stepKeepsFuses : Obligations.StepKeepsFuses := by
  intro s t h
  unfold step at h
  split at h
  · cases h
    rfl
  · next c rest _ => exact (exec_fusesKept c _ t h).trans (s.withPending_fuses rest)

end Sys2Proof.Machine
end

section
/-! SUPPORT. Reads of registers and of register pairs with their captures (R9, R433, R434). -/

namespace Sys2Proof.Machine

/-! ### Captures (R9) -/

/-- Nothing that a requester has captured is found once it is forgotten. -/
theorem State.find_dropCap_self (s : State) (who : Requester) (o : Nat) :
    (s.dropCap who).caps.find? (fun c => decide (c.1 = who) && decide (c.2.1 = o)) = none := by
  refine List.find?_eq_none.2 fun c hc => ?_
  have hne : c.1 ≠ who := of_decide_eq_true (List.mem_filter.1 hc).2
  simp [hne]

@[simp] theorem State.capOf_dropCap_self (s : State) (who : Requester) (o : Nat) : (s.dropCap who).capOf who o = none := by
  simp only [State.capOf, s.find_dropCap_self]

/-- A requester's captures do not depend on another's being forgotten. -/
theorem State.capOf_dropCap_ne (s : State) {who w : Requester} (o : Nat) (h : w ≠ who) : (s.dropCap who).capOf w o = s.capOf w o := by
  have hsame : (s.dropCap who).caps.find? (fun c => decide (c.1 = w) && decide (c.2.1 = o))
      = s.caps.find? (fun c => decide (c.1 = w) && decide (c.2.1 = o)) := by
    simp only [State.dropCap, List.find?_filter]
    congr 1
    funext c
    by_cases hc : c.1 = w
    · simp [hc, h]
    · simp [hc]
  simp only [State.capOf, hsame]

/-- A requester captures the upper half of the pair at `lo`, in place of what it had captured before (R9). -/
def State.takeCap (s : State) (who : Requester) (lo : Nat) (v : Word) : State :=
  { s.dropCap who with caps := (s.dropCap who).caps ++ [(who, lo, v)] }

@[simp] theorem State.capOf_takeCap_self (s : State) (who : Requester) (lo : Nat) (v : Word) :
    (s.takeCap who lo v).capOf who lo = some v.toNat := by
  have hfind : (s.takeCap who lo v).caps.find? (fun c => decide (c.1 = who) && decide (c.2.1 = lo)) = some (who, lo, v) := by
    simp [State.takeCap, List.find?_append, s.find_dropCap_self]
  simp only [State.capOf, hfind]

theorem State.capOf_takeCap_ne (s : State) {who w : Requester} (lo o : Nat) (v : Word) (h : w ≠ who) :
    (s.takeCap who lo v).capOf w o = s.capOf w o := by
  have hsame : (s.takeCap who lo v).caps.find? (fun c => decide (c.1 = w) && decide (c.2.1 = o))
      = (s.dropCap who).caps.find? (fun c => decide (c.1 = w) && decide (c.2.1 = o)) := by
    simp [State.takeCap, List.find?_append, Ne.symm h]
  rw [← s.capOf_dropCap_ne o h]
  simp only [State.capOf, hsame]

/-! ### What a read of a register answers, and what it does to the captures -/

theorem State.csrRead_error (s : State) (who : Requester) {off width st : Nat} (h : s.regLocate off width = .error st) :
    s.csrRead who off width = (s, st, 0) := by
  simp only [State.csrRead, h]

/-- The lower half is answered and the upper half captured. -/
theorem State.csrRead_lower (s : State) (who : Requester) {off width i : Nat} {r : Reg} (hp : r.info.pair = true)
    (h : s.regLocate off width = .ok (r, i, false)) :
    s.csrRead who off width = (s.takeCap who (r.at i) (BitVec.ofNat 32 (s.regRead r i true)), stOk, s.regRead r i false) := by
  simp [State.csrRead, h, hp, State.takeCap]

/-- The upper half is answered from the requester's capture, or as it stands, and no capture of the requester is left. -/
theorem State.csrRead_upper (s : State) (who : Requester) {off width i : Nat} {r : Reg} (hp : r.info.pair = true)
    (h : s.regLocate off width = .ok (r, i, true)) :
    s.csrRead who off width = (if (s.capOf who (r.at i)).isSome then s.dropCap who else s, stOk,
      (s.capOf who (r.at i)).getD (s.regRead r i true)) := by
  cases hc : s.capOf who (r.at i) <;> simp [State.csrRead, h, hp, hc]

/-- Settles O39, by the three cases of a register read: the lower half of a pair, its upper half, and a refused access. -/
theorem pairReadsCaptureTheUpperHalf : Obligations.PairReadsCaptureTheUpperHalf := by
  intro s who
  refine ⟨fun r i hp hloc => ?_, fun r i hp hloc => ?_, fun off st hloc => ?_⟩
  · refine ⟨_, rfl, ?_⟩
    simp only [State.readOut, s.csrRead_lower who hp hloc]
    exact ⟨rfl, rfl, (State.capOf_takeCap_self ..).trans (congrArg some (BitVec.toNat_ofNat _ _)),
      fun w o hw => s.capOf_takeCap_ne _ o _ hw⟩
  · refine ⟨_, rfl, ?_⟩
    simp only [State.readOut, s.csrRead_upper who hp hloc]
    cases hc : s.capOf who (r.at i) with
    | none => exact ⟨rfl, rfl, hc, fun _ _ _ => rfl⟩
    | some v => exact ⟨rfl, rfl, s.capOf_dropCap_self who _, fun w o hw => s.capOf_dropCap_ne o hw⟩
  · have hread : s.readOut who off = s.emit (.reg who off st 0) := by
      simp only [State.readOut, s.csrRead_error who hloc]
      rfl
    exact ⟨congrArg _ hread, congrArg _ hread⟩

end Sys2Proof.Machine
end

section
/-! SUPPORT. Writes of registers by their field types (R10, R11, R215). -/

namespace Sys2Proof.Machine

/-! ### Masked words -/

theorem testBit_mix (c v m : Nat) {k : Nat} (h : k < 32) : (mix c v m).testBit k = if m.testBit k then v.testBit k else c.testBit k := by
  simp only [mix, BitVec.testBit_toNat, BitVec.getLsbD_or, BitVec.getLsbD_and, BitVec.getLsbD_not, BitVec.getLsbD_ofNat, h]
  cases m.testBit k <;> simp

theorem testBit_only (v m : Nat) {k : Nat} (h : k < 32) : (only v m).testBit k = (v.testBit k && m.testBit k) := by
  simp only [only, BitVec.testBit_toNat, BitVec.getLsbD_and, BitVec.getLsbD_ofNat, h, decide_true, Bool.true_and]

theorem only_lt (v m : Nat) : only v m < 2 ^ 32 := BitVec.isLt _

/-- The word that a register takes on a write of `v`, its RWE fields left aside: RW bits take the value, W1C bits written 1 clear (R10). -/
def RegInfo.wordAfter (g : RegInfo) (old v : Nat) : Nat := only (mix old v g.rw) (2 ^ 32 - 1 - only v g.w1c)

theorem RegInfo.testBit_wordAfter (g : RegInfo) (old v : Nat) {k : Nat} (h : k < 32) :
    (g.wordAfter old v).testBit k = g.bitAfter old v k := by
  have hnot : 2 ^ 32 - 1 - only v g.w1c = 2 ^ 32 - (only v g.w1c + 1) := by omega
  rw [RegInfo.wordAfter, testBit_only _ _ h, testBit_mix _ _ _ h, hnot, Nat.testBit_two_pow_sub_succ (only_lt _ _), testBit_only _ _ h]
  simp [RegInfo.bitAfter, h, Bool.and_comm]

/-! ### Places of registers (R432) -/

/-- A register found at an offset has an index among its words, and an upper half is one of a pair. -/
theorem Reg.findIn_some {rs : List Reg} {o i : Nat} {r : Reg} {hi : Bool} (h : Reg.findIn rs o = some (r, i, hi)) :
    i < r.info.count ∧ (hi = true → r.info.pair = true) := by
  induction rs with
  | nil => cases h
  | cons q qs ih =>
    unfold Reg.findIn at h
    split at h
    · next hin =>
      unfold RegInfo.size at hin
      split at h
      · next hp =>
        cases h
        rw [if_pos hp] at hin
        exact ⟨by omega, fun _ => hp⟩
      · next hp =>
        cases h
        rw [if_neg hp] at hin
        exact ⟨by omega, fun e => nomatch e⟩
    · exact ih h

theorem Reg.find_some {o i : Nat} {r : Reg} {hi : Bool} (h : Reg.find o = some (r, i, hi)) :
    i < r.info.count ∧ (hi = true → r.info.pair = true) := by
  unfold Reg.find at h
  split at h
  · exact Reg.findIn_some h
  · cases h

/-- A located register is one that lies at the offset. -/
theorem State.find_of_regLocate {s : State} {off width i : Nat} {r : Reg} {hi : Bool} (h : s.regLocate off width = .ok (r, i, hi)) :
    Reg.find off = some (r, i, hi) := by
  unfold State.regLocate at h
  split at h
  · cases h
  · split at h
    · cases h
    · next hf =>
      (repeat' split at h) <;> cases h <;> exact hf

/-- The indices of a register are those of the stations, dies, segments or stacks that its scope names (Tables 17-2 to 17-6). -/
def RegInfo.inScope (g : RegInfo) : Prop :=
  match g.scope with
  | .one => True
  | .station n => g.count ≤ n * 1024
  | .die n => g.count ≤ n * 4
  | .seg => g.count ≤ 32
  | .stack n => g.count ≤ n * 32

theorem Reg.info_inScope (r : Reg) : r.info.inScope := by
  cases r <;> simp [Reg.info, RegInfo.inScope]

/-- A register that belongs to a die belongs to one of the four. -/
theorem Reg.dieIx_lt {r : Reg} {i d : Nat} (hi : i < r.info.count) (h : r.dieIx i = some d) : d < 4 := by
  have hs := r.info_inScope
  unfold RegInfo.inScope at hs
  unfold Reg.dieIx at h
  cases hscope : r.info.scope with
  | one => simp [hscope] at h
  | station n =>
    simp only [hscope, Option.some.injEq] at h hs
    rw [← h, Nat.div_div_eq_div_mul]
    exact Nat.div_lt_of_lt_mul (by omega)
  | die n =>
    simp only [hscope, Option.some.injEq] at h hs
    rw [← h]
    exact Nat.div_lt_of_lt_mul (by omega)
  | seg =>
    simp only [hscope, Option.some.injEq] at h hs
    omega
  | stack n =>
    simp only [hscope, Option.some.injEq] at h hs
    rw [← h, Nat.div_div_eq_div_mul]
    exact Nat.div_lt_of_lt_mul (by omega)

/-! ### The parts of a write -/

/-- A register whose write does no more than its fields take has no further effect. -/
theorem State.csrEffect_of_not_acts (s : State) (who : Requester) {r : Reg} (i v : Nat) (h : r.acts = false) : s.csrEffect who r i v = s := by
  unfold State.csrEffect
  split
  case h_20 => rfl
  all_goals cases h

theorem State.stackWrN_eq (s : State) (n a : Nat) (bs : List Byte) :
    s.stackWrN n a bs = { s with stackMem := (s.stackWrN n a bs).stackMem } := by
  induction bs generalizing s a with
  | nil => rfl
  | cons b bs ih =>
    unfold State.stackWrN
    rw [ih]
    rfl

/-- A write of a region's entry leaves the state, or leaves bytes of a twin in a stack. -/
theorem State.leaveTwin_cases (s t : State) (r : Reg) (i : Nat) :
    s.leaveTwin t r i = t ∨ ∃ n a bs, s.leaveTwin t r i = t.stackWrN n a bs := by
  unfold State.leaveTwin State.onlyIf
  dsimp only
  split
  case h_5 => exact .inl rfl
  all_goals
    split
    · split
      · exact .inr ⟨_, _, _, rfl⟩
      · exact .inl rfl
    · exact .inl rfl

theorem State.leaveTwin_eq (s t : State) (r : Reg) (i : Nat) :
    s.leaveTwin t r i = { t with stackMem := (s.leaveTwin t r i).stackMem } := by
  rcases s.leaveTwin_cases t r i with h | ⟨n, a, bs, h⟩
  · rw [h]
  · rw [h]
    exact State.stackWrN_eq _ _ _ _

/-- Only the region table knows of twins. -/
theorem State.leaveTwin_of_no_region (s t : State) {r : Reg} (i : Nat)
    (h : r ≠ .prismRgnBase ∧ r ≠ .prismRgnShape ∧ r ≠ .prismRgnScale ∧ r ≠ .prismRgnTwin) : s.leaveTwin t r i = t := by
  obtain ⟨hbase, hshape, hscale, htwin⟩ := h
  unfold State.leaveTwin
  split
  · exact absurd rfl hbase
  · exact absurd rfl hshape
  · exact absurd rfl hscale
  · exact absurd rfl htwin
  · rfl

theorem State.alertPin_eq (s t : State) : s.alertPin t = { t with out := (s.alertPin t).out } := by
  unfold State.alertPin
  split <;> rfl

/-! ### Writes accepted and refused -/

theorem State.writeOut_error (s : State) (who : Requester) {off width st : Nat} (v : Nat) (h : s.regLocate off width = .error st) :
    s.writeOut who off width v = s.emit (.reg who off st 0) := by
  simp only [State.writeOut, State.csrWrite, h]

/-- A refused write answers its status, and leaves what the governor notes of it. -/
theorem State.writeOut_refused (s : State) (who : Requester) {off width i v : Nat} {r : Reg} {hi : Bool}
    (h : s.regLocate off width = .ok (r, i, hi)) (hc : s.csrCheck who r i v ≠ stOk) :
    s.writeOut who off width v = (s.csrRefused r v).emit (.reg who off (s.csrCheck who r i v) 0) := by
  simp only [State.writeOut, State.csrWrite, h, if_pos hc]

/-- From `t` to `u`, nothing differs but the stacks' memory and the outputs. -/
def State.AnsweredFrom (t u : State) : Prop := u = { t with stackMem := u.stackMem, out := u.out }

theorem State.AnsweredFrom.regs {t u : State} (h : t.AnsweredFrom u) : u.regs = t.regs := by
  rw [h]

theorem State.AnsweredFrom.regAt {t u : State} (h : t.AnsweredFrom u) (r : Reg) (o : Nat) : u.regAt r o = t.regAt r o :=
  State.regAt_congr h.regs r o

theorem State.AnsweredFrom.station {t u : State} (h : t.AnsweredFrom u) (n : Nat) : u.station n = t.station n :=
  State.station_congr (congrArg State.stations h) n

theorem State.AnsweredFrom.die {t u : State} (h : t.AnsweredFrom u) (d : Nat) : u.die d = t.die d :=
  State.die_congr (congrArg State.dies h) d

/-- An accepted write of a register that does no more than its fields take: the fields take it, a twin may leave bytes in the stacks, and
the answer is OK. -/
theorem State.writeOut_accepted (s : State) (who : Requester) {off width i v : Nat} {r : Reg} {hi : Bool}
    (h : s.regLocate off width = .ok (r, i, hi)) (ha : r.acts = false) (hc : s.csrCheck who r i v = stOk) :
    (s.putReg r i hi v).AnsweredFrom (s.writeOut who off width v) ∧
      (s.writeOut who off width v).stackMem = (s.leaveTwin (s.putReg r i hi v) r i).stackMem ∧
      (s.writeOut who off width v).out.head? = some (.reg who off 0 0) := by
  have hout : s.writeOut who off width v = (s.alertPin (s.leaveTwin (s.putReg r i hi v) r i)).emit (.reg who off stOk 0) := by
    simp only [State.writeOut, State.csrWrite, h, hc, ne_eq, not_true, if_false, State.csrEffect_of_not_acts _ who i v ha]
  rw [hout, State.alertPin_eq]
  refine ⟨?_, rfl, rfl⟩
  rw [State.leaveTwin_eq]
  rfl

/-! ### Refused settings of Zenith (R385) -/

theorem State.alert_regs (s : State) (b : Nat) :
    (s.alert b).regs = (s.setReg .pwrAlertStatus 0 (s.reg .pwrAlertStatus 0 ||| 2 ^ b)).regs := by
  unfold State.alert
  dsimp only
  split <;> simp

/-- An alert sets its bit. -/
theorem State.bit_alert (s : State) {b : Nat} (h : b < 32) : (s.alert b).bit .pwrAlertStatus 0 b = true := by
  rw [State.bit_congr (State.regAt_congr (s.alert_regs b) _ _), State.bit_setReg _ _ _ _ h]
  simp

theorem State.regAt_alert_ne (s : State) (q : Reg) (b : Nat) {p : Nat} (h : p ≠ Reg.at .pwrAlertStatus 0) :
    (s.alert b).regAt q p = s.regAt q p := by
  rw [State.regAt_congr (s.alert_regs b), State.regAt_setReg_ne _ _ _ _ _ h.symm]

/-- The governor notes a setting beyond its limits in GOV_STATUS.REFUSED and its alert. -/
theorem State.governs_notes (s : State) : s.governs.bit .govStatus 0 29 = true ∧ s.governs.bit .pwrAlertStatus 0 6 = true := by
  refine ⟨?_, State.bit_alert _ (by decide)⟩
  rw [State.governs, State.bit_congr (State.regAt_alert_ne _ _ _ (by decide)), State.bit_setFld _ _ _ _ (by decide) (by decide)]
  rfl

theorem State.regAt_governs_ne (s : State) (q : Reg) {p : Nat} (hg : p ≠ Reg.at .govStatus 0) (ha : p ≠ Reg.at .pwrAlertStatus 0) :
    s.governs.regAt q p = s.regAt q p := by
  rw [State.governs, State.regAt_alert_ne _ _ _ ha, State.regAt_setFld_ne _ _ _ _ _ hg.symm]

/-- What is refused of a Zenith record lies beyond the governor's limits. -/
def State.zenithBeyond (s : State) (r : Reg) (v : Nat) : Prop :=
  (r = .pwrZenithClkv ∧ (40 < bitsOf v 31 26 ∨ 40 < bitsOf v 25 20)) ∨
    (r = .pwrZenithCfg ∧ bitOf v 31 = true ∧ zenithOver (s.reg .pwrZenithClkv 0) = true)

theorem State.csrRefused_zenith (s : State) {r : Reg} (v : Nat) (h : r = .pwrZenithClkv ∨ r = .pwrZenithCfg) :
    (s.csrRefused r v = s ∧ ¬ s.zenithBeyond r v) ∨ (s.csrRefused r v = s.governs) := by
  unfold State.zenithBeyond
  rcases h with rfl | rfl
  · by_cases hb : 40 < bitsOf v 31 26 ∨ 40 < bitsOf v 25 20
    · exact .inr (by simp [State.csrRefused, State.onlyIf, hb])
    · exact .inl ⟨by simp [State.csrRefused, State.onlyIf, hb], by simp [hb]⟩
  · by_cases hb : bitOf v 31 = true ∧ zenithOver (s.reg .pwrZenithClkv 0) = true
    · exact .inr (by simp [State.csrRefused, State.onlyIf, hb])
    · exact .inl ⟨by simp only [State.csrRefused, State.onlyIf, Bool.and_eq_true, if_neg hb], by simp [hb]⟩

theorem State.csrRefused_other (s : State) {r : Reg} (v : Nat) (ha : r.acts = false) (h1 : r ≠ .pwrZenithClkv) (h2 : r ≠ .pwrZenithCfg) :
    s.csrRefused r v = s := by
  unfold State.csrRefused
  split
  · cases ha
  · exact absurd rfl h1
  · exact absurd rfl h2
  · rfl

end Sys2Proof.Machine
end

section
/-! SUPPORT. What REGISTER_WRITE leaves in the registers and of the held writes (R10, R214, R215). -/

namespace Sys2Proof.Machine

/-! ### The fields that a write takes at once -/

/-- The RW and W1C fields of a register's word take a write (R10). -/
def State.putFields (s : State) (r : Reg) (i : Nat) (hi : Bool) (v : Nat) : State :=
  s.setRegAt r (r.at i + (if hi then 4 else 0)) (r.info.wordAfter (s.regAt r (r.at i + (if hi then 4 else 0))) v)

/-- A write takes its RW and W1C fields, then its RWE fields at once or held. -/
theorem State.putReg_eq (s : State) (r : Reg) (i : Nat) (hi : Bool) (v : Nat) :
    s.putReg r i hi v =
      if r.info.rwe = 0 then s.putFields r i hi v
      else if s.ownerStopped r i then ((s.putFields r i hi v).dropRwe r i).applyRwe r i v
      else (s.putFields r i hi v).holdRwe r i (only v r.info.rwe) := rfl

theorem State.testBit_putFields (s : State) (r : Reg) (i : Nat) (hi : Bool) (v : Nat) {k : Nat} (h : k < 32) :
    ((s.putFields r i hi v).regAt r (r.at i + (if hi then 4 else 0))).testBit k =
      r.info.bitAfter (s.regAt r (r.at i + (if hi then 4 else 0))) v k := by
  rw [State.putFields, State.regAt_setRegAt, Nat.testBit_mod_two_pow, RegInfo.testBit_wordAfter _ _ _ h]
  simp [h]

theorem State.regAt_putFields_ne (s : State) (r q : Reg) (i : Nat) (hi : Bool) (v : Nat) {p : Nat}
    (h : p ≠ r.at i + (if hi then 4 else 0)) : (s.putFields r i hi v).regAt q p = s.regAt q p :=
  State.regAt_setRegAt_ne _ _ _ _ h.symm

/-- The words of another register stay. -/
theorem State.reg_putFields_apart (s : State) {r q : Reg} {i j : Nat} {hi : Bool} (v : Nat) (h : r ≠ q) (hi' : i < r.info.count)
    (hp : hi = true → r.info.pair = true) (hj : j < q.info.count) : (s.putFields r i hi v).reg q j = s.reg q j := by
  refine s.regAt_putFields_ne r q i hi v (Ne.symm ?_)
  refine Reg.at_ne (a := if hi then 4 else 0) (b := 0) h hi' hj ?_ (by split <;> omega)
  cases hi with
  | false =>
    simp only [Bool.false_eq_true, if_false]
    split <;> omega
  | true => simp [hp rfl]

/-! ### Held writes -/

theorem State.dropRwe_regs (s : State) (r : Reg) (i : Nat) : (s.dropRwe r i).regs = s.regs := by
  unfold State.dropRwe
  split <;> rfl

theorem State.holdRwe_regs (s : State) (r : Reg) (i v : Nat) : (s.holdRwe r i v).regs = s.regs := by
  unfold State.holdRwe
  split <;> rfl

/-- The RWE fields of a register other than SEG_SPARE take a value in one word. -/
theorem State.applyRwe_eq (s : State) {r : Reg} (i v : Nat) (h : r ≠ .segSpare) :
    s.applyRwe r i v = s.setReg r i (mix (s.reg r i) v r.info.rwe) := by
  unfold State.applyRwe
  split
  · exact absurd rfl h
  · rfl

theorem Tbl.mem_ins {α : Type} (t : Tbl α) (n : Nat) (v : α) : (n, v) ∈ Tbl.ins t n v := by
  induction t with
  | nil => simp [Tbl.ins]
  | cons p t ih =>
    obtain ⟨k, w⟩ := p
    unfold Tbl.ins
    split
    · simp
    · split
      · simp
      · simp [ih]

theorem mem_holdIn (o n : Nat) (v : Word) (l : List DieRwe) : (⟨o, v, n⟩ : DieRwe) ∈ holdIn o n v l := by
  unfold holdIn
  split
  · next h =>
    obtain ⟨x, hx, hk⟩ := List.any_eq_true.1 h
    simp only [Bool.and_eq_true, decide_eq_true_eq] at hk
    refine List.mem_map.2 ⟨x, hx, ?_⟩
    rw [if_pos hk, ← hk.1, ← hk.2]
  · simp

/-- A write to the RWE fields of a station's register is held in the station. -/
theorem State.mem_rwe_holdRwe_station (s : State) {r : Reg} {i n : Nat} (v : Nat) (h : r.stn i = some n) :
    (r.at i, BitVec.ofNat 32 v) ∈ ((s.holdRwe r i v).station n).rwe := by
  have hold : s.holdRwe r i v = s.modStation n (fun x => { x with rwe := Tbl.ins x.rwe (r.at i) (BitVec.ofNat 32 v) }) := by
    simp only [State.holdRwe, h]
  rw [hold, State.station_modStation_self]
  exact Tbl.mem_ins _ _ _

/-- A write to the RWE fields of a die's register is held for the boundary after the last one that a participating station has passed. -/
theorem State.mem_rwe_holdRwe_die (s : State) {r : Reg} {i d : Nat} (v : Nat) (h : r.stn i = none) (hd : r.dieIx i = some d) :
    (⟨r.at i, BitVec.ofNat 32 v, s.maxPassed d + 1⟩ : DieRwe) ∈ ((s.holdRwe r i v).die d).rwe := by
  have hold : s.holdRwe r i v
      = s.modDie d (fun x => { x with rwe := holdIn (r.at i) (s.maxPassed d + 1) (BitVec.ofNat 32 v) x.rwe }) := by
    simp only [State.holdRwe, h, hd]
  rw [hold, State.die_modDie_self]
  exact mem_holdIn _ _ _ _

/-! ### A write with RWE fields does not move its own boundary -/

/-- The stations that take part in a die's epochs are told by SHT_CTRL and the state epochs, which have no RWE field: a write to a register
that has one leaves them. -/
theorem State.party_putFields (s : State) {r : Reg} {i d : Nat} {hi : Bool} (v : Nat) (hr : r.info.rwe ≠ 0) (hi' : i < r.info.count)
    (hp : hi = true → r.info.pair = true) (hd : d < 4) : (s.putFields r i hi v).party d = s.party d := by
  have hsht : r ≠ .shtCtrl := by rintro rfl; exact hr rfl
  have hdie : r ≠ .stnDieEpoch := by rintro rfl; exact hr rfl
  have hstn : r ≠ .stnStateEpoch := by rintro rfl; exact hr rfl
  refine List.filter_congr fun n _ => ?_
  by_cases hn : dieOf n = d
  · have hn4 : dieOf n < 4 := by omega
    have hn1024 : n < 1024 := by unfold dieOf at hn4; omega
    have e1 : (s.putFields r i hi v).reg .shtCtrl (dieOf n) = s.reg .shtCtrl (dieOf n) := s.reg_putFields_apart v hsht hi' hp hn4
    have e2 : (s.putFields r i hi v).reg .stnDieEpoch (dieOf n) = s.reg .stnDieEpoch (dieOf n) := s.reg_putFields_apart v hdie hi' hp hn4
    have e3 : (s.putFields r i hi v).reg .stnStateEpoch n = s.reg .stnStateEpoch n := s.reg_putFields_apart v hstn hi' hp hn1024
    have hsame : (s.putFields r i hi v).station n = s.station n := rfl
    have hseg : (s.putFields r i hi v).present (segOf n) = s.present (segOf n) := rfl
    simp only [State.running, State.quarantined, State.participates, State.fld, e1, e2, e3, hsame, hseg]
    rfl
  · have hoff : (dieOf n == d) = false := by simpa using hn
    simp only [hoff, Bool.false_and]

theorem State.maxPassed_putFields (s : State) {r : Reg} {i d : Nat} {hi : Bool} (v : Nat) (hr : r.info.rwe ≠ 0) (hi' : i < r.info.count)
    (hp : hi = true → r.info.pair = true) (hd : d < 4) : (s.putFields r i hi v).maxPassed d = s.maxPassed d := by
  simp only [State.maxPassed, s.party_putFields v hr hi' hp hd]
  rfl

/-! ### REGISTER_WRITE -/

section
variable {s : State} {who : Requester} {off width i : Nat} {r : Reg} {hi : Bool} {val : Word}
variable (hloc : s.regLocate off width = .ok (r, i, hi))
include hloc

/-- A Zenith record that is refused changes no register but the governor's note of it (R385). -/
theorem registerWrite_refused_zenith (hc : s.csrCheck who r i val.toNat ≠ stOk) (hz : r = .pwrZenithClkv ∨ r = .pwrZenithCfg) :
    ∃ u, exec (.registerWrite who off width val) s = .next u ∧ u.out.head? = some (.reg who off (s.csrCheck who r i val.toNat) 0) ∧
      (∀ (q : Reg) (p : Nat), p ≠ Reg.at .govStatus 0 → p ≠ Reg.at .pwrAlertStatus 0 → u.regAt q p = s.regAt q p) ∧
      (s.zenithBeyond r val.toNat → u.bit .govStatus 0 29 = true ∧ u.bit .pwrAlertStatus 0 6 = true) := by
  refine ⟨_, congrArg Host.Outcome.next (s.writeOut_refused who hloc hc), rfl, ?_⟩
  rcases s.csrRefused_zenith val.toNat hz with ⟨hsame, hnot⟩ | hgov
  · rw [hsame]
    exact ⟨fun _ _ _ _ => rfl, fun h => absurd h hnot⟩
  · rw [hgov]
    exact ⟨fun q p hg hp => s.regAt_governs_ne q hg hp, fun _ => s.governs_notes⟩

variable (ha : r.acts = false)
include ha

/-- An accepted write of a register without RWE fields (R10). -/
theorem registerWrite_accepted_plain (hc : s.csrCheck who r i val.toNat = stOk) (hr : r.info.rwe = 0) :
    ∃ u, exec (.registerWrite who off width val) s = .next u ∧
      (∀ k < 32, (u.regAt r (r.at i + (if hi then 4 else 0))).testBit k =
        r.info.bitAfter (s.regAt r (r.at i + (if hi then 4 else 0))) val.toNat k) ∧
      (∀ (q : Reg) (p : Nat), p ≠ r.at i + (if hi then 4 else 0) → u.regAt q p = s.regAt q p) ∧
      u = { s with regs := u.regs, out := u.out, stackMem := u.stackMem } ∧
      (r ≠ .prismRgnBase ∧ r ≠ .prismRgnShape ∧ r ≠ .prismRgnScale ∧ r ≠ .prismRgnTwin → u.stackMem = s.stackMem) ∧
      u.out.head? = some (.reg who off 0 0) := by
  obtain ⟨hans, hmem, hout⟩ := s.writeOut_accepted who hloc ha hc
  have hput : s.putReg r i hi val.toNat = s.putFields r i hi val.toNat := by rw [State.putReg_eq, if_pos hr]
  rw [hput] at hans hmem
  refine ⟨_, rfl, fun k hk => ?_, fun q p h => ?_, hans.trans ?_, fun hrgn => ?_, hout⟩
  · rw [hans.regAt]
    exact s.testBit_putFields r i hi _ hk
  · rw [hans.regAt]
    exact s.regAt_putFields_ne r q i hi _ h
  · rw [hans.regs]
    rfl
  · rw [hmem, State.leaveTwin_of_no_region _ _ _ hrgn]
    rfl

/-- An accepted write of RWE fields whose owner is stopped: they take effect at once (R10). -/
theorem registerWrite_accepted_stopped (hc : s.csrCheck who r i val.toNat = stOk) (hr : r.info.rwe ≠ 0) (hs : r ≠ .segSpare)
    (hown : s.ownerStopped r i = true) :
    ∃ u, exec (.registerWrite who off width val) s = .next u ∧
      (∀ k < 32, r.info.rwe.testBit k = true → (u.regAt r (r.at i)).testBit k = val.toNat.testBit k) ∧
      (∀ (q : Reg) (p : Nat), p ≠ r.at i + (if hi then 4 else 0) → p ≠ r.at i → u.regAt q p = s.regAt q p) := by
  obtain ⟨hans, hmem, hout⟩ := s.writeOut_accepted who hloc ha hc
  have hput : s.putReg r i hi val.toNat = ((s.putFields r i hi val.toNat).dropRwe r i).setReg r i
      (mix (((s.putFields r i hi val.toNat).dropRwe r i).reg r i) val.toNat r.info.rwe) := by
    rw [State.putReg_eq, if_neg hr, if_pos hown, State.applyRwe_eq _ _ _ hs]
  rw [hput] at hans
  refine ⟨_, rfl, fun k hk hb => ?_, fun q p ho hp => ?_⟩
  · have htaken := State.bit_setReg ((s.putFields r i hi val.toNat).dropRwe r i) r i
      (mix (((s.putFields r i hi val.toNat).dropRwe r i).reg r i) val.toNat r.info.rwe) hk
    rw [testBit_mix _ _ _ hk, if_pos hb] at htaken
    rw [hans.regAt]
    exact htaken
  · rw [hans.regAt, State.regAt_setReg_ne _ r q i _ hp.symm, State.regAt_congr (State.dropRwe_regs _ r i),
      s.regAt_putFields_ne r q i hi _ ho]

/-- An accepted write of RWE fields whose owner runs: they are held for the boundary they join (R10, R215). -/
theorem registerWrite_accepted_held (hc : s.csrCheck who r i val.toNat = stOk) (hr : r.info.rwe ≠ 0) (hown : s.ownerStopped r i = false) :
    ∃ u, exec (.registerWrite who off width val) s = .next u ∧
      (∀ k < 32, (u.regAt r (r.at i + (if hi then 4 else 0))).testBit k =
        r.info.bitAfter (s.regAt r (r.at i + (if hi then 4 else 0))) val.toNat k) ∧
      (∀ (q : Reg) (p : Nat), p ≠ r.at i + (if hi then 4 else 0) → u.regAt q p = s.regAt q p) ∧
      (∀ n, r.stn i = some n → (r.at i, BitVec.ofNat 32 (only val.toNat r.info.rwe)) ∈ (u.station n).rwe) ∧
      (∀ d, r.stn i = none → r.dieIx i = some d →
        (⟨r.at i, BitVec.ofNat 32 (only val.toNat r.info.rwe), s.maxPassed d + 1⟩ : DieRwe) ∈ (u.die d).rwe) := by
  obtain ⟨hcount, hpair⟩ := Reg.find_some (State.find_of_regLocate hloc)
  obtain ⟨hans, hmem, hout⟩ := s.writeOut_accepted who hloc ha hc
  have hput : s.putReg r i hi val.toNat = (s.putFields r i hi val.toNat).holdRwe r i (only val.toNat r.info.rwe) := by
    rw [State.putReg_eq, if_neg hr, if_neg (by simp [hown])]
  have hregs := State.holdRwe_regs (s.putFields r i hi val.toNat) r i (only val.toNat r.info.rwe)
  rw [hput] at hans
  refine ⟨_, rfl, fun k hk => ?_, fun q p h => ?_, fun n hn => ?_, fun d hn hd => ?_⟩
  · rw [hans.regAt, State.regAt_congr hregs]
    exact s.testBit_putFields r i hi _ hk
  · rw [hans.regAt, State.regAt_congr hregs]
    exact s.regAt_putFields_ne r q i hi _ h
  · rw [hans.station]
    exact State.mem_rwe_holdRwe_station _ _ hn
  · rw [hans.die, ← s.maxPassed_putFields val.toNat hr hcount hpair (Reg.dieIx_lt hcount hd)]
    exact State.mem_rwe_holdRwe_die _ _ hn hd

end

/-- Settles O40, by the outcomes of a write: no register, refused, refused with the governor's note, and accepted, by whether the register has
RWE fields and their owner stands. -/
theorem registerWritesFollowTheirFieldTypes : Obligations.RegisterWritesFollowTheirFieldTypes := by
  intro s who off width val
  refine ⟨fun st h => congrArg Host.Outcome.next (s.writeOut_error who _ h), fun r i hi hloc ha => ⟨fun hc h1 h2 => ?_, ?_, ?_, ?_, ?_⟩⟩
  · exact congrArg Host.Outcome.next ((s.writeOut_refused who hloc hc).trans (congrArg (State.emit · _) (s.csrRefused_other _ ha h1 h2)))
  · exact registerWrite_refused_zenith hloc
  · exact registerWrite_accepted_plain hloc ha
  · exact registerWrite_accepted_stopped hloc ha
  · exact registerWrite_accepted_held hloc ha

end Sys2Proof.Machine
end

section
/-! SUPPORT. Wakes from an idle state (R390, R392, Tables 14-15 to 14-18). -/

namespace Sys2Proof.Machine

/-! ### Updates that change registers alone -/

theorem State.RegsOnly.refl (s : State) (offs : List Nat) : s.RegsOnly s offs := ⟨fun _ _ _ => rfl, rfl⟩

theorem State.RegsOnly.trans {s t u : State} {offs : List Nat} (h : s.RegsOnly t offs) (g : t.RegsOnly u offs) : s.RegsOnly u offs := by
  obtain ⟨hr, he⟩ := h
  obtain ⟨gr, ge⟩ := g
  refine ⟨fun r o ho => (gr r o ho).trans (hr r o ho), ?_⟩
  rw [ge, he]

theorem State.RegsOnly.foldl {α : Type} {f : State → α → State} {offs : List Nat} (l : List α)
    (h : ∀ (s : State), ∀ a ∈ l, s.RegsOnly (f s a) offs) (s : State) : s.RegsOnly (l.foldl f s) offs := by
  induction l generalizing s with
  | nil => exact .refl s offs
  | cons a l ih =>
    exact (h s a (List.mem_cons_self ..)).trans (ih (fun t b hb => h t b (List.mem_cons_of_mem a hb)) _)

theorem State.RegsOnly.frame {s u : State} {offs : List Nat} (h : s.RegsOnly u offs) :
    u.stations = s.stations ∧ u.pwr = s.pwr ∧ u.pins = s.pins := by
  obtain ⟨-, he⟩ := h
  rw [he]
  exact ⟨rfl, rfl, rfl⟩

theorem State.setFld_regsOnly (s : State) (r : Reg) (i hi lo v : Nat) {offs : List Nat} (h : r.at i ∈ offs) :
    s.RegsOnly (s.setFld r i hi lo v) offs :=
  ⟨fun q _ ho => s.regAt_setFld_ne r q i v (fun e => ho (e ▸ h)), rfl⟩

/-- The offsets of the four SHT_FIFO registers. -/
def fifoOffs : List Nat := (List.range 4).map (Reg.at .shtFifo)

/-- Recentring the crossing FIFOs touches SHT_FIFO alone (R234). -/
theorem State.recentreAll_regsOnly (s : State) : s.RegsOnly s.recentreAll fifoOffs := by
  refine .foldl _ (fun t d hd => .foldl _ (fun u f _ => ?_) t) s
  have hoff : Reg.at .shtFifo d ∈ fifoOffs := List.mem_map_of_mem hd
  exact (u.setFld_regsOnly _ _ _ _ _ hoff).trans (State.setFld_regsOnly _ _ _ _ _ _ hoff)

/-! ### Fields by division -/

theorem bitsOf_eq_div_mod (n hi lo : Nat) : bitsOf n hi lo = n / 2 ^ lo % 2 ^ (hi + 1 - lo) := by
  rw [bitsOf, Nat.shiftRight_eq_div_pow]

theorem bitOf_eq_div_mod (n b : Nat) : bitOf n b = decide (n / 2 ^ b % 2 = 1) := Nat.testBit_eq_decide_div_mod_eq

theorem State.testBit_fld (s : State) (r : Reg) (i hi lo k : Nat) :
    (s.fld r i hi lo).testBit k = (decide (k < hi + 1 - lo) && s.bit r i (lo + k)) := by
  simp only [State.fld, bitsOf, Nat.testBit_mod_two_pow, Nat.testBit_shiftRight, State.bit, bitOf]

theorem State.idleState_lt (s : State) : s.idleState < 4 := Nat.mod_lt _ (by decide)

/-! ### What a wake leaves -/

/-- From `s`, an idle part, to `u`, source `i` has woken the part. -/
def State.WokenBy (s u : State) (i : Nat) : Prop :=
  u.fld .pwrWakeLast 0 4 0 = 2 ^ i ∧ u.bit .pwrWakeLast 0 31 = true ∧
    u.bit .pwrWakeLast 0 30 = false ∧ u.fld .pwrWakeLast 0 29 28 = s.idleState ∧
    (s.idleState = 1 → u.idleState = 0) ∧ (s.idleState ≠ 1 → u.idleState = s.idleState ∧ u.waking = true) ∧
    (s.idleState = 3 → u.pwr.on = 0x3000) ∧ u.pwr.latch = 0 ∧ u.stations = s.stations ∧ u.stackMem = s.stackMem

/-- The wake is noted in PWR_WAKE_LAST and the sources are taken as seen. -/
def State.noted (s : State) (src : Nat) : State := (s.wakeNote false src s.idleState).wakeSeen

theorem State.noted_regs (s : State) (src : Nat) :
    (s.noted src).regs = (s.setReg .pwrWakeLast 0 (2 ^ 31 + b2n false * 2 ^ 30 + s.idleState * 2 ^ 28 + src % 32)).regs := by
  simp [State.noted, State.wakeSeen, State.wakeNote]

theorem State.noted_frame (s : State) (src : Nat) :
    (s.noted src).stations = s.stations ∧ (s.noted src).stackMem = s.stackMem ∧ (s.noted src).pwr.latch = 0 ∧
      (s.noted src).pins = { s.pins with wakeL := true } := by
  simp [State.noted, State.wakeSeen, State.wakeNote, State.pwrUpd]

theorem State.regAt_noted_ne (s : State) (src : Nat) (q : Reg) {p : Nat} (h : Reg.at .pwrWakeLast 0 ≠ p) :
    (s.noted src).regAt q p = s.regAt q p := by
  rw [State.regAt_congr (s.noted_regs src), State.regAt_setReg_ne _ _ _ _ _ h]

theorem State.idleState_noted (s : State) (src : Nat) : (s.noted src).idleState = s.idleState :=
  State.fld_congr (s.regAt_noted_ne src .pwrState (by decide)) 31 30

theorem State.noted_reg (s : State) {src : Nat} (h : src < 32) :
    (s.noted src).reg .pwrWakeLast 0 = 2 ^ 31 + s.idleState * 2 ^ 28 + src := by
  have hst := s.idleState_lt
  rw [State.reg_congr (s.noted_regs src), State.reg_setReg]
  simp only [b2n, Bool.false_eq_true, if_false]
  omega

/-- What PWR_WAKE_LAST holds of a wake (Table 14-18). -/
theorem State.noted_fields (s : State) {src : Nat} (h : src < 32) :
    (s.noted src).fld .pwrWakeLast 0 4 0 = src ∧ (s.noted src).bit .pwrWakeLast 0 31 = true ∧
      (s.noted src).bit .pwrWakeLast 0 30 = false ∧ (s.noted src).fld .pwrWakeLast 0 29 28 = s.idleState := by
  have hst := s.idleState_lt
  simp only [State.fld, State.bit, s.noted_reg h, bitsOf_eq_div_mod, bitOf_eq_div_mod, decide_eq_true_eq, decide_eq_false_iff_not]
  omega

/-- A state whose wake record is that of a wake by `i`, and which is else as a wake leaves it. -/
theorem State.wokenBy_of_noted {s u : State} {i : Nat} (hi : i < 5)
    (hlast : u.regAt .pwrWakeLast (Reg.at .pwrWakeLast 0) = (s.noted (2 ^ i)).regAt .pwrWakeLast (Reg.at .pwrWakeLast 0))
    (h1 : s.idleState = 1 → u.idleState = 0) (h2 : s.idleState ≠ 1 → u.idleState = s.idleState ∧ u.waking = true)
    (h3 : s.idleState = 3 → u.pwr.on = 0x3000) (hl : u.pwr.latch = 0) (hs : u.stations = s.stations)
    (hm : u.stackMem = s.stackMem) : s.WokenBy u i := by
  have hpow : 2 ^ i < 32 := Nat.pow_lt_pow_right (by decide) hi
  obtain ⟨f1, f2, f3, f4⟩ := s.noted_fields hpow
  refine ⟨?_, ?_, ?_, ?_, h1, h2, h3, hl, hs, hm⟩
  · rwa [State.fld_congr hlast]
  · rwa [State.bit_congr hlast]
  · rwa [State.bit_congr hlast]
  · rwa [State.fld_congr hlast]

/-! ### Leaving an idle state (R392) -/

section
variable {s : State} {i : Nat} (hi : i < 5)
include hi

/-- From Night and Midnight the part starts to wake, and rests in its state till it is up. -/
theorem State.wokenBy_of_waking {u : State} (h : s.idleState ≠ 1)
    (hreg : u.regAt .pwrState (Reg.at .pwrState 0) = ((s.noted (2 ^ i)).setFld .pwrState 0 28 28 1).regAt .pwrState (Reg.at .pwrState 0))
    (hlast : u.regAt .pwrWakeLast (Reg.at .pwrWakeLast 0) = (s.noted (2 ^ i)).regAt .pwrWakeLast (Reg.at .pwrWakeLast 0))
    (h3 : s.idleState = 3 → u.pwr.on = 0x3000) (hl : u.pwr.latch = 0) (hs : u.stations = s.stations)
    (hm : u.stackMem = s.stackMem) : s.WokenBy u i := by
  have hstate : u.idleState = s.idleState := by
    rw [State.idleState, State.fld_congr hreg, State.fld_setFld_apart _ _ _ _ (by decide) (by decide) (by decide)]
    exact s.idleState_noted _
  have hwaking : u.waking = true := by
    rw [State.waking, State.bit_congr hreg, State.bit_setFld _ _ _ _ (by decide) (by decide)]
    rfl
  exact State.wokenBy_of_noted hi hlast (fun h1 => absurd h1 h) (fun _ => ⟨hstate, hwaking⟩) h3 hl hs hm

variable (hw : s.waking = false)
include hw

/-- Twilight: the clocks run again and the part is up at once. -/
theorem State.leaveIdle_twilight (h : s.idleState = 1) :
    s.WokenBy (s.leaveIdle (2 ^ i)) i ∧ (s.leaveIdle (2 ^ i)).pins = { s.pins with wakeL := true } := by
  obtain ⟨fstn, -, flatch, fpins⟩ := s.noted_frame (2 ^ i)
  have hlow : s.fld .pwrState 0 3 0 < 16 := Nat.mod_lt _ (by decide)
  obtain ⟨v, hv, hu⟩ : ∃ v, v < 2 ^ 16 ∧ s.leaveIdle (2 ^ i) = ((s.noted (2 ^ i)).setReg .pwrState 0 v).recentreAll :=
    ⟨s.pwr.on.toNat % 256 * 2 ^ 8 + s.fld .pwrState 0 3 0, by omega, by simp [State.leaveIdle, h, hw, State.noted]⟩
  have honly := State.recentreAll_regsOnly ((s.noted (2 ^ i)).setReg .pwrState 0 v)
  rw [← hu] at honly
  obtain ⟨gstn, gpwr, gpins⟩ := honly.frame
  obtain ⟨hr, -⟩ := honly
  have hup : (s.leaveIdle (2 ^ i)).idleState = 0 := by
    rw [State.idleState, State.fld_congr (hr _ _ (by decide)), State.fld_setReg _ _ _ _ (by decide), bitsOf_eq_div_mod]
    omega
  have hlast := (hr .pwrWakeLast (Reg.at .pwrWakeLast 0) (by decide)).trans (State.regAt_setReg_ne _ _ _ _ _ (by decide))
  refine ⟨State.wokenBy_of_noted hi hlast (fun _ => hup) (fun h1 => absurd h h1) (fun h3 => by omega) ?_ ?_ ?_, ?_⟩
  · simp [gpwr, flatch]
  · simp [gstn, fstn]
  · exact s.leaveIdle_mem _
  · simp [gpins, fpins]

/-- Night: the domains are still off. -/
theorem State.leaveIdle_night (h : s.idleState = 2) :
    s.WokenBy (s.leaveIdle (2 ^ i)) i ∧ (s.leaveIdle (2 ^ i)).pins = { s.pins with wakeL := true } := by
  obtain ⟨fstn, fmem, flatch, fpins⟩ := s.noted_frame (2 ^ i)
  have hu : s.leaveIdle (2 ^ i) = (s.noted (2 ^ i)).setFld .pwrState 0 28 28 1 := by
    simp [State.leaveIdle, h, hw, State.noted]
  rw [hu]
  refine ⟨State.wokenBy_of_waking hi (by omega) rfl (State.regAt_setFld_ne _ _ _ _ _ (by decide)) (fun h3 => by omega) ?_ ?_ ?_, ?_⟩
  · simp [flatch]
  · simp [fstn]
  · simp [fmem]
  · simp [fpins]

/-- Midnight: the firmware and I/O domains are powered, on the fast internal oscillator. -/
theorem State.leaveIdle_midnight (h : s.idleState = 3) :
    s.WokenBy (s.leaveIdle (2 ^ i)) i ∧ (s.leaveIdle (2 ^ i)).pins = { s.pins with wakeL := true } := by
  obtain ⟨fstn, fmem, flatch, fpins⟩ := s.noted_frame (2 ^ i)
  have hu : s.leaveIdle (2 ^ i) = (((s.noted (2 ^ i)).setFld .pwrState 0 28 28 1).setFld .clkStatus 0 29 28 1).pwrUpd
      (fun w => { w with on := 0x3000#14 }) := by
    simp [State.leaveIdle, h, hw, State.noted]
  have hregs : (s.leaveIdle (2 ^ i)).regs = (((s.noted (2 ^ i)).setFld .pwrState 0 28 28 1).setFld .clkStatus 0 29 28 1).regs := by
    rw [hu]; simp
  have hreg : (s.leaveIdle (2 ^ i)).regAt .pwrState (Reg.at .pwrState 0)
      = ((s.noted (2 ^ i)).setFld .pwrState 0 28 28 1).regAt .pwrState (Reg.at .pwrState 0) := by
    rw [State.regAt_congr hregs, State.regAt_setFld_ne _ _ _ _ _ (by decide)]
  have hlast : (s.leaveIdle (2 ^ i)).regAt .pwrWakeLast (Reg.at .pwrWakeLast 0)
      = (s.noted (2 ^ i)).regAt .pwrWakeLast (Reg.at .pwrWakeLast 0) := by
    rw [State.regAt_congr hregs, State.regAt_setFld_ne _ _ _ _ _ (by decide), State.regAt_setFld_ne _ _ _ _ _ (by decide)]
  refine ⟨State.wokenBy_of_waking hi (by omega) hreg hlast (fun _ => ?_) ?_ ?_ ?_, ?_⟩
  · rw [hu]; rfl
  · rw [hu]; simp [State.pwrUpd, flatch]
  · rw [hu]; simp [fstn]
  · rw [hu]; simp [fmem]
  · rw [hu]; simp [fpins]

/-- A part that is idle and not waking yet is woken. -/
theorem State.leaveIdle_wokenBy (h0 : s.idleState ≠ 0) :
    s.WokenBy (s.leaveIdle (2 ^ i)) i ∧ (s.leaveIdle (2 ^ i)).pins = { s.pins with wakeL := true } := by
  have hst := s.idleState_lt
  obtain h | h | h : s.idleState = 1 ∨ s.idleState = 2 ∨ s.idleState = 3 := by omega
  · exact s.leaveIdle_twilight hi hw h
  · exact s.leaveIdle_night hi hw h
  · exact s.leaveIdle_midnight hi hw h

end

/-! ### Sources that stand asserted (R390) -/

/-- The enabled sources that stand asserted and may wake the part from the state it is in. -/
def State.wakeSet (s : State) : Nat := wakeable s.idleState (s.wakeLevels &&& s.fld .pwrWakeEn 0 4 0)

/-- From Midnight the Pycia wake, the highest source, does not wake (Table 14-17). -/
theorem testBit_wakeable (st m : Nat) {k : Nat} (h : k < 5) : (wakeable st m).testBit k = (m.testBit k && (decide (st ≠ 3) || decide (k < 4))) := by
  have h16 : (m % 16).testBit k = (decide (k < 4) && m.testBit k) := Nat.testBit_mod_two_pow m 4 k
  have h32 : (m % 32).testBit k = (decide (k < 5) && m.testBit k) := Nat.testBit_mod_two_pow m 5 k
  unfold wakeable
  by_cases hst : st = 3
  · simp [hst, h16, Bool.and_comm]
  · simp [hst, h32, h]

theorem State.bitOf_wakeSet (s : State) {k : Nat} (h : k < 5) :
    bitOf s.wakeSet k = (s.wakeLevels.testBit k && s.bit .pwrWakeEn 0 k && (decide (s.idleState ≠ 3) || decide (k < 4))) := by
  rw [bitOf, State.wakeSet, testBit_wakeable _ _ h, Nat.testBit_and, State.testBit_fld, Nat.zero_add]
  simp [h]

/-- The lowest source that stands asserted wakes the part. -/
theorem State.wakeCheck_wakes (s : State) {i : Nat} (hi : i < 5) (h0 : s.idleState ≠ 0) (hr : s.pins.resetL = true)
    (hp : s.pins.pwrOk = true) (hbit : bitOf s.wakeSet i = true) (hlow : ∀ j < i, bitOf s.wakeSet j = false) :
    s.wakeCheck = s.leaveIdle (2 ^ i) := by
  have hfind : (List.range 5).find? (fun j => bitOf s.wakeSet j) = some i :=
    List.find?_range_eq_some.2 ⟨hbit, List.mem_range.2 hi, fun j hj => by simp [hlow j hj]⟩
  unfold State.wakeSet at hfind
  simp [State.wakeCheck, hfind, h0, hr, hp]

/-- With no source asserted, nothing happens. -/
theorem State.wakeCheck_quiet (s : State) (h : ∀ j < 5, bitOf s.wakeSet j = false) : s.wakeCheck = s := by
  have hfind : (List.range 5).find? (fun j => bitOf s.wakeSet j) = none :=
    List.find?_range_eq_none.2 fun j hj => by simp [h j hj]
  unfold State.wakeSet at hfind
  simp [State.wakeCheck, hfind]

/-- A part that is up is not woken. -/
theorem State.wakeCheck_awake (s : State) (h : s.idleState = 0) : s.wakeCheck = s := by
  unfold State.wakeCheck
  dsimp only
  split
  · simp [h]
  · rfl

/-! ### Sources that are latched, and WAKE_L -/

/-- Source `i` is latched. -/
def State.latched (s : State) (i : Nat) : State := { s with pwr := { s.pwr with latch := s.pwr.latch ||| BitVec.ofNat 5 (2 ^ i) } }

theorem State.testBit_wakeLevels_latched (s : State) {i : Nat} (hi : i < 5) (k : Nat) :
    (s.latched i).wakeLevels.testBit k = (s.wakeLevels.testBit k || decide (i = k)) := by
  have hpow : 2 ^ i % 2 ^ 5 = 2 ^ i := Nat.mod_eq_of_lt (Nat.pow_lt_pow_right (by decide) hi)
  have hlatch : (s.latched i).pwr.latch.toNat = s.pwr.latch.toNat ||| 2 ^ i := by
    rw [State.latched, BitVec.toNat_or, BitVec.toNat_ofNat, hpow]
  have hbit : (s.latched i).bit .pwrWakeEn 0 31 = s.bit .pwrWakeEn 0 31 := rfl
  have hpins : (s.latched i).pins = s.pins := rfl
  simp only [State.wakeLevels, hlatch, hbit, hpins, Nat.testBit_or, Nat.testBit_two_pow]
  rw [Bool.or_right_comm]

/-- The sources that stand asserted once source `i` is latched. -/
theorem State.bitOf_wakeSet_latched (s : State) {i k : Nat} (hi : i < 5) (hk : k < 5) :
    bitOf (s.latched i).wakeSet k = ((bitOf (s.wakeLevels &&& s.fld .pwrWakeEn 0 4 0) k || (decide (i = k) && s.bit .pwrWakeEn 0 k))
      && (decide (s.idleState ≠ 3) || decide (k < 4))) := by
  have hbit : (s.latched i).bit .pwrWakeEn 0 k = s.bit .pwrWakeEn 0 k := rfl
  have hidle : (s.latched i).idleState = s.idleState := rfl
  have hfld : (s.fld .pwrWakeEn 0 4 0).testBit k = s.bit .pwrWakeEn 0 k := by
    rw [State.testBit_fld, Nat.zero_add]
    simp [hk]
  rw [State.bitOf_wakeSet _ hk, s.testBit_wakeLevels_latched hi, hbit, hidle, bitOf, Nat.testBit_and, hfld, ← Bool.and_or_distrib_right]

theorem State.wakeBy_awake (s : State) (i : Nat) (h : s.idleState = 0) : s.wakeBy i = s := if_pos h

theorem State.wakeBy_idle (s : State) (i : Nat) (h : s.idleState ≠ 0) : s.wakeBy i = (s.latched i).wakeCheck := if_neg h

/-- An enabled source that may wake the part, and below which none stands asserted, wakes it. -/
theorem State.wakeBy_wakes (s : State) {i : Nat} (hi : i < 5) (h0 : s.idleState ≠ 0) (hw : s.waking = false) (hr : s.pins.resetL = true)
    (hp : s.pins.pwrOk = true) (hen : s.bit .pwrWakeEn 0 i = true) (hmay : s.idleState ≠ 3 ∨ i < 4)
    (hlow : ∀ j < i, bitOf (s.wakeLevels &&& s.fld .pwrWakeEn 0 4 0) j = false) : s.WokenBy (s.wakeBy i) i := by
  have hbit : bitOf (s.latched i).wakeSet i = true := by
    rw [s.bitOf_wakeSet_latched hi hi]
    simpa [hen] using hmay
  have hno : ∀ j < i, bitOf (s.latched i).wakeSet j = false := fun j hj => by
    have hne : i ≠ j := by omega
    rw [s.bitOf_wakeSet_latched hi (by omega), hlow j hj]
    simp [hne]
  rw [s.wakeBy_idle i h0, State.wakeCheck_wakes (s.latched i) hi h0 hr hp hbit hno]
  exact ((s.latched i).leaveIdle_wokenBy hi hw h0).1

/-- A source that may not wake the part is latched. -/
theorem State.wakeBy_latches (s : State) {i : Nat} (hi : i < 5) (h0 : s.idleState ≠ 0)
    (hnot : s.bit .pwrWakeEn 0 i = false ∨ (s.idleState = 3 ∧ ¬ i < 4))
    (hno : ∀ j < 5, bitOf (s.wakeLevels &&& s.fld .pwrWakeEn 0 4 0) j = false) : s.wakeBy i = s.latched i := by
  rw [s.wakeBy_idle i h0]
  refine State.wakeCheck_quiet _ fun j hj => ?_
  rw [s.bitOf_wakeSet_latched hi hj, hno j hj]
  by_cases hij : i = j
  · subst hij
    rcases hnot with h | ⟨h, hlt⟩
    · simp [h]
    · simp [h, hlt]
  · simp [hij]

/-- WAKE_L is low. -/
def State.wakeLow (s : State) : State := { s with pins := { s.pins with wakeL := false } }

/-- WAKE_L that wakes by its level stands asserted while it is low. -/
theorem State.wakeLevels_wakeLow (s : State) (h : s.bit .pwrWakeEn 0 31 = false) : s.wakeLow.wakeLevels = s.pwr.latch.toNat ||| 1 := by
  have hbit : s.wakeLow.bit .pwrWakeEn 0 31 = s.bit .pwrWakeEn 0 31 := rfl
  have hpin : s.wakeLow.pins.wakeL = false := rfl
  have hlatch : s.wakeLow.pwr = s.pwr := rfl
  rw [State.wakeLevels, hbit, h, hpin, hlatch]
  rfl

/-- WAKE_L enabled wakes an idle part, by its edge or its level. -/
theorem State.wakeFall_wakes (s : State) (h0 : s.idleState ≠ 0) (hw : s.waking = false) (hr : s.pins.resetL = true)
    (hp : s.pins.pwrOk = true) (hen : s.bit .pwrWakeEn 0 0 = true) :
    s.wakeFall.pins = { s.pins with wakeL := true } ∧ s.WokenBy s.wakeFall 0 := by
  have hfall : s.wakeFall = s.wakeLow.leaveIdle (2 ^ 0) := by
    unfold State.wakeFall
    by_cases hedge : s.bit .pwrWakeEn 0 31 = true
    · simp [hedge, hen, h0, hr, hp, State.wakeLow]
    · have hlevel := s.wakeLevels_wakeLow (by simpa using hedge)
      have hbit : bitOf s.wakeLow.wakeSet 0 = true := by
        have hen' : s.wakeLow.bit .pwrWakeEn 0 0 = true := hen
        rw [State.bitOf_wakeSet _ (by decide), hlevel, Nat.testBit_or, hen']
        simp
      rw [if_neg hedge]
      exact State.wakeCheck_wakes _ (by decide) h0 hr hp hbit (fun j hj => absurd hj (by omega))
  rw [hfall]
  obtain ⟨hwoken, hpins⟩ := s.wakeLow.leaveIdle_wokenBy (i := 0) (by decide) hw h0
  exact ⟨hpins, hwoken⟩

/-- WAKE_L does nothing to a part that is up. -/
theorem State.wakeFall_awake (s : State) (h : s.idleState = 0) : s.wakeFall = s.wakeLow := by
  have hcheck : s.wakeLow.wakeCheck = s.wakeLow := State.wakeCheck_awake _ h
  unfold State.wakeFall
  split
  · simp [h, State.wakeLow]
  · exact hcheck

/-- WAKE_L not enabled does not wake, and neither does an edge of it bring up what is latched; its level does not where no enabled source is
latched. -/
theorem State.wakeFall_quiet (s : State) (hen : s.bit .pwrWakeEn 0 0 = false)
    (h : s.bit .pwrWakeEn 0 31 = true ∨ s.pwr.latch.toNat &&& s.fld .pwrWakeEn 0 4 0 = 0) : s.wakeFall = s.wakeLow := by
  unfold State.wakeFall
  by_cases hedge : s.bit .pwrWakeEn 0 31 = true
  · simp [hedge, hen, State.wakeLow]
  · have hlatch : s.pwr.latch.toNat &&& s.fld .pwrWakeEn 0 4 0 = 0 := h.resolve_left hedge
    have hquiet : s.wakeLow.wakeCheck = s.wakeLow := by
      refine State.wakeCheck_quiet _ fun j hj => ?_
      have hzero : (s.pwr.latch.toNat &&& s.fld .pwrWakeEn 0 4 0).testBit j = false := by rw [hlatch, Nat.zero_testBit]
      rw [Nat.testBit_and, State.testBit_fld, Nat.zero_add] at hzero
      have hbit : s.wakeLow.bit .pwrWakeEn 0 j = s.bit .pwrWakeEn 0 j := rfl
      rw [State.bitOf_wakeSet _ hj, s.wakeLevels_wakeLow (by simpa using hedge), Nat.testBit_or, hbit, Bool.and_or_distrib_right]
      cases j with
      | zero => simp [hen]
      | succ j =>
        have hone : Nat.testBit 1 (j + 1) = false := Nat.testBit_one_eq_true_iff_self_eq_zero.not.2 (by omega) |> Bool.eq_false_iff.2
        simp_all
    rw [if_neg hedge]
    exact hquiet

end Sys2Proof.Machine
end

section
/-! SUPPORT. Supplies, RESET_L, and what power loss takes (R12, R391, R392, R414 to R417). -/

namespace Sys2Proof.Machine

/-! ### What a filtered register file reads as -/

/-- A table filtered by its keys reads as before at the keys kept, and as unlisted at the others. -/
theorem Tbl.get_filter {α : Type} (d : Nat → α) (f : Nat → Bool) (t : Tbl α) (n : Nat) :
    Tbl.get d (t.filter (fun p => f p.1)) n = if f n then Tbl.get d t n else d n := by
  induction t with
  | nil => simp [Tbl.get]
  | cons p t ih =>
    obtain ⟨k, v⟩ := p
    by_cases hk : k = n
    · subst hk
      cases hf : f k <;> simp_all [Tbl.get]
    · cases hf : f k <;> simp_all [Tbl.get]

/-- Of the register file a reset leaves TRIPPED's register alone, and that while the auxiliary converter is powered (R414). -/
theorem State.get_tripped (s : State) (d : Nat → Word) (o : Nat) :
    Tbl.get d s.tripped o = if o = Reg.at .pwrInputStatus 0 ∧ s.pins.aux = true then Tbl.get d s.regs o else d o := by
  unfold State.tripped
  rw [Tbl.get_filter d (fun k => decide (k = Reg.at .pwrInputStatus 0) && s.pins.aux)]
  simp only [Bool.and_eq_true, decide_eq_true_eq]

/-- A register that a reset does not leave reads as its Reset value (R12). -/
theorem State.regAt_of_tripped {s u : State} (h : u.regs = s.tripped) (r : Reg) {o : Nat} (ho : o ≠ Reg.at .pwrInputStatus 0) :
    u.regAt r o = r.info.reset % 2 ^ 32 := by
  unfold State.regAt
  rw [h, s.get_tripped, if_neg (fun hc => ho hc.1), BitVec.toNat_ofNat]

/-- TRIPPED after a reset. -/
theorem State.bit_of_tripped {s u : State} (h : u.regs = s.tripped) :
    u.bit .pwrInputStatus 0 0 = (s.bit .pwrInputStatus 0 0 && s.pins.aux) := by
  unfold State.bit State.reg State.regAt
  rw [h, s.get_tripped]
  cases haux : s.pins.aux with
  | true => simp
  | false =>
    simp only [Bool.false_eq_true, and_false, if_false, Bool.and_false]
    rfl

/-! ### Power loss (R391, R416) -/

/-- From `s` to `u`, every domain but the always-on one has gone off, and what they held is lost. -/
def State.DownTo (s u : State) : Prop :=
  u.pwr.on = 0 ∧ u.reg .pwrState 0 = 0 ∧ u.stations = [] ∧ u.ring = [] ∧ u.dies = [] ∧
    u.stackMem = Memory.lost s.free ∧ u.fw = s.fw.kept ∧ u.fuses = s.fuses

theorem State.powerLoss_frame (s : State) :
    s.powerLoss.pwr.on = 0 ∧ s.powerLoss.stations = [] ∧ s.powerLoss.ring = [] ∧ s.powerLoss.dies = [] ∧
      s.powerLoss.stackMem = Memory.lost s.free ∧ s.powerLoss.fw = s.fw.kept ∧
      s.powerLoss.pins = s.pins ∧ s.powerLoss.out = s.out := by
  simp [State.powerLoss, State.reset]

theorem State.allDown_frame (s : State) : s.allDown.pins = s.pins ∧ s.allDown.out = s.out := by
  obtain ⟨-, -, -, -, -, -, hpins, hout⟩ := s.powerLoss_frame
  simp [State.allDown, hpins, hout]

theorem State.downTo_allDown (s : State) : s.DownTo s.allDown := by
  obtain ⟨hon, hstn, hring, hdies, hmem, hfw, -, -⟩ := s.powerLoss_frame
  have hreg : s.allDown.reg .pwrState 0 = 0 := State.reg_setReg _ _ _ _
  exact ⟨by simp [State.allDown, hon], hreg, by simp [State.allDown, hstn], by simp [State.allDown, hring],
    by simp [State.allDown, hdies], by simp [State.allDown, hmem], by simp [State.allDown, hfw], by simp⟩

/-- A power loss does not set GOV_STATUS.TRIP_SEEN: the register is the always-on domain's, and bit 31 alone of it is written. -/
theorem State.bit_allDown_govStatus (s : State) (h : s.bit .govStatus 0 30 = false) : s.allDown.bit .govStatus 0 30 = false := by
  have hfile : ∀ t : State, t.regs = s.regs.filter keptAlways → t.bit .govStatus 0 30 = false := fun t ht => by
    have hkey : s.regs.filter keptAlways = s.regs.filter (fun p => keptAlways (p.1, 0)) := rfl
    unfold State.bit State.reg State.regAt at h ⊢
    rw [ht, hkey, Tbl.get_filter _ (fun o => keptAlways (o, 0))]
    split
    · exact h
    · decide
  rw [State.allDown, State.bit_congr (State.regAt_setReg_ne _ _ _ _ _ (by decide)), State.powerLoss,
    State.bit_setFld _ _ _ _ (by decide) (by decide), if_neg (by decide)]
  exact hfile _ rfl

/-- A register field written before a power loss changes nothing of what the loss takes. -/
theorem State.DownTo.of_setFld {s u : State} {r : Reg} {i hi lo v : Nat} (h : (s.setFld r i hi lo v).DownTo u) : s.DownTo u := by
  simpa [State.DownTo] using h

/-- And one written after it, of another register than PWR_STATE, brings nothing back. -/
theorem State.DownTo.setFld {s u : State} {r : Reg} {i : Nat} (h : s.DownTo u) (hr : r.at i ≠ Reg.at .pwrState 0) (hi lo v : Nat) :
    s.DownTo (u.setFld r i hi lo v) := by
  have hreg : (u.setFld r i hi lo v).reg .pwrState 0 = u.reg .pwrState 0 := u.regAt_setFld_ne r .pwrState i v hr
  simpa [State.DownTo, hreg] using h

/-- The pins are no part of what goes off. -/
theorem State.DownTo.withPins {s u : State} (h : s.DownTo u) (p : Pins) : s.DownTo { u with pins := p } := h

/-! ### The commands of the supplies and pins -/

/-- The input powers up the always-on domain in reset, with nothing of its registers left (R415). -/
theorem State.inputRise_off (s : State) (h : s.pins.aux = false) :
    s.inputRise.pwr.on = 0 ∧ s.inputRise.regs = [] ∧ s.inputRise.stations = [] ∧ s.inputRise.fw = s.fw.kept ∧
      s.inputRise.pins = ⟨false, false, false, s.pins.wakeL, true, false⟩ := by
  obtain ⟨hon, hstn, -, -, -, hfw, -, -⟩ := s.powerLoss_frame
  rw [State.inputRise, if_neg (by simp [h])]
  generalize s.powerLoss = t at hon hstn hfw ⊢
  exact ⟨hon, rfl, hstn, hfw, rfl⟩

/-- What a fall of PWR_OK does once the domains are off: THERM_TRIP_L, where it was asserted, is released (R417). -/
def State.inputLost (t : State) (trip : Bool) : State :=
  let u := { t with pins := { t.pins with pwrOk := false, input := false, tripL := false } }
  if trip then u.emit (.pin 7 false) else u

theorem State.pwrOkFall_eq (s : State) : s.pwrOkFall = (s.setFld .govStatus 0 30 30 0).allDown.inputLost s.pins.tripL := rfl

theorem State.inputLost_frame {s t : State} (trip : Bool) (h : s.DownTo t) :
    s.DownTo (t.inputLost trip) ∧ (t.inputLost trip).pins = { t.pins with pwrOk := false, input := false, tripL := false } ∧
      (t.inputLost trip).regs = t.regs ∧ (t.inputLost trip).out = (if trip then [.pin 7 false] else []) ++ t.out := by
  cases trip <;> exact ⟨h, rfl, rfl, rfl⟩

/-- A fall of PWR_OK takes the part down and ends THERM_TRIP_L (R386, R416, R417). -/
theorem State.pwrOkFall_down (s : State) :
    s.DownTo s.pwrOkFall ∧ s.pwrOkFall.pins = { s.pins with pwrOk := false, input := false, tripL := false } ∧
      s.pwrOkFall.bit .govStatus 0 30 = false ∧ s.pwrOkFall.out = (if s.pins.tripL then [.pin 7 false] else []) ++ s.out := by
  have hclear : (s.setFld .govStatus 0 30 30 0).bit .govStatus 0 30 = false := by
    rw [State.bit_setFld _ _ _ _ (by decide) (by decide)]
    simp
  have hdown : s.DownTo (s.setFld .govStatus 0 30 30 0).allDown := (State.downTo_allDown _).of_setFld
  have hbit := State.bit_allDown_govStatus _ hclear
  obtain ⟨hpins, hout⟩ := (s.setFld .govStatus 0 30 30 0).allDown_frame
  obtain ⟨gdown, gpins, gregs, gout⟩ := State.inputLost_frame s.pins.tripL hdown
  rw [← s.pwrOkFall_eq] at gdown gpins gregs gout
  refine ⟨gdown, by simp [gpins, hpins], ?_, by simp [gout, hout]⟩
  rw [State.bit_congr (State.regAt_congr gregs _ _), hbit]

/-- What a trip of the input stage does once the domains are off: the stage is open, and a trip for power is kept (R414). -/
def State.stageOpen (t : State) (cause : InputTrip) : State :=
  let u := { t with pins := { t.pins with input := false } }
  if cause = .power then u.setFld .pwrInputStatus 0 0 0 1 else u

theorem exec_inputStageTrip (cause : InputTrip) (s : State) : exec (.inputStageTrip cause) s = .next (s.allDown.stageOpen cause) := rfl

theorem State.stageOpen_power (t : State) :
    t.stageOpen .power = State.setFld { t with pins := { t.pins with input := false } } .pwrInputStatus 0 0 0 1 := by
  rw [State.stageOpen, if_pos rfl]

theorem State.stageOpen_other (t : State) {cause : InputTrip} (h : cause ≠ .power) :
    t.stageOpen cause = { t with pins := { t.pins with input := false } } := if_neg h

/-- A trip of the input stage takes the part down; a trip for power is kept in PWR_INPUT_STATUS (R414, R416). -/
theorem execInputStageTrip_down (cause : InputTrip) (s : State) :
    ∃ u, exec (.inputStageTrip cause) s = .next u ∧ s.DownTo u ∧ u.pins = { s.pins with input := false } ∧ u.out = s.out ∧
      (cause = .power → u.bit .pwrInputStatus 0 0 = true) := by
  have hdown := s.downTo_allDown
  obtain ⟨hpins, hout⟩ := s.allDown_frame
  refine ⟨_, exec_inputStageTrip cause s, ?_⟩
  by_cases hc : cause = .power
  · rw [hc, State.stageOpen_power]
    refine ⟨(hdown.withPins _).setFld (by decide) 0 0 1, by simp [hpins], by simp [hout], fun _ => ?_⟩
    rw [State.bit_setFld _ _ _ _ (by decide) (by decide)]
    simp
  · rw [State.stageOpen_other _ hc]
    exact ⟨hdown.withPins _, by rw [hpins], hout, fun h => absurd h hc⟩

/-- RESET_L low takes the part down and resets every register but TRIPPED (R414, R416, R424). -/
theorem State.resetLow_down (s : State) :
    s.DownTo s.resetLow ∧ s.resetLow.regs = s.tripped ∧
      s.resetLow.bit .pwrInputStatus 0 0 = (s.bit .pwrInputStatus 0 0 && s.pins.aux) ∧
      s.resetLow.pins = { s.pins with resetL := false, input := false } ∧ s.resetLow.out = s.out ∧
      s.resetLow.jtag = { s.jtag with pinsX := holdsPins s.jtag.ir } := by
  obtain ⟨hon, -, hstn, hring, hdies, hmem, hfw, hfuses⟩ := s.downTo_allDown
  obtain ⟨-, hout⟩ := s.allDown_frame
  have hregs : s.resetLow.regs = s.tripped := rfl
  have hstate : s.resetLow.reg .pwrState 0 = 0 := State.regAt_of_tripped hregs .pwrState (by decide)
  have htrip := State.bit_of_tripped hregs
  unfold State.resetLow at hregs hstate htrip ⊢
  generalize s.allDown = t at *
  exact ⟨⟨hon, hstate, hstn, hring, hdies, hmem, hfw, hfuses⟩, hregs, htrip, rfl, hout, rfl⟩

/-- Words of different registers, their first halves, lie apart. -/
theorem Reg.at_zero_ne {r q : Reg} {i j : Nat} (h : r ≠ q) (hi : i < r.info.count) (hj : j < q.info.count) : r.at i ≠ q.at j :=
  Reg.at_ne (a := 0) (b := 0) h hi hj (by split <;> omega) (by split <;> omega)

/-- The profile whose settings the regions take for a profile strapped: Dawn's for Zenith's strap (R371). -/
def strapProf (prof : BitVec 2) : BitVec 2 := if prof = 3 then 0 else prof

/-- RESET_L high leaves reset with the straps latched (R12, R371, R392, R415). -/
theorem State.resetHigh_leaves (s : State) (prof : BitVec 2) (smb : BitVec 3) (h : s.pins.resetL = false) :
    let u := s.resetHigh prof smb
    u.pins = { s.pins with resetL := true, input := s.pins.good } ∧
      u.pwr.on = (if s.pins.good then 0x3000 else 0) ∧ u.pwr.prof = strapProf prof ∧ u.pwr.smb = smb ∧ u.active = prof.toNat ∧
      u.inForce = (strapProf prof).toNat ∧ u.pkgRing = false ∧ (∀ p < 4, u.fpState p = 0 ∧ u.expected p = 1) ∧
      (∀ (r : Reg) o, o ≠ Reg.at .pwrProfile 0 → o ≠ Reg.at .pwrInputStatus 0 → u.regAt r o = (BitVec.ofNat 32 r.info.reset).toNat) ∧
      u.bit .pwrInputStatus 0 0 = (s.bit .pwrInputStatus 0 0 && s.pins.aux) ∧
      u.stations = [] ∧ u.stackMem = s.stackMem ∧ u.fw = s.fw.kept ∧ u.pending = s.pending := by
  obtain ⟨t, hu, hregs, hpins, hpwr, hring, hstn, hmem, hfw, hpend⟩ : ∃ t : State,
      s.resetHigh prof smb = t.setFld .pwrProfile 0 1 0 prof.toNat ∧ t.regs = s.tripped ∧
      t.pins = { s.pins with resetL := true, input := s.pins.good } ∧
      t.pwr = { State.reset.pwr with prof := strapProf prof, smb := smb, on := if s.pins.good then 0x3000#14 else 0 } ∧
      t.pkgRing = false ∧ t.stations = [] ∧ t.stackMem = s.stackMem ∧ t.fw = s.fw.kept ∧ t.pending = s.pending := by
    have hlow : ¬ s.pins.resetL = true := by simp [h]
    rw [State.resetHigh, if_neg hlow]
    exact ⟨_, rfl, rfl, rfl, rfl, rfl, rfl, rfl, rfl, rfl⟩
  rw [hu]
  have hread : ∀ (r : Reg) o, o ≠ Reg.at .pwrProfile 0 → o ≠ Reg.at .pwrInputStatus 0 →
      (t.setFld .pwrProfile 0 1 0 prof.toNat).regAt r o = r.info.reset % 2 ^ 32 := fun r o h1 h2 => by
    rw [State.regAt_setFld_ne _ _ _ _ _ h1.symm, State.regAt_of_tripped hregs r h2]
  have hprocs : ∀ p < 4, (t.setFld .pwrProfile 0 1 0 prof.toNat).fpState p = 0 ∧
      (t.setFld .pwrProfile 0 1 0 prof.toNat).expected p = 1 := fun p hp => by
    have hfw0 := hread .fwStatus (Reg.at .fwStatus p) (Reg.at_zero_ne (by decide) hp (by decide)) (Reg.at_zero_ne (by decide) hp (by decide))
    have hseq := hread .mbxNextSeq (Reg.at .mbxNextSeq p) (Reg.at_zero_ne (by decide) hp (by decide))
      (Reg.at_zero_ne (by decide) hp (by decide))
    refine ⟨?_, hseq⟩
    rw [State.fpState, State.fld, State.reg, hfw0]
    rfl
  have hactive : (t.setFld .pwrProfile 0 1 0 prof.toNat).active = prof.toNat := by
    rw [State.active, State.fld_setFld_self _ _ _ _ (by decide) (by decide)]
    exact Nat.mod_eq_of_lt prof.isLt
  have htrip : (t.setFld .pwrProfile 0 1 0 prof.toNat).bit .pwrInputStatus 0 0 = (s.bit .pwrInputStatus 0 0 && s.pins.aux) := by
    rw [State.bit_congr (State.regAt_setFld_ne _ _ _ _ _ (by decide))]
    exact State.bit_of_tripped hregs
  refine ⟨hpins, ?_, ?_, ?_, hactive, ?_, hring, hprocs, fun r o h1 h2 => (hread r o h1 h2).trans (BitVec.toNat_ofNat _ _).symm, htrip,
    hstn, hmem, hfw, hpend⟩
  · simp [hpwr]
  · simp [hpwr]
  · simp [hpwr]
  · simp [State.inForce, hpwr]

/-- Settles O59, command by command: the wakes by the lowest source that stands asserted, the losses of power by what a power loss takes, and
the release of reset by what the registers read as. -/
theorem pinsWakesAndResetTakeEffect : Obligations.PinsWakesAndResetTakeEffect := by
  intro s
  refine ⟨⟨?_, ?_, ?_⟩, ⟨?_, ?_, ?_⟩, ⟨?_, ?_, ?_⟩, ⟨fun haux => congrArg Host.Outcome.next (if_pos haux), fun haux => ?_⟩,
    ⟨fun haux => congrArg Host.Outcome.next (if_pos haux), fun haux => congrArg Host.Outcome.next (if_neg (by simp [haux]))⟩,
    ?_, ?_, ?_, fun prof smb => ⟨fun hr => congrArg Host.Outcome.next (if_pos hr), fun hr => ?_⟩⟩
  · rintro ⟨h0, hw, hr, hp⟩ hen
    exact ⟨_, rfl, s.wakeFall_wakes h0 hw hr hp hen⟩
  · exact fun h0 => congrArg Host.Outcome.next (s.wakeFall_awake h0)
  · exact fun hen h => congrArg Host.Outcome.next (s.wakeFall_quiet (by simpa using hen) h)
  · rintro ⟨h0, hw, hr, hp⟩ hen hlow
    exact ⟨_, rfl, s.wakeBy_wakes (by decide) h0 hw hr hp hen (.inr (by decide)) hlow⟩
  · exact fun h0 => congrArg Host.Outcome.next (s.wakeBy_awake 3 h0)
  · exact fun h0 hen hno => congrArg Host.Outcome.next (s.wakeBy_latches (by decide) h0 (.inl (by simpa using hen)) hno)
  · rintro ⟨h0, hw, hr, hp⟩ h3 hen hlow
    exact ⟨_, rfl, s.wakeBy_wakes (by decide) h0 hw hr hp hen (.inl h3) hlow⟩
  · exact fun h0 => congrArg Host.Outcome.next (s.wakeBy_awake 4 h0)
  · intro h0 hnot hno
    have hmay : s.bit .pwrWakeEn 0 4 = false ∨ (s.idleState = 3 ∧ ¬ 4 < 4) :=
      hnot.elim (fun h3 => .inr ⟨h3, by decide⟩) (fun hen => .inl (by simpa using hen))
    exact congrArg Host.Outcome.next (s.wakeBy_latches (by decide) h0 hmay hno)
  · exact ⟨_, rfl, s.inputRise_off haux⟩
  · obtain ⟨hdown, hpins, hbit, hout⟩ := s.pwrOkFall_down
    exact ⟨_, rfl, hdown, hpins, hbit, hout⟩
  · exact fun cause => execInputStageTrip_down cause s
  · obtain ⟨hdown, hregs, htrip, hpins, hout, hjtag⟩ := s.resetLow_down
    exact ⟨_, rfl, hdown, hregs, htrip, hpins, hout, hjtag⟩
  · exact ⟨_, rfl, s.resetHigh_leaves prof smb hr⟩

end Sys2Proof.Machine
end

section
/-! SUPPORT. Messages at their target (R311, R317, R318, R322, R400, R401): what an access of module memory does, what answers it, and which
accesses wait. -/

namespace Sys2Proof.Machine

/-! ### Answers to agents that are no station and no landing cache -/

/-- A response for such an agent goes to it as an output. -/
theorem State.deliver_agent (s : State) {agent : BitVec 12} (h : 0x40C ≤ agent.toNat) (gen : BitVec 4) (tag : BitVec 6) (st : Nat) (wr : Bool)
    (addr : BitVec 64) (data : List Byte) (fails : Nat) :
    s.deliver agent.toNat gen tag.toNat st wr addr data fails = s.emit (.rsp (BitVec.ofNat 16 s.srcId) agent gen tag wr st data) := by
  have hcache : ¬ (0x408 ≤ agent.toNat ∧ agent.toNat < 0x40C) := by omega
  have hstn : ¬ agent.toNat < 1024 := by omega
  have hsundial : ¬ (agent.toNat = 0x401 ∧ wr = true ∧ st ≠ stOk) := by omega
  rw [State.deliver, if_neg hcache, State.answer, if_neg hstn, State.tellAgent]
  simp only [if_neg hsundial, BitVec.ofNat_toNat, BitVec.setWidth_eq]

theorem State.respond_local (s : State) {m : ReqMsg} (hv : m.via = none) (h : 0x40C ≤ m.agent.toNat) (wr : Bool) (st : Nat) (data : List Byte) :
    s.respond m wr st data = s.emit (.rsp (BitVec.ofNat 16 s.srcId) m.agent m.gen m.tag wr st data) := by
  rw [State.respond, hv]
  exact s.deliver_agent h m.gen m.tag st wr m.addr data 0

theorem State.respond_remote (s : State) {m : ReqMsg} {p : PyPort} (hv : m.via = some p) (wr : Bool) (st : Nat) (data : List Byte) :
    s.respond m wr st data = s.enqueue m.agent.toNat m.src.toNat ⟨if wr then 4 else 3, st, s.srcId, m.src.toNat, m.agent.toNat,
      m.gen.toNat, m.tag.toNat, data.length, m.addr.toNat, 0, 0, 0, 0⟩ data := by
  rw [State.respond, hv]

theorem State.mcAnswer_local (s : State) {m : ReqMsg} (hv : m.via = none) (st : Nat) : s.mcAnswer m st = s.emit (.mcAck m.src m.mseq st) := by
  rw [State.mcAnswer, hv]

theorem State.mcAnswer_remote (s : State) {m : ReqMsg} {p : PyPort} (hv : m.via = some p) (st : Nat) :
    s.mcAnswer m st = s.enqueue m.agent.toNat m.src.toNat ⟨6, st, s.srcId, m.src.toNat, m.agent.toNat, m.gen.toNat, m.tag.toNat, 0,
      m.addr.toNat, 0, 0, 0, m.mseq.toNat⟩ [] := by
  rw [State.mcAnswer, hv]

/-! ### Transfers of a stack that do not fail -/

theorem State.xferOk_zero (s : State) (n : Nat) : s.xferOk n 0 = true := by simp [State.xferOk]

theorem State.readOk_clean (s : State) (n : Nat) : s.readOk n 0 .clean = true := by simp [State.readOk, s.xferOk_zero]

theorem State.xfer_clean (s : State) (n a kind : Nat) :
    s.xfer n a kind 0 .clean = s.countFld .msErrCount n 15 8 (s.retries n 0) := by
  simp [State.xfer, s.xferOk_zero]

/-- The registers by which Prism finds a byte of a stack. -/
def Reg.mapsStack : Reg → Prop
  | .prismRgnBase | .prismRgnShape | .prismRgnScale | .prismRgnTwin | .prismRetire | .msCtrl => True
  | _ => False

/-- A byte of a stack is kept where the registers of the mapping say (R265, R268, R271, R280). -/
theorem State.stackKey_congr {s t : State} {n : Nat} (hn : n < 32)
    (hr : ∀ r : Reg, r.mapsStack → ∀ i < r.info.count, t.reg r i = s.reg r i) (a : Nat) : t.stackKey n a = s.stackKey n a := by
  have hrgn : t.rgns n = s.rgns n := List.filterMap_congr fun i hi => by
    have hk : 16 * n + i < 512 := by have := List.mem_range.1 hi; omega
    have hbase := hr .prismRgnBase trivial _ hk
    have hshape := hr .prismRgnShape trivial _ hk
    have hscale := hr .prismRgnScale trivial _ hk
    have htwin := hr .prismRgnTwin trivial _ hk
    have hbit : t.bit .prismRgnBase (16 * n + i) 31 = s.bit .prismRgnBase (16 * n + i) 31 := congrArg (bitOf · 31) hbase
    unfold State.rgn
    dsimp only
    rw [hbit, hbase, hshape, hscale, htwin]
  have hspare : ∀ p, t.spareOf n p = s.spareOf n p := fun p => by
    have hctrl : t.bit .msCtrl n 1 = s.bit .msCtrl n 1 := by simp only [State.bit, hr .msCtrl trivial n hn]
    have hpages : ∀ i ∈ List.range 32,
        (t.bit .prismRetire (32 * n + i) 31 && decide (t.fld .prismRetire (32 * n + i) 12 0 = p)) =
          (s.bit .prismRetire (32 * n + i) 31 && decide (s.fld .prismRetire (32 * n + i) 12 0 = p)) := fun i hi => by
      have hk : 32 * n + i < 1024 := by have := List.mem_range.1 hi; omega
      rw [State.bit, State.bit, State.fld, State.fld, hr .prismRetire trivial _ hk]
    rw [State.spareOf, State.spareOf, hctrl, List.find?_congr hpages]
  simp only [State.stackKey, State.homeKey, State.homeAddr, hrgn, hspare]

/-- A clean transfer leaves the mapping and the contents of the stacks. -/
theorem State.stackRdN_xfer_clean (s : State) {n : Nat} (hn : n < 32) (a kind b len : Nat) :
    (s.xfer n a kind 0 .clean).stackRdN n b len = s.stackRdN n b len := by
  have hreg : ∀ r : Reg, r.mapsStack → ∀ i < r.info.count, (s.xfer n a kind 0 .clean).reg r i = s.reg r i := fun r hm i hi => by
    have hne : Reg.msErrCount ≠ r := by rintro rfl; exact hm
    rw [s.xfer_clean]
    exact s.regAt_setFld_ne _ _ _ _ (Reg.at_zero_ne hne hn hi)
  have hkey : ∀ c, (s.xfer n a kind 0 .clean).stackKey n c = s.stackKey n c := State.stackKey_congr hn hreg
  have hmem : (s.xfer n a kind 0 .clean).stackMem = s.stackMem := by simp [s.xfer_clean]
  simp only [State.stackRdN, State.stackRd, hkey, hmem]

/-! ### Accesses of module memory (R311) -/

/-- An access of region 0x0 that is not refused lies in one of the 32 stacks. -/
theorem State.stack_lt_of_not_refused {s : State} {agent off len : Nat} (h : s.refusedAt agent 0 off len = 0) : off / stackSize < 32 := by
  by_cases hr : rangeOk 0 off len = true
  · have hoff : off < 2 ^ 34 := by simp [rangeOk, unitOk] at hr; omega
    unfold stackSize
    omega
  · simp [State.refusedAt, hr, stAddr] at h

section
variable (s : State) (who : Requester) (agent : Nat) (addr : BitVec 64) (len : Nat) (bs : List Byte) (e : Ecc) (fails : Nat)

theorem State.memRead_refused (h : s.refusedAt agent (regionOfAddr addr) (offsetOf addr) len ≠ 0) :
    s.memRead who agent addr len e fails = (s, s.refusedAt agent (regionOfAddr addr) (offsetOf addr) len, []) :=
  if_pos h

theorem State.memRead_store (h : s.refusedAt agent (regionOfAddr addr) (offsetOf addr) len = 0) (hr : regionOfAddr addr = 1) :
    s.memRead who agent addr len .clean fails =
      (s, 0, (s.portView (offsetOf addr / 2 ^ 21)).store.rdN (offsetOf addr % 2 ^ 21) len) := by
  rw [State.memRead]
  dsimp only
  rw [if_neg (show ¬ _ ≠ stOk from not_not.2 h), hr]
  rfl

theorem State.memRead_stack (h : s.refusedAt agent (regionOfAddr addr) (offsetOf addr) len = 0) (hr : regionOfAddr addr = 0) :
    s.memRead who agent addr len .clean 0 =
      (s.xfer (offsetOf addr / stackSize) (offsetOf addr % stackSize) 2 0 .clean, 0,
        s.stackRdN (offsetOf addr / stackSize) (offsetOf addr % stackSize) len) := by
  have hn : offsetOf addr / stackSize < 32 := State.stack_lt_of_not_refused (hr ▸ h)
  rw [State.memRead]
  dsimp only
  rw [if_neg (show ¬ _ ≠ stOk from not_not.2 h), hr]
  rw [if_pos (s.readOk_clean _), s.stackRdN_xfer_clean hn]
  rfl

theorem State.memWrite_refused (h : s.refusedAt agent (regionOfAddr addr) (offsetOf addr) bs.length ≠ 0) :
    s.memWrite who agent addr bs e fails = (s, s.refusedAt agent (regionOfAddr addr) (offsetOf addr) bs.length) :=
  if_pos h

theorem State.memWrite_store (h : s.refusedAt agent (regionOfAddr addr) (offsetOf addr) bs.length = 0) (hr : regionOfAddr addr = 1) :
    s.memWrite who agent addr bs .clean fails =
      (s.arrive (offsetOf addr / 2 ^ 21) .landing (.store (offsetOf addr % 2 ^ 21) bs), 0) := by
  rw [State.memWrite]
  dsimp only
  rw [if_neg (show ¬ _ ≠ stOk from not_not.2 h), hr]
  rfl

theorem State.memWrite_stack (h : s.refusedAt agent (regionOfAddr addr) (offsetOf addr) bs.length = 0) (hr : regionOfAddr addr = 0) :
    s.memWrite who agent addr bs e 0 =
      ((s.xfer (offsetOf addr / stackSize) (offsetOf addr % stackSize) 3 0 .clean).stackWrN (offsetOf addr / stackSize)
        (offsetOf addr % stackSize) bs, 0) := by
  rw [State.memWrite]
  dsimp only
  rw [if_neg (show ¬ _ ≠ stOk from not_not.2 h), hr]
  rw [if_pos (s.xferOk_zero _)]
  rfl

end

/-! ### Accesses that wait (R87, R317, R400) -/

/-- A held write is counted in SNAP_STATUS, and waits behind those held before it. -/
theorem State.holdWrite_write (s : State) (m : ReqMsg) :
    (s.holdWrite .write 0 m).stackMem = s.stackMem ∧ (s.holdWrite .write 0 m).out = s.out ∧
      (s.holdWrite .write 0 m).fw.heldWr = s.fw.heldWr ++ [⟨.write, 0, m⟩] ∧
      (s.holdWrite .write 0 m).fld .snapStatus 0 15 0 = satTo 16 (s.fld .snapStatus 0 15 0 + 1) := by
  refine ⟨rfl, rfl, rfl, ?_⟩
  have hsat : satTo 16 (s.fld .snapStatus 0 15 0 + 1) < 2 ^ 16 := by unfold satTo; split <;> omega
  exact (s.fld_setFld_self _ _ _ (by decide) (by decide)).trans (Nat.mod_eq_of_lt hsat)

/-- A held READ waits likewise, and is not counted. -/
theorem State.holdWrite_read (s : State) (posts : Nat) (m : ReqMsg) :
    s.holdWrite .read posts m = s.fwUpd (fun f => { f with heldWr := f.heldWr ++ [⟨.read, posts, m⟩] }) := rfl

/-! ### Requests for a shutter (R220, R221) -/

/-- From `s` to `u`, nothing differs but registers and dies. -/
def State.ShutOnly (s u : State) : Prop := u = { s with regs := u.regs, dies := u.dies }

theorem State.ShutOnly.trans {s t u : State} (h : s.ShutOnly t) (g : t.ShutOnly u) : s.ShutOnly u :=
  Eq.trans g (by rw [h])

theorem State.ShutOnly.foldl {α : Type} {f : State → α → State} (h : ∀ (s : State) a, s.ShutOnly (f s a)) (l : List α) (s : State) :
    s.ShutOnly (l.foldl f s) := by
  induction l generalizing s with
  | nil => rfl
  | cons a l ih => exact (h s a).trans (ih (f s a))

theorem State.joinFreeze_shutOnly (s : State) (d c bit : Nat) : s.ShutOnly (s.joinFreeze d c bit) := by
  unfold State.joinFreeze
  dsimp only
  split <;> rfl

theorem State.shutReq_shutOnly (s : State) (d bit src : Nat) : s.ShutOnly (s.shutReq d bit src) := by
  unfold State.shutReq
  split
  · rfl
  · exact State.ShutOnly.trans (t := s.modDie d _) rfl (.foldl (fun t x => t.joinFreeze_shutOnly x _ bit) _ _)

theorem State.ShutOnly.frame {s u : State} (h : s.ShutOnly u) :
    u.out = s.out ∧ u.fw = s.fw ∧ u.stations = s.stations ∧ u.stackMem = s.stackMem ∧ u.fuses = s.fuses ∧ u.eth = s.eth ∧ u.pwr = s.pwr := by
  rw [h]
  exact ⟨rfl, rfl, rfl, rfl, rfl, rfl, rfl⟩

/-- A READ held for Lens posts sends nothing, and leaves the stacks as they are. -/
theorem State.holdWrite_lensAsk (s : State) (posts d : Nat) (m : ReqMsg) :
    let u := (s.holdWrite .read posts m).lensAsk d
    u.out = s.out ∧ u.fw.heldWr = s.fw.heldWr ++ [⟨.read, posts, m⟩] ∧ u.stackMem = s.stackMem := by
  intro u
  obtain ⟨hout, hfw, -, hmem, -, -, -⟩ := (State.shutReq_shutOnly (s.holdWrite .read posts m) d 5 0).frame
  exact ⟨hout, congrArg FwSt.heldWr hfw, hmem⟩

/-! ### READ, WRITE and MC_WRITE -/

section
variable (s : State) (m : ReqMsg)

theorem State.readMsg_bad (h : ReqMsgBad m = true) : s.readMsg m = s.respond m false 1 [] := if_pos h

theorem State.readMsg_posts (h : ReqMsgBad m = false) {n : Nat} (hn : s.readPosts m = n + 1) :
    s.readMsg m = (s.holdWrite .read (n + 1) m).lensAsk (offsetOf m.addr / 2 ^ 32) := by
  rw [State.readMsg, h, if_neg Bool.false_ne_true, hn, if_pos (Nat.succ_ne_zero n)]

theorem State.readMsg_behind (h : ReqMsgBad m = false) (hn : s.readPosts m = 0) (hb : s.behind m = true) :
    s.readMsg m = s.holdWrite .read 0 m := by
  rw [State.readMsg, h, if_neg Bool.false_ne_true, if_neg (not_not.2 hn), if_pos hb]

theorem State.readMsg_free (h : ReqMsgBad m = false) (hn : s.readPosts m = 0) (hb : s.behind m = false) :
    s.readMsg m = s.applyRead m := by
  rw [State.readMsg, h, if_neg Bool.false_ne_true, if_neg (not_not.2 hn), hb, if_neg Bool.false_ne_true]

theorem State.writeMsg_bad (h : ReqMsgBad m = true) : s.writeMsg m = s.respond m true 1 [] := if_pos h

/-- A write to a multicast group of this module is taken by the group. -/
theorem State.writeMsg_group (h : ReqMsgBad m = false) (hg : m.via = none ∧ 0xFF00 ≤ modOf m.addr ∧ modOf m.addr < 0xFFFF) :
    s.writeMsg m = s.mcastTake (modOf m.addr - 0xFF00) m := by
  obtain ⟨hv, hlo, hhi⟩ := hg
  simp [State.writeMsg, h, hv, hlo, hhi]

section
variable (h : ReqMsgBad m = false) (hg : ¬ (m.via = none ∧ 0xFF00 ≤ modOf m.addr ∧ modOf m.addr < 0xFFFF))
include h hg

/-- A write that is for no group is refused for a restore (R410), held, or applied. -/
theorem State.writeMsg_ungrouped :
    s.writeMsg m = if s.restoreRefused m then s.respond m true 9 [] else if s.holds m then s.holdWrite .write 0 m else s.applyWrite m := by
  have hgroup : (m.via.isNone && decide (0xFF00 ≤ modOf m.addr) && decide (modOf m.addr < 0xFFFF)) = false := by
    simpa [and_assoc] using hg
  rw [State.writeMsg, h, hgroup, if_neg Bool.false_ne_true, if_neg Bool.false_ne_true]

theorem State.writeMsg_held (hr : s.restoreRefused m = false) (hh : s.holds m = true) : s.writeMsg m = s.holdWrite .write 0 m := by
  rw [s.writeMsg_ungrouped m h hg, hr, if_neg Bool.false_ne_true, if_pos hh]

theorem State.writeMsg_free (hr : s.restoreRefused m = false) (hh : s.holds m = false) : s.writeMsg m = s.applyWrite m := by
  rw [s.writeMsg_ungrouped m h hg, hr, hh, if_neg Bool.false_ne_true, if_neg Bool.false_ne_true]

end

/-- Only Mirror's writes are refused for a restore. -/
theorem State.restoreRefused_agent (h : 0x40C ≤ m.agent.toNat) : s.restoreRefused m = false := by
  have hne : m.agent ≠ 0x403#12 := by rintro hm; rw [hm] at h; exact absurd h (by decide)
  simp [State.restoreRefused, hne]

/-- A write of another module's Mirror outside the inbound areas, while a station runs, is answered with status 9 (R410). -/
theorem State.writeMsg_restoreRefused (h : ReqMsgBad m = false) (hr : s.restoreRefused m = true) :
    s.writeMsg m = s.enqueue m.agent.toNat m.src.toNat
      ⟨4, 9, s.srcId, m.src.toNat, m.agent.toNat, m.gen.toNat, m.tag.toNat, 0, m.addr.toNat, 0, 0, 0, 0⟩ [] := by
  have hvia : m.via.isSome = true := by
    simp only [State.restoreRefused, Bool.and_eq_true] at hr
    tauto
  obtain ⟨p, hp⟩ := Option.isSome_iff_exists.1 hvia
  rw [s.writeMsg_ungrouped m h (by simp [hp]), if_pos hr, s.respond_remote hp]
  rfl

theorem State.mcWriteMsg_bad (h : ReqMsgBad m = true) : s.mcWriteMsg m = s.mcAnswer m 1 := if_pos h

theorem State.mcWriteMsg_full (h : ReqMsgBad m = false) (hs : 64 ≤ s.mcSlots) : s.mcWriteMsg m = s.mcAnswer m 8 := by
  rw [State.mcWriteMsg, h, if_neg Bool.false_ne_true, if_pos hs]

theorem State.mcWriteMsg_free (h : ReqMsgBad m = false) (hs : s.mcSlots < 64) (hh : s.holds m = false) :
    s.mcWriteMsg m = s.mcApply m := by
  rw [State.mcWriteMsg, h, if_neg Bool.false_ne_true, if_neg (by omega), hh, if_neg Bool.false_ne_true]

/-- A group with members takes a write as its next message (R321). -/
theorem State.mcastTake_joins {g : Nat} (h : s.members g ≠ []) :
    s.mcastTake g m = s.setGroup' g { s.group g with
      next := (s.group g).next + 1
      msgs := (s.group g).msgs ++ [⟨(s.group g).next, m.agent.toNat, m.gen, m.tag.toNat, m.addr, m.data, false, 0, 0, 0, 0⟩] } :=
  if_neg (by simpa using h)

/-! What an access that is carried out does, by what it meets (R311). -/

theorem State.applyRead_refused (h : s.refusedAt m.agent.toNat (regionOfAddr m.addr) (offsetOf m.addr) m.len ≠ 0) :
    s.applyRead m = s.respond m false (s.refusedAt m.agent.toNat (regionOfAddr m.addr) (offsetOf m.addr) m.len) [] := by
  rw [State.applyRead, s.memRead_refused _ _ _ _ _ _ h]

theorem State.applyWrite_refused (h : s.refusedAt m.agent.toNat (regionOfAddr m.addr) (offsetOf m.addr) m.data.length ≠ 0) :
    s.applyWrite m = s.respond m true (s.refusedAt m.agent.toNat (regionOfAddr m.addr) (offsetOf m.addr) m.data.length) [] := by
  rw [State.applyWrite, s.memWrite_refused _ _ _ _ _ _ h]

theorem State.mcApply_refused (h : s.refusedAt m.agent.toNat (regionOfAddr m.addr) (offsetOf m.addr) m.data.length ≠ 0) :
    s.mcApply m = s.mcAnswer m (s.refusedAt m.agent.toNat (regionOfAddr m.addr) (offsetOf m.addr) m.data.length) := by
  rw [State.mcApply, s.memWrite_refused _ _ _ _ _ _ h]

section
variable (hr : regionOfAddr m.addr = 1) (he : m.ecc = .clean)
include hr he

theorem State.applyRead_store (h : s.refusedAt m.agent.toNat (regionOfAddr m.addr) (offsetOf m.addr) m.len = 0) :
    s.applyRead m = s.respond m false 0 ((s.portView (offsetOf m.addr / 2 ^ 21)).store.rdN (offsetOf m.addr % 2 ^ 21) m.len) := by
  rw [State.applyRead, he, s.memRead_store _ _ _ _ _ h hr]

variable (h : s.refusedAt m.agent.toNat (regionOfAddr m.addr) (offsetOf m.addr) m.data.length = 0)
include h

theorem State.applyWrite_store :
    s.applyWrite m = (s.arrive (offsetOf m.addr / 2 ^ 21) .landing (.store (offsetOf m.addr % 2 ^ 21) m.data)).respond m true 0 [] := by
  rw [State.applyWrite, he, s.memWrite_store _ _ _ _ _ h hr]

theorem State.mcApply_store :
    s.mcApply m = (s.arrive (offsetOf m.addr / 2 ^ 21) .landing (.store (offsetOf m.addr % 2 ^ 21) m.data)).mcAnswer m 0 := by
  rw [State.mcApply, he, s.memWrite_store _ _ _ _ _ h hr]

end

section
variable (hr : regionOfAddr m.addr = 0) (hf : m.fails = 0)
include hr hf

theorem State.applyRead_stack (he : m.ecc = .clean)
    (h : s.refusedAt m.agent.toNat (regionOfAddr m.addr) (offsetOf m.addr) m.len = 0) :
    s.applyRead m = (s.xfer (offsetOf m.addr / stackSize) (offsetOf m.addr % stackSize) 2 0 .clean).respond m false 0
      (s.stackRdN (offsetOf m.addr / stackSize) (offsetOf m.addr % stackSize) m.len) := by
  rw [State.applyRead, he, hf, s.memRead_stack _ _ _ _ h hr]

variable (h : s.refusedAt m.agent.toNat (regionOfAddr m.addr) (offsetOf m.addr) m.data.length = 0)
include h

theorem State.applyWrite_stack :
    s.applyWrite m = ((s.xfer (offsetOf m.addr / stackSize) (offsetOf m.addr % stackSize) 3 0 .clean).stackWrN
      (offsetOf m.addr / stackSize) (offsetOf m.addr % stackSize) m.data).respond m true 0 [] := by
  rw [State.applyWrite, hf, s.memWrite_stack _ _ _ _ _ h hr]

theorem State.mcApply_stack :
    s.mcApply m = ((s.xfer (offsetOf m.addr / stackSize) (offsetOf m.addr % stackSize) 3 0 .clean).stackWrN
      (offsetOf m.addr / stackSize) (offsetOf m.addr % stackSize) m.data).mcAnswer m 0 := by
  rw [State.mcApply, hf, s.memWrite_stack _ _ _ _ _ h hr]

end

end

/-- A control message reaches its processor, and Sundial, while it runs, does what it says. -/
theorem execCtrl_reaches (src : BitVec 16) (fp : Proc) (data : List Byte) (s : State) :
    execCtrl src fp data s = .next
      (match (if fp = 1 ∧ s.sundialUp = true then Config.ctrlRead data else none) with
       | some q => (s.emit (.forFw fp src data)).groupMsg q.1 q.2
       | none => s.emit (.forFw fp src data)) := by
  have hup : (s.emit (.forFw fp src data)).sundialUp = s.sundialUp := rfl
  unfold execCtrl
  dsimp only
  rw [hup]
  by_cases h : fp = 1 ∧ s.sundialUp = true
  · rw [if_pos h, if_pos h]
    cases Config.ctrlRead data <;> rfl
  · rw [if_neg h, if_neg h]

/-- Settles O48: each message by the one thing it meets first (no module ID, a refusal, a wait, a group), then by its region; the answers of
this module and those sent to another one are `respond` and `mcAnswer`. -/
theorem messagesReachTheirTargets : Obligations.MessagesReachTheirTargets := by
  refine ⟨fun s m hb hr => congrArg Host.Outcome.next (s.writeMsg_restoreRefused m hb hr), fun s m hagent => ?_⟩
  intro rgn off i reply acks grouped rd wr put stored
  have hreply : ∀ (t : State) w st data, t.respond m w st data = reply t w st data := fun t w st data => by
    cases hv : m.via with
    | none => simpa only [reply, hv] using t.respond_local hv hagent w st data
    | some p => simpa only [reply, hv] using t.respond_remote hv w st data
  have hacks : ∀ (t : State) st, t.mcAnswer m st = acks t st := fun t st => by
    cases hv : m.via with
    | none => simpa only [acks, hv] using t.mcAnswer_local hv st
    | some p => simpa only [acks, hv] using t.mcAnswer_remote hv st
  have hrestore := s.restoreRefused_agent m hagent
  refine ⟨fun hb => ⟨?_, ?_, ?_⟩, fun hb => ⟨fun hbeh hp => ⟨fun h => ?_, fun h hr he => ?_, fun h hr he hf => ?_⟩, fun hbeh hp => ?_, fun n hp => ?_,
    fun hg hh => ⟨fun h => ?_, fun h hr he => ?_, fun h hr hf => ?_⟩, fun hg hh => ?_, fun hg hmem => ?_, fun hs => ?_,
    fun hs hh => ⟨fun h => ?_, fun h hr he => ?_, fun h hr hf => ?_⟩⟩, fun q hq => ⟨?_, ?_⟩, fun src fp data => execCtrl_reaches src fp data s⟩
  -- over a port without a module ID (R35)
  · exact congrArg Host.Outcome.next ((s.readMsg_bad m hb).trans (hreply ..))
  · exact congrArg Host.Outcome.next ((s.writeMsg_bad m hb).trans (hreply ..))
  · exact congrArg Host.Outcome.next ((s.mcWriteMsg_bad m hb).trans (hacks ..))
  -- READ
  · exact congrArg Host.Outcome.next (((s.readMsg_free m hb hp hbeh).trans (s.applyRead_refused m h)).trans (hreply ..))
  · exact congrArg Host.Outcome.next (((s.readMsg_free m hb hp hbeh).trans (s.applyRead_store m hr he h)).trans (hreply ..))
  · exact congrArg Host.Outcome.next (((s.readMsg_free m hb hp hbeh).trans (s.applyRead_stack m hr hf he h)).trans (hreply ..))
  · exact ⟨_, congrArg Host.Outcome.next (s.readMsg_behind m hb hp hbeh), rfl, rfl⟩
  · exact ⟨_, congrArg Host.Outcome.next (s.readMsg_posts m hb hp), s.holdWrite_lensAsk (n + 1) _ m⟩
  -- WRITE
  · exact congrArg Host.Outcome.next (((s.writeMsg_free m hb hg hrestore hh).trans (s.applyWrite_refused m h)).trans (hreply ..))
  · exact congrArg Host.Outcome.next (((s.writeMsg_free m hb hg hrestore hh).trans (s.applyWrite_store m hr he h)).trans (hreply ..))
  · exact congrArg Host.Outcome.next (((s.writeMsg_free m hb hg hrestore hh).trans (s.applyWrite_stack m hr hf h)).trans (hreply ..))
  · exact ⟨_, congrArg Host.Outcome.next (s.writeMsg_held m hb hg hrestore hh), s.holdWrite_write m⟩
  · exact congrArg Host.Outcome.next ((s.writeMsg_group m hb hg).trans (s.mcastTake_joins m hmem))
  -- MC_WRITE
  · exact congrArg Host.Outcome.next ((s.mcWriteMsg_full m hb hs).trans (hacks ..))
  · exact congrArg Host.Outcome.next (((s.mcWriteMsg_free m hb hs hh).trans (s.mcApply_refused m h)).trans (hacks ..))
  · exact congrArg Host.Outcome.next (((s.mcWriteMsg_free m hb hs hh).trans (s.mcApply_store m hr he h)).trans (hacks ..))
  · exact congrArg Host.Outcome.next (((s.mcWriteMsg_free m hb hs hh).trans (s.mcApply_stack m hr hf h)).trans (hacks ..))
  -- responses
  · exact congrArg Host.Outcome.next (s.deliver_agent hq q.gen q.tag q.status.toNat false q.addr q.data q.fails)
  · exact congrArg Host.Outcome.next (s.deliver_agent hq q.gen q.tag q.status.toNat true q.addr [] q.fails)

end Sys2Proof.Machine
end

section
/-! SUPPORT. Registers that one change leaves alone, register by register (R9, R432). -/

namespace Sys2Proof.Machine

/-- From `s` to `u`, no register reads otherwise but those of `rs`. -/
def State.RegsKept (s u : State) (rs : List Reg) : Prop := ∀ r : Reg, r ∉ rs → ∀ i < r.info.count, u.reg r i = s.reg r i

namespace State.RegsKept

variable {s t u : State} {rs : List Reg}

theorem of_regs (h : u.regs = s.regs) : s.RegsKept u rs := fun r _ i _ => State.reg_congr h r i

theorem trans (h : s.RegsKept t rs) (g : t.RegsKept u rs) : s.RegsKept u rs := fun r hr i hi => (g r hr i hi).trans (h r hr i hi)

theorem mono {qs : List Reg} (h : s.RegsKept u qs) (hsub : qs ⊆ rs) : s.RegsKept u rs := fun r hr => h r fun hq => hr (hsub hq)

theorem foldl {α : Type} {f : State → α → State} (l : List α) (h : ∀ (s : State), ∀ a ∈ l, s.RegsKept (f s a) rs) (s : State) :
    s.RegsKept (l.foldl f s) rs := by
  induction l generalizing s with
  | nil => exact of_regs rfl
  | cons a l ih =>
    exact (h s a List.mem_cons_self).trans (ih (fun t b hb => h t b (List.mem_cons_of_mem _ hb)) (f s a))

theorem bit (h : s.RegsKept u rs) {r : Reg} (hr : r ∉ rs) {i : Nat} (hi : i < r.info.count) (b : Nat) : u.bit r i b = s.bit r i b :=
  congrArg (bitOf · b) (h r hr i hi)

theorem fld (h : s.RegsKept u rs) {r : Reg} (hr : r ∉ rs) {i : Nat} (hi : i < r.info.count) (hi' lo : Nat) : u.fld r i hi' lo = s.fld r i hi' lo :=
  congrArg (bitsOf · hi' lo) (h r hr i hi)

end State.RegsKept

section
variable (s : State) {r : Reg} {i : Nat} {rs : List Reg} (hr : r ∈ rs) (hi : i < r.info.count)
include hr hi

theorem State.setRegAt_regsKept {a : Nat} (ha : a < if r.info.pair then 8 else 4) (v : Nat) : s.RegsKept (s.setRegAt r (r.at i + a) v) rs :=
  fun q hq j hj => s.regAt_setRegAt_ne r q v
    (Reg.at_ne (b := 0) (fun h => hq (h ▸ hr)) hi hj ha (by split <;> decide))

theorem State.setReg_regsKept (v : Nat) : s.RegsKept (s.setReg r i v) rs :=
  s.setRegAt_regsKept hr hi (a := 0) (by split <;> decide) v

theorem State.setFld_regsKept (hi' lo v : Nat) : s.RegsKept (s.setFld r i hi' lo v) rs := s.setReg_regsKept hr hi _

theorem State.countFld_regsKept (hi' lo n : Nat) : s.RegsKept (s.countFld r i hi' lo n) rs := s.setFld_regsKept hr hi _ _ _

theorem State.addPair_regsKept (hp : r.info.pair = true) (n : Nat) : s.RegsKept (s.addPair r i n) rs :=
  (s.setReg_regsKept hr hi _).trans (State.setRegAt_regsKept _ hr hi (a := 4) (by simp [hp]) _)

end

/-! ### The register at an offset (R432, R433) -/

theorem Reg.mem_all (r : Reg) : r ∈ Reg.all := by cases r <;> decide

/-- An offset at which a register is found is that of a word of it. -/
theorem Reg.findIn_at {rs : List Reg} {o i : Nat} {r : Reg} {hi : Bool} (h : Reg.findIn rs o = some (r, i, hi)) :
    ∃ a < if r.info.pair then 8 else 4, o = r.at i + a := by
  induction rs with
  | nil => simp [Reg.findIn] at h
  | cons q qs ih =>
    unfold Reg.findIn at h
    split at h
    · split at h
      all_goals
        obtain ⟨rfl, rfl, -⟩ : _ ∧ _ ∧ _ := by simpa using h
      · exact ⟨(o - q.info.off) % 8, by simp [*]; omega, by simp [Reg.at, *]; omega⟩
      · exact ⟨(o - q.info.off) % 4, by simp [*]; omega, by simp [Reg.at, *]; omega⟩
    · exact ih h

theorem Reg.find_at_offset {o i : Nat} {r : Reg} {hi : Bool} (h : Reg.find o = some (r, i, hi)) :
    i < r.info.count ∧ ∃ a < if r.info.pair then 8 else 4, o = r.at i + a := by
  refine ⟨(Reg.find_some h).1, ?_⟩
  unfold Reg.find at h
  split at h
  · exact Reg.findIn_at h
  · cases h

/-- A register is found at its offset. -/
theorem Reg.findIn_at_self {rs : List Reg} {r : Reg} (hr : r ∈ rs) {i : Nat} (hi : i < r.info.count) :
    Reg.findIn rs (r.at i) = some (r, i, false) := by
  have hown : r.info.off ≤ r.at i ∧ r.at i < r.info.off + r.info.size := Reg.off_lt (k := 0) hi (by split <;> decide)
  induction rs with
  | nil => cases hr
  | cons q qs ih =>
    by_cases hq : q = r
    · subst hq
      unfold Reg.findIn
      rw [if_pos hown]
      unfold Reg.at
      split <;> simp
    · have hout : ¬ (q.info.off ≤ r.at i ∧ r.at i < q.info.off + q.info.size) := by
        rcases Reg.apart hq with h | h <;> unfold Reg.before at h <;> omega
      unfold Reg.findIn
      rw [if_neg hout]
      exact ih ((List.mem_cons.1 hr).resolve_left (Ne.symm hq))

theorem Reg.find_at_self (r : Reg) {i : Nat} (hi : i < r.info.count) : Reg.find (r.at i) = some (r, i, false) := by
  have hoff : r.info.off % 4 = 0 := by cases r <;> rfl
  have hword : r.at i % 4 = 0 := by unfold Reg.at; split <;> omega
  rw [Reg.find, if_pos hword, Reg.findIn_at_self r.mem_all hi]

end Sys2Proof.Machine
end

section
/-! SUPPORT. What goes to the host: events, completions and reports (R336, R348, R356, R393, R394). -/

namespace Sys2Proof.Machine

/-! ### What messages to the host change -/

/-- From `s` to `u`, nothing differs but what the firmware processors keep, the Ethernet ports, the outputs, and of the registers those of `rs`,
the frames that a port has sent, and the count of dropped events below the flags of MBX_STATUS. -/
structure State.Tells (s u : State) (rs : List Reg) : Prop where
  rest : u = { s with fw := u.fw, eth := u.eth, out := u.out, regs := u.regs }
  regs : s.RegsKept u (.mbxStatus :: .ethTxFrames :: rs)
  flags : ∀ b, 28 ≤ b → b < 32 → u.bit .mbxStatus 0 b = s.bit .mbxStatus 0 b

namespace State.Tells

variable {s t u : State} {rs : List Reg}

/-- A change of nothing but what the processors keep, the ports and the outputs. -/
theorem of_regs (h : u = { s with fw := u.fw, eth := u.eth, out := u.out }) : s.Tells u rs := by
  have hregs : u.regs = s.regs := by rw [h]
  exact ⟨by rw [h], .of_regs hregs, fun b _ _ => State.bit_congr (State.regAt_congr hregs _ _) b⟩

theorem of_setReg {r : Reg} (hr : r ∈ rs) {i : Nat} (hi : i < r.info.count) (hm : r ≠ .mbxStatus) (v : Nat) : s.Tells (s.setReg r i v) rs := by
  refine ⟨rfl, s.setReg_regsKept (by simp [hr]) hi v, fun b _ _ => State.bit_congr ?_ b⟩
  exact s.regAt_setReg_ne r _ i v (Reg.at_zero_ne hm hi (by decide))

theorem trans (h : s.Tells t rs) (g : t.Tells u rs) : s.Tells u rs :=
  ⟨g.rest.trans (by rw [h.rest]), h.regs.trans g.regs, fun b hb hb' => (g.flags b hb hb').trans (h.flags b hb hb')⟩

theorem foldl {α : Type} {f : State → α → State} (h : ∀ (s : State) a, s.Tells (f s a) rs) (l : List α) (s : State) :
    s.Tells (l.foldl f s) rs := by
  induction l generalizing s with
  | nil => exact of_regs rfl
  | cons a l ih => exact (h s a).trans (ih (f s a))

theorem computeSame (h : s.Tells u rs) : s.computeSame u := by
  rw [h.rest]
  exact ⟨rfl, rfl, rfl, rfl, rfl⟩

theorem frame (h : s.Tells u rs) : u.stations = s.stations ∧ u.dies = s.dies ∧ u.fuses = s.fuses ∧ u.pwr = s.pwr := by
  rw [h.rest]
  exact ⟨rfl, rfl, rfl, rfl⟩

end State.Tells

/-! ### Sending on a port (R332, R336) -/

@[simp] theorem State.ethSt_setEth (s : State) (p : Nat) (x : EthSt) : (s.setEth p x).ethSt p = x := Tbl.get_put_self _ _ _ _

theorem State.ethTx_tells (s : State) (p : EthPort) (o : Out) {rs : List Reg} : s.Tells (s.ethTx p o) rs := by
  have hp : p.val < Reg.ethTxFrames.info.count := p.isLt
  refine ⟨rfl, (State.RegsKept.of_regs (u := s.emit o) rfl).trans ((s.emit o).addPair_regsKept (by simp) hp rfl 1), fun b _ _ => ?_⟩
  exact ((s.emit o).addPair_regsKept (rs := [.ethTxFrames]) (by simp) hp rfl 1).bit (by decide) (by decide) b

theorem State.roceTx_tells (s : State) (p : EthPort) (o : Out) {rs : List Reg} : s.Tells (s.roceTx p o) rs := by
  unfold State.roceTx
  dsimp only
  split
  · exact .of_regs rfl
  · exact s.ethTx_tells p o

theorem State.roceTx_fw (s : State) (p : EthPort) (o : Out) : (s.roceTx p o).fw = s.fw := by
  unfold State.roceTx
  dsimp only
  split <;> rfl

/-- A packet that a port takes is what it has sent last, or what waits last while the switch holds it. -/
theorem State.lastSent_roceTx (s : State) (p : EthPort) (o : Out) : (s.roceTx p o).lastSent p = some o := by
  have hkept : (s.roceTx p o).bit .ethPortStatus p 28 = s.bit .ethPortStatus p 28 :=
    (s.roceTx_tells p o (rs := [])).regs.bit (by decide) p.isLt 28
  rw [State.lastSent, hkept]
  cases hb : s.bit .ethPortStatus p 28
  · rw [State.roceTx, hb]
    rfl
  · rw [State.roceTx, hb]
    simp

theorem State.mailTx_tells (s : State) (p : EthPort) (o : Out) {rs : List Reg} : s.Tells (s.mailTx p o) rs := by
  unfold State.mailTx
  split
  · exact .trans (t := s.setEth p _) (.of_regs rfl) (State.roceTx_tells _ p o)
  · exact .of_regs rfl

theorem State.mailTx_fw (s : State) (p : EthPort) (o : Out) : (s.mailTx p o).fw = s.fw := by
  unfold State.mailTx
  split
  · exact State.roceTx_fw _ p o
  · rfl

/-! ### Events (R348, R356) -/

theorem State.toHost_tells (s : State) (p : EthPort) (e : EventRec) {rs : List Reg} : s.Tells (s.toHost (.event p e)) rs := by
  unfold State.toHost
  split
  · split
    · exact .of_regs rfl
    · refine ⟨rfl, s.countFld_regsKept (by simp) (by decide) _ _ _, fun b hb hb' => ?_⟩
      have hout : ¬ (16 ≤ b ∧ b ≤ 27) := by omega
      exact (s.bit_setFld _ _ _ (by decide) hb').trans (if_neg hout)
  · exact s.mailTx_tells p _

theorem State.toHost_fw (s : State) (p : EthPort) (e : EventRec) :
    (s.toHost (.event p e)).fw = { s.fw with queued := (s.toHost (.event p e)).fw.queued } := by
  unfold State.toHost
  split
  · split <;> rfl
  · rw [show s.mail (.event p e) = s.mailTx p (.event p e) from rfl, s.mailTx_fw]

/-- The processors keep these events, the next one of which has number `n`. -/
def State.logged (s : State) (n : Nat) (l : List EventRec) : State := { s with fw := { s.fw with evNext := n, events := l } }

section
variable (s : State) (code : Nat) (load : List Nat)

/-- An event is numbered and kept, then sent on the port of the last command. -/
theorem State.event_eq : ∃ l, s.event code load =
    (s.logged (s.fw.evNext + 1) l).toHost (.event s.fw.lastPort (s.eventOf code load)) :=
  ⟨(s.fw.events ++ [s.eventOf code load]).drop (s.fw.events.length + 1 - 4096), rfl⟩

theorem State.event_tells {rs : List Reg} : s.Tells (s.event code load) rs := by
  obtain ⟨l, he⟩ := s.event_eq code load
  rw [he]
  exact .trans (t := s.logged _ l) (.of_regs rfl) (State.toHost_tells _ _ _)

/-- Nothing else of what the processors keep changes with an event, which may wait for a session. -/
theorem State.event_fw :
    (s.event code load).fw = { s.fw with
      evNext := s.fw.evNext + 1
      events := (s.event code load).fw.events
      queued := (s.event code load).fw.queued } := by
  obtain ⟨l, he⟩ := s.event_eq code load
  rw [he, State.toHost_fw]
  rfl

/-- With a session and the mailbox QP connected, an event is what the port of the last command has sent last. -/
theorem State.lastSent_event (hlost : s.bit .mbxStatus 0 30 = false) (hqp : s.qpState (qpKey s.fw.lastPort 0) = 1) :
    (s.event code load).lastSent s.fw.lastPort = some (.event s.fw.lastPort (s.eventOf code load)) := by
  obtain ⟨l, he⟩ := s.event_eq code load
  have hlost' : (s.logged (s.fw.evNext + 1) l).bit .mbxStatus 0 30 = false := hlost
  have hqp' : (s.logged (s.fw.evNext + 1) l).qpState (qpKey s.fw.lastPort 0) = 1 := hqp
  rw [he, State.toHost, hlost', Bool.and_false, if_neg Bool.false_ne_true, State.mail, State.mailTx, if_pos hqp']
  exact State.lastSent_roceTx _ _ _

/-- With the host lost and the part parked, an event waits for a session (R356). -/
theorem State.event_queued (hlost : s.bit .mbxStatus 0 30 = true) (hparked : s.bit .mbxStatus 0 31 = true) (hroom : s.fw.queued.length < 4096) :
    (s.event code load).fw.queued = s.fw.queued ++ [.event s.fw.lastPort (s.eventOf code load)] := by
  obtain ⟨l, he⟩ := s.event_eq code load
  have hlost' : (s.logged (s.fw.evNext + 1) l).bit .mbxStatus 0 30 = true := hlost
  have hparked' : (s.logged (s.fw.evNext + 1) l).bit .mbxStatus 0 31 = true := hparked
  have hroom' : (s.logged (s.fw.evNext + 1) l).fw.queued.length < 4096 := hroom
  rw [he, State.toHost, hlost', hparked', Bool.and_self, if_pos rfl, if_pos hroom']
  rfl

end

/-- From `s` to `u` an event of a code with its payload words has been sent, where the host is not lost and the mailbox QP is connected: the
port of the last command has sent it last, in the session and with the step count of `s`. -/
def State.Sends (s u : State) (code : Nat) (load : List Nat) : Prop :=
  s.bit .mbxStatus 0 30 = false → s.qpState (qpKey s.fw.lastPort 0) = 1 →
    ∃ e, u.lastSent s.fw.lastPort = some (.event s.fw.lastPort e) ∧ e.code = code ∧ e.load = load ∧ e.fp = eventFp code load ∧
      e.sess = BitVec.ofNat 32 (s.reg .mbxSession 0) ∧ e.step = s.fw.stepCnt % 2 ^ 32

/-- The registers from which a message to the host is made and by which it is sent. -/
def mailRegs : List Reg := [.mbxStatus, .mbxSession, .ethQpStatus, .ethPortStatus]

/-- What a message to the host is made of, and by what it is sent, is the same in two states. -/
structure State.MailsAlike (s t : State) : Prop where
  regs : ∀ r ∈ mailRegs, ∀ i < r.info.count, t.reg r i = s.reg r i
  port : t.fw.lastPort = s.fw.lastPort
  step : t.fw.stepCnt = s.fw.stepCnt

theorem State.RegsKept.mailsAlike {s t : State} {rs : List Reg} (h : s.RegsKept t rs) (hd : ∀ r ∈ mailRegs, r ∉ rs)
    (hp : t.fw.lastPort = s.fw.lastPort) (hs : t.fw.stepCnt = s.fw.stepCnt) : s.MailsAlike t :=
  ⟨fun r hr => h r (hd r hr), hp, hs⟩

theorem State.MailsAlike.refl (s : State) : s.MailsAlike s := ⟨fun _ _ _ _ => rfl, rfl, rfl⟩

theorem State.MailsAlike.trans {s t u : State} (h : s.MailsAlike t) (g : t.MailsAlike u) : s.MailsAlike u :=
  ⟨fun r hr i hi => (g.regs r hr i hi).trans (h.regs r hr i hi), g.port.trans h.port, g.step.trans h.step⟩

/-- An event goes out with what stood before a change that leaves the mailbox alone. -/
theorem State.MailsAlike.sends_event {s t : State} (h : s.MailsAlike t) (code : Nat) (load : List Nat) :
    s.Sends (t.event code load) code load := by
  intro hlost hqp
  have hkey : qpKey s.fw.lastPort 0 < Reg.ethQpStatus.info.count := by
    have := s.fw.lastPort.isLt
    show 65 * s.fw.lastPort.val + 0 < 130
    omega
  have hlost' : t.bit .mbxStatus 0 30 = false := (congrArg (bitOf · 30) (h.regs .mbxStatus (by decide) 0 (by decide))).trans hlost
  have hqp' : t.qpState (qpKey t.fw.lastPort 0) = 1 := by
    rw [h.port]
    exact (congrArg (bitsOf · 31 30) (h.regs .ethQpStatus (by decide) _ hkey)).trans hqp
  refine ⟨t.eventOf code load, h.port ▸ t.lastSent_event code load hlost' hqp', rfl, rfl, rfl, ?_, ?_⟩
  · exact congrArg (BitVec.ofNat 32) (h.regs .mbxSession (by decide) 0 (by decide))
  · exact congrArg (· % 2 ^ 32) h.step

theorem State.event_sends (s : State) (code : Nat) (load : List Nat) : s.Sends (s.event code load) code load :=
  (State.MailsAlike.refl s).sends_event code load

end Sys2Proof.Machine
end

section
/-! SUPPORT. Error reports: what Keeper records of them and sends (R393, R394, R354, R396). -/

namespace Sys2Proof.Machine

/-- The newest entry of a log of bounded length is the one just added. -/
theorem getLast?_drop_append {α : Type} (l : List α) (x : α) (n : Nat) : ((l ++ [x]).drop (l.length + 1 - (n + 1))).getLast? = some x := by
  rw [List.getLast?_drop, if_neg (by rw [List.length_append, List.length_singleton]; omega), List.getLast?_append]
  rfl

/-! ### Capture registers (R393) -/

theorem State.capRead_src (s : State) (r : Report) : (s.capRead r).cls = r.cls ∧ (s.capRead r).sev = r.sev ∧ (s.capRead r).unit = r.unit ∧
    (s.capRead r).step = r.step := by
  unfold State.capRead
  split
  · exact ⟨rfl, rfl, rfl, rfl⟩
  · split <;> exact ⟨rfl, rfl, rfl, rfl⟩

/-- Keeper clears a `VALID` bit alone. -/
theorem State.capClear_cases (s : State) (o : Nat) :
    s.capClear o = s ∨ ∃ g i a v, bitOf g.info.w1c 31 = true ∧ i < g.info.count ∧ (a < if g.info.pair then 8 else 4) ∧
      s.capClear o = s.setRegAt g (g.at i + a) v := by
  unfold State.capClear
  split
  · next g i hi hfind =>
    split
    · next h =>
      obtain ⟨hlt, a, ha, ho⟩ := Reg.find_at_offset hfind
      exact .inr ⟨g, i, a, s.regAt g o % 2 ^ 31, h.2, hlt, ha, by rw [ho]⟩
    · exact .inl rfl
  · exact .inl rfl

theorem State.capClear_eq (s : State) (o : Nat) : s.capClear o = { s with regs := (s.capClear o).regs } := by
  obtain h | ⟨g, i, a, v, -, -, -, h⟩ := s.capClear_cases o
  · rw [h]
  · rw [h]
    rfl

theorem State.capClear_zero (s : State) : s.capClear 0 = s := by
  unfold State.capClear
  split
  · rw [if_neg (by simp)]
  · rfl

/-- A register without a `VALID` bit reads as before. -/
theorem State.reg_capClear (s : State) (o : Nat) {r : Reg} (hr : bitOf r.info.w1c 31 = false) {j : Nat} (hj : j < r.info.count) :
    (s.capClear o).reg r j = s.reg r j := by
  obtain h | ⟨g, i, a, v, hg, hi, ha, h⟩ := s.capClear_cases o
  · rw [h]
  · have hne : r ∉ [g] := by
      rw [List.mem_singleton]
      rintro rfl
      rw [hr] at hg
      cases hg
    rw [h]
    exact s.setRegAt_regsKept List.mem_cons_self hi ha v r hne j hj

/-! ### Records (R394) -/

/-- The record of a report, as Keeper makes it. -/
def State.recordOf (s : State) (r : Report) : Report := { s.capRead r with num := s.fw.repNext }

/-- Keeper has the reports `l`, and keeps those of `m`. -/
def State.reported (s : State) (l m : List Report) : State :=
  { s with fw := { s.fw with repNext := s.fw.repNext + 1, reports := l, saved := m } }

/-- A report is numbered and recorded, kept where work stopped or state was lost, and sent. -/
theorem State.record_eq (s : State) (r : Report) : ∃ l m, l.getLast? = some (s.recordOf r) ∧
    (2 ≤ r.sev → m.getLast? = some (s.recordOf r)) ∧
    s.record r = ((s.reported l m).capClear r.src).event 0x8003 (s.recordOf r).words := by
  refine ⟨_, _, getLast?_drop_append s.fw.reports (s.recordOf r) 4095, fun h => ?_, rfl⟩
  rw [if_pos h]
  exact getLast?_drop_append s.fw.saved (s.recordOf r) 255

/-- The state in which a report goes out. -/
theorem State.reported_capClear_fw (s : State) (l m : List Report) (o : Nat) :
    ((s.reported l m).capClear o).fw = { s.fw with repNext := s.fw.repNext + 1, reports := l, saved := m } := by
  rw [State.capClear_eq]
  rfl

theorem State.record_fw (s : State) (r : Report) :
    (s.record r).fw = { s.fw with
      repNext := s.fw.repNext + 1, reports := (s.record r).fw.reports, saved := (s.record r).fw.saved,
      evNext := s.fw.evNext + 1, events := (s.record r).fw.events, queued := (s.record r).fw.queued } := by
  obtain ⟨l, m, -, -, he⟩ := s.record_eq r
  rw [he, State.event_fw, s.reported_capClear_fw]

/-- From `s` to `u` an error has been reported: numbered, recorded, kept where work stopped or state was lost, and sent. -/
structure State.Reported (s u : State) (cls sev : Nat) (unit : UnitRef) (q : Report) : Prop where
  last : u.fw.reports.getLast? = some q
  next : u.fw.repNext = s.fw.repNext + 1
  num : q.num = s.fw.repNext
  ofCls : q.cls = cls
  ofSev : q.sev = sev
  ofUnit : q.unit = unit
  ofStep : q.step = s.fw.stepCnt
  saved : 2 ≤ sev → u.fw.saved.getLast? = some q
  sends : s.Sends u 0x8003 q.words

/-- A record of a report made in `s`, after changes that leave the mailbox and the numbers of reports alone. -/
theorem State.MailsAlike.reported_record {s t : State} (h : s.MailsAlike t) (hn : t.fw.repNext = s.fw.repNext) (r : Report)
    (hstep : r.step = s.fw.stepCnt) : s.Reported (t.record r) r.cls r.sev r.unit (t.recordOf r) := by
  obtain ⟨l, m, hl, hm, he⟩ := t.record_eq r
  have hfw : ((t.reported l m).capClear r.src).fw = _ := t.reported_capClear_fw l m r.src
  obtain ⟨hcls, hsev, hunit, hst⟩ := t.capRead_src r
  have halike : s.MailsAlike ((t.reported l m).capClear r.src) := by
    refine h.trans ⟨fun q hq i hi => ?_, by rw [hfw], by rw [hfw]⟩
    refine (t.reported l m).reg_capClear r.src ?_ hi
    simp only [mailRegs, List.mem_cons, List.not_mem_nil, or_false] at hq
    rcases hq with rfl | rfl | rfl | rfl <;> rfl
  refine ⟨?_, ?_, hn, hcls, hsev, hunit, hst.trans hstep, fun h2 => ?_, he ▸ halike.sends_event _ _⟩
  · rw [he, State.event_fw, hfw, hl]
  · rw [he, State.event_fw, hfw, hn]
  · rw [he, State.event_fw, hfw, hm h2]

/-- Registers without a `VALID` bit, beside those that a message to the host changes, read as before. -/
theorem State.reg_record (s : State) (r : Report) {q : Reg} (hq : bitOf q.info.w1c 31 = false) (hm : q ∉ [Reg.mbxStatus, .ethTxFrames])
    {j : Nat} (hj : j < q.info.count) : (s.record r).reg q j = s.reg q j := by
  obtain ⟨l, m, -, -, he⟩ := s.record_eq r
  rw [he, (State.event_tells _ _ _ (rs := [])).regs q hm j hj, State.reg_capClear _ _ hq hj]
  rfl

/-! ### Reports reach Keeper, or wait (R354) -/

theorem State.reportIn_runs (s : State) (r : Report) (h : s.restarting 3 = false) : s.reportIn r = s.record r := by
  rw [State.reportIn, h, if_neg Bool.false_ne_true]

theorem State.reportIn_waits (s : State) (r : Report) (h : s.restarting 3 = true) (hroom : s.fw.errQ.length < 256) :
    s.reportIn r = s.fwUpd (fun f => { f with errQ := f.errQ ++ [r] }) := by
  rw [State.reportIn, if_pos h, if_pos hroom]

theorem State.reportIn_lost (s : State) (r : Report) (h : s.restarting 3 = true) (hfull : 256 ≤ s.fw.errQ.length) :
    s.reportIn r = s.countFld .fwStatus 3 23 16 1 := by
  rw [State.reportIn, if_pos h, if_neg (by omega)]

/-- A report without a capture register changes what messages to the host change, and counts of FW_STATUS. -/
theorem State.report_tells (s : State) (cls sev : Nat) (u : UnitRef) (a b : Nat) : s.Tells (s.report cls sev u a b) [.fwStatus] := by
  unfold State.report State.reportIn
  split
  · split
    · exact .of_regs rfl
    · exact .of_setReg (by simp) (by decide) (by decide) _
  · obtain ⟨l, m, -, -, he⟩ := s.record_eq ⟨0, cls, sev, u, BitVec.ofNat 32 a, BitVec.ofNat 32 b, s.fw.refTime, s.fw.stepCnt, 0⟩
    rw [he, State.capClear_zero]
    exact .trans (t := s.reported l m) (.of_regs rfl) (State.event_tells _ _ _)

theorem State.report_parkDue (s : State) (cls sev : Nat) (u : UnitRef) (a b : Nat) :
    (s.report cls sev u a b).fw.parkDue = s.fw.parkDue := by
  unfold State.report State.reportIn
  split
  · split <;> rfl
  · rw [State.record_fw]

/-! ### ERROR_REPORT (R393, R396) -/

theorem State.takeRaised_eq (s : State) (cls off : Nat) :
    s.takeRaised cls off = { s with fw := { s.fw with raised := (s.takeRaised cls off).fw.raised } } := by
  unfold State.takeRaised
  split <;> rfl

theorem State.takeRaised_alike (s : State) (cls off : Nat) : s.MailsAlike (s.takeRaised cls off) := by
  rw [s.takeRaised_eq cls off]
  exact ⟨fun _ _ _ _ => rfl, rfl, rfl⟩

/-- Only reports of a station's memories count towards its failure. -/
theorem State.noteMem_other (s : State) (u : UnitRef) {off : Nat} (h : ∀ i hi, Reg.find off ≠ some (.stnMemErr, i, hi)) : s.noteMem u off = s := by
  unfold State.noteMem
  split
  · next hf => exact absurd hf (h _ _)
  · rfl

/-- The first report of a station's memories is noted with its time, by the place of the station. -/
theorem State.noteMem_first (s : State) {u : UnitRef} (hu : u.kind = 1#4) {i : Nat} (hi : i < 1024)
    (h : ∀ e ∈ s.fw.memErrs, e.1 ≠ 33 * segOf i + s.posOf i) :
    s.noteMem u (Reg.at .stnMemErr i) =
      s.fwUpd (fun f => { f with memErrs := f.memErrs ++ [(33 * segOf i + s.posOf i, (f.refTime : Int))] }) := by
  have hfirst : s.fw.memErrs.any (fun e => decide (e.1 = 33 * segOf i + s.posOf i) &&
      decide ((s.fw.refTime : Int) ≤ e.2 + dayTicks)) = false := by
    rw [List.any_eq_false]
    intro e he
    simp [h e he]
  rw [State.noteMem, Reg.find_at_self .stnMemErr (i := i) hi]
  dsimp only
  rw [if_pos hu, hfirst, if_neg Bool.false_ne_true]

section
variable (s : State) (cls : BitVec 4) (sev : BitVec 2) (unit : UnitRef) (off : Nat) (cap : Word)

/-- The report of a unit as it reaches Keeper. -/
def State.unitReport : Report := ⟨0, s.reportClass cls.toNat off, sev.toNat, unit, 0, cap, s.fw.refTime, s.fw.stepCnt, off⟩

/-- The state in which a unit's report reaches Keeper, with the report that had been raised taken. -/
def State.heardRaised : State := s.takeRaised (s.reportClass cls.toNat off) off

theorem execErrorReport_on (hon : bitOf s.pwr.on.toNat 12 = true) : exec (.errorReport cls sev unit off cap) s =
    .next (((s.heardRaised cls off).reportIn (s.unitReport cls sev unit off cap)).noteMem unit off) :=
  congrArg Host.Outcome.next (if_pos hon)

theorem State.heardRaised_eq : s.heardRaised cls off = { s with fw := { s.fw with raised := (s.heardRaised cls off).fw.raised } } :=
  s.takeRaised_eq _ _

theorem State.heardRaised_restarting (p : Nat) : (s.heardRaised cls off).restarting p = s.restarting p := by
  rw [s.heardRaised_eq cls off]
  rfl

/-- Keeper, while it runs, records the report of a unit. -/
theorem State.unitReport_reported :
    s.Reported ((s.heardRaised cls off).record (s.unitReport cls sev unit off cap)) (s.reportClass cls.toNat off) sev.toNat unit
      ((s.heardRaised cls off).recordOf (s.unitReport cls sev unit off cap)) :=
  (s.takeRaised_alike _ _).reported_record (by rw [s.takeRaised_eq]) _ rfl

/-- The report of a station's memory leaves the places of stations as they are. -/
theorem State.posOf_record (r : Report) (i : Nat) (hi : segOf i < 32) : (s.record r).posOf i = s.posOf i := by
  have hspare : (s.record r).sparePos (segOf i) = s.sparePos (segOf i) :=
    congrArg (bitsOf · 5 0) (s.reg_record r (q := .segSpare) rfl (by decide) hi)
  simp only [State.posOf, hspare]

end

end Sys2Proof.Machine
end

section
/-! SUPPORT. Restarts of the processors (R351, R353, R354): what they leave, and what a restart that is complete brings. -/

namespace Sys2Proof.Machine

/-! ### Abandoned loads (R353) -/

/-- From `s` to `u`, nothing differs but the stations, no bank of which has become READY. -/
structure State.Abandons (s u : State) : Prop where
  rest : u = { s with stations := u.stations }
  ready : ∀ i, (u.station i).ready &&& ~~~ (s.station i).ready = 0

/-- Bits that are set in neither step are set in none. -/
theorem and_not_trans {a b c : BitVec 6} (h : b &&& ~~~ a = 0) (g : c &&& ~~~ b = 0) : c &&& ~~~ a = 0 := by
  ext i hi
  have h' := congrArg (fun x => x.getLsbD i) h
  have g' := congrArg (fun x => x.getLsbD i) g
  simp [hi] at h' g' ⊢
  grind

namespace State.Abandons

variable {s t u : State}

theorem refl (s : State) : s.Abandons s := ⟨rfl, fun _ => BitVec.and_not_self _⟩

theorem trans (h : s.Abandons t) (g : t.Abandons u) : s.Abandons u :=
  ⟨g.rest.trans (by rw [h.rest]), fun i => and_not_trans (h.ready i) (g.ready i)⟩

theorem foldl {α : Type} {f : State → α → State} (h : ∀ (s : State) a, s.Abandons (f s a)) (l : List α) (s : State) : s.Abandons (l.foldl f s) := by
  induction l generalizing s with
  | nil => exact refl s
  | cons a l ih => exact (h s a).trans (ih (f s a))

end State.Abandons

theorem State.partBank_abandons (s : State) (i : Nat) (m : Strm) (b : Bool) (bs : List Byte) : s.Abandons (s.partBank i m b bs) := by
  unfold State.partBank
  split
  · exact .refl s
  · refine ⟨rfl, fun j => ?_⟩
    rw [State.station_modStation]
    split
    · next h =>
      subst h
      show ((s.station i).ready &&& ~~~ readyBit m b) &&& ~~~ (s.station i).ready = 0
      ext k hk
      simp
      grind
    · exact BitVec.and_not_self _

theorem State.loadFirst_abandons (s : State) (n : Nat) (l : List (Nat × BankDesc)) : s.Abandons (s.loadFirst n l) := by
  induction l generalizing s n with
  | nil => exact .refl s
  | cons q l ih =>
    unfold State.loadFirst
    split
    · exact .refl s
    · exact (s.partBank_abandons ..).trans (ih ..)

theorem State.abandonTask_abandons (s : State) (q : Nat × Instr) : s.Abandons (s.abandonTask q) := by
  unfold State.abandonTask
  split
  · exact s.loadFirst_abandons ..
  · exact .refl s

/-! ### A restart (R354) -/

/-- FW_STATUS of a processor counts its restart with the cause. -/
def State.restartNoted (s : State) (p cause : Nat) : State :=
  ((s.setFld .fwStatus p 15 0 (s.fld .fwStatus p 15 0 + 1)).setFld .fwStatus p 29 27 cause).setFld .fwStatus p 31 30 3

/-- The restart is an error of class 0x9. -/
def State.restartRaised (s : State) (p cause : Nat) : State := (s.restartNoted p cause).raiseAs 9 6 p (Reg.at .fwStatus p)

/-- Liaison abandons what it carries out. -/
def State.abandonAll (s : State) : State :=
  (s.fw.tasks.foldl State.abandonTask s).fwUpd (fun f => { f with late := f.late ++ f.tasks.map (·.1), tasks := [] })

theorem State.restart_eq (s : State) (p cause : Nat) : s.restart p cause =
    if p = 0 then (s.restartRaised p cause).abandonAll else s.restartRaised p cause := rfl

/-- From `s` to `u`, the processor counts a restart with its cause. -/
structure State.CountsRestart (s u : State) (p cause : Nat) : Prop where
  state : u.fpState p = 3
  cause : u.fld .fwStatus p 29 27 = cause
  count : u.fld .fwStatus p 15 0 = (s.fld .fwStatus p 15 0 + 1) % 2 ^ 16

theorem State.restartNoted_counts (s : State) (p : Nat) {cause : Nat} (hc : cause < 8) : s.CountsRestart (s.restartNoted p cause) p cause := by
  refine ⟨(State.fld_setFld_self _ _ _ _ (by decide) (by decide)).trans rfl, ?_, ?_⟩
  · rw [State.restartNoted, State.fld_setFld_apart _ _ _ _ (by decide) (by decide) (.inr (by decide)),
      State.fld_setFld_self _ _ _ _ (by decide) (by decide)]
    exact Nat.mod_eq_of_lt hc
  · rw [State.restartNoted, State.fld_setFld_apart _ _ _ _ (by decide) (by decide) (.inr (by decide)),
      State.fld_setFld_apart _ _ _ _ (by decide) (by decide) (.inr (by decide)), State.fld_setFld_self _ _ _ _ (by decide) (by decide)]

theorem State.restartNoted_kept (s : State) {p : Nat} (hp : p < 4) (cause : Nat) : s.RegsKept (s.restartNoted p cause) [.fwStatus] :=
  have hm : Reg.fwStatus ∈ [Reg.fwStatus] := List.mem_cons_self
  ((s.setFld_regsKept hm hp _ _ _).trans (State.setFld_regsKept _ hm hp _ _ _)).trans (State.setFld_regsKept _ hm hp _ _ _)

theorem State.reg_restartNoted_ne (s : State) {p q : Nat} (h : q ≠ p) (cause : Nat) :
    (s.restartNoted p cause).reg .fwStatus q = s.reg .fwStatus q := by
  have hne : Reg.at .fwStatus p ≠ Reg.at .fwStatus q := fun e => h (Reg.at_inj.1 e).symm
  simp only [State.restartNoted, State.reg, State.regAt_setFld_ne _ _ _ _ _ hne]

theorem State.raiseAs_raised (s : State) (hon : bitOf s.pwr.on.toNat 12 = true) (cls kind i off : Nat) :
    (s.raiseAs cls kind i off).fw.raised = s.fw.raised ++ [(cls, ⟨BitVec.ofNat 4 kind, BitVec.ofNat 12 i⟩, off)] := by
  rw [State.raiseAs, if_pos hon]
  rfl

/-- From `s` to `u`, nothing differs but stations, registers, what the firmware processors keep, and the outputs. -/
def State.PartSame (s u : State) : Prop := u = { s with stations := u.stations, regs := u.regs, fw := u.fw, out := u.out }

theorem State.PartSame.trans {s t u : State} (h : s.PartSame t) (g : t.PartSame u) : s.PartSame u := Eq.trans g (by rw [h])

theorem State.PartSame.frame {s u : State} (h : s.PartSame u) :
    u.dies = s.dies ∧ u.ring = s.ring ∧ u.stackMem = s.stackMem ∧ u.refc = s.refc ∧ u.pwr = s.pwr := by
  rw [h]
  exact ⟨rfl, rfl, rfl, rfl, rfl⟩

theorem State.PartSame.refl (s : State) : s.PartSame s := rfl

theorem State.PartSame.setFld {s t : State} (h : s.PartSame t) (r : Reg) (i hi lo v : Nat) : s.PartSame (t.setFld r i hi lo v) := h.trans rfl

theorem State.restartNoted_frame (s : State) (p cause : Nat) : (s.restartNoted p cause).fw = s.fw ∧
    (s.restartNoted p cause).stations = s.stations ∧ (s.restartNoted p cause).pwr = s.pwr ∧ s.PartSame (s.restartNoted p cause) := by
  refine ⟨by simp [State.restartNoted], by simp [State.restartNoted], by simp [State.restartNoted], ?_⟩
  unfold State.restartNoted
  exact (((State.PartSame.refl s).setFld ..).setFld ..).setFld ..

theorem State.raiseAs_partSame (s : State) (cls kind i off : Nat) : s.PartSame (s.raiseAs cls kind i off) ∧
    (s.raiseAs cls kind i off).regs = s.regs ∧ (s.raiseAs cls kind i off).stations = s.stations ∧
    (s.raiseAs cls kind i off).fw = { s.fw with raised := (s.raiseAs cls kind i off).fw.raised } := by
  unfold State.raiseAs
  split <;> exact ⟨rfl, rfl, rfl, rfl⟩

theorem State.restartRaised_eq (s : State) (p cause : Nat) :
    s.restartRaised p cause = (s.restartNoted p cause).raiseAs 9 6 p (Reg.at .fwStatus p) := rfl

/-- A processor's restart is raised, and nothing else of what the processors keep changes. -/
theorem State.restartRaised_frame (s : State) (p cause : Nat) : s.PartSame (s.restartRaised p cause) ∧
    (s.restartRaised p cause).regs = (s.restartNoted p cause).regs ∧ (s.restartRaised p cause).stations = s.stations ∧
    (s.restartRaised p cause).fw = { s.fw with raised := (s.restartRaised p cause).fw.raised } ∧
    (bitOf s.pwr.on.toNat 12 = true → (s.restartRaised p cause).fw.raised = s.fw.raised ++ [(9, ⟨6, BitVec.ofNat 12 p⟩, Reg.at .fwStatus p)]) := by
  obtain ⟨hfw, hstn, hpwr, hpart⟩ := s.restartNoted_frame p cause
  obtain ⟨rpart, rregs, rstn, rfw⟩ := (s.restartNoted p cause).raiseAs_partSame 9 6 p (Reg.at .fwStatus p)
  have hraised := (s.restartNoted p cause).raiseAs_raised (cls := 9) (kind := 6) (i := p) (off := Reg.at .fwStatus p)
  rw [hpwr] at hraised
  rw [hfw] at hraised rfw
  rw [s.restartRaised_eq]
  exact ⟨hpart.trans rpart, rregs, rstn.trans hstn, rfw, hraised⟩

/-- What Liaison's abandoned activities leave. -/
theorem State.abandonAll_frame (s : State) : s.PartSame s.abandonAll ∧ s.abandonAll.regs = s.regs ∧
    (∀ i, (s.abandonAll.station i).ready &&& ~~~ (s.station i).ready = 0) ∧ (s.fw.tasks = [] → s.abandonAll.stations = s.stations) ∧
    s.abandonAll.fw = { s.fw with late := s.fw.late ++ s.fw.tasks.map (·.1), tasks := [] } := by
  have ha : s.Abandons (s.fw.tasks.foldl State.abandonTask s) := .foldl (fun v q => v.abandonTask_abandons q) _ _
  have hnone : s.fw.tasks = [] → (s.fw.tasks.foldl State.abandonTask s).stations = s.stations := fun h => by rw [h]; rfl
  unfold State.abandonAll
  generalize s.fw.tasks.foldl State.abandonTask s = t at *
  obtain ⟨hrest, hready⟩ := ha
  have hfw : t.fw = s.fw := by rw [hrest]
  refine ⟨?_, ?_, hready, hnone, ?_⟩
  · unfold State.PartSame
    rw [hrest]
    rfl
  · show t.regs = s.regs
    rw [hrest]
  · rw [← hfw]
    rfl

/-- What a restart leaves: the registers that are not FW_STATUS of the processor, and everything but the stations, of which no bank becomes
READY, and the activities and reports that the processors keep. -/
structure State.Restarts (s u : State) (cause : Nat) (p : Nat) : Prop where
  part : s.PartSame u
  regs : u.regs = (s.restartNoted p cause).regs
  ready : ∀ i, (u.station i).ready &&& ~~~ (s.station i).ready = 0
  still : p ≠ 0 ∨ s.fw.tasks = [] → u.stations = s.stations
  tasks : s.fw.tasks = [] → u.fw.tasks = []
  raised : bitOf s.pwr.on.toNat 12 = true → u.fw.raised = s.fw.raised ++ [(9, ⟨6, BitVec.ofNat 12 p⟩, Reg.at .fwStatus p)]
  liaison : p = 0 → u.fw.tasks = [] ∧ u.fw.late = s.fw.late ++ s.fw.tasks.map (·.1)
  others : p ≠ 0 → u.fw = { s.fw with raised := u.fw.raised }

theorem State.restart_restarts (s : State) (p cause : Nat) : s.Restarts (s.restart p cause) cause p := by
  obtain ⟨hpart, hregs, hstn, hfw, hraised⟩ := s.restartRaised_frame p cause
  rw [State.restart_eq]
  generalize s.restartRaised p cause = t at *
  split
  · next hp =>
    obtain ⟨apart, aregs, aready, astn, afw⟩ := t.abandonAll_frame
    have htasks : t.fw.tasks = s.fw.tasks := by rw [hfw]
    have hlate : t.fw.late = s.fw.late := by rw [hfw]
    refine ⟨hpart.trans apart, aregs.trans hregs, fun i => ?_, fun h => ?_, fun _ => by rw [afw], fun hon => ?_, fun _ => ⟨by rw [afw], ?_⟩,
      fun h => absurd hp h⟩
    · rw [← State.station_congr hstn]
      exact aready i
    · exact (astn (htasks.trans (h.resolve_left (fun h => h hp)))).trans hstn
    · rw [afw]
      exact hraised hon
    · rw [afw, htasks, hlate]
  · next hp =>
    refine ⟨hpart, hregs, fun i => ?_, fun _ => hstn, fun h => ?_, hraised, fun h => absurd h hp, fun _ => hfw⟩
    · rw [State.station_congr hstn]
      exact BitVec.and_not_self _
    · rw [hfw]
      exact h

namespace State.Restarts

variable {s u : State} {cause p : Nat} (h : s.Restarts u cause p)
include h

theorem counts (hc : cause < 8) : s.CountsRestart u p cause := by
  obtain ⟨h1, h2, h3⟩ := s.restartNoted_counts p hc
  have hreg := State.regAt_congr h.regs .fwStatus (Reg.at .fwStatus p)
  exact ⟨(State.fld_congr hreg 31 30).trans h1, (State.fld_congr hreg 29 27).trans h2, (State.fld_congr hreg 15 0).trans h3⟩

theorem reg_ne {q : Nat} (hq : q ≠ p) : u.reg .fwStatus q = s.reg .fwStatus q :=
  (State.reg_congr h.regs _ _).trans (s.reg_restartNoted_ne hq cause)

end State.Restarts

/-- What restarts leave of the part: the dies, rings, stacks and clocks; no bank becomes READY; and the stations, but where Liaison restarts with
activities under way. -/
def State.LeftByRestart (s u : State) (p : Nat) : Prop :=
  u.dies = s.dies ∧ u.ring = s.ring ∧ u.stackMem = s.stackMem ∧ u.refc = s.refc ∧
    (∀ i, (u.station i).ready &&& ~~~ (s.station i).ready = 0) ∧ ((p ≠ 0 ∨ s.fw.tasks = []) → s.computeSame u)

theorem State.PartSame.left {s u : State} {p : Nat} (h : s.PartSame u) (hready : ∀ i, (u.station i).ready &&& ~~~ (s.station i).ready = 0)
    (hstill : p ≠ 0 ∨ s.fw.tasks = [] → u.stations = s.stations) : s.LeftByRestart u p := by
  obtain ⟨hdies, hring, hmem, hrefc, -⟩ := h.frame
  exact ⟨hdies, hring, hmem, hrefc, hready, fun hs => ⟨hstill hs, hdies, hring, hmem, hrefc⟩⟩

/-- A processor restarts by itself where the firmware domain is powered. -/
theorem State.restartBy_restarts (s : State) (hon : bitOf s.pwr.on.toNat 12 = true) (p cause : Nat) : s.Restarts (s.restartBy p cause) cause p := by
  rw [State.restartBy, if_pos hon]
  exact s.restart_restarts p cause

/-! ### FW_RESTART (R351) -/

/-- The processors named in a write of FW_RESTART restart. -/
def State.restartNamed (s : State) (v p : Nat) : State := s.onlyIf (bitOf v p) (·.restart p 3)

/-- What restarts of the processors of a list leave. -/
structure State.RestartsAll (s u : State) (v : Nat) (l : List Nat) : Prop where
  part : s.PartSame u
  ready : ∀ i, (u.station i).ready &&& ~~~ (s.station i).ready = 0
  still : bitOf v 0 = false ∨ s.fw.tasks = [] → u.stations = s.stations
  named : ∀ p ∈ l, bitOf v p = true → s.CountsRestart u p 3
  unnamed : ∀ p, p ∉ l ∨ bitOf v p = false → u.reg .fwStatus p = s.reg .fwStatus p

theorem State.foldl_restartNamed (v : Nat) (l : List Nat) (hl : l.Nodup) (s : State) : s.RestartsAll (l.foldl (·.restartNamed v ·) s) v l := by
  induction l generalizing s with
  | nil => exact ⟨rfl, fun _ => BitVec.and_not_self _, fun _ => rfl, fun _ h => (nomatch h), fun _ _ => rfl⟩
  | cons a l ih =>
    obtain ⟨ha, hl'⟩ := List.nodup_cons.1 hl
    have hrest := ih hl' (s.restartNamed v a)
    rw [List.foldl_cons]
    cases hb : bitOf v a
    · have hsame : s.restartNamed v a = s := by rw [State.restartNamed, hb]; rfl
      rw [hsame] at hrest ⊢
      refine ⟨hrest.part, hrest.ready, hrest.still, fun p hp hbit => ?_, fun p hp => hrest.unnamed p ?_⟩
      · have hne : p ≠ a := by rintro rfl; rw [hb] at hbit; cases hbit
        exact hrest.named p ((List.mem_cons.1 hp).resolve_left hne) hbit
      · exact hp.imp_left fun h hm => h (List.mem_cons_of_mem _ hm)
    · have hfirst : s.Restarts (s.restartNamed v a) 3 a := by
        rw [State.restartNamed, hb]
        exact s.restart_restarts a 3
      refine ⟨hfirst.part.trans hrest.part, fun i => and_not_trans (hfirst.ready i) (hrest.ready i), fun h => ?_, fun p hp hbit => ?_,
        fun p hp => ?_⟩
      · have hz : a ≠ 0 ∨ s.fw.tasks = [] := h.imp_left fun h0 => by rintro rfl; rw [h0] at hb; cases hb
        exact (hrest.still (h.imp_right hfirst.tasks)).trans (hfirst.still hz)
      · by_cases hpa : p = a
        · subst hpa
          obtain ⟨h1, h2, h3⟩ := hfirst.counts (by decide)
          have hreg := hrest.unnamed p (.inl ha)
          exact ⟨(congrArg (bitsOf · 31 30) hreg).trans h1, (congrArg (bitsOf · 29 27) hreg).trans h2, (congrArg (bitsOf · 15 0) hreg).trans h3⟩
        · obtain ⟨h1, h2, h3⟩ := hrest.named p ((List.mem_cons.1 hp).resolve_left hpa) hbit
          have hreg : (s.restartNamed v a).fld .fwStatus p 15 0 = s.fld .fwStatus p 15 0 := congrArg (bitsOf · 15 0) (hfirst.reg_ne hpa)
          exact ⟨h1, h2, h3.trans (by rw [hreg])⟩
      · have hpa : p ≠ a := by
          rintro rfl
          rcases hp with h | h
          · exact h List.mem_cons_self
          · rw [hb] at h; cases h
        exact (hrest.unnamed p (hp.imp_left fun h hm => h (List.mem_cons_of_mem _ hm))).trans (hfirst.reg_ne hpa)

/-- An accepted write of FW_RESTART restarts the processors named, and answers. -/
theorem State.writeOut_fwRestart (s : State) (who : Requester) {v : Nat} (h : s.accepts who .fwRestart 0 v) :
    (s.writeOut who (Reg.at .fwRestart 0) 4 v) = { (List.range 4).foldl (·.restartNamed v ·) (s.putReg .fwRestart 0 false v) with
      out := (s.writeOut who (Reg.at .fwRestart 0) 4 v).out } := by
  obtain ⟨hloc, hok⟩ := h
  rw [State.writeOut, State.csrWrite, hloc]
  dsimp only
  rw [if_neg (show ¬ s.csrCheck who .fwRestart 0 v ≠ stOk from not_not.2 hok), State.leaveTwin_of_no_region _ _ _ (by decide), State.alertPin_eq]
  rfl

theorem State.putReg_fwRestart (s : State) (v : Nat) : (s.putReg .fwRestart 0 false v).fw = s.fw ∧
    (s.putReg .fwRestart 0 false v).stations = s.stations ∧ s.PartSame (s.putReg .fwRestart 0 false v) ∧
    ∀ p < 4, (s.putReg .fwRestart 0 false v).reg .fwStatus p = s.reg .fwStatus p := by
  have hfields : s.putReg .fwRestart 0 false v = s.putFields .fwRestart 0 false v := by
    rw [State.putReg_eq, if_pos (by decide)]
  rw [hfields]
  exact ⟨rfl, rfl, rfl, fun p hp => s.reg_putFields_apart v (by decide) (by decide) (by decide) hp⟩

/-- The restarts that a write of FW_RESTART brings. -/
theorem State.writeOut_fwRestart_restarts (s : State) (who : Requester) {v : Nat} (h : s.accepts who .fwRestart 0 v) :
    let u := s.writeOut who (Reg.at .fwRestart 0) 4 v
    s.LeftByRestart u (if bitOf v 0 then 0 else 1) ∧ (∀ p < 4, bitOf v p = true → s.CountsRestart u p 3) ∧
      (∀ p < 4, bitOf v p = false → u.reg .fwStatus p = s.reg .fwStatus p) := by
  intro u
  have hu : u = _ := s.writeOut_fwRestart who h
  obtain ⟨hfw, hstn, hput, hold⟩ := s.putReg_fwRestart v
  have hall := State.foldl_restartNamed v (List.range 4) List.nodup_range (s.putReg .fwRestart 0 false v)
  generalize s.putReg .fwRestart 0 false v = t at *
  generalize (List.range 4).foldl (·.restartNamed v ·) t = w at *
  have hpart : s.PartSame u := (hput.trans hall.part).trans (by unfold State.PartSame; rw [hu])
  have hreg : u.regs = w.regs := by rw [hu]
  have hustn : u.stations = w.stations := by rw [hu]
  refine ⟨hpart.left (fun i => ?_) (fun hs => ?_), fun p hp hb => ?_, fun p hp hb => ?_⟩
  · rw [State.station_congr hustn, ← State.station_congr hstn]
    exact hall.ready i
  · have hcalm : bitOf v 0 = false ∨ t.fw.tasks = [] := by
      rw [hfw]
      exact hs.imp_left fun h0 => by simpa using h0
    exact hustn.trans ((hall.still hcalm).trans hstn)
  · obtain ⟨h1, h2, h3⟩ := hall.named p (List.mem_range.2 hp) hb
    have hr := State.regAt_congr hreg .fwStatus (Reg.at .fwStatus p)
    have hs : t.fld .fwStatus p 15 0 = s.fld .fwStatus p 15 0 := congrArg (bitsOf · 15 0) (hold p hp)
    exact ⟨(State.fld_congr hr 31 30).trans h1, (State.fld_congr hr 29 27).trans h2, (State.fld_congr hr 15 0).trans (h3.trans (by rw [hs]))⟩
  · exact (State.reg_congr hreg _ _).trans ((hall.unnamed p (.inr hb)).trans (hold p hp))

end Sys2Proof.Machine
end

section
/-! SUPPORT. Ends of activities and of restarts (R353, R354). -/

namespace Sys2Proof.Machine

/-! ### Activities (R353) -/

/-- The state in which an activity of Liaison has ended. -/
def State.taskEnded (s : State) (q : Nat × Instr) : State := s.fwUpd (fun f => { f with tasks := f.tasks.erase q })

theorem State.taskEnded_mailsAlike (s : State) (q : Nat × Instr) : s.MailsAlike (s.taskEnded q) := ⟨fun _ _ _ _ => rfl, rfl, rfl⟩

section
variable {s : State} {seq : Nat} {c : Instr} (h : s.fw.tasks.find? (fun q => q.1 = seq) = some (seq, c))
include h

theorem State.find_task : s.fw.tasks.find? (fun q => decide (q.1 = seq) && decide (0 = 0)) = some (seq, c) := by
  simpa using h

theorem State.activityEnd_failed {status : Nat} (hst : status ≠ 0) :
    s.activityEnd seq 0 status = (s.taskEnded (seq, c)).activityDone (BitVec.ofNat 32 seq) 0 status [] := by
  rw [State.activityEnd, State.find_task h]
  exact if_pos hst

theorem State.activityEnd_done : s.activityEnd seq 0 0 =
    ((s.taskEnded (seq, c)).taskDone c).1.activityDone (BitVec.ofNat 32 seq) 0 ((s.taskEnded (seq, c)).taskDone c).2.1
      ((s.taskEnded (seq, c)).taskDone c).2.2 := by
  rw [State.activityEnd, State.find_task h]
  exact if_neg (not_not.2 rfl)

end

theorem State.activityDone_eq (s : State) (seq : BitVec 32) (fp status : Nat) (more : List Nat) :
    s.activityDone (BitVec.ofNat 32 seq.toNat) fp status more = s.event 0x8002 ([seq.toNat, fp, status] ++ more) := by
  rw [State.activityDone, BitVec.ofNat_toNat, BitVec.setWidth_eq]

/-! A load that has passed its checks: banks are written, the declaration is set, and the binary takes force (R241, R242). -/

/-- What no step of a fold changes, the fold does not change. -/
theorem foldl_keeps {α β : Type} (g : State → β) {f : State → α → State} (h : ∀ s a, g (f s a) = g s) (l : List α) (s : State) :
    g (l.foldl f s) = g s := by
  induction l generalizing s with
  | nil => rfl
  | cons a l ih => exact (ih (f s a)).trans (h s a)

theorem State.fillAll_frame (s : State) (banks : List BankDesc) : (s.fillAll banks).regs = s.regs ∧ (s.fillAll banks).fw = s.fw := by
  refine ⟨foldl_keeps State.regs (fun t k => ?_) _ _, foldl_keeps State.fw (fun t k => ?_) _ _⟩
  · exact foldl_keeps State.regs (f := fun t i => t.fillBank i k.strm k.bank _) (fun _ _ => rfl) _ t
  · exact foldl_keeps State.fw (f := fun t i => t.fillBank i k.strm k.bank _) (fun _ _ => rfl) _ t

theorem State.declSet_frame (s : State) (b : BinDecl) :
    s.RegsKept (s.declSet b) [.shtCtrl] ∧ (s.declSet b).fw = s.fw ∧ (s.declSet b).stations = s.stations := by
  refine ⟨.foldl _ (fun t d hd => ?_) s, foldl_keeps State.fw (fun t d => ?_) _ _, foldl_keeps State.stations (fun t d => ?_) _ _⟩
  case refine_2 | refine_3 => rfl
  exact t.setReg_regsKept (by simp) (List.mem_range.1 (List.mem_filter.1 hd).1) _

/-- The state in which a loaded binary has taken force. -/
def State.loaded (s : State) (b : BinDecl) (banks : List BankDesc) : State :=
  ((s.fillAll banks).declSet b).fwUpd (fun f => { f with binary := some ⟨b, banks⟩ })

theorem State.loaded_frame (s : State) (b : BinDecl) (banks : List BankDesc) :
    s.MailsAlike (s.loaded b banks) ∧ (s.loaded b banks).fw.binary = some ⟨b, banks⟩ ∧ (s.loaded b banks).stations = (s.fillAll banks).stations := by
  obtain ⟨fregs, ffw⟩ := s.fillAll_frame banks
  obtain ⟨dregs, dfw, dstn⟩ := (s.fillAll banks).declSet_frame b
  have hkept : s.RegsKept (s.loaded b banks) [.shtCtrl] := (State.RegsKept.of_regs fregs).trans dregs
  have hfw : (s.loaded b banks).fw = { s.fw with binary := some ⟨b, banks⟩ } := by
    show { ((s.fillAll banks).declSet b).fw with binary := some ⟨b, banks⟩ } = _
    rw [dfw, ffw]
  exact ⟨hkept.mailsAlike (by decide) (by rw [hfw]) (by rw [hfw]), by rw [hfw], dstn⟩

theorem State.loadDone_refused (s : State) (b : BinDecl) (banks : List BankDesc) {r : Nat × List Nat} (h : s.declRefused b banks = some r) :
    s.loadDone b banks = (s, r.1, r.2) := by
  rw [State.loadDone, h]

theorem State.loadDone_loaded (s : State) (b : BinDecl) (banks : List BankDesc) (h : s.declRefused b banks = none)
    (hc : s.codeRefused b.profile.toNat banks = none) : s.loadDone b banks = (s.loaded b banks, 0, []) := by
  rw [State.loadDone, h]
  dsimp only
  rw [hc]
  rfl

/-! ### A restart that is complete (R354) -/

/-- From `s` to `u`, what the processors do reaches messages to the host and routes alone, and no command that waits is lost. -/
structure State.Resumes (s u : State) : Prop where
  tells : s.Tells u [.pyRoute]
  held : u.fw.held = s.fw.held

theorem State.Resumes.trans {s t u : State} (h : s.Resumes t) (g : t.Resumes u) : s.Resumes u :=
  ⟨h.tells.trans g.tells, g.held.trans h.held⟩

/-- From `s` to `u`, nothing has been sent besides. -/
structure State.Quiet (s u : State) : Prop extends s.Resumes u where
  out : u.out = s.out
  eth : u.eth = s.eth

theorem State.Quiet.refl (s : State) : s.Quiet s := ⟨⟨.of_regs rfl, rfl⟩, rfl, rfl⟩

theorem State.Quiet.trans {s t u : State} (h : s.Quiet t) (g : t.Quiet u) : s.Quiet u :=
  ⟨h.toResumes.trans g.toResumes, g.out.trans h.out, g.eth.trans h.eth⟩

theorem State.Quiet.fwUpd (s : State) {f : FwSt → FwSt} (h : (f s.fw).held = s.fw.held) : s.Quiet (s.fwUpd f) :=
  ⟨⟨.of_regs rfl, h⟩, rfl, rfl⟩

theorem State.Quiet.lastSent {s u : State} (h : s.Quiet u) (p : EthPort) : u.lastSent p = s.lastSent p := by
  have hbit : u.bit .ethPortStatus p 28 = s.bit .ethPortStatus p 28 := h.tells.regs.bit (by decide) p.isLt 28
  have heth : u.ethSt p = s.ethSt p := by unfold State.ethSt; rw [h.eth]
  rw [State.lastSent, State.lastSent, hbit, heth, h.out]

theorem State.event_resumes (s : State) (code : Nat) (load : List Nat) : s.Resumes (s.event code load) :=
  ⟨s.event_tells code load, by rw [State.event_fw]⟩

theorem State.readTables_fw (s : State) (p : Nat) (body : List Byte) : s.Quiet (s.readTables p body) ∧
    (s.readTables p body).fw = { s.fw with
      budget := (s.readTables p body).fw.budget
      policy := (s.readTables p body).fw.policy
      nand := (s.readTables p body).fw.nand } := by
  unfold State.readTables
  split
  · exact ⟨.fwUpd s rfl, rfl⟩
  · exact ⟨.fwUpd s rfl, rfl⟩
  · exact ⟨.refl s, rfl⟩

/-- Liaison reports each activity that its restart has abandoned, once. -/
theorem State.lateDone_resumes (s : State) : s.Resumes s.lateDone ∧ s.lateDone.fw.late = [] := by
  have hall : ∀ (l : List Nat) (t : State), t.Resumes (l.foldl (fun t q => t.activityDone (BitVec.ofNat 32 q) 0 0x40 []) t) ∧
      (l.foldl (fun t q => t.activityDone (BitVec.ofNat 32 q) 0 0x40 []) t).fw.late = t.fw.late := fun l => by
    induction l with
    | nil => exact fun t => ⟨(State.Quiet.refl t).toResumes, rfl⟩
    | cons q l ih =>
      intro t
      have hone := t.event_resumes 0x8002 ([(BitVec.ofNat 32 q).toNat, 0, 0x40] ++ [])
      have hlate : (t.activityDone (BitVec.ofNat 32 q) 0 0x40 []).fw.late = t.fw.late := by rw [State.activityDone, State.event_fw]
      exact ⟨hone.trans (ih _).1, (ih _).2.trans hlate⟩
  obtain ⟨hres, hlate⟩ := hall s.fw.late (s.fwUpd (fun f => { f with late := [] }))
  exact ⟨(State.Quiet.fwUpd s rfl).toResumes.trans hres, hlate⟩

theorem State.lateDone_none (s : State) (h : s.fw.late = []) : s.Quiet s.lateDone := by
  rw [State.lateDone, h]
  exact .fwUpd s rfl

theorem State.flushReports_none (s : State) (h : s.fw.errQ = []) : s.Quiet s.flushReports := by
  rw [State.flushReports, h]
  exact .fwUpd s rfl

/-- Routing around a port that is down rewrites routes. -/
theorem State.routeAround_quiet (s : State) (p : Nat) : s.Quiet (s.routeAround p) := by
  have hset : ∀ (t : State) (o v : Nat), 0x810000 ≤ o → o < 0x820000 → t.Quiet (t.setRegAt .pyRoute o v) := fun t o v hlo hhi => by
    have hkept : ∀ {rs : List Reg}, Reg.pyRoute ∈ rs → t.RegsKept (t.setRegAt .pyRoute o v) rs := fun {rs} hr q hq j hj => by
      have hne : q ≠ .pyRoute := fun e => hq (e ▸ hr)
      have hoff := Reg.off_lt (k := 0) hj (by split <;> decide)
      have hsize : Reg.pyRoute.info.off = 0x810000 ∧ Reg.pyRoute.info.size = 0x10000 := ⟨rfl, rfl⟩
      refine t.regAt_setRegAt_ne _ _ _ ?_
      rcases Reg.apart hne with h | h <;> unfold Reg.before at h <;> omega
    exact ⟨⟨⟨rfl, hkept (by simp), fun b _ _ => (hkept (rs := [.pyRoute]) (by simp)).bit (by decide) (by decide) b⟩, rfl⟩, rfl, rfl⟩
  unfold State.routeAround
  split
  · have hoffs : ∀ o ∈ (s.regs.map (·.1)).filter (fun o => decide (0x810000 ≤ o) && decide (o < 0x820000) && bitOf (s.regAt .pyRoute o) 31),
        0x810000 ≤ o ∧ o < 0x820000 := fun o ho => by
      have hf := (List.mem_filter.1 ho).2
      simp only [Bool.and_eq_true, decide_eq_true_eq] at hf
      exact hf.1
    generalize (s.regs.map (·.1)).filter _ = l at *
    generalize hv : (fun o => s.paired p (s.regAt .pyRoute o)) = val
    have hfold : ∀ t : State, t.Quiet (l.foldl (fun t o => t.setRegAt .pyRoute o (val o)) t) := by
      induction l with
      | nil => exact .refl
      | cons o l ih =>
        intro t
        obtain ⟨hlo, hhi⟩ := hoffs o List.mem_cons_self
        exact (hset t o (val o) hlo hhi).trans (ih (fun q hq => hoffs q (List.mem_cons_of_mem _ hq)) _)
    subst hv
    exact hfold s
  · exact .refl s

theorem State.stewardRuns_none (s : State) (h : s.fw.steward = []) : s.Quiet s.stewardRuns := by
  rw [State.stewardRuns, h]
  dsimp only [List.foldl_nil]
  have hfold : ∀ (l : List Nat) (t : State), t.Quiet (l.foldl State.routeAround t) := fun l => by
    induction l with
    | nil => exact .refl
    | cons p l ih => exact fun t => (t.routeAround_quiet p).trans (ih _)
  exact .trans (t := s.fwUpd _) (.fwUpd s rfl) (hfold _ _)

theorem State.runHeld_none (s : State) {k : Nat} (h : ∀ q ∈ s.fw.held, q.key ≠ k) : s.Quiet (s.runHeld k) ∧ (s.runHeld k).fw.late = s.fw.late := by
  have hnone : s.fw.held.filter (fun w => w.key = k) = [] := List.filter_eq_nil_iff.2 fun q hq => by simpa using h q hq
  have hall : s.fw.held.filter (fun w => w.key ≠ k) = s.fw.held := List.filter_eq_self.2 fun q hq => by simpa using h q hq
  rw [State.runHeld, hnone]
  exact ⟨.fwUpd s hall, rfl⟩

/-- What a processor takes up when its restart is complete. -/
def State.takesUp (s : State) (p : Nat) (img : Bool) : State :=
  if p = 0 then s.lateDone else if p = 3 then s.flushReports else if p = 2 ∧ img then s.stewardRuns else s

/-- The state with the processor out of its restart, its event sent and its tables read anew. -/
def State.restartOver (s : State) (p : Nat) : State :=
  (s.setFld .fwStatus p 31 30 (if (s.image p).isSome then 2 else 1)).event 0x8001 [p, s.fld .fwStatus p 15 0, s.fld .fwStatus p 29 27]

def State.tablesRead (s : State) (p : Nat) (img : Option Image) : State :=
  match img with
  | some im => s.readTables p im.body
  | none => s

theorem State.restartDone_eq (s : State) (p : Nat) (h : s.restarting p = true) :
    s.restartDone p = (((s.restartOver p).tablesRead p (s.image p)).takesUp p (s.image p).isSome).runHeld p := by
  rw [State.restartDone, h, Bool.not_true, if_neg Bool.false_ne_true]
  rfl

theorem State.tablesRead_fw (s : State) (p : Nat) (img : Option Image) : s.Quiet (s.tablesRead p img) ∧
    (s.tablesRead p img).fw.late = s.fw.late ∧ (s.tablesRead p img).fw.errQ = s.fw.errQ ∧ (s.tablesRead p img).fw.steward = s.fw.steward := by
  cases img with
  | none => exact ⟨.refl s, rfl, rfl, rfl⟩
  | some im =>
    obtain ⟨hq, hfw⟩ := s.readTables_fw p im.body
    rw [State.tablesRead, hfw]
    exact ⟨hq, rfl, rfl, rfl⟩

section
variable (s : State) (p : Nat) (img : Bool) (hq : p = 3 → s.fw.errQ = []) (hw : p = 2 → s.fw.steward = [])
include hq hw

theorem State.takesUp_quiet (hl : s.fw.late = []) : s.Quiet (s.takesUp p img) := by
  unfold State.takesUp
  split
  · exact s.lateDone_none hl
  split
  · next h => exact s.flushReports_none (hq h)
  split
  · next h => exact s.stewardRuns_none (hw h.1)
  · exact .refl s

theorem State.takesUp_resumes : s.Resumes (s.takesUp p img) ∧ (p = 0 → (s.takesUp p img).fw.late = []) := by
  by_cases hp : p = 0
  · rw [State.takesUp, if_pos hp]
    exact ⟨s.lateDone_resumes.1, fun _ => s.lateDone_resumes.2⟩
  · refine ⟨?_, fun h => absurd h hp⟩
    rw [State.takesUp, if_neg hp]
    split
    · next h => exact (s.flushReports_none (hq h)).toResumes
    split
    · next h => exact (s.stewardRuns_none (hw h.1)).toResumes
    · exact (State.Quiet.refl s).toResumes

end

/-- A processor whose restart is complete runs its image or stands in ROM state; the stations and the stacks are as they were, and the event of
the restart has been sent. -/
theorem State.restartDone_spec (s : State) {p : Nat} (hp : p < 4) (h : s.restarting p = true) (hheld : ∀ q ∈ s.fw.held, q.key ≠ p)
    (hq : p = 3 → s.fw.errQ = []) (hw : p = 2 → s.fw.steward = []) :
    s.computeSame (s.restartDone p) ∧ (s.restartDone p).fpState p = (if (s.image p).isSome then 2 else 1) ∧
      (p = 0 → (s.restartDone p).fw.late = []) ∧
      (s.fw.late = [] → s.Sends (s.restartDone p) 0x8001 [p, s.fld .fwStatus p 15 0, s.fld .fwStatus p 29 27]) := by
  rw [s.restartDone_eq p h]
  have hkept := s.setFld_regsKept (r := .fwStatus) (rs := [.fwStatus]) (by simp) hp 31 30 (if (s.image p).isSome then 2 else 1)
  have hstate : (s.setFld .fwStatus p 31 30 (if (s.image p).isSome then 2 else 1)).fpState p = (if (s.image p).isSome then 2 else 1) := by
    refine (s.fld_setFld_self _ _ _ (by decide) (by decide)).trans ?_
    split <;> rfl
  have hfw0 : (s.setFld .fwStatus p 31 30 (if (s.image p).isSome then 2 else 1)).fw = s.fw := by simp
  have hsame : s.computeSame (s.setFld .fwStatus p 31 30 (if (s.image p).isSome then 2 else 1)) := by simp [State.computeSame]
  have hsends := (hkept.mailsAlike (by decide) (by rw [hfw0]) (by rw [hfw0])).sends_event 0x8001 [p, s.fld .fwStatus p 15 0, s.fld .fwStatus p 29 27]
  unfold State.restartOver
  generalize s.setFld .fwStatus p 31 30 (if (s.image p).isSome then 2 else 1) = t at *
  have hevent := t.event_resumes 0x8001 [p, s.fld .fwStatus p 15 0, s.fld .fwStatus p 29 27]
  have hefw := t.event_fw 0x8001 [p, s.fld .fwStatus p 15 0, s.fld .fwStatus p 29 27]
  generalize t.event 0x8001 [p, s.fld .fwStatus p 15 0, s.fld .fwStatus p 29 27] = a at *
  obtain ⟨htab, blate, berrQ, bsteward⟩ := a.tablesRead_fw p (s.image p)
  generalize a.tablesRead p (s.image p) = b at *
  have hbq : p = 3 → b.fw.errQ = [] := fun e => by rw [berrQ, hefw, hfw0]; exact hq e
  have hbw : p = 2 → b.fw.steward = [] := fun e => by rw [bsteward, hefw, hfw0]; exact hw e
  have hbl : b.fw.late = s.fw.late := by rw [blate, hefw, hfw0]
  obtain ⟨htake, clate⟩ := b.takesUp_resumes p (s.image p).isSome hbq hbw
  have hquiet := b.takesUp_quiet p (s.image p).isSome hbq hbw
  generalize b.takesUp p (s.image p).isSome = c at *
  have hcheld : c.fw.held = s.fw.held := by rw [htake.held, htab.held, hevent.held, hfw0]
  obtain ⟨hrun, dlate⟩ := c.runHeld_none (k := p) (by rw [hcheld]; exact hheld)
  have hall : t.Resumes (c.runHeld p) := ((hevent.trans htab.toResumes).trans htake).trans hrun.toResumes
  obtain ⟨hstn, hdies, hring, hmem, hrefc⟩ := hsame
  obtain ⟨kstn, kdies, kring, kmem, krefc⟩ := hall.tells.computeSame
  refine ⟨⟨kstn.trans hstn, kdies.trans hdies, kring.trans hring, kmem.trans hmem, krefc.trans hrefc⟩, ?_, fun e => dlate.trans (clate e), fun hl => ?_⟩
  · exact (hall.tells.regs.fld (by decide) hp 31 30).trans hstate
  · intro hlost hqp
    obtain ⟨e, he⟩ := hsends hlost hqp
    refine ⟨e, ?_, he.2⟩
    have hq' : a.Quiet (c.runHeld p) := (htab.trans (hquiet (hbl.trans hl))).trans hrun
    exact (hq'.lastSent _).trans he.1

end Sys2Proof.Machine
end

section
/-! SUPPORT. Polls of corrected-error counters and package faults (R28, R393). -/

namespace Sys2Proof.Machine

/-! ### Counters of corrected errors -/

/-- The counter of a unit is one of Table 15-1's four, with as many as its register has. -/
theorem ceReg_some {u : UnitRef} {r : Reg} {k : Nat} {q : Option (Nat × Nat)} (h : ceReg u = some (r, k, q)) :
    r ∈ [Reg.stnMemErr, .msErrCount, .pyFecCorr, .ethFecCorr] ∧ k = r.info.count ∧ (q = none → r.info.pair = true) := by
  unfold ceReg at h
  split at h
  case h_5 => cases h
  all_goals
    obtain ⟨rfl, rfl, rfl⟩ : _ ∧ _ ∧ _ := by simpa using h
    refine ⟨by decide, rfl, fun hq => ?_⟩
  · cases hq
  · cases hq
  · rfl
  · rfl

theorem State.ceAdd_frame (s : State) (r : Reg) (i n : Nat) (q : Option (Nat × Nat)) :
    (s.ceAdd r i n q).fw = s.fw ∧ (s.ceAdd r i n q).out = s.out ∧ (s.ceAdd r i n q).pwr = s.pwr := by
  cases q <;> simp [State.ceAdd]

theorem State.ceAdd_kept (s : State) {r : Reg} {i : Nat} (hi : i < r.info.count) (n : Nat) {q : Option (Nat × Nat)}
    (hq : q = none → r.info.pair = true) : s.RegsKept (s.ceAdd r i n q) [r] := by
  cases q with
  | none => exact s.addPair_regsKept (by simp) hi (hq rfl) n
  | some p => exact s.countFld_regsKept (by simp) hi p.1 p.2 n

/-- What Keeper has seen of a counter: its last reading and how far it has risen since the last report. -/
def State.ceSeenOf (s : State) (u : UnitRef) : Nat × Nat := Tbl.get (fun _ => (0, 0)) s.fw.ceSeen (unitKey u)

/-- How far a counter that reads `n` has risen since the last report. -/
def State.ceRise (s : State) (u : UnitRef) (n : Nat) : Nat :=
  (s.ceSeenOf u).2 + (if n < (s.ceSeenOf u).1 then n else n - (s.ceSeenOf u).1)

/-- Keeper notes a reading. -/
def State.ceNote (s : State) (u : UnitRef) (n k : Nat) : State :=
  s.fwUpd (fun f => { f with ceSeen := Tbl.put (fun _ => (0, 0)) f.ceSeen (unitKey u) (n, k) })

theorem State.ceRead_eq (s : State) (u : UnitRef) (n : Nat) :
    s.ceRead u n = if 1024 ≤ s.ceRise u n then (s.ceNote u n 0).report 4 0 u n 0 else s.ceNote u n (s.ceRise u n) := rfl

theorem State.ceNote_seen (s : State) (u : UnitRef) (n k : Nat) : (s.ceNote u n k).ceSeenOf u = (n, k) := Tbl.get_put_self _ _ _ _

/-- A counter of corrected errors is no register of a processor. -/
theorem State.ceAdd_restarting (s : State) {u : UnitRef} (n : Nat) {r : Reg} {k : Nat} {q : Option (Nat × Nat)} (hr : ceReg u = some (r, k, q))
    (hi : u.index.toNat < k) : (s.ceAdd r u.index.toNat n q).restarting 3 = s.restarting 3 := by
  obtain ⟨hmem, rfl, hq⟩ := ceReg_some hr
  have hother : Reg.fwStatus ∉ [Reg.stnMemErr, .msErrCount, .pyFecCorr, .ethFecCorr] := by decide
  have hne : Reg.fwStatus ∉ [r] := fun h => hother (List.mem_singleton.1 h ▸ hmem)
  exact congrArg (fun v => decide (v = 3)) ((s.ceAdd_kept hi n hq).fld hne (by decide) 31 30)

/-- With Keeper running, a poll counts and Keeper reads the counter. -/
theorem State.cePoll_runs (s : State) {u : UnitRef} (n : Nat) {r : Reg} {k : Nat} {q : Option (Nat × Nat)} (hr : ceReg u = some (r, k, q))
    (hi : u.index.toNat < k) (hon : bitOf s.pwr.on.toNat 12 = true) (hk : s.restarting 3 = false) :
    s.cePoll u n = (s.ceAdd r u.index.toNat n q).ceRead u ((s.ceAdd r u.index.toNat n q).ceCount r u.index.toNat q) := by
  obtain ⟨-, -, hpwr⟩ := s.ceAdd_frame r u.index.toNat n q
  rw [State.cePoll, hr]
  dsimp only
  rw [if_pos hi, hpwr, hon, s.ceAdd_restarting n hr hi, hk, Bool.not_false, Bool.and_true, if_pos rfl]

theorem State.ceAdd_mailsAlike (s : State) {u : UnitRef} (n : Nat) {r : Reg} {k : Nat} {q : Option (Nat × Nat)} (hr : ceReg u = some (r, k, q))
    (hi : u.index.toNat < k) : s.MailsAlike (s.ceAdd r u.index.toNat n q) := by
  obtain ⟨hmem, rfl, hq⟩ := ceReg_some hr
  obtain ⟨hfw, -, -⟩ := s.ceAdd_frame r u.index.toNat n q
  have hother : ∀ g ∈ mailRegs, g ∉ [Reg.stnMemErr, .msErrCount, .pyFecCorr, .ethFecCorr] := by decide
  exact (s.ceAdd_kept hi n hq).mailsAlike (fun g hg h => hother g hg (List.mem_singleton.1 h ▸ hmem)) (by rw [hfw]) (by rw [hfw])

/-! ### A package fault (R28) -/

/-- A request held on a die of a list stays held. -/
theorem State.joinFreeze_reqs (s : State) (d c bit e : Nat) : ((s.joinFreeze d c bit).die e).reqs = (s.die e).reqs := by
  unfold State.joinFreeze
  dsimp only
  split
  · rw [State.die_congr (t := s) (by simp)]
  · rw [State.die_setDie]
    split
    · next h => rw [← h]
    · rfl

theorem State.shutReq_reqs (s : State) (d bit src e : Nat) : ((s.shutReq d bit src).die e).reqs =
    if d = e ∧ (s.die d).reqs.contains ⟨bit, src⟩ = false then (s.die e).reqs ++ [⟨bit, src⟩] else (s.die e).reqs := by
  unfold State.shutReq
  split
  · next h => rw [if_neg (by rw [h]; simp)]
  · next h =>
    have hjoin := foldl_keeps (fun t => (t.die e).reqs)
      (f := fun t x => t.joinFreeze x (s.dieTime d + s.tickLen (s.netRegion d) * s.horizon d) bit) (fun t x => t.joinFreeze_reqs x _ bit e)
    refine (hjoin _ _).trans ?_
    rw [State.die_modDie]
    by_cases hde : d = e
    · rw [if_pos hde, if_pos ⟨hde, by simpa using h⟩, ← hde]
    · rw [if_neg hde, if_neg (fun hh => hde hh.1)]

/-- A request is held once made, and no request ends another. -/
theorem State.shutReq_holds (s : State) (d bit src : Nat) : ((s.shutReq d bit src).die d).reqs.contains ⟨bit, src⟩ = true ∧
    ∀ e q, (s.die e).reqs.contains q = true → ((s.shutReq d bit src).die e).reqs.contains q = true := by
  refine ⟨?_, fun e q h => ?_⟩
  · rw [State.shutReq_reqs]
    cases hc : (s.die d).reqs.contains ⟨bit, src⟩
    · simp
    · simpa using hc
  · rw [State.shutReq_reqs]
    split
    · simp at h ⊢
      exact .inl h
    · exact h

theorem State.foldl_shutReq_holds (bit src : Nat) (l : List Nat) (s : State) : ∀ d,
    d ∈ l ∨ (s.die d).reqs.contains ⟨bit, src⟩ = true → ((l.foldl (fun u d => u.shutReq d bit src) s).die d).reqs.contains ⟨bit, src⟩ = true := by
  induction l generalizing s with
  | nil => exact fun d h => h.resolve_left (fun h => nomatch h)
  | cons a l ih =>
    intro d h
    obtain ⟨hnew, hold⟩ := s.shutReq_holds a bit src
    refine ih _ d ?_
    rcases h with h | h
    · rcases List.mem_cons.1 h with rfl | h
      · exact .inr hnew
      · exact .inl h
    · exact .inr (hold d _ h)

theorem State.scope_lt (s : State) {d : Nat} (hd : d < 4) : ∀ x ∈ s.scope d, x < 4 := by
  unfold State.scope
  split
  · decide
  · rintro x hx
    rw [List.mem_singleton.1 hx]
    exact hd

/-- Of the registers, a request notes causes alone. -/
theorem State.shutReq_kept (s : State) {d : Nat} (hd : d < 4) (bit src : Nat) : s.RegsKept (s.shutReq d bit src) [.shtCause] := by
  unfold State.shutReq
  split
  · exact .of_regs rfl
  · refine .trans (t := s.modDie d _) (.of_regs rfl) (.foldl _ (fun t x hx => ?_) _)
    unfold State.joinFreeze
    dsimp only
    split
    · exact t.setReg_regsKept (by simp) (s.scope_lt hd x hx) _
    · exact .of_regs rfl

/-- The package is fault-stopped: every die holds a request. -/
def State.packageStopped (s : State) : State := (List.range 4).foldl (fun u d => u.shutReq d 12 0) s

theorem execPackageFault_on (s : State) (link : BitVec 12) (hon : bitOf s.pwr.on.toNat 12 = true) :
    exec (.packageFault link) s = .next (s.packageStopped.report 0xC 2 ⟨0xA, link⟩ 0 0) :=
  congrArg Host.Outcome.next (if_pos hon)

theorem State.packageStopped_frame (s : State) : s.packageStopped.fw = s.fw ∧ s.RegsKept s.packageStopped [.shtCause] ∧
    ∀ d < 4, (s.packageStopped.die d).reqs.contains ⟨12, 0⟩ = true := by
  obtain ⟨-, hfw, -, -, -, -, -⟩ := (State.ShutOnly.foldl (fun t d => t.shutReq_shutOnly d 12 0) (List.range 4) s).frame
  exact ⟨hfw, .foldl _ (fun t d hd => t.shutReq_kept (List.mem_range.1 hd) 12 0) s,
    fun d hd => State.foldl_shutReq_holds 12 0 _ s d (.inl (List.mem_range.2 hd))⟩

end Sys2Proof.Machine
end

section
/-! SUPPORT. The loss of the host (R356): a park is planned, the host's snapshot begun, and the part comes to rest. -/

namespace Sys2Proof.Machine

/-! ### Stations that run -/

theorem State.quarantined_congr {s t : State} {rs : List Reg} (h : s.RegsKept t rs) (h1 : Reg.stnStateEpoch ∉ rs) (h2 : Reg.stnDieEpoch ∉ rs)
    {i : Nat} (hi : i < 1024) : t.quarantined i = s.quarantined i := by
  have hd : dieOf i < 4 := by unfold dieOf; omega
  rw [State.quarantined, State.quarantined, h.fld h1 hi 15 0, h.fld h2 hd 15 0]

/-- Which stations run is told by the stations, the fuses and the state epochs. -/
theorem State.running_congr {s t : State} {rs : List Reg} (h : s.RegsKept t rs) (h1 : Reg.stnStateEpoch ∉ rs) (h2 : Reg.stnDieEpoch ∉ rs)
    (hs : t.stations = s.stations) (hf : t.fuses = s.fuses) (i : Nat) : t.running i = s.running i := by
  have hp : t.present (segOf i) = s.present (segOf i) := by rw [State.present, State.present, hf]
  rw [State.running, State.running, State.station_congr hs, hp]
  cases hpre : s.present (segOf i)
  · simp
  · have hseg : segOf i < 32 := by
      by_contra hge
      have hlt : s.fuses.segs.toNat < 2 ^ segOf i := lt_of_lt_of_le s.fuses.segs.isLt (Nat.pow_le_pow_right (by decide) (by omega))
      rw [State.present, bitOf, Nat.testBit_lt_two_pow hlt] at hpre
      cases hpre
    have hi : i < 1024 := by unfold segOf at hseg; omega
    rw [State.quarantined_congr h h1 h2 hi]

theorem State.anyRunning_congr {s t : State} {rs : List Reg} (h : s.RegsKept t rs) (h1 : Reg.stnStateEpoch ∉ rs) (h2 : Reg.stnDieEpoch ∉ rs)
    (hs : t.stations = s.stations) (hf : t.fuses = s.fuses) : t.anyRunning = s.anyRunning := by
  have hdie : t.dieRunning = s.dieRunning := funext fun d => by
    rw [State.dieRunning, State.dieRunning, State.used, State.used, hs]
    exact congrArg _ (funext fun i => by rw [State.running_congr h h1 h2 hs hf])
  rw [State.anyRunning, State.anyRunning, hdie]

/-! ### Control messages (Table 11-9) -/

/-- From `s` to `u`, control messages have been sent: nothing differs but the outputs, of which none is lost, the ports, PY_ERR, and the errors that
wait for Keeper and Steward. -/
structure State.Posted (s u : State) : Prop where
  rest : u = { s with regs := u.regs, ports := u.ports, fw := u.fw, out := u.out }
  regs : s.RegsKept u [.pyErr]
  fw : u.fw = { s.fw with raised := u.fw.raised, steward := u.fw.steward }
  out : s.out ⊆ u.out

namespace State.Posted

variable {s t u : State}

theorem refl (s : State) : s.Posted s := ⟨rfl, .of_regs rfl, rfl, List.Subset.refl _⟩

theorem trans (h : s.Posted t) (g : t.Posted u) : s.Posted u :=
  ⟨g.rest.trans (by rw [h.rest]), h.regs.trans g.regs, g.fw.trans (by rw [h.fw]), List.Subset.trans h.out g.out⟩

theorem frame (h : s.Posted u) : u.stations = s.stations ∧ u.fuses = s.fuses := by
  rw [h.rest]
  exact ⟨rfl, rfl⟩

end State.Posted

theorem State.capture_pyErr_posted (s : State) (v : Nat) : s.Posted (s.capture .pyErr 0 v) := by
  unfold State.capture
  split
  · exact .refl s
  · have hset : s.Posted (s.setReg .pyErr 0 (2 ^ 31 + v % 2 ^ 31)) :=
      ⟨rfl, s.setReg_regsKept (by simp) (by decide) _, rfl, List.Subset.refl _⟩
    refine hset.trans ?_
    generalize s.setReg .pyErr 0 (2 ^ 31 + v % 2 ^ 31) = t
    show t.Posted (t.raiseAs 5 4 0 (Reg.at .pyErr 0))
    unfold State.raiseAs
    split
    · exact ⟨rfl, .of_regs rfl, rfl, List.Subset.refl _⟩
    · exact .refl t

theorem State.tellSteward_posted (s : State) (v : Word) : s.Posted (s.tellSteward v) := by
  unfold State.tellSteward
  split
  · exact ⟨rfl, .of_regs rfl, rfl, List.subset_cons_self _ _⟩
  · exact ⟨rfl, .of_regs rfl, rfl, List.Subset.refl _⟩

theorem State.noteBad_posted (s : State) (st m : Nat) : s.Posted (s.noteBad st m) := by
  unfold State.noteBad State.pyErr
  dsimp only
  split
  · split
    · exact (s.capture_pyErr_posted _).trans (State.tellSteward_posted _ _)
    · exact s.capture_pyErr_posted _
  · exact .refl s

theorem State.enqueue_posted (s : State) (agent m : Nat) (h : Hdr) (data : List Byte) : s.Posted (s.enqueue agent m h data) := by
  unfold State.enqueue
  split
  · exact s.noteBad_posted 6 m
  · exact ⟨rfl, .of_regs rfl, rfl, List.Subset.refl _⟩

/-- A control message leaves as an output, and, for another module, on a port. -/
theorem State.sendCtrl_posted (s : State) (fp dst what : Nat) (vals : List Nat) :
    s.Posted (s.sendCtrl fp dst what vals) ∧ Out.ctrl (BitVec.ofNat 16 dst) what vals ∈ (s.sendCtrl fp dst what vals).out := by
  have hemit : s.Posted (s.emit (.ctrl (BitVec.ofNat 16 dst) what vals)) := ⟨rfl, .of_regs rfl, rfl, List.subset_cons_self _ _⟩
  have hmem : Out.ctrl (BitVec.ofNat 16 dst) what vals ∈ (s.emit (.ctrl (BitVec.ofNat 16 dst) what vals)).out := List.mem_cons_self
  have hsent : ∀ {u}, (s.emit (.ctrl (BitVec.ofNat 16 dst) what vals)).Posted u →
      s.Posted u ∧ Out.ctrl (BitVec.ofNat 16 dst) what vals ∈ u.out := fun h => ⟨hemit.trans h, h.out hmem⟩
  unfold State.sendCtrl
  dsimp only
  split
  · exact hsent (State.enqueue_posted _ _ _ _ _)
  · exact hsent (State.noteBad_posted _ _ _)
  · exact hsent (.refl _)

/-- One message of a kind to each module of a list. -/
theorem State.foldl_sendCtrl (fp what : Nat) (vals : List Nat) (l : List (BitVec 14)) (s : State) :
    let u := l.foldl (fun u m => u.sendCtrl fp (0x8000 + m.toNat) what vals) s
    s.Posted u ∧ ∀ m ∈ l, Out.ctrl (BitVec.ofNat 16 (0x8000 + m.toNat)) what vals ∈ u.out := by
  induction l generalizing s with
  | nil => exact ⟨.refl s, fun _ h => nomatch h⟩
  | cons a l ih =>
    obtain ⟨hone, hsent⟩ := s.sendCtrl_posted fp (0x8000 + a.toNat) what vals
    obtain ⟨hrest, hall⟩ := ih (s.sendCtrl fp (0x8000 + a.toNat) what vals)
    refine ⟨hone.trans hrest, fun m hm => ?_⟩
    rcases List.mem_cons.1 hm with rfl | hm
    · exact hrest.out hsent
    · exact hall m hm

/-! ### The park is planned (R356, R364) -/

/-- The loss is noted in MBX_STATUS. -/
def State.lostNoted (s : State) : State := s.setFld .mbxStatus 0 30 30 1

theorem State.lostNoted_frame (s : State) : s.RegsKept s.lostNoted [.mbxStatus] ∧ s.lostNoted.bit .mbxStatus 0 30 = true ∧
    s.lostNoted.fw = s.fw ∧ s.lostNoted.stations = s.stations ∧ s.lostNoted.fuses = s.fuses ∧ s.lostNoted.pwr = s.pwr := by
  refine ⟨s.setFld_regsKept (by simp) (by decide) _ _ _, (s.bit_setFld _ _ _ (by decide) (by decide)).trans (if_pos (by decide)), ?_⟩
  simp [State.lostNoted]

/-- From `s` to `u` the park of a part is under way: the stations are as they were, and of the registers the holds of the dies, their causes and
PY_ERR alone may differ. -/
structure State.Parks (s u : State) : Prop where
  regs : s.RegsKept u [.pyErr, .shtCtrl, .shtCause]
  stations : u.stations = s.stations
  fuses : u.fuses = s.fuses

theorem State.parkBy_posted {s u : State} {n : Nat} (h : (s.parkBy n).Posted u) : s.Parks u ∧ u.fw.parkDue = true ∧ u.fw.parkAt = n := by
  obtain ⟨hstn, hfus⟩ := h.frame
  have hkept : s.RegsKept (s.parkBy n) [.pyErr] := .of_regs rfl
  exact ⟨⟨(hkept.trans h.regs).mono (by simp), hstn, hfus⟩, by rw [h.fw]; rfl, by rw [h.fw]; rfl⟩

/-- The lead of a group names the boundary to every other member. -/
theorem State.nameBoundary_parks (s : State) (members : List (BitVec 14)) (lead : BitVec 14) :
    let u := s.nameBoundary members lead
    s.Parks u ∧ u.fw.parkDue = true ∧ u.fw.parkAt = s.fw.stepCnt + 2 ∧
      ∀ m ∈ members, m ≠ lead → Out.ctrl (BitVec.ofNat 16 (0x8000 + m.toNat)) 7 [s.fw.stepCnt + 2] ∈ u.out := by
  intro u
  obtain ⟨hposted, hsent⟩ := State.foldl_sendCtrl 1 7 [s.fw.stepCnt + 2] (members.filter (· ≠ lead)) (s.parkBy (s.fw.stepCnt + 2))
  obtain ⟨hparks, hdue, hat⟩ := State.parkBy_posted hposted
  exact ⟨hparks, hdue, hat, fun m hm hne => hsent m (List.mem_filter.2 ⟨hm, by simpa using hne⟩)⟩

/-- What a running part does by its group. -/
theorem State.groupPark_parks (s : State) : s.Parks s.groupPark ∧ (s.fw.group = none → s.groupPark.fw.parkDue = true) ∧
    ∀ id members lead, s.fw.group = some (id, members, lead) →
      (s.ownLogical = lead → s.groupPark.fw.parkDue = true ∧ s.groupPark.fw.parkAt = s.fw.stepCnt + 2 ∧
        ∀ m ∈ members, m ≠ lead → Out.ctrl (BitVec.ofNat 16 (0x8000 + m.toNat)) 7 [s.fw.stepCnt + 2] ∈ s.groupPark.out) ∧
      (s.ownLogical ≠ lead → s.groupPark.fw.parkDue = s.fw.parkDue ∧
        Out.ctrl (BitVec.ofNat 16 (0x8000 + lead.toNat)) 6 [s.fw.stepCnt] ∈ s.groupPark.out) := by
  unfold State.groupPark
  cases hg : s.fw.group with
  | none =>
    obtain ⟨hparks, hdue, -⟩ := State.parkBy_posted (.refl (s.parkBy 0))
    exact ⟨hparks, fun _ => hdue, fun _ _ _ h => nomatch h⟩
  | some g =>
    obtain ⟨id, members, lead⟩ := g
    dsimp only
    by_cases hl : s.ownLogical = lead
    · obtain ⟨hparks, hdue, hat, hsent⟩ := s.nameBoundary_parks members lead
      rw [if_pos hl]
      refine ⟨hparks, fun h => (nomatch h), ?_⟩
      rintro _ _ _ ⟨⟩
      exact ⟨fun _ => ⟨hdue, hat, hsent⟩, fun h => absurd hl h⟩
    · obtain ⟨hposted, hsent⟩ := s.sendCtrl_posted 1 (0x8000 + lead.toNat) 6 [s.fw.stepCnt]
      obtain ⟨hstn, hfus⟩ := hposted.frame
      rw [if_neg hl]
      refine ⟨⟨hposted.regs.mono (by simp), hstn, hfus⟩, fun h => (nomatch h), ?_⟩
      rintro _ _ _ ⟨⟩
      exact ⟨fun h => absurd h hl, fun _ => ⟨by rw [hposted.fw], hsent⟩⟩

/-! Holds (R243) -/

theorem State.fwHold_frame (s : State) {d : Nat} (hd : d < 4) : s.ShutOnly (s.fwHold d) ∧ s.RegsKept (s.fwHold d) [.shtCause] := by
  unfold State.fwHold
  split
  · exact ⟨s.shutReq_shutOnly d 11 0, s.shutReq_kept hd 11 0⟩
  · exact ⟨rfl, .of_regs rfl⟩

theorem State.setReg_shutOnly (s : State) (r : Reg) (i v : Nat) : s.ShutOnly (s.setReg r i v) := rfl

/-- One die is held. -/
def State.dieHeld (s : State) (d : Nat) : State := (s.setFld .shtCtrl d 14 14 1).fwHold d

theorem State.dieHeld_frame (s : State) {d : Nat} (hd : d < 4) : s.ShutOnly (s.dieHeld d) ∧ s.RegsKept (s.dieHeld d) [.pyErr, .shtCtrl, .shtCause] ∧
    ∀ e < 4, (s.dieHeld d).bit .shtCtrl e 14 = (decide (d = e) || s.bit .shtCtrl e 14) := by
  obtain ⟨hshut, hkept⟩ := (s.setFld .shtCtrl d 14 14 1).fwHold_frame hd
  have hset : s.RegsKept (s.setFld .shtCtrl d 14 14 1) [.pyErr, .shtCtrl, .shtCause] := s.setFld_regsKept (by simp) hd _ _ _
  have hown : (s.setFld .shtCtrl d 14 14 1).bit .shtCtrl d 14 = true := (s.bit_setFld _ _ _ (by decide) (by decide)).trans (if_pos (by decide))
  refine ⟨State.ShutOnly.trans (s.setReg_shutOnly _ _ _) hshut, hset.trans (hkept.mono (by simp)), fun e he => ?_⟩
  refine (hkept.bit (by decide) he 14).trans ?_
  by_cases hde : d = e
  · subst hde
    rw [hown]
    simp
  · have hne : Reg.at .shtCtrl d ≠ Reg.at .shtCtrl e := fun h => hde (Reg.at_inj.1 h)
    rw [State.bit_congr (s.regAt_setFld_ne _ _ _ _ hne)]
    simp [hde]

theorem State.foldl_dieHeld (l : List Nat) (hl : ∀ d ∈ l, d < 4) (s : State) : s.ShutOnly (l.foldl State.dieHeld s) ∧
    s.RegsKept (l.foldl State.dieHeld s) [.pyErr, .shtCtrl, .shtCause] ∧
    ∀ e < 4, e ∈ l ∨ s.bit .shtCtrl e 14 = true → (l.foldl State.dieHeld s).bit .shtCtrl e 14 = true := by
  induction l generalizing s with
  | nil => exact ⟨rfl, .of_regs rfl, fun e _ h => h.resolve_left (fun h => nomatch h)⟩
  | cons a l ih =>
    obtain ⟨hshut, hkept, hbit⟩ := s.dieHeld_frame (hl a List.mem_cons_self)
    obtain ⟨gshut, gkept, gbit⟩ := ih (fun d hd => hl d (List.mem_cons_of_mem _ hd)) (s.dieHeld a)
    refine ⟨hshut.trans gshut, hkept.trans gkept, fun e he h => gbit e he ?_⟩
    rw [hbit e he]
    rcases h with h | h
    · rcases List.mem_cons.1 h with rfl | h
      · exact .inr (by simp)
      · exact .inl h
    · exact .inr (by simp [h])

/-- A park of a part that stands still holds its dies at once. -/
theorem State.holdAll_parks (s : State) : let u := (s.parkBy 0).holdAll true
    s.Parks u ∧ u.fw.parkDue = true ∧ ∀ d < 4, s.regionOn (2 * d) = true → u.bit .shtCtrl d 14 = true := by
  intro u
  have hu : u = ((List.range 4).filter (fun d => s.regionOn (2 * d))).foldl State.dieHeld (s.parkBy 0) := rfl
  have hlt : ∀ d ∈ (List.range 4).filter (fun d => s.regionOn (2 * d)), d < 4 := fun d hd => List.mem_range.1 (List.mem_filter.1 hd).1
  obtain ⟨hshut, hkept, hbit⟩ := State.foldl_dieHeld _ hlt (s.parkBy 0)
  rw [← hu] at hshut hkept hbit
  obtain ⟨-, hfw, hstn, -, hfus, -, -⟩ := hshut.frame
  refine ⟨⟨hkept, hstn, hfus⟩, by rw [hfw]; rfl, fun d hd hon => hbit d hd (.inl ?_)⟩
  exact List.mem_filter.2 ⟨List.mem_range.2 hd, hon⟩

/-! ### The host's snapshot is begun (R399, R403) -/

/-- From `s` to `u` Keeper has worked on a snapshot: nothing differs but what the processors keep, what they send, and of the registers
SNAP_STATUS, FW_STATUS and those that messages to the host change; no park is planned or ended. -/
structure State.Snaps (s u : State) : Prop where
  tells : s.Tells u [.fwStatus, .snapStatus]
  park : u.fw.parkDue = s.fw.parkDue

namespace State.Snaps

variable {s t u : State}

theorem refl (s : State) : s.Snaps s := ⟨.of_regs rfl, rfl⟩

theorem trans (h : s.Snaps t) (g : t.Snaps u) : s.Snaps u := ⟨h.tells.trans g.tells, g.park.trans h.park⟩

theorem fwUpd (s : State) {f : FwSt → FwSt} (h : (f s.fw).parkDue = s.fw.parkDue) : s.Snaps (s.fwUpd f) := ⟨.of_regs rfl, h⟩

theorem setReg (s : State) (v : Nat) : s.Snaps (s.setReg .snapStatus 0 v) := ⟨.of_setReg (by simp) (by decide) (by decide) v, rfl⟩

theorem report (s : State) (cls sev : Nat) (u : UnitRef) (a b : Nat) : s.Snaps (s.report cls sev u a b) := by
  obtain ⟨hrest, hregs, hflags⟩ := s.report_tells cls sev u a b
  exact ⟨⟨hrest, hregs.mono (by simp), hflags⟩, s.report_parkDue cls sev u a b⟩

end State.Snaps

theorem State.nandUpd_snaps (s : State) (f : NandSt → NandSt) : s.Snaps (s.nandUpd f) := .fwUpd s rfl

theorem State.onlyIf_snaps (s : State) (c : Bool) {f : State → State} (h : s.Snaps (f s)) : s.Snaps (s.onlyIf c f) := by
  unfold State.onlyIf
  split
  · exact h
  · exact .refl s

theorem State.moveBlock_snaps (s : State) (b : Nat) : s.Snaps (s.moveBlock b) := by
  unfold State.moveBlock
  split
  · exact s.nandUpd_snaps _
  · exact .refl s

theorem State.moveCold_snaps (s : State) : s.Snaps s.moveCold := by
  unfold State.moveCold
  dsimp only
  split
  · exact s.onlyIf_snaps _ (s.moveBlock_snaps _)
  · exact .refl s

theorem State.nandWear_snaps (s : State) : s.Snaps s.nandWear := by
  unfold State.nandWear
  exact (s.nandUpd_snaps _).trans (State.onlyIf_snaps _ _ (.report _ _ _ _ _ _))

theorem State.eraseSlot_snaps (s : State) (k : Nat) : s.Snaps (s.eraseSlot k) := by
  unfold State.eraseSlot
  exact ((s.nandUpd_snaps _).trans (State.moveCold_snaps _)).trans (State.nandWear_snaps _)

theorem State.buddyQueue_snaps (s : State) (ps : List Nat) : s.Snaps (s.buddyQueue ps) ∧ (s.buddyQueue ps).regs = s.regs := by
  unfold State.buddyQueue
  split
  · exact ⟨.fwUpd s rfl, rfl⟩
  · exact ⟨.refl s, rfl⟩

theorem State.regs_fwUpd (s : State) (f : FwSt → FwSt) : (s.fwUpd f).regs = s.regs := rfl

/-- SNAP_STATUS names the state of a snapshot and its slot. -/
theorem State.snapState_snaps (s : State) (st slot : Nat) : s.Snaps (s.snapState st slot 0) := by
  unfold State.snapState
  exact .setReg s _

theorem State.snapState_state (s : State) {st : Nat} (h : st < 4) (slot : Nat) : (s.snapState st slot 0).fld .snapStatus 0 31 30 = st := by
  rw [State.snapState, State.fld_setReg _ _ _ _ (by decide), bitsOf_eq_div_mod]
  have hlow : s.fld .snapStatus 0 15 0 < 2 ^ 16 := Nat.mod_lt _ (by decide)
  omega

/-- At its point a snapshot is under way, or, in a store that takes no more, stands as if it were. -/
theorem State.snapPoint_snaps (s : State) : s.Snaps s.snapPoint ∧ s.snapPoint.fld .snapStatus 0 31 30 = 2 := by
  unfold State.snapPoint
  dsimp only
  split
  · exact ⟨s.snapState_snaps _ _, s.snapState_state (by decide) _⟩
  · have herase := s.eraseSlot_snaps (s.fld .snapStatus 0 29 24)
    generalize s.eraseSlot (s.fld .snapStatus 0 29 24) = a at *
    have hslot : a.Snaps (a.putSlot (s.fld .snapStatus 0 29 24) s.snapNow) := .fwUpd a rfl
    generalize a.putSlot (s.fld .snapStatus 0 29 24) s.snapNow = b at *
    have hbegun := State.Snaps.fwUpd b (f := fun f =>
      { f with snapSlot := s.fld .snapStatus 0 29 24, uncopied := s.snapUncopied, reserve := [] }) rfl
    generalize b.fwUpd _ = c at *
    have hzero : c.Snaps (c.setFld .snapStatus 0 15 0 0) := by unfold State.setFld; exact .setReg c _
    generalize c.setFld .snapStatus 0 15 0 0 = d at *
    have hstate : d.Snaps (d.snapState 2 (s.fld .snapStatus 0 29 24) 0) := d.snapState_snaps _ _
    have htwo := d.snapState_state (st := 2) (by decide) (s.fld .snapStatus 0 29 24)
    generalize d.snapState 2 (s.fld .snapStatus 0 29 24) 0 = e at *
    obtain ⟨hqueue, hqregs⟩ := e.buddyQueue_snaps [headerPage]
    refine ⟨((((herase.trans hslot).trans hbegun).trans hzero).trans hstate).trans hqueue, ?_⟩
    exact (State.fld_congr (State.regAt_congr hqregs _ _) 31 30).trans htwo

/-- A snapshot is armed for a slot. -/
def State.snapArmed (s : State) (slot : Nat) (cmd : Option Nat) : State := (s.snapState 1 slot 0).fwUpd (fun f => { f with snapCmd := cmd })

theorem State.snapArm_eq (s : State) (slot : Nat) (cmd : Option Nat) : s.snapArm slot cmd =
    if s.bit .snapCtrl 0 31 && s.anyRunning then s
    else if (s.snapArmed slot cmd).anyRunning then s.snapArmed slot cmd else (s.snapArmed slot cmd).snapReach := rfl

theorem State.snapArmed_frame (s : State) (slot : Nat) (cmd : Option Nat) : s.Snaps (s.snapArmed slot cmd) ∧
    (s.snapArmed slot cmd).fw.parkAt = s.fw.parkAt ∧ (s.snapArmed slot cmd).out = s.out ∧ (s.snapArmed slot cmd).fld .snapStatus 0 31 30 = 1 ∧
    (s.snapArmed slot cmd).anyRunning = s.anyRunning := by
  have harm : s.Snaps (s.snapArmed slot cmd) := (s.snapState_snaps 1 slot).trans (.fwUpd _ rfl)
  obtain ⟨hstn, -, hfus, -⟩ := harm.tells.frame
  refine ⟨harm, ?_, ?_, ?_, State.anyRunning_congr harm.tells.regs (by decide) (by decide) hstn hfus⟩
  · simp [State.snapArmed, State.snapState, State.fwUpd]
  · simp [State.snapArmed, State.snapState, State.fwUpd]
  · rw [State.snapArmed, State.fld_congr (State.regAt_congr (State.regs_fwUpd _ _) _ _)]
    exact s.snapState_state (by decide) slot

/-- A snapshot that may be armed is armed, and with no station running it reaches its point at once. -/
theorem State.snapArm_snaps (s : State) (slot : Nat) (cmd : Option Nat) : s.Snaps (s.snapArm slot cmd) ∧
    (s.anyRunning = true → (s.snapArm slot cmd).fw.parkAt = s.fw.parkAt ∧ (s.snapArm slot cmd).out = s.out) ∧
    (s.bit .snapCtrl 0 31 = false ∨ s.anyRunning = false → (s.snapArm slot cmd).fld .snapStatus 0 31 30 ≠ 0) := by
  obtain ⟨harm, hat, hout, hone, hrun⟩ := s.snapArmed_frame slot cmd
  rw [s.snapArm_eq, hrun]
  split
  · next h =>
    obtain ⟨hnow, hr⟩ := Bool.and_eq_true_iff.1 h
    exact ⟨.refl s, fun _ => ⟨rfl, rfl⟩, fun hn => by rw [hnow, hr] at hn; simp at hn⟩
  split
  · exact ⟨harm, fun _ => ⟨hat, hout⟩, fun _ => by rw [hone]; decide⟩
  · next hstill =>
    obtain ⟨hpoint, htwo⟩ := (s.snapArmed slot cmd).snapPoint_snaps
    rw [State.snapReach, if_pos hone]
    exact ⟨harm.trans hpoint, fun hr => absurd hr hstill, fun _ => by rw [htwo]; decide⟩

end Sys2Proof.Machine
end

section
/-! SUPPORT. A host that is lost (R356): the park is planned, the host's snapshot begun, and the part parks once it stands still. -/

namespace Sys2Proof.Machine

/-! ### The loss is noted -/

/-- The park that the loss brings: a running part parks with its group, another one at once. -/
def State.parkPlanned (s : State) : State := if s.anyRunning then s.groupPark else (s.parkBy 0).holdAll true

/-- The host's snapshot is begun where the host has asked for it. -/
def State.lossSnap (s : State) : State := if s.bit .mbxCtrl 0 16 && s.mirrorIdle then s.snapArm (s.rotate ownSlots) none else s

theorem State.hostLost_eq (s : State) (h : s.bit .mbxStatus 0 30 = false) : s.hostLost = s.lostNoted.parkPlanned.lossSnap := by
  rw [State.hostLost, h, if_neg Bool.false_ne_true]
  rfl

theorem State.parkPlanned_parks (s : State) : s.Parks s.parkPlanned := by
  unfold State.parkPlanned
  split
  · exact s.groupPark_parks.1
  · exact s.holdAll_parks.1

/-- With no station running, or in no group, the part is to park. -/
theorem State.parkPlanned_due (s : State) (h : s.anyRunning = false ∨ s.fw.group = none) : s.parkPlanned.fw.parkDue = true := by
  unfold State.parkPlanned
  split
  · next hr => exact s.groupPark_parks.2.1 (h.resolve_left (by rw [hr]; decide))
  · exact s.holdAll_parks.2.1

theorem State.parkPlanned_running (s : State) (h : s.anyRunning = true) : s.parkPlanned = s.groupPark := if_pos h

theorem State.parkPlanned_holds (s : State) (h : s.anyRunning = false) {d : Nat} (hd : d < 4) (hon : s.regionOn (2 * d) = true) :
    s.parkPlanned.bit .shtCtrl d 14 = true := by
  rw [State.parkPlanned, h, if_neg Bool.false_ne_true]
  exact s.holdAll_parks.2.2 d hd hon

theorem State.Parks.anyRunning {s u : State} (h : s.Parks u) : u.anyRunning = s.anyRunning :=
  State.anyRunning_congr h.regs (by decide) (by decide) h.stations h.fuses

theorem State.lossSnap_snaps (s : State) : s.Snaps s.lossSnap ∧
    (s.anyRunning = true → s.lossSnap.fw.parkAt = s.fw.parkAt ∧ s.lossSnap.out = s.out) ∧
    (s.bit .mbxCtrl 0 16 = true → s.mirrorIdle = true → s.bit .snapCtrl 0 31 = false ∨ s.anyRunning = false →
      s.lossSnap.fld .snapStatus 0 31 30 ≠ 0) := by
  obtain ⟨hsnaps, hrun, hstate⟩ := s.snapArm_snaps (s.rotate ownSlots) none
  unfold State.lossSnap
  split
  · exact ⟨hsnaps, hrun, fun _ _ => hstate⟩
  · next h => exact ⟨.refl s, fun _ => ⟨rfl, rfl⟩, fun hc hm => absurd (by rw [hc, hm]; rfl) h⟩

/-- What the loss of the host brings, with the firmware domain powered. -/
theorem State.hostLost_spec (s : State) (h : s.bit .mbxStatus 0 30 = false) : let u := s.hostLost
    u.bit .mbxStatus 0 30 = true ∧ ((s.anyRunning = false ∨ s.fw.group = none) → u.fw.parkDue = true) ∧
    (∀ id members lead, s.anyRunning = true → s.fw.group = some (id, members, lead) →
      (s.ownLogical = lead → u.fw.parkDue = true ∧ u.fw.parkAt = s.fw.stepCnt + 2 ∧
        ∀ m ∈ members, m ≠ lead → Out.ctrl (BitVec.ofNat 16 (0x8000 + m.toNat)) 7 [s.fw.stepCnt + 2] ∈ u.out) ∧
      (s.ownLogical ≠ lead → u.fw.parkDue = s.fw.parkDue ∧ Out.ctrl (BitVec.ofNat 16 (0x8000 + lead.toNat)) 6 [s.fw.stepCnt] ∈ u.out)) ∧
    (s.anyRunning = false → ∀ d < 4, s.regionOn (2 * d) = true → u.bit .shtCtrl d 14 = true) ∧
    (s.bit .mbxCtrl 0 16 = true → s.mirrorIdle = true → (s.bit .snapCtrl 0 31 = false ∨ s.anyRunning = false) →
      u.fld .snapStatus 0 31 30 ≠ 0) := by
  obtain ⟨nkept, nbit, nfw, nstn, nfus, npwr⟩ := s.lostNoted_frame
  have nrun : s.lostNoted.anyRunning = s.anyRunning := State.anyRunning_congr nkept (by decide) (by decide) nstn nfus
  have nown : s.lostNoted.ownLogical = s.ownLogical := congrArg (BitVec.ofNat 14) (nkept.fld (by decide) (by decide) 13 0)
  have non : ∀ d, s.lostNoted.regionOn d = s.regionOn d := fun d => by rw [State.regionOn, State.regionOn, npwr]
  have hparks := s.lostNoted.parkPlanned_parks
  have hdue := s.lostNoted.parkPlanned_due
  have hgroup := s.lostNoted.parkPlanned_running
  have hholds := fun hr d => s.lostNoted.parkPlanned_holds hr (d := d)
  obtain ⟨-, -, hmember⟩ := s.lostNoted.groupPark_parks
  obtain ⟨hsnaps, hquiet, hstate⟩ := s.lostNoted.parkPlanned.lossSnap_snaps
  rw [hparks.anyRunning, nrun] at hquiet hstate
  simp only [nrun, nfw, nown, non] at hdue hgroup hholds hmember
  rw [s.hostLost_eq h]
  intro u
  refine ⟨?_, fun hc => hsnaps.park.trans (hdue hc), fun id members lead hr hg => ?_, fun hr d hd hon => ?_, fun hc hm hr => hstate ?_ ?_ ?_⟩
  · exact (hsnaps.tells.flags 30 (by decide) (by decide)).trans ((hparks.regs.bit (by decide) (by decide) 30).trans nbit)
  · obtain ⟨hlead, hother⟩ := hmember id members lead hg
    obtain ⟨uat, uout⟩ := hquiet hr
    rw [← hgroup hr] at hlead hother
    refine ⟨fun hl => ?_, fun hl => ?_⟩
    · obtain ⟨pdue, pat, psent⟩ := hlead hl
      exact ⟨hsnaps.park.trans pdue, uat.trans pat, fun m hm hne => by rw [uout]; exact psent m hm hne⟩
    · obtain ⟨pdue, psent⟩ := hother hl
      exact ⟨hsnaps.park.trans pdue, by rw [uout]; exact psent⟩
  · exact (hsnaps.tells.regs.bit (by decide) hd 14).trans (hholds hr d hd hon)
  · exact ((hparks.regs.bit (by decide) (by decide) 16).trans (nkept.bit (by decide) (by decide) 16)).trans hc
  · rw [← hm, State.mirrorIdle, State.mirrorIdle, hparks.regs.fld (by decide) (by decide), nkept.fld (by decide) (by decide)]
  · exact hr.imp_left ((hparks.regs.bit (by decide) (by decide) 31).trans (nkept.bit (by decide) (by decide) 31)).trans

/-! ### The part parks -/

/-- The part comes to rest where it was awake. -/
def State.parkRests (s : State) : State := if s.idleState = 0 then s.enterIdle .twilight 0 else s

/-- The part is parked. -/
def State.parked (s : State) : State := (s.parkRests.setFld .mbxStatus 0 31 31 1).fwUpd (fun f => { f with parkDue := false })

theorem execHostLossPark_due (s : State) (hd : s.fw.parkDue = true) (hs : s.parkedStill = true) :
    exec .hostLossPark s = .next (s.parked.event 0x8004 [s.fw.stepCnt]) :=
  congrArg Host.Outcome.next (if_pos (by rw [hd, hs]; rfl))

theorem execHostLossPark_waits (s : State) (h : s.fw.parkDue = false ∨ s.parkedStill = false) : exec .hostLossPark s = .next s :=
  congrArg Host.Outcome.next (if_neg (by rcases h with h | h <;> simp [h]))

theorem State.rest_twilight (s : State) : s.rest .twilight = s.setReg .pwrState 0 (2 ^ 30 + s.fld .pwrState 0 3 0) := rfl

/-- A part in Twilight keeps all its state. -/
theorem State.rest_twilight_frame (s : State) : s.RegsKept (s.rest .twilight) [.pwrState, .pwrWakeLast] ∧ (s.rest .twilight).fw = s.fw ∧
    (s.rest .twilight).idleState = 1 := by
  rw [s.rest_twilight]
  refine ⟨s.setReg_regsKept (by simp) (by decide) _, by simp, ?_⟩
  rw [State.idleState, State.fld_setReg _ _ _ _ (by decide), bitsOf_eq_div_mod]
  have hlow : s.fld .pwrState 0 3 0 < 2 ^ 4 := Nat.mod_lt _ (by decide)
  omega

theorem State.wakeSeen_frame (s : State) : s.wakeSeen.regs = s.regs ∧ s.wakeSeen.fw = s.fw := ⟨rfl, rfl⟩

theorem State.wakeNote_frame (s : State) (abort : Bool) (src st : Nat) :
    s.RegsKept (s.wakeNote abort src st).wakeSeen [.pwrState, .pwrWakeLast] ∧ (s.wakeNote abort src st).wakeSeen.fw = s.fw := by
  have hnote : s.RegsKept (s.wakeNote abort src st) [.pwrState, .pwrWakeLast] := by
    unfold State.wakeNote
    exact s.setReg_regsKept (by simp) (by decide) _
  obtain ⟨hregs, hfw⟩ := (s.wakeNote abort src st).wakeSeen_frame
  exact ⟨hnote.trans (.of_regs hregs), hfw.trans (by simp [State.wakeNote])⟩

/-- An entry into Twilight, abandoned or not, changes PWR_STATE and PWR_WAKE_LAST alone of the registers, and nothing that the processors keep. -/
theorem State.enterTwilight_frame (s : State) : s.RegsKept (s.enterIdle .twilight 0) [.pwrState, .pwrWakeLast] ∧
    (s.enterIdle .twilight 0).fw = s.fw ∧
    (s.wakeLevels &&& s.fld .pwrWakeEn 0 4 0 = 0 → (s.enterIdle .twilight 0).idleState = 1) := by
  obtain ⟨rkept, rfw, ridle⟩ := s.rest_twilight_frame
  unfold State.enterIdle
  dsimp only
  split
  · next hon =>
    obtain ⟨wkept, wfw⟩ := s.wakeNote_frame true (wakeable (idleCode .twilight) ((0 ||| s.wakeLevels) &&& s.fld .pwrWakeEn 0 4 0)) (idleCode .twilight)
    exact ⟨wkept, wfw, fun h => absurd (by rw [Nat.zero_or, h]; rfl) hon⟩
  · exact ⟨rkept, rfw, fun _ => ridle⟩

theorem State.parkRests_frame (s : State) : s.RegsKept s.parkRests [.pwrState, .pwrWakeLast] ∧ s.parkRests.fw = s.fw ∧
    (s.idleState = 0 → s.wakeLevels &&& s.fld .pwrWakeEn 0 4 0 = 0 → s.parkRests.idleState = 1) := by
  unfold State.parkRests
  split
  · obtain ⟨hkept, hfw, hidle⟩ := s.enterTwilight_frame
    exact ⟨hkept, hfw, fun _ => hidle⟩
  · next h => exact ⟨.of_regs rfl, rfl, fun h0 => absurd h0 h⟩

theorem State.parked_frame (s : State) : s.parked.fw = { s.fw with parkDue := false } ∧ s.parked.bit .mbxStatus 0 31 = true ∧
    s.parked.bit .mbxStatus 0 30 = s.bit .mbxStatus 0 30 ∧
    (s.idleState = 0 → s.wakeLevels &&& s.fld .pwrWakeEn 0 4 0 = 0 → s.parked.idleState = 1) := by
  obtain ⟨hkept, hfw, hidle⟩ := s.parkRests_frame
  have hbit : ∀ b < 32, s.parked.bit .mbxStatus 0 b = if 31 ≤ b ∧ b ≤ 31 then bitOf 1 (b - 31) else s.parkRests.bit .mbxStatus 0 b :=
    fun b hb => by
      rw [State.parked, State.bit_congr (State.regAt_congr (State.regs_fwUpd _ _) _ _)]
      exact s.parkRests.bit_setFld _ _ _ (by decide) hb
  refine ⟨?_, (hbit 31 (by decide)).trans (if_pos (by decide)), ?_, fun h0 hw => ?_⟩
  · rw [State.parked, State.fwUpd, State.setFld, State.setReg, State.setRegAt, hfw]
  · exact ((hbit 30 (by decide)).trans (if_neg (by decide))).trans (hkept.bit (by decide) (by decide) 30)
  · have hset := s.parkRests.setFld_regsKept (r := .mbxStatus) (rs := [.mbxStatus]) (by simp) (i := 0) (by decide) 31 31 1
    have hall := hset.trans (t := s.parkRests.setFld .mbxStatus 0 31 31 1) (u := s.parked) (.of_regs (State.regs_fwUpd _ _))
    exact (hall.fld (r := .pwrState) (by decide) (by decide) 31 30).trans (hidle h0 hw)

/-- The part parks, and the event of it waits for a session where the host is lost. -/
theorem State.parked_event (s : State) : let u := s.parked.event 0x8004 [s.fw.stepCnt]
    u.bit .mbxStatus 0 31 = true ∧ u.fw.parkDue = false ∧
    (s.idleState = 0 → s.wakeLevels &&& s.fld .pwrWakeEn 0 4 0 = 0 → u.idleState = 1) ∧
    (s.bit .mbxStatus 0 30 = true → s.fw.queued.length < 4096 → ∃ e, u.fw.queued = s.fw.queued ++ [.event s.fw.lastPort e] ∧
      e.code = 0x8004 ∧ e.num = s.fw.evNext ∧ e.load = [s.fw.stepCnt]) := by
  intro u
  obtain ⟨hfw, hparked, hlost, hidle⟩ := s.parked_frame
  obtain ⟨-, tregs, tflags⟩ := s.parked.event_tells 0x8004 [s.fw.stepCnt] (rs := [])
  have ufw := s.parked.event_fw 0x8004 [s.fw.stepCnt]
  refine ⟨(tflags 31 (by decide) (by decide)).trans hparked, ?_, fun h0 hw => (tregs.fld (by decide) (by decide) 31 30).trans (hidle h0 hw),
    fun hl hroom => ⟨s.parked.eventOf 0x8004 [s.fw.stepCnt], ?_, rfl, ?_, rfl⟩⟩
  · rw [ufw, hfw]
  · rw [s.parked.event_queued 0x8004 [s.fw.stepCnt] (hlost.trans hl) hparked (by rw [hfw]; exact hroom), hfw]
  · show s.parked.fw.evNext = s.fw.evNext
    rw [hfw]

end Sys2Proof.Machine
end

section
/-! ## Activities, restarts, reports and parks (O55)

Each clause of the statement is a theorem of its own; the last one puts them together. -/

namespace Sys2Proof.Machine

theorem State.computeSame_of_taskEnded {s u : State} {q : Nat × Instr} (h : (s.taskEnded q).computeSame u) : s.computeSame u := by
  obtain ⟨hstn, hdies, hring, hmem, hrefc⟩ := h
  exact ⟨hstn, hdies, hring, hmem, hrefc⟩

section
variable {s : State} {seq : BitVec 32} {c : Instr} (h : s.fw.tasks.find? (fun q => q.1 = seq.toNat) = some (seq.toNat, c))
include h

/-- An activity that fails is reported with its status. -/
theorem State.activityEnd_failed_spec {st : BitVec 16} (hst : st ≠ 0) : let u := s.activityEnd seq.toNat 0 st.toNat
    s.computeSame u ∧ u.fw.tasks = (s.taskEnded (seq.toNat, c)).fw.tasks ∧ s.Sends u 0x8002 [seq.toNat, 0, st.toNat] := by
  have hne : st.toNat ≠ 0 := fun h0 => hst (BitVec.eq_of_toNat_eq h0)
  intro u
  have hu : u = (s.taskEnded (seq.toNat, c)).event 0x8002 ([seq.toNat, 0, st.toNat] ++ []) :=
    (State.activityEnd_failed h hne).trans (State.activityDone_eq _ _ _ _ _)
  rw [hu]
  exact ⟨State.computeSame_of_taskEnded (State.event_tells _ _ _ (rs := [])).computeSame, by rw [State.event_fw], (s.taskEnded_mailsAlike _).sends_event _ _⟩

/-- What an activity did when it ends well is reported. -/
theorem State.activityEnd_event : s.activityEnd seq.toNat 0 0 =
    ((s.taskEnded (seq.toNat, c)).taskDone c).1.event 0x8002
      ([seq.toNat, 0, ((s.taskEnded (seq.toNat, c)).taskDone c).2.1] ++ ((s.taskEnded (seq.toNat, c)).taskDone c).2.2) :=
  (State.activityEnd_done h).trans (State.activityDone_eq _ _ _ _ _)

end

section
variable {s : State} {seq : BitVec 32} {a : TcsHdr} {d : BinDecl} {banks : List BankDesc}

/-- A load whose declaration is refused at its end takes no force, and the refusal is reported. -/
theorem State.activityEnd_refused {r : Nat × List Nat} (h : s.fw.tasks.find? (fun q => q.1 = seq.toNat) = some (seq.toNat, .binLoad a d banks))
    (hr : (s.taskEnded (seq.toNat, .binLoad a d banks)).declRefused d banks = some r) : let u := s.activityEnd seq.toNat 0 0
    s.computeSame u ∧ u.fw.binary = s.fw.binary ∧ s.Sends u 0x8002 ([seq.toNat, 0, r.1] ++ r.2) := by
  have hdone : (s.taskEnded (seq.toNat, .binLoad a d banks)).taskDone (.binLoad a d banks) = _ := State.loadDone_refused _ _ _ hr
  intro u
  have hu : u = _ := State.activityEnd_event h
  rw [hdone] at hu
  rw [hu]
  exact ⟨State.computeSame_of_taskEnded (State.event_tells _ _ _ (rs := [])).computeSame, by rw [State.event_fw]; rfl, (s.taskEnded_mailsAlike _).sends_event _ _⟩

/-- A load that passes its checks takes force. -/
theorem State.activityEnd_loaded (h : s.fw.tasks.find? (fun q => q.1 = seq.toNat) = some (seq.toNat, .binLoad a d banks))
    (hr : (s.taskEnded (seq.toNat, .binLoad a d banks)).declRefused d banks = none)
    (hc : (s.taskEnded (seq.toNat, .binLoad a d banks)).codeRefused d.profile.toNat banks = none) : let u := s.activityEnd seq.toNat 0 0
    u.fw.binary = some ⟨d, banks⟩ ∧ u.stations = ((s.taskEnded (seq.toNat, .binLoad a d banks)).fillAll banks).stations ∧
      s.Sends u 0x8002 [seq.toNat, 0, 0] := by
  have hdone : (s.taskEnded (seq.toNat, .binLoad a d banks)).taskDone (.binLoad a d banks) = _ := State.loadDone_loaded _ _ _ hr hc
  intro u
  have hu : u = _ := State.activityEnd_event h
  rw [hdone] at hu
  rw [hu]
  obtain ⟨halike, hbin, hstn⟩ := (s.taskEnded (seq.toNat, .binLoad a d banks)).loaded_frame d banks
  refine ⟨by rw [State.event_fw]; exact hbin, (State.event_tells _ _ _ (rs := [])).frame.1.trans hstn, ?_⟩
  exact ((s.taskEnded_mailsAlike _).trans halike).sends_event _ _

end

/-- A processor that restarts is counted with its cause, and leaves the others alone. -/
theorem State.restartBy_spec (s : State) (hon : bitOf s.pwr.on.toNat 12 = true) {p : Nat} {cause : Nat} (hc : cause < 8) :
    let u := s.restartBy p cause
    s.LeftByRestart u p ∧ u.fpState p = 3 ∧ u.fld .fwStatus p 29 27 = cause ∧
      u.fld .fwStatus p 15 0 = (s.fld .fwStatus p 15 0 + 1) % 2 ^ 16 ∧ (∀ q < 4, q ≠ p → u.reg .fwStatus q = s.reg .fwStatus q) ∧
      u.fw.raised = s.fw.raised ++ [(9, ⟨6, BitVec.ofNat 12 p⟩, Reg.at .fwStatus p)] ∧
      (p = 0 → u.fw.tasks = [] ∧ u.fw.late = s.fw.late ++ s.fw.tasks.map (·.1)) ∧ (p ≠ 0 → u.fw = { s.fw with raised := u.fw.raised }) := by
  have h := s.restartBy_restarts hon p cause
  obtain ⟨hstate, hcause, hcount⟩ := h.counts hc
  exact ⟨h.part.left h.ready h.still, hstate, hcause, hcount, fun q _ hq => h.reg_ne hq, h.raised hon, h.liaison, h.others⟩

/-! ### Reports -/

/-- An instruction reports an error of a unit. -/
def State.ReportsOn (s : State) (c : Instr) (cls sev : Nat) (unit : UnitRef) : Prop :=
  ∃ u q, exec c s = .next u ∧ u.fw.reports.getLast? = some q ∧ u.fw.repNext = s.fw.repNext + 1 ∧ q.num = s.fw.repNext ∧ q.cls = cls ∧
    q.sev = sev ∧ q.unit = unit ∧ q.step = s.fw.stepCnt ∧ (2 ≤ sev → u.fw.saved.getLast? = some q) ∧ s.Sends u 0x8003 q.words

theorem State.Reported.reportsOn {s u : State} {c : Instr} {cls sev : Nat} {unit : UnitRef} {q : Report} (h : s.Reported u cls sev unit q)
    (he : exec c s = .next u) : s.ReportsOn c cls sev unit :=
  ⟨u, q, he, h.last, h.next, h.num, h.ofCls, h.ofSev, h.ofUnit, h.ofStep, h.saved, h.sends⟩

section
variable (s : State) (hon : bitOf s.pwr.on.toNat 12 = true) (cls : BitVec 4) (sev : BitVec 2) (unit : UnitRef) {off : Nat} (cap : Word)
include hon

theorem State.errorReport_runs (hoff : ∀ i hi, Reg.find off ≠ some (.stnMemErr, i, hi)) (hk : s.restarting 3 = false) :
    s.ReportsOn (.errorReport cls sev unit off cap) (s.reportClass cls.toNat off) sev.toNat unit := by
  refine (s.unitReport_reported cls sev unit off cap).reportsOn ?_
  rw [execErrorReport_on s cls sev unit off cap hon, State.noteMem_other _ _ hoff,
    State.reportIn_runs _ _ ((s.heardRaised_restarting cls off 3).trans hk)]

/-- A report waits while Keeper restarts, or is counted where 256 wait. -/
theorem State.errorReport_waits (hoff : ∀ i hi, Reg.find off ≠ some (.stnMemErr, i, hi)) (hk : s.restarting 3 = true) :
    ∃ u, exec (.errorReport cls sev unit off cap) s = .next u ∧ u.out = s.out ∧ u.fw.reports = s.fw.reports ∧
      (s.fw.errQ.length < 256 → ∃ r, u.fw.errQ = s.fw.errQ ++ [r] ∧ r.cls = s.reportClass cls.toNat off ∧ r.sev = sev.toNat ∧ r.unit = unit) ∧
      (256 ≤ s.fw.errQ.length → u.fw.errQ = s.fw.errQ ∧ u.fld .fwStatus 3 23 16 = satTo 8 (s.fld .fwStatus 3 23 16 + 1)) := by
  have hraised := s.heardRaised_eq cls off
  have hk' := (s.heardRaised_restarting cls off 3).trans hk
  refine ⟨_, by rw [execErrorReport_on s cls sev unit off cap hon, State.noteMem_other _ _ hoff], ?_⟩
  generalize s.heardRaised cls off = t at *
  have hq : t.fw.errQ = s.fw.errQ := by rw [hraised]
  have hreports : t.fw.reports = s.fw.reports := by rw [hraised]
  have hout : t.out = s.out := by rw [hraised]
  have hfld : t.fld .fwStatus 3 23 16 = s.fld .fwStatus 3 23 16 := State.fld_congr (State.regAt_congr (by rw [hraised]) _ _) 23 16
  by_cases hroom : s.fw.errQ.length < 256
  · rw [t.reportIn_waits _ hk' (by rw [hq]; exact hroom)]
    refine ⟨hout, hreports, fun _ => ⟨s.unitReport cls sev unit off cap, ?_, rfl, rfl, rfl⟩, fun h => absurd hroom (by omega)⟩
    rw [← hq]
    rfl
  · rw [t.reportIn_lost _ hk' (by rw [hq]; omega), State.countFld]
    refine ⟨by simpa using hout, by simpa using hreports, fun h => absurd h hroom, fun _ => ⟨by simpa using hq, ?_⟩⟩
    rw [State.fld_setFld_self _ _ _ _ (by decide) (by decide), hfld]
    exact Nat.mod_eq_of_lt (by unfold satTo; split <;> omega)

end

/-- The first report of a station's memories is recorded, and noted by the place of the station. -/
theorem State.memoryReport_runs (s : State) (hon : bitOf s.pwr.on.toNat 12 = true) (i : Stn) (sev : BitVec 2) (cap : Word)
    (hk : s.restarting 3 = false) (hfirst : ∀ e ∈ s.fw.memErrs, e.1 ≠ 33 * segOf i + s.posOf i) :
    let c := Instr.errorReport 1 sev ⟨1, BitVec.ofNat 12 i.val⟩ (Reg.at .stnMemErr i) cap
    s.ReportsOn c (s.reportClass 1 (Reg.at .stnMemErr i)) sev.toNat ⟨1, BitVec.ofNat 12 i.val⟩ ∧
    ∃ u, exec c s = .next u ∧ u.fw.memErrs = s.fw.memErrs ++ [(33 * segOf i + s.posOf i, (s.fw.refTime : Int))] ∧ u.fw.subst = s.fw.subst := by
  intro c
  have hseg : segOf i < 32 := by
    have := i.isLt
    unfold segOf
    omega
  have hreported := s.unitReport_reported 1 sev ⟨1, BitVec.ofNat 12 i.val⟩ (Reg.at .stnMemErr i) cap
  have hexec := execErrorReport_on s 1 sev ⟨1, BitVec.ofNat 12 i.val⟩ (Reg.at .stnMemErr i) cap hon
  have hraised := s.heardRaised_eq 1 (Reg.at .stnMemErr i)
  rw [State.reportIn_runs _ _ ((s.heardRaised_restarting 1 (Reg.at .stnMemErr i) 3).trans hk)] at hexec
  generalize s.unitReport 1 sev ⟨1, BitVec.ofNat 12 i.val⟩ (Reg.at .stnMemErr i) cap = r at *
  generalize s.heardRaised 1 (Reg.at .stnMemErr i) = t at *
  have hfw := t.record_fw r
  have hpos : (t.record r).posOf i = s.posOf i := (t.posOf_record r i hseg).trans (by rw [hraised]; rfl)
  have hmem : (t.record r).fw.memErrs = s.fw.memErrs := by rw [hfw, hraised]
  have htime : (t.record r).fw.refTime = s.fw.refTime := by rw [hfw, hraised]
  have hsubst : (t.record r).fw.subst = s.fw.subst := by rw [hfw, hraised]
  rw [State.noteMem_first _ rfl i.isLt (by rw [hmem, hpos]; exact hfirst), hpos] at hexec
  obtain ⟨hlast, hnext, hnum, hcls, hsev, hunit, hstep, hsaved, hsends⟩ := hreported
  refine ⟨⟨_, t.recordOf r, hexec, hlast, hnext, hnum, hcls, hsev, hunit, hstep, hsaved, hsends⟩, _, hexec, ?_, hsubst⟩
  rw [← hmem, ← htime]
  rfl

theorem execCePoll_none (s : State) {unit : UnitRef} (n : Nat) (h : ceReg unit = none) : exec (.cePoll unit n) s = .next s := by
  show Host.Outcome.next (s.cePoll unit n) = _
  rw [State.cePoll, h]

section
variable (s : State) (hon : bitOf s.pwr.on.toNat 12 = true) {unit : UnitRef} (n : Nat) {r : Reg} {k : Nat} {q : Option (Nat × Nat)}
  (hr : ceReg unit = some (r, k, q)) (hi : unit.index.toNat < k) (hk : s.restarting 3 = false)
include hon hr hi hk

/-- Keeper reads the counter that a poll finds. -/
theorem execCePoll_reads : let t := s.ceAdd r unit.index.toNat n q
    exec (.cePoll unit n) s = .next (if 1024 ≤ s.ceRise unit (t.ceCount r unit.index.toNat q) then
        (t.ceNote unit (t.ceCount r unit.index.toNat q) 0).report 4 0 unit (t.ceCount r unit.index.toNat q) 0
      else t.ceNote unit (t.ceCount r unit.index.toNat q) (s.ceRise unit (t.ceCount r unit.index.toNat q))) := by
  obtain ⟨hfw, -, -⟩ := s.ceAdd_frame r unit.index.toNat n q
  have hrise : ∀ c, (s.ceAdd r unit.index.toNat n q).ceRise unit c = s.ceRise unit c := fun c => by
    rw [State.ceRise, State.ceRise, State.ceSeenOf, State.ceSeenOf, hfw]
  intro t
  show Host.Outcome.next (s.cePoll unit n) = _
  rw [s.cePoll_runs n hr hi hon hk, State.ceRead_eq, hrise]

/-- A counter that has not risen by 1,024 is noted with its rise. -/
theorem State.cePoll_notes : let c := (s.ceAdd r unit.index.toNat n q).ceCount r unit.index.toNat q
    s.ceRise unit c < 1024 → ∃ u, exec (.cePoll unit n) s = .next u ∧ u.ceCount r unit.index.toNat q = c ∧
      u.ceSeenOf unit = (c, s.ceRise unit c) ∧ u.out = s.out := by
  intro c hlow
  obtain ⟨-, hout, -⟩ := s.ceAdd_frame r unit.index.toNat n q
  have hexec := execCePoll_reads s hon n hr hi hk
  dsimp only at hexec
  rw [if_neg (show ¬ 1024 ≤ s.ceRise unit c by omega)] at hexec
  refine ⟨_, hexec, ?_, State.ceNote_seen _ _ _ _, hout⟩
  cases q <;> rfl

/-- A counter that has risen by 1,024 is reported. -/
theorem State.cePoll_reports (hrise : 1024 ≤ s.ceRise unit ((s.ceAdd r unit.index.toNat n q).ceCount r unit.index.toNat q)) :
    s.ReportsOn (.cePoll unit n) 4 0 unit := by
  obtain ⟨hfw, -, -⟩ := s.ceAdd_frame r unit.index.toNat n q
  have hexec := execCePoll_reads s hon n hr hi hk
  have halike := s.ceAdd_mailsAlike n hr hi
  have hrun := (s.ceAdd_restarting n hr hi).trans hk
  dsimp only at hexec
  rw [if_pos hrise] at hexec
  generalize s.ceAdd r unit.index.toNat n q = t at *
  generalize t.ceCount r unit.index.toNat q = c at *
  have hnoted : t.MailsAlike (t.ceNote unit c 0) := ⟨fun _ _ _ _ => rfl, rfl, rfl⟩
  have hrun' : (t.ceNote unit c 0).restarting 3 = false := hrun
  rw [State.report, State.reportIn_runs _ _ hrun'] at hexec
  exact ((halike.trans hnoted).reported_record (show t.fw.repNext = _ by rw [hfw]) _ (show t.fw.stepCnt = _ by rw [hfw])).reportsOn hexec

end

/-- A package fault stops every die. -/
theorem State.packageFault_stops (s : State) (hon : bitOf s.pwr.on.toNat 12 = true) (link : BitVec 12) :
    ∃ u, exec (.packageFault link) s = .next u ∧ ∀ d < 4, (u.die d).reqs.contains ⟨12, 0⟩ = true := by
  obtain ⟨-, -, hreqs⟩ := s.packageStopped_frame
  obtain ⟨-, hdies, -, -⟩ := (s.packageStopped.report_tells 0xC 2 ⟨0xA, link⟩ 0 0).frame
  exact ⟨_, execPackageFault_on s link hon, fun d hd => by rw [State.die_congr hdies]; exact hreqs d hd⟩

/-- A package fault is reported. -/
theorem State.packageFault_reports (s : State) (hon : bitOf s.pwr.on.toNat 12 = true) (link : BitVec 12) (hk : s.restarting 3 = false) :
    s.ReportsOn (.packageFault link) 0xC 2 ⟨0xA, link⟩ := by
  obtain ⟨hfw, hkept, -⟩ := s.packageStopped_frame
  have hexec := execPackageFault_on s link hon
  have hrun : s.packageStopped.restarting 3 = false := by
    rw [← hk]
    exact congrArg (fun v => decide (v = 3)) (hkept.fld (r := .fwStatus) (by decide) (i := 3) (by decide) 31 30)
  have halike := hkept.mailsAlike (by decide) (by rw [hfw]) (by rw [hfw])
  generalize s.packageStopped = t at *
  rw [State.report, State.reportIn_runs _ _ hrun] at hexec
  exact (halike.reported_record (by rw [hfw]) _ (show t.fw.stepCnt = _ by rw [hfw])).reportsOn hexec

theorem execHostLossTimeout_on (s : State) (hon : bitOf s.pwr.on.toNat 12 = true) : exec .hostLossTimeout s = .next s.hostLost :=
  congrArg Host.Outcome.next (if_pos hon)

/-- Settles O55, clause by clause: activities, restarts, reports, package faults, and the loss of the host. -/
theorem processorsRestartReportAndPark : Obligations.ProcessorsRestartReportAndPark := by
  unfold Obligations.ProcessorsRestartReportAndPark
  intro s hon sends leaves restarts reports
  have hrestarts : ∀ (p : Proc) {cause : Nat}, cause < 8 → ∀ {c}, exec c s = .next (s.restartBy p cause) → restarts c p cause :=
    fun p _ hc _ he => ⟨_, he, s.restartBy_spec hon hc⟩
  refine ⟨fun seq c h => ⟨fun st hst => ?_, ?_⟩, fun p => ⟨?_, ?_, ?_⟩, fun who v h => ?_, fun p hheld hp hq hw => ?_,
    fun cls sev unit off cap hoff => ⟨?_, ?_⟩, fun i sev cap hk hfirst => ?_, fun unit n h => ?_, fun unit n r k q hr hi hk => ⟨?_, ?_⟩,
    fun link => ⟨?_, ?_⟩, fun h => ?_, fun hd hs => ?_, fun h => ?_⟩
  · exact ⟨_, rfl, State.activityEnd_failed_spec h hst⟩
  · rintro a d banks rfl
    exact ⟨fun r hr => ⟨_, rfl, State.activityEnd_refused h hr⟩, fun hr hc => ⟨_, rfl, State.activityEnd_loaded h hr hc⟩⟩
  · exact hrestarts p (by decide) rfl
  · exact hrestarts p (by decide) rfl
  · exact hrestarts p (by decide) rfl
  · obtain ⟨hleft, hnamed, hunnamed⟩ := s.writeOut_fwRestart_restarts who h
    exact ⟨_, rfl, hleft, fun p hp hb => ⟨(hnamed p hp hb).state, (hnamed p hp hb).cause, (hnamed p hp hb).count⟩, hunnamed⟩
  · exact ⟨_, rfl, s.restartDone_spec p.isLt hp hheld hq hw⟩
  · exact s.errorReport_runs hon cls sev unit cap hoff
  · exact s.errorReport_waits hon cls sev unit cap hoff
  · exact s.memoryReport_runs hon i sev cap hk hfirst
  · exact execCePoll_none s n h
  · exact s.cePoll_notes hon n hr hi hk
  · exact s.cePoll_reports hon n hr hi hk
  · exact s.packageFault_stops hon link
  · exact s.packageFault_reports hon link
  · exact ⟨_, execHostLossTimeout_on s hon, s.hostLost_spec h⟩
  · exact ⟨_, execHostLossPark_due s hd hs, s.parked_event⟩
  · exact execHostLossPark_waits s h

end Sys2Proof.Machine
end

section
/-! SUPPORT. What the op of a slot reads in the state in which its word has issued (R158, R160). -/

namespace Sys2Proof.Machine

/-! ### The station -/

/-- What does not look at the streams reads in a station as before its word issued. -/
theorem Station.read_opened {α : Type} (g : Station → α) (x : Station) (i : Issue) (sl : Slot) (t : Nat)
    (hg : ∀ f b u, g { x with f := f, b := b, u := u } = g x) : g (x.opened i sl t) = g x := by
  rw [Station.opened_frame]
  exact hg _ _ _

@[simp] theorem Station.sreg_opened (x : Station) (i : Issue) (sl : Slot) (t n : Nat) :
    ((x.opened i sl t).stream i.strm).sreg n = (x.stream i.strm).sreg n := by
  obtain ⟨-, hs, -⟩ := StreamSt.opened_frame (x.stream i.strm) i.hdr sl t
  rw [Station.opened_stream, StreamSt.sreg, hs, StreamSt.sreg]

/-! ### The rest of the part -/

section
variable {s v : State} {i : Issue} {sl : Slot} {t : Nat} (hst : v.station i.stn = (s.station i.stn).opened i sl t)
include hst

theorem State.sreg_of_opened (n : Nat) : v.sreg i.stn i.strm n = s.sreg i.stn i.strm n := by
  rw [State.sreg, State.stream, hst, Station.sreg_opened]
  rfl

theorem State.lensSrc_of_opened : v.lensSrc i.stn i.strm = s.lensSrc i.stn i.strm := by
  obtain ⟨-, -, -, htag, hlens, -⟩ := StreamSt.opened_frame ((s.station i.stn).stream i.strm) i.hdr sl t
  simp only [State.lensSrc, State.stream, hst, Station.opened_stream, htag, hlens]

end

section
variable {s v : State} {i : Issue} (hw : s.WordFrame v i [])
include hw

/-- A register that is no break counter reads as before its word issued. -/
theorem State.WordFrame.reg_of_word {r : Reg} {k : Nat} (hk : k < r.info.count) (hr : r ≠ cntReg i.strm) : v.reg r k = s.reg r k :=
  hw.reg hk hr (by simp)

theorem State.WordFrame.bit_of_word {r : Reg} {k : Nat} (hk : k < r.info.count) (hr : r ≠ cntReg i.strm) (b : Nat) : v.bit r k b = s.bit r k b :=
  congrArg (bitOf · b) (hw.reg_of_word hk hr)

theorem State.WordFrame.profile1 : v.profile1 (dieOf i.stn) = s.profile1 (dieOf i.stn) := by
  have hd : dieOf i.stn < 4 := Nat.div_lt_of_lt_mul i.stn.isLt
  have hr : Reg.shtCtrl ≠ cntReg i.strm := by cases i.strm <;> decide
  rw [State.profile1, State.fld, hw.reg_of_word (r := .shtCtrl) hd hr]
  rfl

end

end Sys2Proof.Machine
end

section
/-! ## MLD (O13, O14) -/

namespace Sys2Proof.Machine

/-! ### The op issues (R45 to R47) -/

/-- MLD with a legal format and a free port is in flight, and holds the port. -/
theorem mldEff_loads {i : Issue} {o : MldOp} {p : OpPlace} {v : State} (hf : wclass o.fmt.toNat ≠ none)
    (hp : (v.station i.stn).portBusy ≤ p.tick) :
    mldEff i o p v = v.setStation i.stn { v.station i.stn with
      portBusy := p.tick + (if v.profile1 (dieOf i.stn) then 3 else 2) + o.len.toNat
      mq := (v.station i.stn).mq ++ [⟨p.tick, v.sreg i.stn i.strm o.src.toNat, o.dst.toNat, o.len.toNat, o.kind,
        mldSix o, v.profile1 (dieOf i.stn)⟩] } := by
  have hlegal : (wclass o.fmt.toNat).isNone = false := 
    Option.isNone_eq_false_iff.2 (Option.isSome_iff_ne_none.2 hf)
  simp only [mldEff, hlegal, Bool.false_eq_true, if_false, if_neg (Nat.not_lt.2 hp)]

theorem execMld_loads {s : State} {i : Issue} {o : MldOp} {t : Nat} (h : s.opens i .m t = true) (hf : wclass o.fmt.toNat ≠ none)
    (hp : (s.station i.stn).portBusy ≤ t) :
    let x := (s.station i.stn).opened i .m t
    ∃ u, exec (.mld i o) s = .next u ∧ s.WordFrame u i [] ∧
      u.station i.stn = { x with
        portBusy := t + (if s.profile1 (dieOf i.stn) then 3 else 2) + o.len.toNat
        mq := x.mq ++ [⟨t, s.sreg i.stn i.strm o.src.toNat, o.dst.toNat, o.len.toNat, o.kind, mldSix o, s.profile1 (dieOf i.stn)⟩] } := by
  obtain ⟨v, hv, hst, hw⟩ := s.issue_opens i .m t (mldEff i o) h
  have hfree : (v.station i.stn).portBusy ≤ (s.placeOf i t).tick := by
    rw [hst, Station.read_opened Station.portBusy _ _ _ _ (fun _ _ _ => rfl), State.placeOf_tick]
    exact hp
  refine ⟨_, congrArg Host.Outcome.next hv, ?_, ?_⟩
  · rw [mldEff_loads hf hfree]
    exact hw.trans (.setStation v i _ _)
  · rw [mldEff_loads hf hfree, State.station_setStation_self, State.placeOf_tick, hw.profile1, State.sreg_of_opened hst, hst]

/-! ### The chunks are read (R46) -/

theorem MFlight.reads_at (f : MFlight) (x : Station) (j : Nat) :
    f.reads x (f.t + j) = if j ≤ f.len then (f.chunk x j).map (fun w => ⟨f.t + j + f.lead, .v, w⟩) else [] := by
  simp only [MFlight.reads, Nat.le_add_right, Nat.add_sub_cancel_left, true_and]

theorem MFlight.reads_chunk (f : MFlight) (x : Station) {j : Nat} (h : j ≤ f.len) :
    (f.reads x (f.t + j)).map (·.wr) = f.chunk x j ∧ ∀ w ∈ f.reads x (f.t + j), w.due = f.t + j + f.lead := by
  rw [f.reads_at, if_pos h, List.map_map]
  refine ⟨List.map_id _, fun w hw => ?_⟩
  obtain ⟨_, -, rfl⟩ := List.mem_map.1 hw
  rfl

theorem MFlight.done_iff (f : MFlight) (j : Nat) : f.done (f.t + j) = true ↔ f.len ≤ j := by
  rw [MFlight.done, decide_eq_true_iff]
  exact Nat.add_le_add_iff_left

/-- Settles O13: the op as it issues, and the chunk of each tick of its flight. -/
theorem mldLoadsChunks : Obligations.MldLoadsChunks :=
  ⟨fun _ _ _ _ h hf hp => execMld_loads h hf hp,
    fun x f j => ⟨fun h => f.reads_chunk x h, fun h => (f.reads_at x j).trans (if_neg (Nat.not_le.2 h)), f.done_iff j⟩⟩

end Sys2Proof.Machine
end

section
/-! ## Where the bytes of an MLD land (O14) -/

namespace Sys2Proof.Machine

/-! ### The bytes of a chunk (R45) -/

@[simp] theorem Memory.rdW_length (m : Memory) (sz a n : Nat) : (m.rdW sz a n).length = n := by
  induction n generalizing a with
  | zero => rfl
  | succ n ih => simp [Memory.rdW, ih]

theorem Memory.rdW_getD (m : Memory) (sz a : Nat) {n k : Nat} (h : k < n) : (m.rdW sz a n).getD k 0 = m.rd ((a + k) % sz) := by
  induction n generalizing a k with
  | zero => omega
  | succ n ih =>
    cases k with
    | zero => simp [Memory.rdW]
    | succ k =>
      rw [Memory.rdW, List.getD_cons_succ, ih _ (Nat.lt_of_succ_lt_succ h), Nat.add_right_comm, Nat.add_assoc]

theorem Memory.rdW_eq_map (m : Memory) (sz a n : Nat) : m.rdW sz a n = (List.range n).map (fun q => m.rd ((a + q) % sz)) := by
  refine List.ext_getElem (by simp) fun k hk _ => ?_
  rw [Memory.rdW_length] at hk
  rw [← List.getD_eq_getElem _ 0, Memory.rdW_getD _ _ _ hk, List.getElem_map, List.getElem_range]

@[simp] theorem Station.chunkLane_length (x : Station) (six : Bool) (a c i : Nat) : (x.chunkLane six a c i).length = 16 := by
  unfold Station.chunkLane
  split
  · simp [unpack6]
  · simp [Station.rdStore]

/-- A byte of a chunk whose format is not expanded. -/
theorem Station.chunkLane_plain (x : Station) (a c i : Nat) {b : Nat} (h : b < 16) :
    (x.chunkLane false a c i).getD b 0 = x.store.rd ((a / 256 * 256 + 256 * c + 16 * i + b) % storeSize) :=
  Memory.rdW_getD _ _ _ h

/-- A byte of a chunk of an MXFP6 format: a six-bit element, zero extended (R69). -/
theorem Station.chunkLane_six (x : Station) (a c i : Nat) {b : Nat} (h : b < 16) :
    (x.chunkLane true a c i).getD b 0 =
      BitVec.ofNat 8 (leNat ((List.range 12).map (fun q => x.store.rd ((a / 64 * 64 + 192 * c + 12 * i + q) % storeSize))) / 2 ^ (6 * b) % 64) := by
  have hwidth : 6 * b + 5 + 1 - 6 * b = 6 := by omega
  simp only [Station.chunkLane, if_true, unpack6, Station.rdStore, Memory.rdW_eq_map, bitsOf_eq_div_mod]
  rw [List.getD_eq_getElem _ _ (by simpa using h), List.getElem_map, List.getElem_range, hwidth]
  rfl

/-! ### Runs of 16 bytes in areas of one size -/

/-- Bytes written to the places of 16 lanes, each in an area of its own. -/
def Memory.wrLanes (m : Memory) (area off : Nat) (bs : Nat → List Byte) (n : Nat) : Memory :=
  (List.range n).foldl (fun m i => m.wrN (area * i + off) (bs i)) m

/-- A byte of a lane's area is the one written there, or as before. -/
theorem Memory.rd_wrLanes (m : Memory) {area off lane k : Nat} {bs : Nat → List Byte} (hoff : off + 16 ≤ area) (_hk : k < area)
    (hbs : ∀ i, (bs i).length = 16) (n : Nat) : (m.wrLanes area off bs n).rd (area * lane + k) =
      if lane < n ∧ off ≤ k ∧ k < off + 16 then (bs lane).getD (k - off) 0 else m.rd (area * lane + k) := by
  induction n with
  | zero => simp [Memory.wrLanes]
  | succ n ih =>
    have hstep : m.wrLanes area off bs (n + 1) = (m.wrLanes area off bs n).wrN (area * n + off) (bs n) := by
      simp [Memory.wrLanes, List.range_succ]
    rw [hstep, Memory.rd_wrN, hbs, ih]
    rcases Nat.lt_trichotomy lane n with hlt | rfl | hgt
    · have hbelow : area * lane + area ≤ area * n := by rw [← Nat.mul_succ]; exact Nat.mul_le_mul_left _ hlt
      rw [if_neg (by omega)]
      simp only [hlt, Nat.lt_succ_of_lt hlt]
    · have hplace : area * lane + k - (area * lane + off) = k - off := by omega
      by_cases hin : off ≤ k ∧ k < off + 16
      · rw [if_pos (by omega), if_pos ⟨Nat.lt_succ_self _, hin⟩, hplace]
      · rw [if_neg (by omega), if_neg (fun h => hin h.2), if_neg (fun h => hin h.2)]
    · have habove : area * n + area ≤ area * lane := by rw [← Nat.mul_succ]; exact Nat.mul_le_mul_left _ hgt
      rw [if_neg (by omega), if_neg (by omega), if_neg (by omega)]

/-- The same where the run of each lane starts at a multiple of 16, in an area of `q` runs. -/
theorem Memory.rd_wrLanes_run (m : Memory) {q d lane k : Nat} {bs : Nat → List Byte} (hk : k < 16 * q) (hbs : ∀ i, (bs i).length = 16)
    {n : Nat} (hl : lane < n) : (m.wrLanes (16 * q) (16 * d % (16 * q)) bs n).rd (16 * q * lane + k) =
      if k / 16 = d % q then (bs lane).getD (k % 16) 0 else m.rd (16 * q * lane + k) := by
  have hmod : d % q < q := Nat.mod_lt _ (by omega)
  rw [Nat.mul_mod_mul_left, m.rd_wrLanes (by omega) hk hbs]
  by_cases h : k / 16 = d % q
  · have hplace : k - 16 * (d % q) = k % 16 := by omega
    rw [if_pos h, if_pos (by omega), hplace]
  · rw [if_neg h, if_neg (by omega)]

/-! ### The chunk lands -/

/-- The place of a chunk in a lane's area. -/
def MFlight.place (f : MFlight) (c : Nat) : Nat := if f.scale then 16 * (f.dst + c) % 256 else 16 * (f.dst + c) % 4096

/-- A station whose input buffer has taken a chunk. -/
def MFlight.landed (f : MFlight) (x y : Station) (c n : Nat) : Station :=
  if f.scale then { y with sibScale := y.sibScale.wrLanes 256 (f.place c) (x.chunkLane f.six f.a c) n }
  else { y with sib := y.sib.wrLanes 4096 (f.place c) (x.chunkLane f.six f.a c) n }

/-- A station whose input buffer has taken bytes. -/
def Station.takeLane (y : Station) (scale : Bool) (a : Nat) (bs : List Byte) : Station :=
  if scale then { y with sibScale := y.sibScale.wrN a bs } else { y with sib := y.sib.wrN a bs }

theorem State.land_lane (s : State) (m : Nat) (scale : Bool) (a : Nat) (bs : List Byte) :
    (s.land m (.lane scale a bs)).station m = (s.station m).takeLane scale a bs ∧ (s.land m (.lane scale a bs)).regs = s.regs :=
  ⟨s.station_modStation_self m _, rfl⟩

theorem MFlight.landed_succ (f : MFlight) (x y : Station) (c n : Nat) : f.landed x y c (n + 1) =
    (f.landed x y c n).takeLane f.scale (if f.scale then 256 * n + 16 * (f.dst + c) % 256 else 4096 * n + 16 * (f.dst + c) % 4096)
      (x.chunkLane f.six f.a c n) := by
  cases hs : f.scale <;> simp [MFlight.landed, MFlight.place, Station.takeLane, hs, Memory.wrLanes, List.range_succ]

/-- Lane after lane of a chunk lands in its station. -/
theorem MFlight.land_lanes (f : MFlight) (s : State) (m : Nat) (x : Station) (c n : Nat) :
    let u := (List.range n).foldl (fun v i => v.land m (.lane f.scale (if f.scale then 256 * i + 16 * (f.dst + c) % 256
      else 4096 * i + 16 * (f.dst + c) % 4096) (x.chunkLane f.six f.a c i))) s
    u.station m = f.landed x (s.station m) c n ∧ u.regs = s.regs := by
  induction n with
  | zero => cases hs : f.scale <;> simp [MFlight.landed, hs, Memory.wrLanes]
  | succ n ih =>
    obtain ⟨hstn, hregs⟩ := ih
    simp only [List.range_succ, List.foldl_append, List.foldl_cons, List.foldl_nil]
    rw [f.landed_succ, ← hstn, ← hregs]
    exact State.land_lane _ _ _ _ _

theorem MFlight.land_chunk (f : MFlight) (s : State) (m : Nat) (x : Station) (c : Nat) :
    let u := (f.chunk x c).foldl (fun v w => v.land m w) s
    u.station m = f.landed x (s.station m) c 16 ∧ u.regs = s.regs := by
  rw [MFlight.chunk, List.foldl_map]
  exact f.land_lanes s m x c 16

section
variable (f : MFlight) (x y : Station) (c : Nat) {lane k : Nat} (hl : lane < 16)
include hl

/-- A byte of a lane's elements, once an element chunk has landed. -/
theorem MFlight.rd_landed_sib (hs : f.scale = false) (hk : k < 4096) : (f.landed x y c 16).sib.rd (4096 * lane + k) =
    if k / 16 = (f.dst + c) % 256 then (x.chunkLane f.six f.a c lane).getD (k % 16) 0 else y.sib.rd (4096 * lane + k) := by
  simp only [MFlight.landed, MFlight.place, hs, Bool.false_eq_true, if_false]
  exact y.sib.rd_wrLanes_run (q := 256) hk (x.chunkLane_length _ _ _) hl

/-- A byte of a lane's scales, once a scale chunk has landed. -/
theorem MFlight.rd_landed_sibScale (hs : f.scale = true) (hk : k < 256) : (f.landed x y c 16).sibScale.rd (256 * lane + k) =
    if k / 16 = (f.dst + c) % 16 then (x.chunkLane f.six f.a c lane).getD (k % 16) 0 else y.sibScale.rd (256 * lane + k) := by
  simp only [MFlight.landed, MFlight.place, hs, if_true]
  exact y.sibScale.rd_wrLanes_run (q := 16) hk (x.chunkLane_length _ _ _) hl

end

/-- A chunk writes one area of the input buffer. -/
theorem MFlight.landed_frame (f : MFlight) (x y : Station) (c n : Nat) :
    (f.landed x y c n).tiles = y.tiles ∧ (f.landed x y c n).store = y.store ∧
      (f.scale = false → (f.landed x y c n).sibScale = y.sibScale) ∧ (f.scale = true → (f.landed x y c n).sib = y.sib) := by
  cases hs : f.scale <;> simp [MFlight.landed, hs]

/-- Settles O14: what a chunk leaves of its station, and the byte that each place of a lane takes, by the format. -/
theorem mldPlacesElements : Obligations.MldPlacesElements := by
  unfold Obligations.MldPlacesElements
  intro s n x f c lane k hl u
  obtain ⟨hu, hregs⟩ := f.land_chunk s n x c
  obtain ⟨htiles, hstore, hscales, hels⟩ := f.landed_frame x (s.station n) c 16
  rw [show u.station n = _ from hu]
  refine ⟨htiles, hstore, hregs, fun hs h6 hk => ?_, fun hs h6 hk => ?_, hscales, fun hs h6 hk => ?_, hels⟩
  · rw [f.rd_landed_sib x _ c hl hs hk, h6, x.chunkLane_plain _ _ _ (Nat.mod_lt _ (by decide))]
  · rw [f.rd_landed_sib x _ c hl hs hk, h6, x.chunkLane_six _ _ _ (Nat.mod_lt _ (by decide))]
  · rw [f.rd_landed_sibScale x _ c hl hs hk, h6, x.chunkLane_plain _ _ _ (Nat.mod_lt _ (by decide))]

end Sys2Proof.Machine
end

section
/-! SUPPORT. Register pairs (R9): their value after a write of a pair, or of another register. -/

namespace Sys2Proof.Machine

/-- Pairs whose words read the same have one value. -/
theorem State.pair_congr {s u : State} {r : Reg} {i : Nat} (hlow : u.regAt r (r.at i) = s.regAt r (r.at i))
    (hhigh : u.regAt r (r.at i + 4) = s.regAt r (r.at i + 4)) : u.pair r i = s.pair r i := by
  rw [State.pair, hlow, hhigh, State.pair]

/-- A pair reads as what was written to it. -/
@[simp] theorem State.pair_setPair (s : State) (r : Reg) (i v : Nat) : (s.setPair r i v).pair r i = v % 2 ^ 64 := by
  rw [State.pair, State.setPair, State.regAt_setRegAt, State.regAt_setRegAt_ne _ _ _ _ (by omega), State.regAt_setRegAt]
  omega

theorem State.pair_addPair (s : State) (r : Reg) (i n : Nat) : (s.addPair r i n).pair r i = (s.pair r i + n) % 2 ^ 64 := by
  rw [State.addPair, State.pair_setPair, Nat.mod_mod]

/-- A write of a pair touches its two words. -/
theorem State.regAt_setPair_ne (s : State) (r q : Reg) (i v : Nat) {p : Nat} (hlow : r.at i ≠ p) (hhigh : r.at i + 4 ≠ p) :
    (s.setPair r i v).regAt q p = s.regAt q p := by
  rw [State.setPair, State.regAt_setRegAt_ne _ _ _ _ hhigh, State.regAt_setRegAt_ne _ _ _ _ hlow]

/-! ### Registers of which one change leaves every word alone -/

/-- From `s` to `u`, no word of a register reads otherwise but those of the registers `rs`. -/
def State.WordsKept (s u : State) (rs : List Reg) : Prop :=
  ∀ q : Reg, q ∉ rs → ∀ j < q.info.count, ∀ b < (if q.info.pair then 8 else 4), u.regAt q (q.at j + b) = s.regAt q (q.at j + b)

namespace State.WordsKept

variable {s t u : State} {rs : List Reg}

theorem of_regs (h : u.regs = s.regs) : s.WordsKept u rs := fun q _ _ _ _ _ => State.regAt_congr h q _

theorem trans (h : s.WordsKept t rs) (g : t.WordsKept u rs) : s.WordsKept u rs :=
  fun q hq j hj b hb => (g q hq j hj b hb).trans (h q hq j hj b hb)

theorem mono {qs : List Reg} (h : s.WordsKept u qs) (hsub : qs ⊆ rs) : s.WordsKept u rs := fun q hq => h q fun hm => hq (hsub hm)

theorem foldl {α : Type} {f : State → α → State} (l : List α) (h : ∀ (s : State), ∀ a ∈ l, s.WordsKept (f s a) rs) (s : State) :
    s.WordsKept (l.foldl f s) rs := by
  induction l generalizing s with
  | nil => exact .of_regs rfl
  | cons a l ih => exact (h s a List.mem_cons_self).trans (ih (fun t b hb => h t b (List.mem_cons_of_mem a hb)) _)

theorem reg (h : s.WordsKept u rs) {q : Reg} (hq : q ∉ rs) {j : Nat} (hj : j < q.info.count) : u.reg q j = s.reg q j :=
  h q hq j hj 0 (by split <;> decide)

theorem fld (h : s.WordsKept u rs) {q : Reg} (hq : q ∉ rs) {j : Nat} (hj : j < q.info.count) (hi lo : Nat) : u.fld q j hi lo = s.fld q j hi lo :=
  congrArg (bitsOf · hi lo) (h.reg hq hj)

theorem pair (h : s.WordsKept u rs) {q : Reg} (hq : q ∉ rs) {j : Nat} (hj : j < q.info.count) (hp : q.info.pair = true) :
    u.pair q j = s.pair q j :=
  State.pair_congr (h.reg hq hj) (h q hq j hj 4 (by simp [hp]))

end State.WordsKept

section
variable (s : State) {r : Reg} {i : Nat} {rs : List Reg} (hr : r ∈ rs) (hi : i < r.info.count)
include hr hi

theorem State.setRegAt_wordsKept {a : Nat} (ha : a < if r.info.pair then 8 else 4) (v : Nat) : s.WordsKept (s.setRegAt r (r.at i + a) v) rs :=
  fun q hq _ hj _ hb => s.regAt_setRegAt_ne r q v (Reg.at_ne (fun h => hq (h ▸ hr)) hi hj ha hb)

theorem State.setReg_wordsKept (v : Nat) : s.WordsKept (s.setReg r i v) rs :=
  s.setRegAt_wordsKept hr hi (a := 0) (by split <;> decide) v

theorem State.setPair_wordsKept (hp : r.info.pair = true) (v : Nat) : s.WordsKept (s.setPair r i v) rs :=
  (s.setReg_wordsKept hr hi _).trans (State.setRegAt_wordsKept _ hr hi (a := 4) (by simp [hp]) _)

end

end Sys2Proof.Machine
end

section
/-! ## MMA (O15, O16) -/

namespace Sys2Proof.Machine

/-! ### The op issues (R48, R51, R53, R65) -/

/-- Issuing a word counts on its stream's break counter alone. -/
theorem State.WordFrame.wordsKept {s v : State} {i : Issue} (hw : s.WordFrame v i []) : s.WordsKept v [cntReg i.strm] := by
  intro q hq j hj b hb
  have hcnt : (i.stn : Nat) < (cntReg i.strm).info.count := by
    have := i.stn.isLt
    cases i.strm <;> exact this
  refine hw.regs q _ fun hm => ?_
  have hat : q.at j + b = (cntReg i.strm).at i.stn + 0 := by simpa using hm
  exact Reg.at_ne (fun h => hq (List.mem_singleton.2 h)) hj hcnt hb (by split <;> decide) hat

theorem State.WordFrame.pair_of_word {s v : State} {i : Issue} (hw : s.WordFrame v i []) {r : Reg} {k : Nat} (hk : k < r.info.count)
    (hp : r.info.pair = true) (hr : r ≠ cntReg i.strm) : v.pair r k = s.pair r k :=
  hw.wordsKept.pair (by simpa using hr) hk hp

theorem Station.mmaFault_opened (x : Station) (i : Issue) (sl : Slot) (t : Nat) (o : MmaOp) (m : Strm) (k : Nat) :
    (x.opened i sl t).mmaFault o m k = x.mmaFault o m k :=
  Station.read_opened (fun y => y.mmaFault o m k) x i sl t (fun _ _ _ => rfl)

/-- The counters of a station that an MMA counts on (R65). -/
def mmaCountOffs (n : Nat) : List Nat :=
  [Reg.at .stnMmaCount n, Reg.at .stnMmaCount n + 4, Reg.at .stnRowTicks n, Reg.at .stnRowTicks n + 4]

/-- An MMA and its active rows are counted. -/
def State.mmaCount (s : State) (n rows : Nat) : State := (s.addPair .stnMmaCount n 1).addPair .stnRowTicks n rows

theorem mmaEff_executes {i : Issue} {o : MmaOp} {p : OpPlace} {v : State} (h : (v.station i.stn).mmaFault o i.strm p.tick = none) :
    mmaEff i o p v =
      let v1 := v.setStation i.stn ((v.station i.stn).mma o i.strm p.tick ((wclass o.fmtW.toNat).getD 0))
      if v.bit .stnArrayCtrl i.stn 2 then v1.mmaCount i.stn (o.rows.toNat + 1) else v1 := by
  unfold mmaEff
  simp only [h]
  rfl

theorem State.mmaCount_regAt_ne (s : State) (n rows : Nat) (q : Reg) {p : Nat} (h : p ∉ mmaCountOffs n) :
    (s.mmaCount n rows).regAt q p = s.regAt q p := by
  simp only [mmaCountOffs, List.mem_cons, List.not_mem_nil, or_false, not_or] at h
  obtain ⟨h1, h2, h3, h4⟩ := h
  rw [State.mmaCount, State.addPair, State.regAt_setPair_ne _ _ _ _ _ (Ne.symm h3) (Ne.symm h4), State.addPair,
    State.regAt_setPair_ne _ _ _ _ _ (Ne.symm h1) (Ne.symm h2)]

theorem State.mmaCount_pairs (s : State) (n : Stn) (rows : Nat) :
    (s.mmaCount n rows).pair .stnMmaCount n = (s.pair .stnMmaCount n + 1) % 2 ^ 64 ∧
      (s.mmaCount n rows).pair .stnRowTicks n = (s.pair .stnRowTicks n + rows) % 2 ^ 64 := by
  have hrows : (s.addPair .stnMmaCount n 1).WordsKept (s.mmaCount n rows) [.stnRowTicks] := State.setPair_wordsKept _ (by simp) n.isLt rfl _
  have hcount : s.WordsKept (s.addPair .stnMmaCount n 1) [.stnMmaCount] := State.setPair_wordsKept _ (by simp) n.isLt rfl _
  refine ⟨?_, ?_⟩
  · rw [hrows.pair (by decide) n.isLt rfl, State.pair_addPair]
  · rw [State.mmaCount, State.pair_addPair, hcount.pair (by decide) n.isLt rfl]

theorem State.mmaCount_frame (s : State) (i : Issue) (rows : Nat) : s.WordFrame (s.mmaCount i.stn rows) i (mmaCountOffs i.stn) :=
  ⟨fun _ _ => rfl, fun q _ h => s.mmaCount_regAt_ne _ _ q (fun hm => h (List.mem_cons_of_mem _ hm)), fun _ => rfl, rfl⟩

/-- An enabled counter pair counts the MMA and its rows, a disabled one stays (R65). -/
theorem State.mmaCounted (s : State) (i : Issue) (c : Bool) (rows : Nat) : let u := if c then s.mmaCount i.stn rows else s
    u.station i.stn = s.station i.stn ∧ s.WordFrame u i (mmaCountOffs i.stn) ∧
      (c = true → u.pair .stnMmaCount i.stn = (s.pair .stnMmaCount i.stn + 1) % 2 ^ 64 ∧
        u.pair .stnRowTicks i.stn = (s.pair .stnRowTicks i.stn + rows) % 2 ^ 64) ∧
      (c = false → u.pair .stnMmaCount i.stn = s.pair .stnMmaCount i.stn ∧ u.pair .stnRowTicks i.stn = s.pair .stnRowTicks i.stn) := by
  cases c with
  | false => exact ⟨rfl, .refl _ _ _, fun h => (nomatch h), fun _ => ⟨rfl, rfl⟩⟩
  | true => exact ⟨rfl, s.mmaCount_frame i rows, fun _ => s.mmaCount_pairs i.stn rows, fun h => (nomatch h)⟩

/-- Settles O15: the array first, then the counters by their enable. -/
theorem mmaExecutes : Obligations.MmaExecutes := by
  unfold Obligations.MmaExecutes
  intro s i o t h hf
  obtain ⟨v, hv, hst, hw⟩ := s.issue_opens i .m t (mmaEff i o) h
  have hclear : (v.station i.stn).mmaFault o i.strm (s.placeOf i t).tick = none := by
    rw [hst, Station.mmaFault_opened, State.placeOf_tick]
    exact hf
  have hcnt : Reg.stnArrayCtrl ≠ cntReg i.strm ∧ Reg.stnMmaCount ≠ cntReg i.strm ∧ Reg.stnRowTicks ≠ cntReg i.strm := by
    cases i.strm <;> decide
  obtain ⟨hctrl, hmma, hrows⟩ := hcnt
  rw [mmaEff_executes hclear, hst, State.placeOf_tick, hw.bit_of_word i.stn.isLt hctrl] at hv
  obtain ⟨hstn, hframe, hon, hoff⟩ := State.mmaCounted (v.setStation i.stn _) i (s.bit .stnArrayCtrl i.stn 2) (o.rows.toNat + 1)
  refine ⟨_, congrArg Host.Outcome.next hv, hstn.trans (v.station_setStation_self _ _),
    ((hw.mono (by simp)).trans (.setStation v i _ _)).trans hframe, fun hb => ?_, fun hb => ?_⟩
  · rw [← hw.pair_of_word i.stn.isLt rfl hmma, ← hw.pair_of_word i.stn.isLt rfl hrows]
    exact hon hb
  · rw [← hw.pair_of_word i.stn.isLt rfl hmma, ← hw.pair_of_word i.stn.isLt rfl hrows]
    exact hoff hb

end Sys2Proof.Machine
end

section
namespace Sys2Proof.Machine

/-! ### Groups, block registers and column-scale latches of a station (R42, R44, R50, R53) -/

theorem Station.group_setGroup (x : Station) (g h : Nat) (a : Tile) : (x.setGroup g a).group h = if g = h then a else x.group h :=
  Tbl.get_put _ _ _ _ _

theorem Station.blks_setBlks (x : Station) (g h : Nat) (b : List Blk) : (x.setBlks g b).blks h = if g = h then b else x.blks h :=
  Tbl.get_put _ _ _ _ _

theorem Station.win_setWin (x : Station) (g h : Nat) (w : Grp) : (x.setWin g w).win h = if g = h then w else x.win h :=
  Tbl.get_put _ _ _ _ _

@[simp] theorem Station.group_setBlks (x : Station) (g h : Nat) (b : List Blk) : (x.setBlks g b).group h = x.group h := rfl

@[simp] theorem Station.blks_setGroup (x : Station) (g h : Nat) (a : Tile) : (x.setGroup g a).blks h = x.blks h := rfl

@[simp] theorem Station.group_setWin (x : Station) (g h : Nat) (w : Grp) : (x.setWin g w).group h = x.group h := rfl

@[simp] theorem Station.blks_setWin (x : Station) (g h : Nat) (w : Grp) : (x.setWin g w).blks h = x.blks h := rfl

@[simp] theorem Station.scales_setBlks (x : Station) (g : Nat) (b : List Blk) (o : MmaOp) (cls i j : Nat) :
    (x.setBlks g b).scales o cls i j = x.scales o cls i j := rfl

theorem getD_map_range {α : Type} (f : Nat → α) (d : α) {n k : Nat} (h : k < n) : ((List.range n).map f).getD k d = f k := by
  rw [List.getD_eq_getElem _ _ (by simpa using h), List.getElem_map, List.getElem_range]

theorem Tile.el_tileOf (f : Nat → Word) {k : Nat} (h : k < 1024) : (tileOf f).el k = f k := getD_map_range f 0 h

/-! ### The products and the fold (R43, R48 to R50) -/

/-- Taking a word's scales changes the column-scale latches alone. -/
theorem Station.takeScales_frame (x : Station) (g cls kb : Nat) (w : RingWord) :
    x.takeScales g cls kb w = { x with cscale := (x.takeScales g cls kb w).cscale } := by
  unfold Station.takeScales
  dsimp only
  induction List.range (if cls = 2 then 8 else 4) generalizing x with
  | nil => rfl
  | cons c cs ih => exact ih (x.setColScale _ _ _)

/-- The station once an MMA's word has given its scales and its products. -/
def Station.mmaScaled (x : Station) (o : MmaOp) (cls : Nat) : Station :=
  if (x.tap o.latch.toNat).valid && isMx o.fmtW.toNat then x.takeScales o.group.toNat cls o.kbase.toNat (x.tap o.latch.toNat) else x

def Station.mmaFed (x : Station) (o : MmaOp) (cls : Nat) : Station :=
  if (x.tap o.latch.toNat).valid then
    (x.mmaScaled o cls).setBlks o.group.toNat ((x.mmaScaled o cls).products o cls (x.tap o.latch.toNat))
  else x.mmaScaled o cls

theorem Station.mma_eq (x : Station) (o : MmaOp) (m : Strm) (t cls : Nat) :
    x.mma o m t cls = (if mmaEnds o cls then (x.mmaFed o cls).fold o cls else x.mmaFed o cls).setWin o.group.toNat
      ((x.win o.group.toNat).mma m t cls (mmaEnds o cls)) := rfl

theorem Station.mmaScaled_frame (x : Station) (o : MmaOp) (cls : Nat) :
    x.mmaScaled o cls = { x with cscale := (x.mmaScaled o cls).cscale } := by
  unfold Station.mmaScaled
  split
  · exact x.takeScales_frame _ _ _ _
  · rfl

/-- The block register of a cell after the products of an MMA: those of an active row of a valid word enter it (R43, R48). -/
def Station.fedBlk (x : Station) (o : MmaOp) (cls k : Nat) : Blk :=
  if (x.tap o.latch.toNat).valid && decide (k / 64 ≤ o.rows.toNat) then
    ((x.blks o.group.toNat).getD k Blk.zero).step o.fmtS.toNat o.fmtW.toNat cls (x.laneUnit (k / 64) o.kbase.toNat)
      (bitsOf (x.tap o.latch.toNat).data.toNat (16 * (k % 64) + 15) (16 * (k % 64)))
  else (x.blks o.group.toNat).getD k Blk.zero

theorem Station.getD_products (x : Station) (o : MmaOp) (cls : Nat) (w : RingWord) {k : Nat} (h : k < 1024) :
    (x.products o cls w).getD k Blk.zero =
      if k / 64 ≤ o.rows.toNat then
        ((x.blks o.group.toNat).getD k Blk.zero).step o.fmtS.toNat o.fmtW.toNat cls (x.laneUnit (k / 64) o.kbase.toNat)
          (bitsOf w.data.toNat (16 * (k % 64) + 15) (16 * (k % 64)))
      else (x.blks o.group.toNat).getD k Blk.zero := getD_map_range _ _ h

theorem Station.mmaFed_blk (x : Station) (o : MmaOp) (cls : Nat) {k : Nat} (h : k < 1024) :
    ((x.mmaFed o cls).blks o.group.toNat).getD k Blk.zero = x.fedBlk o cls k := by
  have hsame : (x.mmaScaled o cls).blks o.group.toNat = x.blks o.group.toNat := by rw [Station.mmaScaled_frame]; rfl
  have hunit : ∀ i kb, (x.mmaScaled o cls).laneUnit i kb = x.laneUnit i kb := fun i kb => by rw [Station.mmaScaled_frame]; rfl
  unfold Station.mmaFed Station.fedBlk
  cases (x.tap o.latch.toNat).valid with
  | false => simp [hsame]
  | true =>
    simp only [if_true, Bool.true_and, decide_eq_true_eq, Station.blks_setBlks, Station.getD_products _ _ _ _ h, hsame, hunit]

/-- The products change the block registers of the MMA's group, the scales its column-scale latches, and nothing else. -/
theorem Station.mmaFed_frame (x : Station) (o : MmaOp) (cls : Nat) : (∀ g, (x.mmaFed o cls).group g = x.group g) ∧
    (∀ g, g ≠ o.group.toNat → (x.mmaFed o cls).blks g = x.blks g) ∧ 
    (∀ i j, (x.mmaFed o cls).scales o cls i j = (x.mmaScaled o cls).scales o cls i j) := by
  have hgroup : ∀ g, (x.mmaScaled o cls).group g = x.group g := fun g => by rw [Station.mmaScaled_frame]; rfl
  have hblks : ∀ g, (x.mmaScaled o cls).blks g = x.blks g := fun g => by rw [Station.mmaScaled_frame]; rfl
  unfold Station.mmaFed
  split
  · refine ⟨fun g => ?_, fun g hg => ?_, fun _ _ => ?_⟩
    · rw [Station.group_setBlks, hgroup]
    · rw [Station.blks_setBlks, if_neg (Ne.symm hg), hblks]
    · rw [Station.scales_setBlks]
  · exact ⟨hgroup, fun g _ => hblks g, fun _ _ => rfl⟩

/-- What a fold does to a cell of its group (R49). -/
theorem Station.fold_cell (x : Station) (o : MmaOp) (cls : Nat) {k : Nat} (h : k < 1024) :
    (((x.fold o cls).blks o.group.toNat).getD k Blk.zero =
      if k / 64 ≤ o.rows.toNat then Blk.zero else (x.blks o.group.toNat).getD k Blk.zero) ∧
    ((x.fold o cls).group o.group.toNat).el k =
      if k / 64 ≤ o.rows.toNat then
        (let sc := x.scales o cls (k / 64) (k % 64)
         foldAcc ((x.group o.group.toNat).el k) ((x.blks o.group.toNat).getD k Blk.zero) (sc.1 == 255 || sc.2 == 255)
          (scaleExp sc.1 + scaleExp sc.2))
      else (x.group o.group.toNat).el k := by
  refine ⟨?_, ?_⟩
  · simp only [Station.fold, Station.blks_setBlks, if_true, getD_map_range _ _ h]
  · simp only [Station.fold, Station.group_setBlks, Station.group_setGroup, if_true, Tile.el_tileOf _ h]

theorem Station.fold_other (x : Station) (o : MmaOp) (cls : Nat) {g : Nat} (h : g ≠ o.group.toNat) :
    (x.fold o cls).group g = x.group g ∧ (x.fold o cls).blks g = x.blks g := by
  rw [Station.fold, Station.group_setBlks, Station.group_setGroup, Station.blks_setBlks, if_neg (Ne.symm h), if_neg (Ne.symm h),
    Station.blks_setGroup]
  exact ⟨rfl, rfl⟩

/-- The cells of a station after an MMA: fed, and folded where it ends a block. -/
theorem Station.mma_cells (x : Station) (o : MmaOp) (m : Strm) (t cls g : Nat) :
    (mmaEnds o cls = false → (x.mma o m t cls).group g = (x.mmaFed o cls).group g ∧ (x.mma o m t cls).blks g = (x.mmaFed o cls).blks g) ∧
    (mmaEnds o cls = true → (x.mma o m t cls).group g = ((x.mmaFed o cls).fold o cls).group g ∧
      (x.mma o m t cls).blks g = ((x.mmaFed o cls).fold o cls).blks g) := by
  refine ⟨fun h => ?_, fun h => ?_⟩
  · rw [Station.mma_eq, Station.group_setWin, Station.blks_setWin, h]
    exact ⟨rfl, rfl⟩
  · rw [Station.mma_eq, Station.group_setWin, Station.blks_setWin, if_pos h]
    exact ⟨rfl, rfl⟩

/-- Settles O16: the products first, then the fold of an MMA that ends a block, by the activity of the row. -/
theorem mmaProductsAndFold : Obligations.MmaProductsAndFold := by
  unfold Obligations.MmaProductsAndFold
  intro x o m t cls k hk g w old active b y sc
  obtain ⟨hgroup, hblks, hscales⟩ := x.mmaFed_frame o cls
  have hb : ((x.mmaFed o cls).blks g).getD k Blk.zero = b := x.mmaFed_blk o cls hk
  have hsc : (x.mmaFed o cls).scales o cls (k / 64) (k % 64) = sc := hscales _ _
  obtain ⟨hfed, hfolded⟩ := x.mma_cells o m t cls g
  obtain ⟨hblk, hel⟩ := (x.mmaFed o cls).fold_cell o cls hk
  rw [hb, hgroup, hsc] at hel
  rw [hb] at hblk
  refine ⟨fun he => ?_, fun he ha => ?_, fun he ha => ?_, fun g' hg => ?_⟩
  · obtain ⟨hg', hb'⟩ := hfed he
    rw [hg', hb']
    exact ⟨hb, hgroup g⟩
  · obtain ⟨hg', hb'⟩ := hfolded he
    rw [if_pos (of_decide_eq_true ha)] at hblk hel
    rw [hg', hb']
    exact ⟨hblk, hel⟩
  · obtain ⟨hg', hb'⟩ := hfolded he
    have hold : b = old := by simp only [b, ha, Bool.and_false, Bool.false_eq_true, if_false]
    rw [if_neg (of_decide_eq_false ha)] at hblk hel
    rw [hg', hb']
    exact ⟨hblk.trans hold, hel⟩
  · obtain ⟨hfed', hfolded'⟩ := x.mma_cells o m t cls g'
    cases he : mmaEnds o cls with
    | false =>
      obtain ⟨hg', hb'⟩ := hfed' he
      exact ⟨hg'.trans (hgroup g'), hb'.trans (hblks g' hg)⟩
    | true =>
      obtain ⟨hg', hb'⟩ := hfolded' he
      obtain ⟨hg1, hb1⟩ := (x.mmaFed o cls).fold_other o cls hg
      exact ⟨hg'.trans (hg1.trans (hgroup g')), hb'.trans (hb1.trans (hblks g' hg))⟩

end Sys2Proof.Machine
end

section
/-! ## MDRN (O17) -/

namespace Sys2Proof.Machine

/-! ### The op issues (R58, R62) -/

theorem Station.mdrnFault_opened (x : Station) (i : Issue) (sl : Slot) (t : Nat) (o : MdrnOp) (settle : Bool) (k : Nat) :
    (x.opened i sl t).mdrnFault o settle k = x.mdrnFault o settle k :=
  Station.read_opened (fun y => y.mdrnFault o settle k) x i sl t (fun _ _ _ => rfl)

theorem mdrnEff_drains {i : Issue} {o : MdrnOp} {p : OpPlace} {v : State}
    (h : (v.station i.stn).mdrnFault o (v.bit .stnArrayCtrl i.stn 0) p.tick = none) :
    mdrnEff i o p v = v.setStation i.stn ((v.station i.stn).mdrn o p.tick (v.profile1 (dieOf i.stn)) (v.lensSrc i.stn i.strm)) := by
  unfold mdrnEff
  simp only [h]

theorem execMdrn_drains {s : State} {i : Issue} {o : MdrnOp} {t : Nat} (h : s.opens i .m t = true)
    (hf : (s.station i.stn).mdrnFault o (s.bit .stnArrayCtrl i.stn 0) t = none) :
    ∃ u, exec (.mdrn i o) s = .next u ∧ s.WordFrame u i [] ∧
      u.station i.stn = ((s.station i.stn).opened i .m t).mdrn o t (s.profile1 (dieOf i.stn)) (s.lensSrc i.stn i.strm) := by
  obtain ⟨v, hv, hst, hw⟩ := s.issue_opens i .m t (mdrnEff i o) h
  have hctrl : v.bit .stnArrayCtrl i.stn 0 = s.bit .stnArrayCtrl i.stn 0 :=
    hw.bit_of_word i.stn.isLt (by cases i.strm <;> decide) 0
  have hclear : (v.station i.stn).mdrnFault o (v.bit .stnArrayCtrl i.stn 0) (s.placeOf i t).tick = none := by
    rw [hst, hctrl, Station.mdrnFault_opened, State.placeOf_tick]
    exact hf
  rw [mdrnEff_drains hclear, hst, State.placeOf_tick, hw.profile1, State.lensSrc_of_opened hst] at hv
  exact ⟨_, congrArg Host.Outcome.next hv, hw.trans (.setStation v i _ _), v.station_setStation_self _ _⟩

/-! ### What a drain reads (Table 2-10) -/

/-- Rows one after another. -/
def rowsUpTo {α : Type} (row : Nat → List α) (n : Nat) : List α := (List.range n).flatMap row

theorem rowsUpTo_succ {α : Type} (row : Nat → List α) (n : Nat) : rowsUpTo row (n + 1) = rowsUpTo row n ++ row n := by
  simp [rowsUpTo, List.range_succ]

/-- Row `k - a` is read on tick `k`, from tick `a` on, till 16 rows have been read. -/
theorem rowsUpTo_window {α : Type} (row : Nat → List α) (a k : Nat) :
    (if a ≤ k ∧ k < a + 16 then rowsUpTo row (min (k - a) 16) ++ row (k - a) else rowsUpTo row (min (k - a) 16)) =
      rowsUpTo row (min (k + 1 - a) 16) := by
  by_cases h : a ≤ k ∧ k < a + 16
  · have hnow : min (k - a) 16 = k - a := by omega
    have hnext : min (k + 1 - a) 16 = k - a + 1 := by omega
    rw [if_pos h, hnow, hnext, rowsUpTo_succ]
  · have hsame : min (k + 1 - a) 16 = min (k - a) 16 := by omega
    rw [if_neg h, hsame]

/-- An element of rows of 64. -/
theorem getD_rowsUpTo {α : Type} {row : Nat → List α} (hrow : ∀ i, (row i).length = 64) (d : α) {n i j : Nat} (hi : i < n) (hj : j < 64) :
    (rowsUpTo row n).getD (64 * i + j) d = (row i).getD j d := by
  have hlen : ∀ m, (rowsUpTo row m).length = 64 * m := fun m => by
    induction m with
    | zero => rfl
    | succ m ih => rw [rowsUpTo_succ, List.length_append, ih, hrow, Nat.mul_succ]
  induction n with
  | zero => omega
  | succ n ih =>
    rw [rowsUpTo_succ]
    by_cases h : i < n
    · rw [List.getD_append _ _ _ _ (by rw [hlen]; omega), ih h]
    · obtain rfl : i = n := by omega
      rw [List.getD_append_right _ _ _ _ (by rw [hlen]; omega), hlen, Nat.add_sub_cancel_left]

/-- A drain that has read on the ticks before tick `n` of its flight, from the stations that it found on them. -/
def DFlight.captured (f : DFlight) (xs : Nat → Station) (n : Nat) : DFlight :=
  (List.range n).foldl (fun h k => h.capture (xs k) (f.t + k)) f

/-- The rows of `TS`, and of the entries, that a drain has read before tick `n` of its flight. -/
def DFlight.tsRead (f : DFlight) (xs : Nat → Station) (n : Nat) : List Word := rowsUpTo (fun i => f.tsRow (xs (i + 1)) i) (min (n - 1) 16)

def DFlight.entRead (f : DFlight) (xs : Nat → Station) (n : Nat) : List Nat :=
  rowsUpTo (fun i => f.entRow (xs (i + f.entAt)) i) (min (n - f.entAt) 16)

theorem DFlight.tsRead_succ (f : DFlight) (xs : Nat → Station) (n : Nat) :
    (if 1 ≤ n ∧ n ≤ 16 then f.tsRead xs n ++ f.tsRow (xs n) (n - 1) else f.tsRead xs n) = f.tsRead xs (n + 1) := by
  refine Eq.trans ?_ (rowsUpTo_window (fun i => f.tsRow (xs (i + 1)) i) 1 n)
  by_cases h : 1 ≤ n ∧ n ≤ 16
  · rw [if_pos h, if_pos (by omega), Nat.sub_add_cancel h.1]
    rfl
  · rw [if_neg h, if_neg (by omega)]
    rfl

theorem DFlight.entRead_succ (f : DFlight) (xs : Nat → Station) (n : Nat) :
    (if f.entAt ≤ n ∧ n < f.entAt + 16 then f.entRead xs n ++ f.entRow (xs n) (n - f.entAt) else f.entRead xs n) = f.entRead xs (n + 1) := by
  refine Eq.trans ?_ (rowsUpTo_window (fun i => f.entRow (xs (i + f.entAt)) i) f.entAt n)
  by_cases h : f.entAt ≤ n ∧ n < f.entAt + 16
  · rw [if_pos h, if_pos h, Nat.sub_add_cancel h.1]
    rfl
  · rw [if_neg h, if_neg h]
    rfl

/-- What a drain has read changes nothing else of it. -/
theorem DFlight.captured_eq (f : DFlight) (xs : Nat → Station) (n : Nat) (hts : f.tsv = []) (hent : f.ent = []) :
    f.captured xs n = { f with tsv := f.tsRead xs n, ent := if f.grad then f.entRead xs n else [] } := by
  induction n with
  | zero =>
    have hzero : f.tsRead xs 0 = [] ∧ f.entRead xs 0 = [] := by simp [DFlight.tsRead, DFlight.entRead, rowsUpTo]
    obtain ⟨t0, e0⟩ := hzero
    rw [t0, e0, ite_self, ← hts, ← hent]
    rfl
  | succ n ih =>
    have hstep : f.captured xs (n + 1) = (f.captured xs n).capture (xs n) (f.t + n) := by simp [DFlight.captured, List.range_succ]
    rw [hstep, ih, ← f.tsRead_succ, ← f.entRead_succ]
    simp only [DFlight.capture, Nat.add_sub_cancel_left]
    cases f.grad with
    | false => simp; rfl
    | true => simp; exact ⟨rfl, rfl⟩

/-! ### What a drain writes (R58 to R60) -/

/-- The value of row `i` in column `j` after the fused operation, with `TS` as the drain found it. -/
def DFlight.valAt (f : DFlight) (x : Station) (i j : Nat) : Res :=
  fuseVal f.fuse (f.vals.el (64 * i + j)) ((x.tile f.ts).el (64 * (if f.fuse = 3 then 0 else i) + j))

theorem DFlight.row_read (f : DFlight) (xs : Nat → Station) (es : List Nat) {n i : Nat} (hi : i < min (n - 1) 16) :
    { f with tsv := f.tsRead xs n, ent := es }.row i = (List.range 64).map (f.valAt (xs (i + 1)) i) := by
  refine List.map_congr_left fun j hj => ?_
  have hj64 : j < 64 := List.mem_range.1 hj
  have hlen : ∀ k, (f.tsRow (xs (k + 1)) k).length = 64 := fun k => by simp [DFlight.tsRow]
  show fuseVal f.fuse (f.vals.el (64 * i + j)) ((f.tsRead xs n).getD (64 * i + j) 0) = _
  rw [DFlight.tsRead, getD_rowsUpTo hlen 0 hi hj64, DFlight.tsRow, getD_map_range _ _ hj64]
  rfl

theorem DFlight.getD_entRead (f : DFlight) (xs : Nat → Station) {n i j : Nat} (hi : i < min (n - f.entAt) 16) (hj : j < 64) :
    (f.entRead xs n).getD (64 * i + j) 0 = (xs (i + f.entAt)).entry (1024 * f.dst + 64 * i + j) := by
  rw [DFlight.entRead, getD_rowsUpTo (fun k => by simp [DFlight.entRow]) 0 hi hj, DFlight.entRow, getD_map_range _ _ hj]

/-- Row `i` of a tile register, of the values of its columns. -/
theorem rowEls_map (i : Nat) (g : Nat → Res) :
    rowEls i (((List.range 64).map g).map (fun r => BitVec.ofNat 32 r.1)) = (List.range 64).map (fun j => (64 * i + j, BitVec.ofNat 32 (g j).1)) := by
  refine List.map_congr_left fun j hj => ?_
  rw [List.map_map, getD_map_range _ _ (List.mem_range.1 hj)]
  rfl

theorem DFlight.writes_at (f : DFlight) {i : Nat} (hi : i < 16) :
    (f.writes (f.t + (f.writeAt + i))).map (·.wr) = f.rowWrites i := by
  have hwin : f.writeAt ≤ f.writeAt + i ∧ f.writeAt + i < f.writeAt + 16 := by omega
  simp only [DFlight.writes, Nat.add_sub_cancel_left, if_pos hwin, List.map_map]
  exact List.map_id _

/-- The writes of row `i`: the row as the fused operation gives it, into a tile register or added to the entries as they were read. -/
theorem DFlight.captured_writes (f : DFlight) (xs : Nat → Station) {i : Nat} (hi : i < 16) (hts : f.tsv = []) (hent : f.ent = []) :
    let vs := (List.range 64).map (f.valAt (xs (i + 1)) i)
    ((f.captured xs (f.writeAt + i + 1)).writes (f.t + (f.writeAt + i))).map (·.wr) =
      [if f.grad then .grad ((List.range 64).map (fun j => (1024 * f.dst + 64 * i + j,
          addW48 ((xs (i + f.entAt)).entry (1024 * f.dst + 64 * i + j)) (fp32.decode (f.valAt (xs (i + 1)) i j).1))))
       else .els f.dst ((List.range 64).map (fun j => (64 * i + j, BitVec.ofNat 32 (f.valAt (xs (i + 1)) i j).1))),
       .flags f.src.strm (orFlags vs).code, .drained f.src (vs.map (·.1))] := by
  have hread : i < min (f.writeAt + i + 1 - 1) 16 ∧ i < min (f.writeAt + i + 1 - f.entAt) 16 := by
    unfold DFlight.writeAt DFlight.entAt
    split <;> omega
  obtain ⟨hread, hentRead⟩ := hread
  rw [f.captured_eq xs _ hts hent]
  refine (DFlight.writes_at _ hi).trans ?_
  rw [DFlight.rowWrites, f.row_read xs _ hread]
  have hrow : ∀ j ∈ List.range 64, ((List.range 64).map (f.valAt (xs (i + 1)) i)).getD j (0, Flg.none) = f.valAt (xs (i + 1)) i j :=
    fun j hj => getD_map_range _ _ (List.mem_range.1 hj)
  have hent : ∀ j ∈ List.range 64, (f.entRead xs (f.writeAt + i + 1)).getD (64 * i + j) 0 = (xs (i + f.entAt)).entry (1024 * f.dst + 64 * i + j) :=
    fun j hj => f.getD_entRead xs hentRead (List.mem_range.1 hj)
  rw [rowEls_map]
  cases hg : f.grad with
  | false => rfl
  | true =>
    have hsum : (List.range 64).map (fun j => (1024 * f.dst + 64 * i + j, addW48 ((f.entRead xs (f.writeAt + i + 1)).getD (64 * i + j) 0)
        (fp32.decode (((List.range 64).map (f.valAt (xs (i + 1)) i)).getD j (0, Flg.none)).1))) = _ :=
      List.map_congr_left fun j hj => by rw [hrow j hj, hent j hj]
    rw [← hsum]
    rfl

/-! ### The settle mode (R62, R225) -/

/-- A request for a timed freeze is held once by each die of a list. -/
theorem State.timed_timedOn (s : State) {l : List Nat} (hl : l.Nodup) (bit tgt d : Nat) :
    ((s.timedOn l bit tgt).die d).timed = if d ∈ l then (s.die d).timed ++ [(bit, tgt)] else (s.die d).timed := by
  unfold State.timedOn
  induction l generalizing s with
  | nil => simp
  | cons a l ih =>
    obtain ⟨ha, hl'⟩ := List.nodup_cons.1 hl
    rw [List.foldl_cons, ih _ hl', State.die_modDie]
    by_cases had : a = d
    · subst had
      simp [ha]
    · simp [had, Ne.symm had]

theorem State.scope_nodup (s : State) (d : Nat) : (s.scope d).Nodup := by
  unfold State.scope
  split
  · decide
  · exact List.nodup_singleton d

/-- A station in settle mode that finds an early drain a freeze horizon ahead asks for the freeze of its tick. -/
theorem State.settleAsk_asks (s : State) {n t : Nat} (ht : s.liveTick n = some t) (hc : s.bit .stnArrayCtrl n 0 = true)
    (h : ∃ e ∈ s.lookAhead n (s.horizon (dieOf n) + 1) t (s.station n), e.tick = t + s.horizon (dieOf n) ∧ e.isOp 2 = true ∧
      mmaBefore (s.lookAhead n (s.horizon (dieOf n) + 1) t (s.station n)) e = true) :
    s.settleAsk n = (s.timedReq (dieOf n) 8 (s.tickLen (regionOf n) * (s.ref (regionOf n) + s.horizon (dieOf n)))).modStation n (fun x =>
      { x with settleAt := x.settleAt.filter (fun u => decide (t ≤ u)) ++ [t + s.horizon (dieOf n)] }) := by
  obtain ⟨e, he, htick, hop, hmma⟩ := h
  have hany : (s.lookAhead n (s.horizon (dieOf n) + 1) t (s.station n)).any (fun w => decide (w.tick = t + s.horizon (dieOf n)) &&
      w.isOp 2 && mmaBefore (s.lookAhead n (s.horizon (dieOf n) + 1) t (s.station n)) w) = true :=
    List.any_eq_true.2 ⟨e, he, by simp [htick, hop, hmma]⟩
  simp only [State.settleAsk, ht, hc, if_true, hany]

/-- The station holds the tick, and every die of its scope the freeze. -/
theorem State.settleAsk_holds (s : State) {n t : Nat} (ht : s.liveTick n = some t) (hc : s.bit .stnArrayCtrl n 0 = true)
    (h : ∃ e ∈ s.lookAhead n (s.horizon (dieOf n) + 1) t (s.station n), e.tick = t + s.horizon (dieOf n) ∧ e.isOp 2 = true ∧
      mmaBefore (s.lookAhead n (s.horizon (dieOf n) + 1) t (s.station n)) e = true) :
    ((s.settleAsk n).station n).settleAt.contains (t + s.horizon (dieOf n)) = true ∧
      ∀ d ∈ s.scope (dieOf n), ((s.settleAsk n).die d).timed = (s.die d).timed ++
        [(8, s.tickLen (regionOf n) * (s.ref (regionOf n) + s.horizon (dieOf n)))] := by
  rw [s.settleAsk_asks ht hc h]
  refine ⟨?_, fun d hd => ?_⟩
  · rw [State.station_modStation_self]
    exact List.contains_iff_mem.2 (List.mem_append_right _ (List.mem_singleton_self _))
  · have hasked := s.timed_timedOn (s.scope_nodup (dieOf n)) 8 (s.tickLen (regionOf n) * (s.ref (regionOf n) + s.horizon (dieOf n))) d
    rw [if_pos hd] at hasked
    exact hasked

/-- The MDRN for whose tick a freeze has been asked is not early. -/
theorem Station.mdrnFault_settled (x : Station) (o : MdrnOp) {t : Nat} (hd : x.drainHeld t = false) (ha : x.settleAt.contains t = true)
    (hb : (x.win o.group.toNat).cls = none ∨ (x.win o.group.toNat).till ≠ none) : x.mdrnFault o true t = none := by
  have hopen : ((x.win o.group.toNat).cls.isSome && (x.win o.group.toNat).till.isNone) = false := by
    rcases hb with h | h
    · rw [h]
      rfl
    · rw [Option.isNone_eq_false_iff.2 (Option.isSome_iff_ne_none.2 h), Bool.and_false]
  have hlate : x.early o.group.toNat true t = false := by rw [Station.early, ha, Bool.and_self, Bool.not_true, Bool.and_false]
  simp [Station.mdrnFault, hd, hopen, hlate]

/-- Settles O17: the op as it issues, what a row of it reads and writes, and the settle mode's request. -/
theorem mdrnDrainsOrSettles : Obligations.MdrnDrainsOrSettles := by
  unfold Obligations.MdrnDrainsOrSettles
  refine ⟨fun s i o t h hf => execMdrn_drains h hf, fun f xs i hi hts hent => ?_, fun x o t hd ha hb => x.mdrnFault_settled o hd ha hb,
    fun s n t ht hc => ?_⟩
  · have hwrites := f.captured_writes xs hi hts hent
    have hentAt : i + f.entAt = if f.p1 then i + 1 else i := by
      unfold DFlight.entAt
      split <;> rfl
    rw [hentAt] at hwrites
    exact hwrites
  · exact fun he => s.settleAsk_holds ht hc he

end Sys2Proof.Machine
end

section
/-! SUPPORT. What a fault that stops a station captures and leaves alone (R56, R114, R179, R228). -/

namespace Sys2Proof.Machine

/-! ### The schedule tick of a station (R103, R209) -/

theorem segOf_lt (n : Stn) : segOf n < 32 := Nat.div_lt_of_lt_mul n.isLt

theorem dieOf_lt (n : Stn) : dieOf n < 4 := Nat.div_lt_of_lt_mul n.isLt

/-- Positions are told by SEG_SPARE. -/
theorem State.posOf_congr {s u : State} {rs : List Reg} (h : s.RegsKept u rs) (hrs : Reg.segSpare ∉ rs) (n : Stn) : u.posOf n = s.posOf n := by
  unfold State.posOf State.sparePos
  rw [h.fld hrs (segOf_lt n)]

theorem State.stnKey_congr {s u : State} {rs : List Reg} (h : s.RegsKept u rs) (hrs : Reg.segSpare ∉ rs) (n : Stn) : u.stnKey n = s.stnKey n := by
  rw [State.stnKey, State.posOf_congr h hrs, State.stnKey]

/-- The schedule tick of a station is told by its position, the crossing's ratio, the ring's extent and its region's count. -/
theorem State.tickOf_congr {s u : State} {rs : List Reg} (h : s.RegsKept u rs) (hrs : Reg.segSpare ∉ rs) (hrefc : u.refc = s.refc)
    (hratio : u.ratio = s.ratio) (hpkg : u.pkgRing = s.pkgRing) (n : Stn) : u.tickOf n = s.tickOf n := by
  have hlag : u.lag n = s.lag n := by
    unfold State.lag State.lagAt
    rw [State.posOf_congr h hrs, hratio, hpkg]
  unfold State.tickOf State.ref
  rw [hlag, hrefc]

theorem State.WordFrame.regsKept {s v : State} {i : Issue} (hw : s.WordFrame v i []) : s.RegsKept v [cntReg i.strm] :=
  fun _ hr _ hj => hw.wordsKept.reg hr hj

/-- A slot that acts does so on the schedule tick of its station. -/
theorem State.tickOf_of_opens {s : State} {i : Issue} {sl : Slot} {t : Nat} (h : s.opens i sl t = true) : s.tickOf i.stn = some t := by
  have hissue : s.issueTick i.stn = some t := by
    simp only [State.opens, Bool.and_eq_true, decide_eq_true_eq] at h
    exact h.1.1.1
  unfold State.issueTick State.liveTick at hissue
  split at hissue
  · next hlive =>
    split at hlive
    · split at hissue
      · cases hissue
      · rw [hlive]
        exact hissue
    · cases hlive
  · cases hissue

theorem State.WordFrame.tickOf {s v : State} {i : Issue} (hw : s.WordFrame v i []) : v.tickOf i.stn = s.tickOf i.stn := by
  refine State.tickOf_congr hw.regsKept (by cases i.strm <;> decide) ?_ ?_ ?_ i.stn <;> rw [hw.rest]

/-! ### Captures (R56, R179, R393) -/

/-- From `s` to `u`, nothing differs but registers, and the reports that wait for Keeper. -/
def State.CapturedTo (s u : State) : Prop := u = { s with regs := u.regs, fw := u.fw }

theorem State.CapturedTo.trans {s t u : State} (h : s.CapturedTo t) (g : t.CapturedTo u) : s.CapturedTo u :=
  Eq.trans g (by rw [show t = _ from h])

theorem State.CapturedTo.frame {s u : State} (h : s.CapturedTo u) : u.stations = s.stations ∧ u.ring = s.ring ∧ u.refc = s.refc ∧
    u.ratio = s.ratio ∧ u.pkgRing = s.pkgRing := by
  rw [show u = _ from h]
  exact ⟨rfl, rfl, rfl, rfl, rfl⟩

theorem State.setReg_capturedTo (s : State) (r : Reg) (i v : Nat) : s.CapturedTo (s.setReg r i v) := rfl

theorem State.raise_capturedTo (s : State) (r : Reg) (i : Nat) : s.CapturedTo (s.raise r i) ∧ (s.raise r i).regs = s.regs := by
  unfold State.raise State.raiseAs
  split
  · split <;> exact ⟨rfl, rfl⟩
  · exact ⟨rfl, rfl⟩

theorem State.capture_capturedTo (s : State) (r : Reg) (i v : Nat) : s.CapturedTo (s.capture r i v) := by
  unfold State.capture
  split
  · rfl
  · exact (s.setReg_capturedTo _ _ _).trans (State.raise_capturedTo _ _ _).1

theorem State.capture_kept (s : State) {r : Reg} {i : Nat} (hi : i < r.info.count) (v : Nat) : s.RegsKept (s.capture r i v) [r] := by
  unfold State.capture
  split
  · exact .of_regs rfl
  · exact (s.setReg_regsKept (by simp) hi _).trans (.of_regs (State.raise_capturedTo _ _ _).2)

/-- The first capture stands, and a later one is not taken. -/
theorem State.reg_capture (s : State) (r : Reg) (i v : Nat) : (s.bit r i 31 = false → (s.capture r i v).reg r i = 2 ^ 31 + v % 2 ^ 31) ∧
    (s.bit r i 31 = true → (s.capture r i v).reg r i = s.reg r i) := by
  refine ⟨fun h => ?_, fun h => ?_⟩
  · have hlow : v % 2 ^ 31 < 2 ^ 31 := Nat.mod_lt _ (by decide)
    rw [State.capture, if_neg (by rw [h]; decide), State.reg_congr (State.raise_capturedTo _ _ _).2, State.reg_setReg]
    omega
  · rw [State.capture, if_pos h]

/-- What STN_SEQ_FAULT takes of a fault (Table 6-12). -/
def seqWord (code cause slot : Nat) (p : OpPlace) : Nat :=
  2 ^ 31 + b2n p.bank * 2 ^ 30 + p.strm.code * 2 ^ 28 + code * 2 ^ 24 + cause * 2 ^ 20 + slot * 2 ^ 17 + b2n p.rtn * 2 ^ 16 + p.tick % 2 ^ 16

theorem State.captureSeq_capturedTo (s : State) (n code cause slot : Nat) (p : OpPlace) : s.CapturedTo (s.captureSeq n code cause slot p) := by
  unfold State.captureSeq
  split
  · rfl
  · exact ((s.setReg_capturedTo _ _ _).trans (State.setReg_capturedTo _ _ _ _)).trans (State.raise_capturedTo _ _ _).1

theorem State.captureSeq_kept (s : State) (n : Stn) (code cause slot : Nat) (p : OpPlace) :
    s.RegsKept (s.captureSeq n code cause slot p) [.stnSeqFault, .stnSeqFaultPc] := by
  unfold State.captureSeq
  split
  · exact .of_regs rfl
  · exact ((s.setReg_regsKept (by simp) n.isLt _).trans (State.setReg_regsKept _ (by simp) n.isLt _)).trans
      (.of_regs (State.raise_capturedTo _ _ _).2)

theorem State.reg_captureSeq (s : State) (n : Stn) (code cause slot : Nat) (p : OpPlace) (h : s.bit .stnSeqFault n 31 = false) :
    (s.captureSeq n code cause slot p).reg .stnSeqFault n = seqWord code cause slot p % 2 ^ 32 := by
  rw [State.captureSeq, if_neg (by rw [h]; decide), State.reg_congr (State.raise_capturedTo _ _ _).2,
    State.setReg_regsKept _ (rs := [.stnSeqFaultPc]) (by simp) n.isLt _ .stnSeqFault (by decide) n n.isLt, State.reg_setReg, seqWord]

/-! ### The stop (R228, R229) -/

/-- A station that issues nothing from tick `t` on, or from an earlier stop. -/
def Station.stopsBy (x : Station) (t : Nat) : Station := { x with stopAt := match x.stopAt with | some u => some (min u t) | none => some t }

theorem Station.stopsBy_stops (x : Station) (t : Nat) : (x.stopsBy t).stopAt ≠ none := by
  unfold Station.stopsBy
  cases x.stopAt <;> exact Option.some_ne_none _

theorem State.station_stopOn (s : State) (n t : Nat) : (s.stopOn n t).station n = (s.station n).stopsBy t := s.station_modStation_self n _

theorem State.ShutOnly.ring {s u : State} (h : s.ShutOnly u) : u.ring = s.ring := by
  rw [show u = _ from h]

theorem State.modDie_shutOnly (s : State) (d : Nat) (f : DieSt → DieSt) : s.ShutOnly (s.modDie d f) := rfl

theorem State.sendFault_frame (s : State) {d : Nat} (hd : d < 4) (code : Nat) (unit : Bool) (n : Nat) :
    s.ShutOnly (s.sendFault d code unit n) ∧ s.RegsKept (s.sendFault d code unit n) [.shtCause] := by
  unfold State.sendFault
  refine ⟨(State.ShutOnly.foldl (fun t x => t.modDie_shutOnly x _) (s.scope d) s).trans (State.shutReq_shutOnly _ d 12 0),
    State.RegsKept.trans (State.RegsKept.of_regs ?_) (State.shutReq_kept _ hd 12 0)⟩
  exact foldl_keeps State.regs (fun t x => (t.modDie_frame x _).1) (s.scope d) s

/-- From `s` to `u`, the station has been stopped on tick `t`, to issue nothing from the next tick on; no other station and no ring word
differs. -/
structure State.StopsStation (s u : State) (n : Stn) (t : Nat) : Prop where
  station : u.station n = (s.station n).stopsBy (t + 1)
  others : ∀ j, j ≠ n.val → u.station j = s.station j
  ring : u.ring = s.ring

/-- A fault of a station, whatever captured it, stops it, and may change SHT_CAUSE alone of the registers. -/
theorem State.fault_stops {s c : State} {n : Stn} {t : Nat} {rs : List Reg} (hc : s.CapturedTo c) (hk : s.RegsKept c rs) (hrs : Reg.segSpare ∉ rs)
    (ht : s.tickOf n = some t) (p : OpPlace) (code : Nat) :
    s.StopsStation ((c.traceFault n p).stationFault n code) n t ∧ c.RegsKept ((c.traceFault n p).stationFault n code) [.shtCause] := by
  obtain ⟨hstn, hring, hrefc, hratio, hpkg⟩ := hc.frame
  have htick : (c.traceFault n p).tick0 n = t := by
    have hsame : (c.traceFault n p).tickOf n = s.tickOf n := State.tickOf_congr (hk.trans (.of_regs rfl)) hrs hrefc hratio hpkg n
    rw [State.tick0, hsame, ht]
    rfl
  have hfault : (c.traceFault n p).stationFault n code = ((c.traceFault n p).stopOn n (t + 1)).sendFault (dieOf n) code false n := by
    rw [State.stationFault, htick]
  obtain ⟨hshut, hkept⟩ := State.sendFault_frame ((c.traceFault n p).stopOn n (t + 1)) (dieOf_lt n) code false n
  obtain ⟨-, -, hstns, -⟩ := hshut.frame
  rw [hfault]
  refine ⟨⟨?_, fun j hj => ?_, hshut.ring.trans hring⟩, .trans (.of_regs rfl) hkept⟩
  · rw [State.station_congr hstns, State.station_stopOn]
    exact congrArg (Station.stopsBy · (t + 1)) (State.station_congr hstn n)
  · rw [State.station_congr hstns, State.stopOn, State.station_modStation, if_neg (Ne.symm hj)]
    exact State.station_congr hstn j

end Sys2Proof.Machine
end

section
/-! SUPPORT. Array ops that their checks suppress (R55 to R57, R64). -/

namespace Sys2Proof.Machine

/-- What STN_ARRAY_FAULT takes of a fault (Table 2-11). -/
def arrayWord (code group op : Nat) (m : Strm) (t : Nat) : Nat := code * 2 ^ 24 + m.code * 2 ^ 22 + group * 2 ^ 20 + op * 2 ^ 18 + t % 2 ^ 16

theorem State.arrayFault_stops (s : State) {n : Stn} {p : OpPlace} (ht : s.tickOf n = some p.tick) (code group op : Nat) :
    let u := s.arrayFault n code group op p
    s.StopsStation u n p.tick ∧
      (s.bit .stnArrayFault n 31 = false → u.reg .stnArrayFault n = 2 ^ 31 + arrayWord code group op p.strm p.tick % 2 ^ 31) ∧
      (s.bit .stnArrayFault n 31 = true → u.reg .stnArrayFault n = s.reg .stnArrayFault n) := by
  intro u
  obtain ⟨hstops, hkept⟩ := State.fault_stops (s.capture_capturedTo .stnArrayFault n (arrayWord code group op p.strm p.tick))
    (s.capture_kept n.isLt _) (by decide) ht p code
  obtain ⟨hfirst, hlater⟩ := s.reg_capture .stnArrayFault n (arrayWord code group op p.strm p.tick)
  have hreg : u.reg .stnArrayFault n = (s.capture .stnArrayFault n (arrayWord code group op p.strm p.tick)).reg .stnArrayFault n :=
    hkept .stnArrayFault (by decide) n n.isLt
  exact ⟨hstops, fun h => hreg.trans (hfirst h), fun h => hreg.trans (hlater h)⟩

/-- From `s` to `u`, the word of an array op has issued, and the op has been suppressed with a fault. -/
structure State.ArraySuppressed (s u : State) (i : Issue) (t code group op : Nat) : Prop where
  station : u.station i.stn = ((s.station i.stn).opened i .m t).stopsBy (t + 1)
  others : ∀ j, j ≠ i.stn.val → u.station j = s.station j
  ring : u.ring = s.ring
  first : s.bit .stnArrayFault i.stn 31 = false → u.reg .stnArrayFault i.stn = 2 ^ 31 + arrayWord code group op i.strm t % 2 ^ 31
  later : s.bit .stnArrayFault i.stn 31 = true → u.reg .stnArrayFault i.stn = s.reg .stnArrayFault i.stn

theorem State.issue_arrayFault {s : State} {i : Issue} {t code group op : Nat} {eff : OpPlace → State → State} (h : s.opens i .m t = true)
    (he : ∀ v : State, v.station i.stn = (s.station i.stn).opened i .m t → s.WordFrame v i [] →
      eff (s.placeOf i t) v = v.arrayFault i.stn code group op (s.placeOf i t)) :
    s.ArraySuppressed (s.issue i .m eff) i t code group op := by
  obtain ⟨v, hv, hst, hw⟩ := s.issue_opens i .m t eff h
  have ht : v.tickOf i.stn = some (s.placeOf i t).tick := by rw [hw.tickOf, State.tickOf_of_opens h, State.placeOf_tick]
  have hcnt : Reg.stnArrayFault ≠ cntReg i.strm := by cases i.strm <;> decide
  obtain ⟨hstops, hfirst, hlater⟩ := v.arrayFault_stops ht code group op
  rw [← he v hst hw, ← hv] at hstops hfirst hlater
  rw [hw.bit_of_word i.stn.isLt hcnt] at hfirst hlater
  rw [State.placeOf_strm, State.placeOf_tick] at hfirst
  obtain ⟨hstn, hothers, hring⟩ := hstops
  rw [hst, State.placeOf_tick] at hstn
  exact ⟨hstn, fun j hj => (hothers j hj).trans (hw.others j hj), hring.trans (by rw [hw.rest]), hfirst,
    fun hb => (hlater hb).trans (hw.reg_of_word i.stn.isLt hcnt)⟩

/-! ### The four ops -/

section
variable {s : State} {i : Issue} {t : Nat} (h : s.opens i .m t = true)
include h

theorem execMld_illegal {o : MldOp} (hf : wclass o.fmt.toNat = none) : s.ArraySuppressed (s.issue i .m (mldEff i o)) i t 3 0 0 :=
  State.issue_arrayFault h fun _ _ _ => if_pos (Option.isNone_iff_eq_none.2 hf)

theorem execMld_busy {o : MldOp} (hf : wclass o.fmt.toNat ≠ none) (hp : t < (s.station i.stn).portBusy) :
    s.ArraySuppressed (s.issue i .m (mldEff i o)) i t 1 0 0 := by
  refine State.issue_arrayFault h fun v hst _ => ?_
  have hlegal : ¬ (wclass o.fmt.toNat).isNone = true := fun hn => hf (Option.isNone_iff_eq_none.1 hn)
  have hbusy : (s.placeOf i t).tick < (v.station i.stn).portBusy := by
    rw [hst, Station.read_opened Station.portBusy _ _ _ _ (fun _ _ _ => rfl), State.placeOf_tick]
    exact hp
  exact (if_neg hlegal).trans (if_pos hbusy)

theorem execMma_faults {o : MmaOp} {code : Nat} (hf : (s.station i.stn).mmaFault o i.strm t = some code) :
    s.ArraySuppressed (s.issue i .m (mmaEff i o)) i t code o.group.toNat 1 := by
  refine State.issue_arrayFault h fun v hst _ => ?_
  have hfault : (v.station i.stn).mmaFault o i.strm (s.placeOf i t).tick = some code := by
    rw [hst, Station.mmaFault_opened, State.placeOf_tick, hf]
  unfold mmaEff
  simp only [hfault]

theorem execMdrn_faults {o : MdrnOp} {code : Nat} (hf : (s.station i.stn).mdrnFault o (s.bit .stnArrayCtrl i.stn 0) t = some code) :
    s.ArraySuppressed (s.issue i .m (mdrnEff i o)) i t code o.group.toNat 2 := by
  refine State.issue_arrayFault h fun v hst hw => ?_
  have hfault : (v.station i.stn).mdrnFault o (v.bit .stnArrayCtrl i.stn 0) (s.placeOf i t).tick = some code := by
    rw [hw.bit_of_word i.stn.isLt (by cases i.strm <;> decide), hst, Station.mdrnFault_opened, State.placeOf_tick, hf]
  unfold mdrnEff
  simp only [hfault]

end

/-- A chain or a drain holds a group (Table 2-6). -/
def Station.holds (x : Station) (t g : Nat) : Bool := (x.win g).chain t || x.draining g t

theorem Station.holds_opened (x : Station) (i : Issue) (sl : Slot) (t k : Nat) : (x.opened i sl t).holds k = x.holds k :=
  Station.read_opened (fun y => y.holds k) x i sl t (fun _ _ _ => rfl)

theorem execMclr_faults {s : State} {i : Issue} {t : Nat} (h : s.opens i .m t = true) {mask : BitVec 4} {g : Nat}
    (hf : (maskGroups mask).find? ((s.station i.stn).holds t) = some g) : s.ArraySuppressed (s.issue i .m (mclrEff i mask)) i t 1 g 3 := by
  refine State.issue_arrayFault h fun v hst _ => ?_
  have hfind : (maskGroups mask).find? ((v.station i.stn).holds (s.placeOf i t).tick) = some g := by
    rw [hst, Station.holds_opened, State.placeOf_tick, hf]
  unfold Station.holds at hfind
  unfold mclrEff
  simp only [hfind]

end Sys2Proof.Machine
end

section
/-! ## MCLR (O18) -/

namespace Sys2Proof.Machine

/-- A group is clear: its accumulators, block registers and column-scale latch are zero, and no block of it is open. -/
structure Station.GroupClear (x : Station) (g : Nat) : Prop where
  group : x.group g = Tile.zero
  blks : x.blks g = blkZeros
  scales : ∀ j < 64, x.colScale g j = 0
  win : x.win g = Grp.free

/-- Two stations have one group in the same state. -/
structure Station.GroupSame (x y : Station) (g : Nat) : Prop where
  group : y.group g = x.group g
  blks : y.blks g = x.blks g
  scales : ∀ j < 64, y.colScale g j = x.colScale g j
  win : y.win g = x.win g

/-- A group is given accumulators, block registers and a window, and its column scales become zero. The contents are variables here: a table
that is compared with its own default would be evaluated. -/
def Station.regroup (x : Station) (g : Nat) (a : Tile) (b : List Blk) (w : Grp) : Station :=
  { ((x.setGroup g a).setBlks g b).setWin g w with cscale := x.cscale.filter (fun e => decide (e.1 / 64 ≠ g)) }

section
variable (x : Station) (g : Nat) (a : Tile) (b : List Blk) (w : Grp)

theorem Station.group_regroup (h : Nat) : (x.regroup g a b w).group h = if g = h then a else x.group h := x.group_setGroup g h a

theorem Station.blks_regroup (h : Nat) : (x.regroup g a b w).blks h = if g = h then b else x.blks h := x.blks_setBlks g h b

theorem Station.win_regroup (h : Nat) : (x.regroup g a b w).win h = if g = h then w else x.win h := x.win_setWin g h w

theorem Station.colScale_regroup (h : Nat) {j : Nat} (hj : j < 64) :
    (x.regroup g a b w).colScale h j = if g = h then 0 else x.colScale h j := by
  have hkey : (64 * h + j) / 64 = h := by omega
  have hread : (x.regroup g a b w).colScale h j =
      (if decide ((64 * h + j) / 64 ≠ g) then Tbl.get (fun _ => (0 : Byte)) x.cscale (64 * h + j) else 0).toNat :=
    congrArg BitVec.toNat (Tbl.get_filter _ (fun k => decide (k / 64 ≠ g)) x.cscale (64 * h + j))
  rw [hread, hkey]
  by_cases hg : g = h
  · simp [hg]
  · rw [if_pos (decide_eq_true (Ne.symm hg)), if_neg hg, Station.colScale]

end

/-- One group is cleared, and its open block ends. -/
def Station.clears (x : Station) (g : Nat) : Station := x.regroup g Tile.zero blkZeros Grp.free

theorem Station.clearGroup_eq (x : Station) (g : Nat) : (x.clearGroup g).setWin g Grp.free = x.clears g := by
  unfold Station.clearGroup Station.clears
  generalize Tile.zero = a
  generalize blkZeros = b
  rfl

theorem Station.clears_self (x : Station) (g : Nat) : (x.clears g).GroupClear g := by
  refine ⟨?_, ?_, fun j hj => ?_, ?_⟩
  · rw [Station.clears, Station.group_regroup, if_pos rfl]
  · rw [Station.clears, Station.blks_regroup, if_pos rfl]
  · rw [Station.clears, Station.colScale_regroup _ _ _ _ _ _ hj, if_pos rfl]
  · rw [Station.clears, Station.win_regroup, if_pos rfl]

theorem Station.clears_other (x : Station) {g h : Nat} (hg : g ≠ h) : x.GroupSame (x.clears g) h := by
  refine ⟨?_, ?_, fun j hj => ?_, ?_⟩
  · rw [Station.clears, Station.group_regroup, if_neg hg]
  · rw [Station.clears, Station.blks_regroup, if_neg hg]
  · rw [Station.clears, Station.colScale_regroup _ _ _ _ _ _ hj, if_neg hg]
  · rw [Station.clears, Station.win_regroup, if_neg hg]

theorem Station.GroupClear.of_same {x y : Station} {g : Nat} (hx : x.GroupClear g) (h : x.GroupSame y g) : y.GroupClear g :=
  ⟨h.group.trans hx.group, h.blks.trans hx.blks, fun j hj => (h.scales j hj).trans (hx.scales j hj), h.win.trans hx.win⟩

theorem Station.GroupSame.trans {x y z : Station} {g : Nat} (h : x.GroupSame y g) (k : y.GroupSame z g) : x.GroupSame z g :=
  ⟨k.group.trans h.group, k.blks.trans h.blks, fun j hj => (k.scales j hj).trans (h.scales j hj), k.win.trans h.win⟩

theorem Station.mclr_cons (x : Station) (a : Nat) (l : List Nat) : x.mclr (a :: l) = (x.clears a).mclr l := by
  rw [Station.mclr, List.foldl_cons, Station.clearGroup_eq, Station.mclr]

/-- A group that is clear, or is in the list, is clear afterwards. -/
theorem Station.mclr_clear (l : List Nat) {g : Nat} (x : Station) (h : g ∈ l ∨ x.GroupClear g) : (x.mclr l).GroupClear g := by
  induction l generalizing x with
  | nil => exact h.resolve_left (fun hm => nomatch hm)
  | cons a l ih =>
    rw [Station.mclr_cons]
    by_cases ha : a = g
    · exact ih _ (.inr (ha ▸ x.clears_self a))
    · exact ih _ (h.imp (fun hm => (List.mem_cons.1 hm).resolve_left (Ne.symm ha)) (fun hx => hx.of_same (x.clears_other ha)))

/-- Other groups stay. -/
theorem Station.mclr_same (l : List Nat) {g : Nat} (x : Station) (h : g ∉ l) : x.GroupSame (x.mclr l) g := by
  induction l generalizing x with
  | nil => exact ⟨rfl, rfl, fun _ _ => rfl, rfl⟩
  | cons a l ih =>
    obtain ⟨ha, hl⟩ := not_or.1 (fun hm => h (List.mem_cons.2 hm))
    rw [Station.mclr_cons]
    exact (x.clears_other (Ne.symm ha)).trans (ih _ hl)

/-- A clear touches the groups alone. -/
theorem Station.mclr_frame (l : List Nat) (x : Station) :
    x.mclr l = { x with acc := (x.mclr l).acc, blk := (x.mclr l).blk, cscale := (x.mclr l).cscale, grp := (x.mclr l).grp } := by
  induction l generalizing x with
  | nil => rfl
  | cons a l ih =>
    rw [Station.mclr_cons, ih, Station.clears]
    generalize Tile.zero = z
    generalize blkZeros = b
    rfl

theorem mem_maskGroups (mask : BitVec 4) (g : Nat) : g ∈ maskGroups mask ↔ g < 4 ∧ bitOf mask.toNat g = true := by
  simp [maskGroups]

theorem execMclr_clears {s : State} {i : Issue} {t : Nat} (h : s.opens i .m t = true) {mask : BitVec 4}
    (hf : (maskGroups mask).find? ((s.station i.stn).holds t) = none) :
    ∃ u, exec (.mclr i mask) s = .next u ∧ s.WordFrame u i [] ∧ u.station i.stn = ((s.station i.stn).opened i .m t).mclr (maskGroups mask) := by
  obtain ⟨v, hv, hst, hw⟩ := s.issue_opens i .m t (mclrEff i mask) h
  have hfind : (maskGroups mask).find? ((v.station i.stn).holds (s.placeOf i t).tick) = none := by
    rw [hst, Station.holds_opened, State.placeOf_tick, hf]
  unfold Station.holds at hfind
  have heff : mclrEff i mask (s.placeOf i t) v = v.setStation i.stn ((v.station i.stn).mclr (maskGroups mask)) := by
    unfold mclrEff
    simp only [hfind]
  rw [heff, hst] at hv
  exact ⟨_, congrArg Host.Outcome.next hv, hw.trans (.setStation v i _ _), v.station_setStation_self _ _⟩

/-- Settles O18: the groups of the mask by whether one of them is held. -/
theorem mclrClearsGroups : Obligations.MclrClearsGroups := by
  unfold Obligations.MclrClearsGroups
  intro s i mask t h held x
  have hheld : held ↔ ∃ g ∈ maskGroups mask, (s.station i.stn).holds t g = true := by
    simp only [held, Station.holds, Bool.or_eq_true]
  refine ⟨fun hfree => ?_, fun hnot => ?_⟩
  · have hnone : (maskGroups mask).find? ((s.station i.stn).holds t) = none :=
      List.find?_eq_none.2 fun g hg hh => hfree (hheld.2 ⟨g, hg, hh⟩)
    obtain ⟨u, hu, hw, hstn⟩ := execMclr_clears h hnone
    refine ⟨u, hu, hw, ?_⟩
    rw [hstn]
    refine ⟨Station.mclr_frame _ _, fun g hg hb => ?_, fun g hg hb => ?_⟩
    · obtain ⟨h1, h2, h3, h4⟩ := Station.mclr_clear (maskGroups mask) x (.inl ((mem_maskGroups mask g).2 ⟨hg, hb⟩))
      exact ⟨h1, h2, h3, h4⟩
    · have hout : g ∉ maskGroups mask := fun hm => by
        rw [((mem_maskGroups mask g).1 hm).2] at hb
        cases hb
      obtain ⟨h1, h2, h3, h4⟩ := Station.mclr_same (maskGroups mask) x hout
      exact ⟨h1, h2, h3, h4⟩
  · obtain ⟨g0, hg0, hh0⟩ := hheld.1 hnot
    obtain ⟨g, hg⟩ := Option.isSome_iff_exists.1 (List.find?_isSome.2 ⟨g0, hg0, hh0⟩)
    have hlt : g < 4 := ((mem_maskGroups mask g).1 (List.mem_of_find?_eq_some hg)).1
    obtain ⟨hstn, hothers, hring, hfirst, -⟩ := execMclr_faults h hg
    refine ⟨_, rfl, hothers, hring, ?_, fun hb => ?_⟩
    · rw [hstn]
      exact ⟨rfl, Station.stopsBy_stops _ _⟩
    · rw [State.fld, hfirst hb, arrayWord, bitsOf_eq_div_mod]
      have hcode : i.strm.code < 4 := by cases i.strm <;> decide
      omega

end Sys2Proof.Machine
end

section
/-! ## Ops that a fault suppresses (O19) -/

namespace Sys2Proof.Machine

/-! ### A V op on an occupied engine (R131, R150) -/

/-- What a V op does to an occupied engine: SLOT_CONFLICT, cause 0x3. -/
def RefusesBusy (i : Issue) (eff : OpPlace → State → State) : Prop :=
  ∀ (p : OpPlace) (v : State), p.tick < (v.station i.stn).vBusy → eff p v = v.seqFault i.stn 4 3 1 p

theorem vEff_refusesBusy (i : Issue) (o : VOp) (k : VKind) : RefusesBusy i (vEff i o k) := fun _ _ h => if_pos h

theorem vcvtEff_refusesBusy (i : Issue) (o : VcvtOp) : RefusesBusy i (vcvtEff i o) := fun _ _ h => if_pos h

/-- Every V op refuses an occupied engine. -/
theorem exec_of_vSlot {c : Instr} {i : Issue} (h : slotOf c = some (i, .v)) :
    ∃ eff, RefusesBusy i eff ∧ ∀ s, exec c s = .next (s.issue i .v eff) := by
  cases c <;> cases h
  case vcvt o => exact ⟨_, vcvtEff_refusesBusy i o, fun _ => rfl⟩
  all_goals exact ⟨_, vEff_refusesBusy i _ _, fun _ => rfl⟩

theorem State.seqFault_stops (s : State) {n : Stn} {p : OpPlace} (ht : s.tickOf n = some p.tick) (code cause slot : Nat) :
    let u := s.seqFault n code cause slot p
    s.StopsStation u n p.tick ∧ s.RegsKept u [.stnSeqFault, .stnSeqFaultPc, .shtCause] ∧
      (s.bit .stnSeqFault n 31 = false → u.reg .stnSeqFault n = seqWord code cause slot p % 2 ^ 32) := by
  intro u
  have hcap := s.captureSeq_kept n code cause slot p
  obtain ⟨hstops, hkept⟩ := State.fault_stops (s.captureSeq_capturedTo n code cause slot p) hcap (by decide) ht p code
  exact ⟨hstops, (hcap.mono (by simp)).trans (hkept.mono (by simp)),
    fun h => (hkept .stnSeqFault (by decide) n n.isLt).trans (s.reg_captureSeq n code cause slot p h)⟩

/-- What the capture of a V op's SLOT_CONFLICT reads as. -/
theorem seqWord_busy {s : State} {n : Stn} {p : OpPlace} (h : s.reg .stnSeqFault n = seqWord 4 3 1 p % 2 ^ 32) :
    s.bit .stnSeqFault n 31 = true ∧ s.fld .stnSeqFault n 27 24 = 4 ∧ s.fld .stnSeqFault n 23 20 = 3 ∧ s.fld .stnSeqFault n 19 17 = 1 ∧
      s.fld .stnSeqFault n 15 0 = p.tick % 2 ^ 16 := by
  have hstrm : p.strm.code < 4 := by cases p.strm <;> decide
  have hbank : b2n p.bank < 2 := by cases p.bank <;> decide
  have hrtn : b2n p.rtn < 2 := by cases p.rtn <;> decide
  simp only [State.bit, State.fld, h, seqWord, bitsOf_eq_div_mod, bitOf_eq_div_mod, decide_eq_true_eq]
  omega

theorem State.issue_busy {s : State} {i : Issue} {t : Nat} {eff : OpPlace → State → State} (he : RefusesBusy i eff) (h : s.opens i .v t = true)
    (hb : t < (s.station i.stn).vBusy) : let u := s.issue i .v eff
    u.station i.stn = ((s.station i.stn).opened i .v t).stopsBy (t + 1) ∧ u.reg .vecFlags i.stn = s.reg .vecFlags i.stn ∧
      (s.bit .stnSeqFault i.stn 31 = false → u.bit .stnSeqFault i.stn 31 = true ∧ u.fld .stnSeqFault i.stn 27 24 = 4 ∧
        u.fld .stnSeqFault i.stn 23 20 = 3 ∧ u.fld .stnSeqFault i.stn 19 17 = 1 ∧ u.fld .stnSeqFault i.stn 15 0 = t % 2 ^ 16) := by
  obtain ⟨v, hv, hst, hw⟩ := s.issue_opens i .v t eff h
  have ht : v.tickOf i.stn = some (s.placeOf i t).tick := by rw [hw.tickOf, State.tickOf_of_opens h, State.placeOf_tick]
  have hcnt : Reg.stnSeqFault ≠ cntReg i.strm ∧ Reg.vecFlags ≠ cntReg i.strm := by cases i.strm <;> decide
  obtain ⟨hseq, hflags⟩ := hcnt
  have hbusy : (s.placeOf i t).tick < (v.station i.stn).vBusy := by
    rw [hst, Station.read_opened Station.vBusy _ _ _ _ (fun _ _ _ => rfl), State.placeOf_tick]
    exact hb
  obtain ⟨hstops, hkept, hfirst⟩ := v.seqFault_stops ht 4 3 1
  rw [hv, he _ _ hbusy]
  refine ⟨?_, (hkept .vecFlags (by decide) _ i.stn.isLt).trans (hw.reg_of_word i.stn.isLt hflags), fun hvalid => ?_⟩
  · rw [hstops.station, hst, State.placeOf_tick]
  · rw [← hw.bit_of_word i.stn.isLt hseq] at hvalid
    have hread := seqWord_busy (hfirst hvalid)
    rw [State.placeOf_tick] at hread
    exact hread

/-! ### A bad word on the ring (R114, R125) -/

theorem State.issueRing_free {s : State} {i : Issue} (h : s.ringFree i.stn = true) (eff : OpPlace → State → State) :
    s.issueRing i eff = s.issue i .g eff := by
  rw [State.issueRing, if_neg]
  rw [State.ringFree, Bool.not_eq_true'] at h
  rw [h]
  decide

theorem State.posOf_le (s : State) (n : Nat) : s.posOf n ≤ 32 := by
  unfold State.posOf
  dsimp only
  split <;> omega

/-- What RING_ERR takes of an error (Table 4-14). -/
def State.ringFaultWord (s : State) (d kind seg pos : Nat) : Nat :=
  kind * 2 ^ 28 + seg % 8 * 2 ^ 22 + pos * 2 ^ 16 + s.ref (s.netRegion d) % 2 ^ 16

/-- What the capture of a ring error reads as. -/
theorem ringFaultWord_fields {s u : State} {d kind seg pos : Nat} (hk : kind < 8) (hp : pos ≤ 32)
    (h : u.reg .ringErr d = 2 ^ 31 + s.ringFaultWord d kind seg pos % 2 ^ 31) : u.bit .ringErr d 31 = true ∧ u.fld .ringErr d 30 28 = kind := by
  have hseg : seg % 8 < 8 := Nat.mod_lt _ (by decide)
  have href : s.ref (s.netRegion d) % 2 ^ 16 < 2 ^ 16 := Nat.mod_lt _ (by decide)
  simp only [State.bit, State.fld, h, State.ringFaultWord, bitsOf_eq_div_mod, bitOf_eq_div_mod, decide_eq_true_eq]
  omega

/-- An op that meets a bad word stops its station; the word passes on poisoned, and RING_ERR captures its kind. -/
theorem State.badWord_stops (s : State) {n : Stn} {p : OpPlace} (ht : s.tickOf n = some p.tick) (w : RingWord) :
    let u := s.badWord n w p
    u.station n = (s.station n).stopsBy (p.tick + 1) ∧ u.slotAt (s.stnKey n) = w.poisoned ∧
      (s.bit .ringErr (dieOf n) 31 = false → u.bit .ringErr (dieOf n) 31 = true ∧
        u.fld .ringErr (dieOf n) 30 28 = if w.ok then 2 else 1) := by
  intro u
  have hd := dieOf_lt n
  let a := s.setSlot (s.stnKey n) w.poisoned
  let word := a.ringFaultWord (dieOf n) (if w.ok then 2 else 1) (segOf n) (a.posOf n)
  obtain ⟨⟨hstn, -, hring⟩, hkept⟩ := State.fault_stops (a.capture_capturedTo .ringErr (dieOf n) word) (a.capture_kept hd word) (by decide)
    (show a.tickOf n = some p.tick from ht) p 15
  obtain ⟨hfirst, -⟩ := a.reg_capture .ringErr (dieOf n) word
  refine ⟨hstn, ?_, fun hvalid => ?_⟩
  · exact (congrArg (Tbl.get (fun _ => RingWord.empty) · (s.stnKey n)) hring).trans (Tbl.get_put_self _ _ _ _)
  · exact ringFaultWord_fields (by split <;> decide) (a.posOf_le n) ((hkept .ringErr (by decide) _ hd).trans (hfirst hvalid))

/-- The INC updates of a GPASS are two writes to scalar registers at most, on their way (R113). -/
theorem State.gpassInc_frame (s : State) (i : Issue) (o : GpassOp) (t : Nat) : ∃ ws : List Late,
    (∀ l ∈ ws, ∃ m n v, l.wr = .sreg m n v) ∧
      (s.gpassInc i o t).station i.stn = { s.station i.stn with late := (s.station i.stn).late ++ ws } ∧
      s.gpassInc i o t = { s with stations := (s.gpassInc i o t).stations } := by
  unfold State.gpassInc
  cases o.inc with
  | false => exact ⟨[], by simp, by simp, rfl⟩
  | true =>
    refine ⟨[⟨t, .gInc, .sreg i.strm o.dr.toNat (s.incVal i.stn i.strm o.dr.toNat 128)⟩,
      ⟨t, .gInc, .sreg i.strm o.sr.toNat (s.incVal i.stn i.strm o.sr.toNat 8)⟩], ?_, ?_, rfl⟩
    · intro l hl
      rcases List.mem_pair.1 hl with rfl | rfl
      · exact ⟨_, _, _, rfl⟩
      · exact ⟨_, _, _, rfl⟩
    · simp [State.later]

/-- An op that meets the bad word of its position: nothing is latched or copied, the word passes on poisoned, and the station stops. -/
structure State.HaltsOn (s u : State) (n : Stn) (w : RingWord) (t : Nat) : Prop where
  word : u.slotAt (s.stnKey n) = w.poisoned
  latch : (u.station n).latch = (s.station n).latch
  store : (u.station n).store = (s.station n).store
  late : ∀ l ∈ (u.station n).late, l ∉ (s.station n).late → ∃ m n v, l.wr = .sreg m n v
  stop : (u.station n).stopAt = ((s.station n).stopsBy (t + 1)).stopAt
  capture : s.bit .ringErr (dieOf n) 31 = false → u.bit .ringErr (dieOf n) 31 = true ∧
    u.fld .ringErr (dieOf n) 30 28 = if w.ok then 2 else 1

/-- The state in which an op has met the word of its position: its word has issued, and no more than INC updates are on their way. -/
def State.Meets (v a : State) (n : Stn) : Prop :=
  ∃ ws : List Late, (∀ l ∈ ws, ∃ m n v, l.wr = .sreg m n v) ∧
    a.station n = { v.station n with late := (v.station n).late ++ ws } ∧ a = { v with stations := a.stations }

theorem State.issue_badWord {s : State} {i : Issue} {t : Nat} {eff : OpPlace → State → State} (h : s.opens i .g t = true)
    (hw0 : (s.slotAt (s.stnKey i.stn)).bad = true)
    (he : ∀ (p : OpPlace) (v : State), (v.slotAt (v.stnKey i.stn)).bad = true →
      ∃ a, v.Meets a i.stn ∧ eff p v = a.badWord i.stn (v.slotAt (v.stnKey i.stn)) p) :
    s.HaltsOn (s.issue i .g eff) i.stn (s.slotAt (s.stnKey i.stn)) t := by
  obtain ⟨v, hv, hst, hw⟩ := s.issue_opens i .g t eff h
  have hcnt : Reg.ringErr ≠ cntReg i.strm ∧ Reg.segSpare ∉ [cntReg i.strm] := by cases i.strm <;> decide
  obtain ⟨herr, hspare⟩ := hcnt
  have hkey : v.stnKey i.stn = s.stnKey i.stn := State.stnKey_congr hw.regsKept hspare i.stn
  have hslot : v.slotAt (v.stnKey i.stn) = s.slotAt (s.stnKey i.stn) := by
    rw [hkey, State.slotAt, hw.rest]
    rfl
  obtain ⟨a, ⟨ws, hws, hastn, ha⟩, heff⟩ := he (s.placeOf i t) v (by rw [hslot]; exact hw0)
  have hakept : v.RegsKept a [] := .of_regs (by rw [ha])
  have hakey : a.stnKey i.stn = s.stnKey i.stn := (State.stnKey_congr hakept (by simp) i.stn).trans hkey
  have ht : a.tickOf i.stn = some (s.placeOf i t).tick := by
    rw [State.tickOf_congr hakept (by simp) (by rw [ha]) (by rw [ha]) (by rw [ha]), hw.tickOf, State.tickOf_of_opens h, State.placeOf_tick]
  obtain ⟨hstn, hword, hcap⟩ := a.badWord_stops ht (s.slotAt (s.stnKey i.stn))
  rw [State.placeOf_tick] at hstn
  rw [hakey] at hword
  rw [hastn, hst] at hstn
  rw [hv, heff, hslot]
  have hlate := Station.read_opened Station.late (s.station i.stn) i .g t (fun _ _ _ => rfl)
  refine ⟨hword, ?_, ?_, fun l hl hnew => ?_, ?_, fun hvalid => hcap ?_⟩
  · rw [hstn]
    exact Station.read_opened Station.latch _ _ _ _ (fun _ _ _ => rfl)
  · rw [hstn]
    exact Station.read_opened Station.store _ _ _ _ (fun _ _ _ => rfl)
  · rw [hstn] at hl
    rcases List.mem_append.1 (show l ∈ ((s.station i.stn).opened i .g t).late ++ ws from hl) with hold | hinc
    · exact absurd (hlate ▸ hold) hnew
    · exact hws l hinc
  · rw [hstn]
    exact Station.read_opened (fun x => (x.stopsBy (t + 1)).stopAt) _ _ _ _ (fun _ _ _ => rfl)
  · rw [hakept.bit (by simp) (dieOf_lt i.stn), hw.bit_of_word (dieOf_lt i.stn) herr]
    exact hvalid

theorem State.Meets.refl (v : State) (n : Stn) : v.Meets v n := ⟨[], by simp, by simp, rfl⟩

section
variable {s : State} {i : Issue} {t : Nat} (h : s.opens i .g t = true) (hfree : s.ringFree i.stn = true)
  (hbad : (s.slotAt (s.stnKey i.stn)).bad = true)
include h hfree hbad

theorem execGtap_halts (o : GtapOp) : s.HaltsOn (s.issueRing i (gtapEff i o)) i.stn (s.slotAt (s.stnKey i.stn)) t := by
  rw [State.issueRing_free hfree]
  exact State.issue_badWord h hbad fun _ v hb => ⟨v, .refl v _, if_pos hb⟩

theorem execGej_halts {o : GejOp} (ho : o.tap = true) : s.HaltsOn (s.issueRing i (gejEff i o)) i.stn (s.slotAt (s.stnKey i.stn)) t := by
  rw [State.issueRing_free hfree]
  exact State.issue_badWord h hbad fun _ v hb => ⟨v, .refl v _, if_pos (by rw [ho, hb]; rfl)⟩

theorem execGpass_halts (o : GpassOp) : s.HaltsOn (s.issueRing i (gpassEff i o)) i.stn (s.slotAt (s.stnKey i.stn)) t := by
  rw [State.issueRing_free hfree]
  exact State.issue_badWord h hbad fun p v hb => ⟨_, v.gpassInc_frame i o p.tick, if_pos hb⟩

end

/-! ### The statement -/

theorem State.HaltsOn.of_exec {s u : State} {c : Instr} {n : Stn} {w : RingWord} {t : Nat} (h : s.HaltsOn u n w t) (hc : exec c s = .next u) :
    ∃ u, exec c s = .next u ∧ u.slotAt (s.stnKey n) = w.poisoned ∧ (u.station n).latch = (s.station n).latch ∧
      (u.station n).store = (s.station n).store ∧ (∀ l ∈ (u.station n).late, l ∉ (s.station n).late → ∃ m n v, l.wr = .sreg m n v) ∧
      (u.station n).stopAt = ((s.station n).stopsBy (t + 1)).stopAt ∧
      (s.bit .ringErr (dieOf n) 31 = false → u.bit .ringErr (dieOf n) 31 = true ∧
        u.fld .ringErr (dieOf n) 30 28 = if w.ok then 2 else 1) :=
  ⟨u, hc, h.word, h.latch, h.store, h.late, h.stop, h.capture⟩

theorem Station.stopsBy_opened (x : Station) (i : Issue) (sl : Slot) (t u : Nat) :
    (x.opened i sl t).stopsBy u = { x.opened i sl t with stopAt := (x.stopsBy u).stopAt } := by
  rw [← Station.read_opened (fun y => (y.stopsBy u).stopAt) x i sl t (fun _ _ _ => rfl)]
  rfl

theorem State.ArraySuppressed.of_exec {s u : State} {c : Instr} {i : Issue} {t code group op : Nat}
    (h : s.ArraySuppressed u i t code group op) (hc : exec c s = .next u) :
    ∃ u, exec c s = .next u ∧ u.station i.stn = { (s.station i.stn).opened i .m t with stopAt := ((s.station i.stn).stopsBy (t + 1)).stopAt } ∧
      (s.bit .stnArrayFault i.stn 31 = false → u.reg .stnArrayFault i.stn = 2 ^ 31 + arrayWord code group op i.strm t % 2 ^ 31) ∧
      (s.bit .stnArrayFault i.stn 31 = true → u.reg .stnArrayFault i.stn = s.reg .stnArrayFault i.stn) :=
  ⟨u, hc, h.station.trans (Station.stopsBy_opened _ _ _ _ _), h.first, h.later⟩

/-- Settles O19: the array ops by the check that fails, the V ops, and the ring ops. -/
theorem faultsSuppressTheirOp : Obligations.FaultsSuppressTheirOp := by
  unfold Obligations.FaultsSuppressTheirOp
  refine ⟨fun s i t h => ⟨fun o hf => ?_, fun o hf hp => ?_, fun o code hf => ?_, fun o code hf => ?_, fun mask g hf => ?_⟩,
    fun s c i t hc h hb => ?_, fun s i t h hfree hbad => ⟨fun o => ?_, fun o ho => ?_, fun o => ?_⟩⟩
  · exact (execMld_illegal h hf).of_exec (c := .mld i o) rfl
  · exact (execMld_busy h hf hp).of_exec (c := .mld i o) rfl
  · exact (execMma_faults h hf).of_exec (c := .mma i o) rfl
  · exact (execMdrn_faults h hf).of_exec (c := .mdrn i o) rfl
  · exact (execMclr_faults h hf).of_exec (c := .mclr i mask) rfl
  · obtain ⟨eff, he, hexec⟩ := exec_of_vSlot hc
    obtain ⟨hstn, hrest⟩ := State.issue_busy he h hb
    exact ⟨_, hexec s, hstn.trans (Station.stopsBy_opened _ _ _ _ _), hrest⟩
  · exact (execGtap_halts h hfree hbad o).of_exec (c := .gtap i o) rfl
  · exact (execGej_halts h hfree hbad ho).of_exec (c := .gej i o) rfl
  · exact (execGpass_halts h hfree hbad o).of_exec (c := .gpass i o) rfl

end Sys2Proof.Machine
end

section
/-! ## Counters that a write clears (O41) -/

namespace Sys2Proof.Machine

/-! ### Registers and pairs cleared one after another -/

/-- A register, or a pair, reads as 0. -/
def State.ReadsZero (s : State) (r : Reg) (i : Nat) : Prop := if r.info.pair then s.pair r i = 0 else s.reg r i = 0

theorem State.ReadsZero.kept {s u : State} {rs : List Reg} {r : Reg} {i : Nat} (h : s.ReadsZero r i) (hk : s.WordsKept u rs) (hr : r ∉ rs)
    (hi : i < r.info.count) : u.ReadsZero r i := by
  unfold State.ReadsZero at *
  split
  · next hp =>
    rw [if_pos hp] at h
    exact (hk.pair hr hi hp).trans h
  · next hp =>
    rw [if_neg hp] at h
    exact (hk.reg hr hi).trans h

/-- A register, or a pair, is set to 0. -/
def State.clearReg (s : State) (i : Nat) (r : Reg) : State := if r.info.pair then s.setPair r i 0 else s.setReg r i 0

theorem State.clearReg_zero (s : State) (i : Nat) (r : Reg) : (s.clearReg i r).ReadsZero r i := by
  unfold State.ReadsZero State.clearReg
  split
  · exact s.pair_setPair r i 0
  · exact s.reg_setReg r i 0

theorem State.clearReg_kept (s : State) {i : Nat} {r : Reg} (hi : i < r.info.count) : s.WordsKept (s.clearReg i r) [r] := by
  unfold State.clearReg
  split
  · next hp => exact s.setPair_wordsKept (by simp) hi hp 0
  · exact s.setReg_wordsKept (by simp) hi 0

/-- Registers and pairs are set to 0, all with one index. -/
def State.clearRegs (s : State) (i : Nat) (rs : List Reg) : State := rs.foldl (fun u r => u.clearReg i r) s

theorem State.clearRegs_zero {i : Nat} {r : Reg} (hi : i < r.info.count) (rs : List Reg) (hrs : ∀ q ∈ rs, i < q.info.count) (s : State)
    (h : r ∈ rs ∨ s.ReadsZero r i) : (s.clearRegs i rs).ReadsZero r i := by
  induction rs generalizing s with
  | nil => exact h.resolve_left (fun hm => nomatch hm)
  | cons a rs ih =>
    refine ih (fun q hq => hrs q (List.mem_cons_of_mem a hq)) _ ?_
    by_cases ha : r = a
    · exact .inr (ha ▸ s.clearReg_zero i r)
    · exact h.imp (fun hm => (List.mem_cons.1 hm).resolve_left ha)
        (fun hz => hz.kept (s.clearReg_kept (hrs a List.mem_cons_self)) (by simpa using ha) hi)

/-! ### Accepted writes that act (R10) -/

theorem bitOf_or_pow (v k : Nat) : bitOf (v ||| 2 ^ k) k = true := by
  simp [bitOf]

/-- The registers after an accepted write that acts: the fields take it, then it has its effect. -/
theorem State.writeOut_acts {s : State} {who : Requester} {r : Reg} {i v : Nat} (h : s.accepts who r i v)
    (hrgn : r ≠ .prismRgnBase ∧ r ≠ .prismRgnShape ∧ r ≠ .prismRgnScale ∧ r ≠ .prismRgnTwin) :
    (s.writeOut who (r.at i) 4 v).regs = ((s.putReg r i false v).csrEffect who r i v).regs := by
  obtain ⟨hloc, hchk⟩ := h
  have hout : s.writeOut who (r.at i) 4 v = (s.alertPin ((s.putReg r i false v).csrEffect who r i v)).emit (.reg who (r.at i) stOk 0) := by
    simp only [State.writeOut, State.csrWrite, hloc, hchk, ne_eq, not_true, if_false, State.leaveTwin_of_no_region _ _ _ hrgn]
  rw [hout, State.alertPin_eq]
  rfl

/-! ### What the other parts of a write's effect leave alone -/

section
variable (s : State) {r : Reg} {i : Nat} {rs : List Reg} (hr : r ∈ rs) (hi : i < r.info.count)
include hr hi

theorem State.setFld_wordsKept (h lo v : Nat) : s.WordsKept (s.setFld r i h lo v) rs := s.setReg_wordsKept hr hi _

theorem State.countFld_wordsKept (h lo n : Nat) : s.WordsKept (s.countFld r i h lo n) rs := s.setFld_wordsKept hr hi _ _ _

theorem State.capture_wordsKept (v : Nat) : s.WordsKept (s.capture r i v) rs := by
  unfold State.capture
  split
  · exact .of_regs rfl
  · exact (s.setReg_wordsKept hr hi _).trans (.of_regs (State.raise_capturedTo _ _ _).2)

end

/-- FW_HOLD notes causes alone (R243). -/
theorem State.fwHold_wordsKept (s : State) {d : Nat} (hd : d < 4) : s.WordsKept (s.fwHold d) [.shtCause] := by
  unfold State.fwHold
  split
  · unfold State.shutReq
    split
    · exact .of_regs rfl
    · refine .trans (t := s.modDie d _) (.of_regs rfl) (.foldl _ (fun t x hx => ?_) _)
      unfold State.joinFreeze
      dsimp only
      split
      · exact t.setReg_wordsKept (by simp) (s.scope_lt hd x hx) _
      · exact .of_regs rfl
  · exact .of_regs rfl

/-! A Pycia port starts, ends and retrains its link (Tables 11-2, 11-3) -/

/-- The registers in which a port's link is seen. -/
def linkRegs : List Reg := [.pyPortStatus, .pyNeighbor, .pyErr]

theorem State.noteBad_wordsKept (s : State) (st m : Nat) : s.WordsKept (s.noteBad st m) linkRegs := by
  unfold State.noteBad State.pyErr
  split
  · have hcap := s.capture_wordsKept (r := .pyErr) (rs := linkRegs) (by decide) (by decide : 0 < 1) (7 * 2 ^ 27 + 0 * 2 ^ 23 + m % 2 ^ 16)
    dsimp only
    split
    · refine hcap.trans (.of_regs ?_)
      unfold State.tellSteward
      split <;> rfl
    · exact hcap
  · exact .of_regs rfl

theorem State.enqueue_wordsKept (s : State) (agent m : Nat) (h : Hdr) (data : List Byte) : s.WordsKept (s.enqueue agent m h data) linkRegs := by
  unfold State.enqueue
  split
  · exact s.noteBad_wordsKept 6 m
  · exact .of_regs rfl

theorem State.bounce_wordsKept (s : State) (h : List Byte) : s.WordsKept (s.bounce h) linkRegs := by
  have hnote := s.noteBad_wordsKept 6 (flitTo h)
  unfold State.bounce
  dsimp only
  split
  · exact hnote
  · split
    · exact hnote.trans (.of_regs rfl)
    · exact hnote.trans (State.enqueue_wordsKept _ _ _ _ _)

theorem State.setPort_regs (s : State) (p : Nat) (x : PyPortSt) : (s.setPort p x).regs = s.regs := rfl

theorem State.modPort_regs (s : State) (p : Nat) (f : PyPortSt → PyPortSt) : (s.modPort p f).regs = s.regs := rfl

theorem State.release_regs (s : State) (q : QMsg) (n : Nat) : (s.release q n).regs = s.regs := by
  unfold State.release State.onlyIf
  split <;> rfl

theorem State.reroute_wordsKept (s : State) (q : QMsg) : s.WordsKept (s.reroute q) linkRegs := by
  unfold State.reroute
  split
  · next h _ _ =>
    split
    · exact .of_regs rfl
    · exact (s.bounce_wordsKept h).trans (.of_regs (State.release_regs _ _ _))
  · exact .of_regs rfl

theorem State.dropLink_wordsKept (s : State) (p : Nat) : s.WordsKept (s.dropLink p) linkRegs := by
  have hdisown : s.WordsKept (s.disown p) linkRegs := .foldl _ (fun t o _ => .of_regs (t.modPort_regs o _)) s
  have hrelease : ∀ (l : List QMsg) (t : State), t.WordsKept (l.foldl (fun t q => t.release q q.flits.length) t) linkRegs :=
    fun l t => .foldl l (fun t q _ => .of_regs (t.release_regs q _)) t
  exact ((hdisown.trans (hrelease _ _)).trans (.of_regs (State.setPort_regs _ _ _))).trans
    (.foldl _ (fun t q _ => t.reroute_wordsKept q) _)

section
variable (s : State) {p : Nat} (hp : p < 16)
include hp

theorem State.setPyState_wordsKept (v : Nat) : s.WordsKept (s.setPyState p v) linkRegs := s.setFld_wordsKept (by decide) hp _ _ _

theorem State.toTrain_wordsKept : s.WordsKept (s.toTrain p) linkRegs :=
  (((s.setPyState_wordsKept hp 1).trans (State.setFld_wordsKept _ (by decide) hp _ _ _)).trans
    (State.setFld_wordsKept _ (by decide) hp _ _ _)).trans (.of_regs (State.modPort_regs _ _ _))

theorem State.pyEnable_wordsKept : s.WordsKept (s.pyEnable p) linkRegs := by
  unfold State.pyEnable
  split
  · exact s.toTrain_wordsKept hp
  · exact .of_regs rfl

theorem State.pyDisable_wordsKept : s.WordsKept (s.pyDisable p) linkRegs := by
  unfold State.pyDisable
  split
  · exact .of_regs rfl
  · exact (s.setPyState_wordsKept hp 0).trans (State.dropLink_wordsKept _ p)

theorem State.pyRetrain_wordsKept : s.WordsKept (s.pyRetrain p) linkRegs := by
  unfold State.pyRetrain
  split
  · exact s.toTrain_wordsKept hp
  · split
    · exact (s.setPyState_wordsKept hp 5).trans (State.countFld_wordsKept _ (by decide) hp _ _ _)
    · exact .of_regs rfl

end

theorem State.onlyIf_wordsKept {s : State} {rs : List Reg} {f : State → State} (c : Bool) (h : s.WordsKept (f s) rs) :
    s.WordsKept (s.onlyIf c f) rs := by
  unfold State.onlyIf
  split
  · exact h
  · exact .of_regs rfl

/-- A port that is disabled returns its queue pairs to Reset (Table 12-8). -/
theorem State.ethDisable_wordsKept (s : State) {p : Nat} (hp : p < 2) : s.WordsKept (s.ethDisable p) [.ethPortStatus, .ethQpStatus] := by
  refine .trans (s.setFld_wordsKept (r := .ethPortStatus) (by decide) hp _ _ _) (.foldl _ (fun t n hn => ?_) _)
  have hqp : qpKey p n < Reg.ethQpStatus.info.count := by
    have := List.mem_range.1 hn
    show 65 * p + n < 130
    omega
  have hsilent : t.WordsKept (t.qpSilent (qpKey p n)) [.ethPortStatus, .ethQpStatus] := .of_regs rfl
  exact (hsilent.trans (State.setReg_wordsKept _ (r := .ethQpStatus) (by decide) hqp 0)).trans (.of_regs rfl)

/-! ### The counter-clear commands (R63, R246, R281) -/

theorem State.onlyIf_set (s : State) {c : Bool} (h : c = true) (f : State → State) : s.onlyIf c f = f s := by
  rw [h]
  rfl

theorem State.ReadsZero.pair {s : State} {r : Reg} {i : Nat} (h : s.ReadsZero r i) (hp : r.info.pair = true) : s.pair r i = 0 := by
  rwa [State.ReadsZero, if_pos hp] at h

theorem State.ReadsZero.reg {s : State} {r : Reg} {i : Nat} (h : s.ReadsZero r i) (hp : r.info.pair = false) : s.reg r i = 0 := by
  rwa [State.ReadsZero, if_neg (by simp [hp])] at h

/-- A write whose effect clears registers, and then changes others alone, leaves them 0. -/
theorem State.writeOut_clears {s : State} {who : Requester} {r : Reg} {i v : Nat} (h : s.accepts who r i v)
    (hrgn : r ≠ .prismRgnBase ∧ r ≠ .prismRgnShape ∧ r ≠ .prismRgnScale ∧ r ≠ .prismRgnTwin) (rs ks : List Reg)
    (hrs : ∀ q ∈ rs, i < q.info.count) (hks : ∀ q ∈ rs, q ∉ ks)
    (heff : ∀ t : State, ∃ t' : State, (t'.clearRegs i rs).WordsKept (t.csrEffect who r i v) ks) :
    ∀ q ∈ rs, (s.writeOut who (r.at i) 4 v).ReadsZero q i := by
  intro q hq
  obtain ⟨t', hkept⟩ := heff (s.putReg r i false v)
  have hcleared := State.clearRegs_zero (hrs q hq) rs hrs t' (.inl hq)
  exact hcleared.kept (hkept.trans (.of_regs (State.writeOut_acts h hrgn))) (hks q hq) (hrs q hq)

section
variable (t : State) (who : Requester) (v : Nat)

theorem State.csrEffect_stnArrayCtrl (i : Nat) :
    t.csrEffect who .stnArrayCtrl i (v ||| 2 ^ 1) = t.clearRegs i [.stnMmaCount, .stnRowTicks] :=
  t.onlyIf_set (bitOf_or_pow v 1) (·.clearRegs i [.stnMmaCount, .stnRowTicks])

theorem State.csrEffect_ringBridge (i : Nat) : t.csrEffect who .ringBridge i (v ||| 2 ^ 1) = t.setFld .ringBridge i 31 8 0 :=
  t.onlyIf_set (bitOf_or_pow v 1) (·.setFld .ringBridge i 31 8 0)

theorem State.csrEffect_shtCtrl (i : Nat) : t.csrEffect who .shtCtrl i (v ||| 2 ^ 13) =
    ((t.clearRegs i [.shtCount, .shtTicks]).setFld .shtFifo i 31 16 0).fwHold i :=
  congrArg (State.fwHold · i) (t.onlyIf_set (bitOf_or_pow v 13) _)

theorem State.csrEffect_dbgTraceDrop (i : Nat) : t.csrEffect who .dbgTraceDrop i v = t.clearRegs i [.dbgTraceDrop] := rfl

theorem State.csrEffect_msLcCtrl (i : Nat) : t.csrEffect who .msLcCtrl i (v ||| 2 ^ 2) =
    (t.onlyIf (bitOf (v ||| 2 ^ 2) 1) (fun t => t.modDie i DieSt.lcInvalidate)).clearRegs i [.msLcHits, .msLcMiss] :=
  State.onlyIf_set _ (bitOf_or_pow v 2) (·.clearRegs i [.msLcHits, .msLcMiss])

theorem State.csrEffect_msCtrl (i : Nat) : t.csrEffect who .msCtrl i (v ||| 2 ^ 3) = t.clearRegs i [.msErrCount] :=
  t.onlyIf_set (bitOf_or_pow v 3) (·.clearRegs i [.msErrCount])

theorem State.csrEffect_pyErrCount : t.csrEffect who .pyErrCount 0 v = t.clearRegs 0 [.pyErrCount] := rfl

/-- The port's counters are cleared first; what EN and RETRAIN do is seen in the registers of the link alone. -/
theorem State.csrEffect_pyPortCtrl {i : Nat} (hi : i < 16) :
    (t.clearRegs i [.pyPortErrs, .pyFecCorr, .pyTxFlits, .pyRxFlits]).WordsKept (t.csrEffect who .pyPortCtrl i (v ||| 2 ^ 29)) linkRegs := by
  have hclear : t.onlyIf (bitOf (v ||| 2 ^ 29) 29) (·.pyClear i) = t.clearRegs i [.pyPortErrs, .pyFecCorr, .pyTxFlits, .pyRxFlits] :=
    t.onlyIf_set (bitOf_or_pow v 29) _
  unfold State.csrEffect
  dsimp only
  rw [hclear]
  refine .trans (t := if bitOf (v ||| 2 ^ 29) 31 then _ else _) ?_ (State.onlyIf_wordsKept _ (State.pyRetrain_wordsKept _ hi))
  split
  · exact State.pyEnable_wordsKept _ hi
  · exact State.pyDisable_wordsKept _ hi

/-- The port's counters are cleared first; a port that is disabled then changes its own status and that of its queue pairs. -/
theorem State.csrEffect_ethPortCtrl {i : Nat} (hi : i < 2) :
    (t.clearRegs i [.ethErrCount, .ethRxFrames, .ethTxFrames, .ethRxBytes, .ethFecCorr]).WordsKept
      (t.csrEffect who .ethPortCtrl i (v ||| 2 ^ 30)) [.ethPortStatus, .ethQpStatus] := by
  have hclear : t.onlyIf (bitOf (v ||| 2 ^ 30) 30) (·.ethClear i) =
      t.clearRegs i [.ethErrCount, .ethRxFrames, .ethTxFrames, .ethRxBytes, .ethFecCorr] := t.onlyIf_set (bitOf_or_pow v 30) _
  unfold State.csrEffect
  dsimp only
  rw [hclear]
  exact State.onlyIf_wordsKept _ (State.ethDisable_wordsKept _ hi)

end

/-- Settles O41. -/
theorem counterClearsClear : Obligations.CounterClearsClear := by
  unfold Obligations.CounterClearsClear
  intro s who val
  refine ⟨fun n h => ?_, fun d h => ?_, fun d h => ?_, fun d h => ?_, fun d h => ?_, fun k h => ?_, fun p h => ?_, fun h => ?_, fun p h => ?_⟩
  · have hz := State.writeOut_clears h (by decide) [.stnMmaCount, .stnRowTicks] [] (by simpa using ⟨n.isLt, n.isLt⟩) (by simp)
      (fun t => ⟨t, .of_regs (by rw [t.csrEffect_stnArrayCtrl])⟩)
    exact ⟨_, rfl, (hz _ (by simp)).pair rfl, (hz _ (by simp)).pair rfl⟩
  · refine ⟨_, rfl, ?_⟩
    have hfld := State.fld_congr (State.reg_congr (State.writeOut_acts h (by decide)) .ringBridge d) 31 8
    rw [State.csrEffect_ringBridge, State.fld_setFld_self _ _ _ _ (by decide) (by decide)] at hfld
    exact hfld
  · have hz := State.writeOut_clears h (by decide) [.shtCount, .shtTicks] [.shtFifo, .shtCause] (by simpa using ⟨d.isLt, d.isLt⟩) (by simp)
      (fun t => ⟨t, by
        rw [t.csrEffect_shtCtrl]
        exact (State.setFld_wordsKept _ (by simp) d.isLt _ _ _).trans ((State.fwHold_wordsKept _ d.isLt).mono (by simp))⟩)
    have hfld := State.fld_congr (State.reg_congr (State.writeOut_acts h (by decide)) .shtFifo d) 31 16
    rw [State.csrEffect_shtCtrl, (State.fwHold_wordsKept _ d.isLt).fld (by decide) d.isLt,
      State.fld_setFld_self _ _ _ _ (by decide) (by decide)] at hfld
    exact ⟨_, rfl, (hz _ (by simp)).reg rfl, (hz _ (by simp)).pair rfl, hfld⟩
  · have hz := State.writeOut_clears h (by decide) [.dbgTraceDrop] [] (List.forall_mem_singleton.2 d.isLt) (by simp)
      (fun t => ⟨t, .of_regs (by rw [t.csrEffect_dbgTraceDrop])⟩)
    exact ⟨_, rfl, (hz _ (by simp)).reg rfl⟩
  · have hz := State.writeOut_clears h (by decide) [.msLcHits, .msLcMiss] [] (by simpa using ⟨d.isLt, d.isLt⟩) (by simp)
      (fun t => ⟨_, .of_regs (by rw [t.csrEffect_msLcCtrl])⟩)
    exact ⟨_, rfl, (hz _ (by simp)).pair rfl, (hz _ (by simp)).pair rfl⟩
  · have hz := State.writeOut_clears h (by decide) [.msErrCount] [] (List.forall_mem_singleton.2 k.isLt) (by simp)
      (fun t => ⟨t, .of_regs (by rw [t.csrEffect_msCtrl])⟩)
    exact ⟨_, rfl, (hz _ (by simp)).reg rfl⟩
  · have hz := State.writeOut_clears h (by decide) [.pyPortErrs, .pyFecCorr, .pyTxFlits, .pyRxFlits] linkRegs
      (by simpa using ⟨p.isLt, p.isLt, p.isLt, p.isLt⟩) (by decide) (fun t => ⟨t, t.csrEffect_pyPortCtrl who _ p.isLt⟩)
    exact ⟨_, rfl, (hz _ (by simp)).reg rfl, (hz _ (by simp)).pair rfl, (hz _ (by simp)).pair rfl, (hz _ (by simp)).pair rfl⟩
  · have hz := State.writeOut_clears h (by decide) [.pyErrCount] [] (by simp [Reg.info]) (by simp)
      (fun t => ⟨t, .of_regs (by rw [t.csrEffect_pyErrCount])⟩)
    exact ⟨_, rfl, (hz _ (by simp)).reg rfl⟩
  · have hz := State.writeOut_clears h (by decide) [.ethErrCount, .ethRxFrames, .ethTxFrames, .ethRxBytes, .ethFecCorr] [.ethPortStatus, .ethQpStatus]
      (by simpa using ⟨p.isLt, p.isLt, p.isLt, p.isLt, p.isLt⟩) (by decide) (fun t => ⟨t, t.csrEffect_ethPortCtrl who _ p.isLt⟩)
    exact ⟨_, rfl, (hz _ (by simp)).reg rfl, (hz _ (by simp)).pair rfl, (hz _ (by simp)).pair rfl, (hz _ (by simp)).pair rfl,
      (hz _ (by simp)).pair rfl⟩

end Sys2Proof.Machine
end

section
/-! ## VCVT (O23) -/

namespace Sys2Proof.Machine

/-! ### The op issues (R147, R148, R150) -/

/-- The format-table entry of a tag reads as before its word issued. -/
theorem State.WordFrame.fmtEntry {s v : State} {i : Issue} {sl : Slot} {t tag : Nat} (hw : s.WordFrame v i [])
    (hst : v.station i.stn = (s.station i.stn).opened i sl t) (htag : tag < 4096) : v.fmtEntry i.stn tag = s.fmtEntry i.stn tag := by
  have hd : dieOf i.stn < 4 := Nat.div_lt_of_lt_mul i.stn.isLt
  have hk : 4096 * dieOf i.stn + tag < Reg.fmtTable.info.count := by
    show _ < 16384
    omega
  have hr : Reg.fmtTable ≠ cntReg i.strm := by cases i.strm <;> decide
  have hheld : (v.die (dieOf i.stn)).rwe = (s.die (dieOf i.stn)).rwe := by
    have hdie := congrArg DieSt.rwe (hw.dies (dieOf i.stn))
    exact hdie
  have hpassed : (v.station i.stn).passed = (s.station i.stn).passed := by
    rw [hst, Station.read_opened Station.passed _ _ _ _ (fun _ _ _ => rfl)]
  have hreg : v.regAt .fmtTable (Reg.at .fmtTable (4096 * dieOf i.stn + tag)) = _ := hw.reg_of_word hk hr
  rw [State.fmtEntry, State.regFor, hheld, hpassed, hreg]
  rfl

/-- The layer tag of a stream reads as before its word issued. -/
theorem State.ltag_of_opened {s v : State} {i : Issue} {sl : Slot} {t : Nat} (hst : v.station i.stn = (s.station i.stn).opened i sl t) :
    (v.stream i.stn i.strm).ltag = (s.stream i.stn i.strm).ltag :=
  congrArg LensSrc.tag (State.lensSrc_of_opened hst)

/-- The flight of a V op is what it reads on its issue tick, before its word issued or after. -/
theorem State.WordFrame.vFlight {s v : State} {i : Issue} {sl : Slot} {u : Nat} (hw : s.WordFrame v i [])
    (hst : v.station i.stn = (s.station i.stn).opened i sl u) (t : Nat) (k : VKind) (dst ds sa sb sc sta stb msk so : Nat) (tbl : Bool) :
    v.vFlight i t k dst ds sa sb sc sta stb msk so tbl = s.vFlight i t k dst ds sa sb sc sta stb msk so tbl := by
  rw [State.vFlight, State.sreg_of_opened hst, State.ltag_of_opened hst, hw.fmtEntry hst (BitVec.isLt _), hw.profile1,
    State.lensSrc_of_opened hst, State.vFlight]

/-- A V op on a free engine occupies it and is in flight. -/
theorem State.vIssue_free (s : State) {n : Nat} (occ : Nat) {p : OpPlace} (f : VFlight) (h : (s.station n).vBusy ≤ p.tick) :
    s.vIssue n occ p f = s.modStation n (fun x => { x with vBusy := p.tick + occ, vq := x.vq ++ [f] }) :=
  if_neg (Nat.not_lt.2 h)

/-- A descriptor that R150 lets by. -/
def cvtLegal (d : Nat) (tbl : Bool) : Prop := d % 2 ^ 13 = 0 ∧ (tbl = true ∨ bitsOf d 23 20 ≤ 10)

theorem vcvtEff_legal {i : Issue} {o : VcvtOp} {p : OpPlace} {s : State} (hb : (s.station i.stn).vBusy ≤ p.tick)
    (hd : cvtLegal (s.sreg i.stn i.strm o.cd.toNat) o.tbl) :
    let c := cvtOf (s.sreg i.stn i.strm o.cd.toNat) (s.fmtEntry i.stn (s.stream i.stn i.strm).ltag.toNat) o.tbl
    vcvtEff i o p s = s.modStation i.stn (fun x => { x with
      vBusy := p.tick + cvtOcc c
      vq := x.vq ++ [s.vFlight i p.tick c.kind o.dst.toNat o.ds.toNat o.sa.toNat o.sb.toNat 0 0 0 o.msk.toNat o.cd.toNat o.tbl] }) := by
  intro c
  obtain ⟨hzero, hfmt⟩ := hd
  have hlegal : ¬ (s.sreg i.stn i.strm o.cd.toNat % 2 ^ 13 ≠ 0 ∨ o.tbl = false ∧ 10 < bitsOf (s.sreg i.stn i.strm o.cd.toNat) 23 20) := by
    rintro (h | ⟨htbl, h⟩)
    · exact h hzero
    · rcases hfmt with ht | hle
      · rw [ht] at htbl
        cases htbl
      · omega
  exact (if_neg (Nat.not_lt.2 hb)).trans ((if_neg hlegal).trans (s.vIssue_free _ _ hb))

theorem execVcvt_sets_out {s : State} {i : Issue} {o : VcvtOp} {t : Nat} (h : s.opens i .v t = true) (hb : (s.station i.stn).vBusy ≤ t)
    (hd : cvtLegal (s.sreg i.stn i.strm o.cd.toNat) o.tbl) :
    let x := (s.station i.stn).opened i .v t
    let c := cvtOf (s.sreg i.stn i.strm o.cd.toNat) (s.fmtEntry i.stn (s.stream i.stn i.strm).ltag.toNat) o.tbl
    ∃ u, exec (.vcvt i o) s = .next u ∧ s.WordFrame u i [] ∧ u.station i.stn = { x with
      vBusy := t + cvtOcc c
      vq := x.vq ++ [s.vFlight i t c.kind o.dst.toNat o.ds.toNat o.sa.toNat o.sb.toNat 0 0 0 o.msk.toNat o.cd.toNat o.tbl] } := by
  obtain ⟨v, hv, hst, hw⟩ := s.issue_opens i .v t (vcvtEff i o) h
  have hfree : (v.station i.stn).vBusy ≤ (s.placeOf i t).tick := by
    rw [hst, Station.read_opened Station.vBusy _ _ _ _ (fun _ _ _ => rfl), State.placeOf_tick]
    exact hb
  have hlegal : cvtLegal (v.sreg i.stn i.strm o.cd.toNat) o.tbl := by rwa [State.sreg_of_opened hst]
  rw [vcvtEff_legal hfree hlegal, State.placeOf_tick, State.sreg_of_opened hst, State.ltag_of_opened hst,
    hw.fmtEntry hst (BitVec.isLt _), hw.vFlight hst] at hv
  refine ⟨_, congrArg Host.Outcome.next hv, hw.trans (.modStation v i _ _), ?_⟩
  rw [State.station_modStation_self, hst]

theorem cvtOcc_eq (c : Cvt) : cvtOcc c = if c.widen = false ∧ c.ax = true ∧ c.fmt ≠ 0 then 8 else 4 := by
  simp [cvtOcc, and_assoc]

/-! ### What a V op reads (R131, R136, Table 5-1) -/

/-- A lane of quads of 256. -/
theorem getD_quads {α : Type} {quad : Nat → List α} (hquad : ∀ r, (quad r).length = 256) (d : α) {n k : Nat} (hk : k < 256 * n) :
    (rowsUpTo quad n).getD k d = (quad (k / 256)).getD (k % 256) d := by
  have hlen : ∀ m, (rowsUpTo quad m).length = 256 * m := fun m => by
    induction m with
    | zero => rfl
    | succ m ih => rw [rowsUpTo_succ, List.length_append, ih, hquad, Nat.mul_succ]
  induction n with
  | zero => omega
  | succ n ih =>
    rw [rowsUpTo_succ]
    by_cases h : k < 256 * n
    · rw [List.getD_append _ _ _ _ (by rw [hlen]; exact h), ih h]
    · have hrow : k / 256 = n := by omega
      have hcol : k - 256 * n = k % 256 := by omega
      rw [List.getD_append_right _ _ _ _ (by rw [hlen]; omega), hlen, hrow, hcol]

section
variable (f : VFlight) (x : Station) {n : Nat}

theorem VFlight.capture_done (h : 8 ≤ n) : f.capture x (f.t + n) = f := by
  simp only [VFlight.capture, Nat.add_sub_cancel_left, if_pos h]

/-- The four passes of a narrowing VCVT in column form over `SB`. -/
theorem VFlight.capture_second (h4 : 4 ≤ n) (h8 : n < 8) : f.capture x (f.t + n) =
    if f.column then { f with b := f.b ++ x.quad f.sb 0 (n - 4), m := f.m ++ x.quadMask f.msk (n - 4) } else f := by
  simp only [VFlight.capture, Nat.add_sub_cancel_left, if_neg (Nat.not_le.2 h8), if_pos h4]

theorem VFlight.capture_widen (hk : f.kind = .widen) (h4 : n < 4) : f.capture x (f.t + n) =
    { f with a := if n = 0 then x.tile f.sa else f.a, b := if n = 0 then (x.tile f.ds).take 64 else f.b, m := f.m ++ x.quadMask f.msk n } := by
  have h8 : ¬ 8 ≤ n := by omega
  simp only [VFlight.capture, Nat.add_sub_cancel_left, if_neg h8, if_neg (Nat.not_le.2 h4), if_pos hk]

theorem VFlight.capture_first (hk : f.kind ≠ .widen) (h4 : n < 4) : f.capture x (f.t + n) =
    { f with a := f.a ++ x.quad f.sa f.sta n, b := if f.column then f.b else f.b ++ x.quad f.sb f.stb n, c := f.c ++ x.quad f.sc 0 n,
             m := f.m ++ x.quadMask f.msk n } := by
  have h8 : ¬ 8 ≤ n := by omega
  simp only [VFlight.capture, Nat.add_sub_cancel_left, if_neg h8, if_neg (Nat.not_le.2 h4), if_neg hk]

end

/-- A V op that has read on the ticks before tick `n` of its flight, from the stations that it found on them. -/
def VFlight.captured (f : VFlight) (xs : Nat → Station) (n : Nat) : VFlight :=
  (List.range n).foldl (fun h k => h.capture (xs k) (f.t + k)) f

theorem VFlight.captured_succ (f : VFlight) (xs : Nat → Station) (n : Nat) :
    f.captured xs (n + 1) = (f.captured xs n).capture (xs n) (f.t + n) := by
  simp [VFlight.captured, List.range_succ]

/-- The first `n` quads of a source, read one a tick from tick `a` on. -/
def quadsRead (xs : Nat → Station) (src mode a n : Nat) : List Word := rowsUpTo (fun r => (xs (a + r)).quad src mode r) n

/-- The mask bits that the first `n` passes have read: the passes from the fifth on read the quads again. -/
def masksRead (xs : Nat → Station) (msk n : Nat) : List Bool := rowsUpTo (fun r => (xs r).quadMask msk (r % 4)) n

theorem getD_quadsRead (xs : Nat → Station) (src mode a : Nat) {n k : Nat} (hk : k < 256 * n) :
    (quadsRead xs src mode a n).getD k 0 = ((xs (a + k / 256)).tile src).el (strideAt mode k) := by
  rw [quadsRead, getD_quads (fun r => by simp [Station.quad]) 0 hk, Station.quad, getD_map_range _ _ (Nat.mod_lt _ (by decide)),
    Nat.div_add_mod]

theorem getD_masksRead (xs : Nat → Station) (msk : Nat) {n k : Nat} (hk : k < 256 * n) :
    (masksRead xs msk n).getD k false = (xs (k / 256)).mask msk (k % 1024) := by
  have hlane : 256 * (k / 256 % 4) + k % 256 = k % 1024 := by omega
  rw [masksRead, getD_quads (fun r => by simp [Station.quadMask]) false hk, Station.quadMask, getD_map_range _ _ (Nat.mod_lt _ (by decide)),
    hlane]

/-- An op that is no widening VCVT, with what it has read before tick `n`: its sources quad by quad, the second source of a narrowing VCVT in
column form on the four ticks after. -/
def VFlight.readTill (f : VFlight) (xs : Nat → Station) (n : Nat) : VFlight :=
  { f with
    a := quadsRead xs f.sa f.sta 0 (min n 4)
    b := if f.column then quadsRead xs f.sb 0 4 (min (n - 4) 4) else quadsRead xs f.sb f.stb 0 (min n 4)
    c := quadsRead xs f.sc 0 0 (min n 4)
    m := masksRead xs f.msk (min n (if f.column then 8 else 4)) }

/-- A widening VCVT with what it has read before tick `n`: all of `SA` and row 0 of `DS` on its issue tick, the mask quad by quad. -/
def VFlight.widenTill (f : VFlight) (xs : Nat → Station) (n : Nat) : VFlight :=
  { f with a := (xs 0).tile f.sa, b := ((xs 0).tile f.ds).take 64, m := masksRead xs f.msk (min n 4) }

theorem quadsRead_succ (xs : Nat → Station) (src mode a n : Nat) :
    quadsRead xs src mode a (n + 1) = quadsRead xs src mode a n ++ (xs (a + n)).quad src mode n := rowsUpTo_succ _ _

theorem masksRead_succ (xs : Nat → Station) (msk n : Nat) :
    masksRead xs msk (n + 1) = masksRead xs msk n ++ (xs n).quadMask msk (n % 4) := rowsUpTo_succ _ _

theorem VFlight.readTill_succ (f : VFlight) (xs : Nat → Station) (n : Nat) (hk : f.kind ≠ .widen) :
    (f.readTill xs n).capture (xs n) (f.t + n) = f.readTill xs (n + 1) := by
  have hcol : (f.readTill xs n).column = f.column := rfl
  rcases Nat.lt_or_ge n 4 with h4 | h4
  · refine ((f.readTill xs n).capture_first (xs n) hk h4).trans ?_
    have hmins : min n 4 = n ∧ min (n + 1) 4 = n + 1 ∧ min n 8 = n ∧ min (n + 1) 8 = n + 1 ∧ n - 4 = 0 ∧ n + 1 - 4 = 0 ∧
        n % 4 = n := by omega
    rw [hcol]
    cases hc : f.column <;> simp [VFlight.readTill, hc, hmins, quadsRead_succ, masksRead_succ]
  rcases Nat.lt_or_ge n 8 with h8 | h8
  · refine ((f.readTill xs n).capture_second (xs n) h4 h8).trans ?_
    have hmins : min n 4 = 4 ∧ min (n + 1) 4 = 4 ∧ min n 8 = n ∧ min (n + 1) 8 = n + 1 ∧ min (n - 4) 4 = n - 4 ∧
        min (n - 3) 4 = n - 4 + 1 ∧ n % 4 = n - 4 ∧ 4 + (n - 4) = n := by omega
    rw [hcol]
    cases hc : f.column <;> simp [VFlight.readTill, hc, hmins, quadsRead_succ, masksRead_succ]
  · refine ((f.readTill xs n).capture_done (xs n) h8).trans ?_
    have hmins : min n 4 = 4 ∧ min (n + 1) 4 = 4 ∧ min n 8 = 8 ∧ min (n + 1) 8 = 8 ∧ min (n - 4) 4 = 4 ∧
        min (n - 3) 4 = 4 := by omega
    cases hc : f.column <;> simp [VFlight.readTill, hc, hmins]

section
variable {f : VFlight} (xs : Nat → Station)

/-- What an op that is no widening VCVT has read by the tick of its write. -/
theorem VFlight.captured_read (hk : f.kind ≠ .widen) (ha : f.a = []) (hb : f.b = []) (hc : f.c = []) (hm : f.m = []) (n : Nat) :
    f.captured xs n = f.readTill xs n := by
  induction n with
  | zero =>
    obtain ⟨t, kind, dst, ds, sa, sb, sc, sta, stb, msk, so, tbl, scal, fmte, p1, src, a, b, c, m⟩ := f
    obtain ⟨rfl, rfl, rfl, rfl⟩ : a = [] ∧ b = [] ∧ c = [] ∧ m = [] := ⟨ha, hb, hc, hm⟩
    simp [VFlight.captured, VFlight.readTill, quadsRead, masksRead, rowsUpTo]
  | succ n ih => rw [VFlight.captured_succ, ih, f.readTill_succ xs n hk]

theorem VFlight.captured_widen (hk : f.kind = .widen) (hm : f.m = []) (n : Nat) : f.captured xs (n + 1) = f.widenTill xs (n + 1) := by
  induction n with
  | zero =>
    rw [VFlight.captured_succ]
    refine (f.capture_widen (xs 0) hk (by decide)).trans ?_
    simp [VFlight.widenTill, masksRead_succ, hm]
    rfl
  | succ n ih =>
    rw [VFlight.captured_succ, ih]
    rcases Nat.lt_or_ge (n + 1) 4 with h4 | h4
    · refine ((f.widenTill xs (n + 1)).capture_widen (xs (n + 1)) hk h4).trans ?_
      have hmins : min (n + 1) 4 = n + 1 ∧ min (n + 1 + 1) 4 = n + 1 + 1 ∧ (n + 1) % 4 = n + 1 := by omega
      simp [VFlight.widenTill, hmins, masksRead_succ]
    · have hsame : f.widenTill xs (n + 1 + 1) = f.widenTill xs (n + 1) := by
        have hmins : min (n + 1) 4 = 4 ∧ min (n + 1 + 1) 4 = 4 := by omega
        simp only [VFlight.widenTill, hmins]
      have hcol : (f.widenTill xs (n + 1)).column = false := by
        simp [VFlight.column, VFlight.widenTill, hk]
      rw [hsame]
      rcases Nat.lt_or_ge (n + 1) 8 with h8 | h8
      · refine ((f.widenTill xs (n + 1)).capture_second (xs (n + 1)) h4 h8).trans ?_
        rw [hcol]
        rfl
      · exact (f.widenTill xs (n + 1)).capture_done (xs (n + 1)) h8

end


/-! ### What a VCVT writes (R79 to R82, R148, R149) -/

/-- A V op that writes on one tick. -/
theorem VFlight.writes_once (f : VFlight) (hq : f.byQuad = false) : (f.writes (f.t + f.writeAt)).map (·.wr) = f.parts 0 := by
  simp [VFlight.writes, hq, Function.comp_def]

/-- A V op that writes quad by quad. -/
theorem VFlight.writes_quad (f : VFlight) (hq : f.byQuad = true) {r : Nat} (hr : r < 4) :
    (f.writes (f.t + (f.writeAt + r))).map (·.wr) = f.parts r := by
  have hwin : r ≤ 3 := by omega
  simp [VFlight.writes, hq, hwin, Function.comp_def]

/-- Every one-tick op has read all that it reads by the tick of its write. -/
theorem VFlight.readTill_all (f : VFlight) (xs : Nat → Station) {n : Nat} (hn : 8 ≤ n) : f.readTill xs n = f.readTill xs 8 := by
  have hmins : min n 4 = 4 ∧ min n 8 = 8 ∧ min (n - 4) 4 = 4 := by omega
  cases hc : f.column <;> simp [VFlight.readTill, hc, hmins]

section
variable (f : VFlight) (xs : Nat → Station) {k : Nat}

theorem VFlight.readTill_la (hk : k < 1024) (hs : f.sta = 0) : (f.readTill xs 8).a.getD k 0 = ((xs (k / 256)).tile f.sa).el k := by
  have hread : (quadsRead xs f.sa f.sta 0 4).getD k 0 = _ := getD_quadsRead xs f.sa f.sta 0 hk
  have hstride : strideAt f.sta k = k := by rw [hs]; rfl
  rw [Nat.zero_add, hstride] at hread
  exact hread

theorem VFlight.readTill_lm (hk : k < 1024) : (f.readTill xs 8).lm k = (xs (k / 256)).mask f.msk k := by
  have hread : (f.readTill xs 8).lm k = (xs (k / 256)).mask f.msk (k % 1024) := getD_masksRead xs f.msk (by split <;> omega)
  rw [hread, Nat.mod_eq_of_lt hk]

/-- The passes over `SB` of a narrowing VCVT in column form. -/
theorem VFlight.readTill_second (hk : k < 1024) (hc : f.column = true) :
    (f.readTill xs 8).b.getD k 0 = ((xs (4 + k / 256)).tile f.sb).el k ∧
      (f.readTill xs 8).lm (1024 + k) = (xs (4 + k / 256)).mask f.msk k := by
  have hb : (f.readTill xs 8).b = quadsRead xs f.sb 0 4 4 := if_pos hc
  have hm : (f.readTill xs 8).m = masksRead xs f.msk 8 := by simp [VFlight.readTill, hc]
  have hpass : (1024 + k) / 256 = 4 + k / 256 ∧ (1024 + k) % 1024 = k := by omega
  obtain ⟨hdiv, hmod⟩ := hpass
  refine ⟨?_, ?_⟩
  · rw [hb, getD_quadsRead _ _ _ _ hk]
    rfl
  · rw [VFlight.lm, hm, getD_masksRead _ _ (by omega), hdiv, hmod]

/-- Element `k` of lane `i` that enters a narrowing VCVT, from the stations that its passes found: +0 where masked (R148, R149). -/
def VFlight.entering (i k : Nat) : FV :=
  if f.cvt.ax then
    (let p := 64 * (k % 16) + i
     if k < 16 then (if (xs (p / 256)).mask f.msk p then v32 (((xs (p / 256)).tile f.sa).el p) else .fin false 0 0)
     else if (xs (4 + p / 256)).mask f.msk p then v32 (((xs (4 + p / 256)).tile f.sb).el p) else .fin false 0 0)
  else if (xs ((64 * i + k) / 256)).mask f.msk (64 * i + k) then v32 (((xs ((64 * i + k) / 256)).tile f.sa).el (64 * i + k)) else .fin false 0 0

theorem VFlight.readTill_cvtIn (hk : f.kind = .narrow) (hs : f.sta = 0) {i j : Nat} (hi : i < cvtLanes f.cvt.ax) (hj : j < cvtLen f.cvt.ax) :
    (f.readTill xs 8).cvtIn f.cvt.ax i j = f.entering xs i j := by
  cases hax : f.cvt.ax with
  | false =>
    simp only [hax, cvtLanes, cvtLen, Bool.false_eq_true, if_false] at hi hj
    have hpos : 64 * i + j < 1024 := by omega
    simp only [VFlight.cvtIn, VFlight.entering, hax, Bool.false_eq_true, if_false, f.readTill_lm xs hpos, f.readTill_la xs hpos hs]
  | true =>
    simp only [hax, cvtLanes, cvtLen, if_true] at hi hj
    have hpos : 64 * (j % 16) + i < 1024 := by omega
    have hcol : f.column = true := by simp [VFlight.column, hk, hax]
    obtain ⟨hb, hm⟩ := f.readTill_second xs hpos hcol
    simp only [VFlight.cvtIn, VFlight.entering, hax, if_true, f.readTill_lm xs hpos, f.readTill_la xs hpos hs, hb, hm]

/-- The lanes of a narrowing VCVT, from the stations that its passes found. -/
def VFlight.lanesOf : List (List Nat × List (Nat × Bool × Bool)) :=
  (List.range (cvtLanes f.cvt.ax)).map (fun i => narrowLane f.cvt ((List.range (cvtLen f.cvt.ax)).map (f.entering xs i)))

theorem VFlight.readTill_narrowed (hk : f.kind = .narrow) (hs : f.sta = 0) : (f.readTill xs 8).narrowed f.cvt = f.lanesOf xs :=
  List.map_congr_left fun _ hi => congrArg (narrowLane f.cvt)
    (List.map_congr_left fun _ hj => f.readTill_cvtIn xs hk hs (List.mem_range.1 hi) (List.mem_range.1 hj))

theorem VFlight.readTill_scaled (hs : f.sta = 0) (c : Cvt) (hk : k < 1024) : (f.readTill xs 8).scaled c k =
    if (xs (k / 256)).mask f.msk k then to32 (FV.scale c.e (v32 (((xs (k / 256)).tile f.sa).el k))) else 0 := by
  rw [VFlight.scaled, f.readTill_lm xs hk, f.readTill_la xs hk hs]

/-- The unmasked finite elements that a narrowing VCVT with FMT 0x0 makes come out as `g` says. -/
theorem VFlight.readTill_scaledCount (hs : f.sta = 0) (c : Cvt) (g : FV → FV → Bool) : (f.readTill xs 8).scaledCount c g =
    ((List.range 1024).filter (fun k =>
      (xs (k / 256)).mask f.msk k && (v32 (((xs (k / 256)).tile f.sa).el k)).isFin && g (v32 (((xs (k / 256)).tile f.sa).el k))
        (v32 (if (xs (k / 256)).mask f.msk k then to32 (FV.scale c.e (v32 (((xs (k / 256)).tile f.sa).el k))) else 0)))).length := by
  refine congrArg List.length (List.filter_congr fun k hk => ?_)
  have hlane : k < 1024 := List.mem_range.1 hk
  rw [f.readTill_lm xs hlane, f.readTill_la xs hlane hs, f.readTill_scaled xs hs c hlane]

/-- A widening VCVT writes the lanes that its passes over the mask register selected. -/
theorem VFlight.widenTill_lanes (hk : f.kind = .widen) {n r : Nat} (hr : r < min n 4) :
    ((List.range 256).map (256 * r + ·)).filter (f.widenTill xs n).writesLane =
      ((List.range 256).map (256 * r + ·)).filter (fun k => (xs r).mask f.msk k) := by
  refine List.filter_congr fun k hquad => ?_
  obtain ⟨q, hq, rfl⟩ := List.mem_map.1 hquad
  have hq256 : q < 256 := List.mem_range.1 hq
  have hpass : (256 * r + q) / 256 = r ∧ (256 * r + q) % 1024 = 256 * r + q := by omega
  obtain ⟨hdiv, hmod⟩ := hpass
  have hlm : (f.widenTill xs n).lm (256 * r + q) = (xs ((256 * r + q) / 256)).mask f.msk ((256 * r + q) % 1024) :=
    getD_masksRead xs f.msk (by omega)
  have hsel : (f.widenTill xs n).kind ≠ .sel := by
    show f.kind ≠ .sel
    rw [hk]
    decide
  rw [VFlight.writesLane, decide_eq_false hsel, Bool.false_or, hlm, hdiv, hmod]

end

/-- No lane of a widening VCVT raises a flag. -/
theorem orFlags_none {α : Type} (g : α → Nat) (l : List α) : (orFlags (l.map (fun k => (g k, Flg.none)))).code = 0 := by
  induction l with
  | nil => rfl
  | cons a l ih => exact ih

/-- The value of a lane that a widening VCVT makes: of the FP32 element, or of the image's element under its block's scale (R81). -/
theorem VFlight.widenVal_eq (f : VFlight) (c : Cvt) (k : Nat) : f.widenVal c k =
    if c.fmt = 0 then to32 (FV.scale (-c.e) (v32 (f.a.getD k 0)))
    else
      let lane := if c.ax then k % 64 else k / 64
      let kk := if c.ax then 16 * b2n c.half + k / 64 else k % 64
      let v := elemVal c.fmt (Tile.bitsAt f.a (imgPos c.fmt c.ax lane kk) (imgBits c.fmt))
      let sc := (Tile.byte f.b (scalePos c.fmt c.ax c.kpos lane (kk / 32))).toNat
      if isMx c.fmt = true ∧ sc = 255 then BitVec.ofNat 32 nan32
      else to32 (FV.scale ((if isMx c.fmt then scaleExp sc else 0) - c.e) v) := by
  cases hmx : isMx c.fmt <;> simp [VFlight.widenVal, hmx]

theorem VFlight.widen_quadWrites (f : VFlight) (xs : Nat → Station) (hk : f.kind = .widen) {n r : Nat} (hr : r < min n 4) :
    let ks := ((List.range 256).map (256 * r + ·)).filter (fun k => (xs r).mask f.msk k)
    (f.widenTill xs n).quadWrites r = [.els f.dst (ks.map (fun k => (k, (f.widenTill xs n).widenVal f.cvt k))), .flags f.src.strm 0] := by
  intro ks
  have helem : (f.widenTill xs n).elem = fun k => (((f.widenTill xs n).widenVal f.cvt k).toNat, Flg.none) := by
    funext k
    have hkind : (f.widenTill xs n).kind = .widen := hk
    simp only [VFlight.elem, hkind]
    rfl
  simp only [VFlight.quadWrites, f.widenTill_lanes xs hk hr, helem, orFlags_none, BitVec.ofNat_toNat, BitVec.setWidth_eq]
  rfl

section
variable {f : VFlight} (xs : Nat → Station) (ha : f.a = []) (hb : f.b = []) (hc : f.c = []) (hm : f.m = [])
include ha hb hc hm

/-- A V op that writes on one tick, its eighth or later, writes what it has read on its first eight. -/
theorem VFlight.captured_writes (hk : f.kind ≠ .widen) (hq : f.byQuad = false) (hw : 8 ≤ f.writeAt + 1) :
    ((f.captured xs (f.writeAt + 1)).writes (f.t + f.writeAt)).map (·.wr) = (f.readTill xs 8).parts 0 := by
  rw [VFlight.captured_read xs hk ha hb hc hm, f.readTill_all xs hw]
  exact (f.readTill xs 8).writes_once hq

/-- The image, the scales of an MX format and the counts of a narrowing VCVT, on one tick. -/
theorem VFlight.narrow_writes (hk : f.kind = .narrow) (hs : f.sta = 0) :
    ((f.captured xs (f.writeAt + 1)).writes (f.t + f.writeAt)).map (·.wr) =
      [.els f.dst (imageEls f.cvt (f.lanesOf xs))] ++ (if isMx f.cvt.fmt then [.bytes f.ds (scaleBytes f.cvt (f.lanesOf xs))] else []) ++
        [.counts f.src (((f.lanesOf xs).flatMap (·.2)).filter (·.2.1)).length (((f.lanesOf xs).flatMap (·.2)).filter (·.2.2)).length] := by
  have hlate : 8 ≤ f.writeAt + 1 := by
    simp only [VFlight.writeAt, hk]
    (repeat' split) <;> omega
  have hparts : (f.readTill xs 8).parts 0 = (f.readTill xs 8).narrow f.cvt := by
    have hkind : (f.readTill xs 8).kind = .narrow := hk
    simp only [VFlight.parts, hkind]
    rfl
  rw [VFlight.captured_writes xs ha hb hc hm (by simp [hk]) (by simp [VFlight.byQuad, hk]) hlate, hparts, VFlight.narrow,
    f.readTill_narrowed xs hk hs]
  rfl

/-- The FP32 tile and the counts of a narrowing VCVT with FMT 0x0. -/
theorem VFlight.scale_writes (hk : f.kind = .scale) (hs : f.sta = 0) :
    let out := fun (k : Nat) => if (xs (k / 256)).mask f.msk k then to32 (FV.scale f.cvt.e (v32 (((xs (k / 256)).tile f.sa).el k))) else 0
    let count := fun (g : FV → FV → Bool) => ((List.range 1024).filter (fun k => (xs (k / 256)).mask f.msk k &&
      (v32 (((xs (k / 256)).tile f.sa).el k)).isFin && g (v32 (((xs (k / 256)).tile f.sa).el k)) (v32 (out k)))).length
    ((f.captured xs (f.writeAt + 1)).writes (f.t + f.writeAt)).map (·.wr) =
      [.els f.dst ((List.range 1024).map (fun k => (k, out k))),
        .counts f.src (count (fun v w => !v.isZero && w.isZero)) (count (fun _ w => !w.isFin))] := by
  intro out count
  have hlate : 8 ≤ f.writeAt + 1 := by
    simp only [VFlight.writeAt, hk]
    split <;> omega
  have hparts : (f.readTill xs 8).parts 0 = (f.readTill xs 8).scaleTile f.cvt := by
    have hkind : (f.readTill xs 8).kind = .scale := hk
    simp only [VFlight.parts, hkind]
    rfl
  have htile : (List.range 1024).map (fun k => (k, (f.readTill xs 8).scaled f.cvt k)) = (List.range 1024).map (fun k => (k, out k)) :=
    List.map_congr_left fun k hk => by rw [f.readTill_scaled xs hs _ (List.mem_range.1 hk)]
  rw [VFlight.captured_writes xs ha hb hc hm (by simp [hk]) (by simp [VFlight.byQuad, hk]) hlate, hparts, VFlight.scaleTile, htile,
    f.readTill_scaledCount xs hs, f.readTill_scaledCount xs hs]
  rfl

omit ha hb hc

/-- A quad of a widening VCVT, of the lanes that the mask selects. -/
theorem VFlight.widen_writes (hk : f.kind = .widen) {r : Nat} (hr : r < 4) :
    let ks := ((List.range 256).map (256 * r + ·)).filter (fun k => (xs r).mask f.msk k)
    ((f.captured xs (f.writeAt + r + 1)).writes (f.t + (f.writeAt + r))).map (·.wr) =
      [.els f.dst (ks.map (fun k => (k, (f.widenTill xs (f.writeAt + r + 1)).widenVal f.cvt k))), .flags f.src.strm 0] := by
  intro ks
  have hlate : 5 ≤ f.writeAt := by
    simp only [VFlight.writeAt, hk]
    split <;> omega
  have hkind : (f.widenTill xs (f.writeAt + r + 1)).kind = .widen := hk
  have hparts : (f.widenTill xs (f.writeAt + r + 1)).parts r = (f.widenTill xs (f.writeAt + r + 1)).quadWrites r := by
    simp only [VFlight.parts, hkind]
  have hquads : (f.widenTill xs (f.writeAt + r + 1)).byQuad = true := by simp only [VFlight.byQuad, hkind]
  rw [VFlight.captured_widen xs hk hm]
  refine ((f.widenTill xs (f.writeAt + r + 1)).writes_quad hquads hr).trans (hparts.trans ?_)
  exact f.widen_quadWrites xs hk (by omega)

end

/-- Settles O23: the op as it sets out, and its writes in each form, from what its passes have read. -/
theorem vcvtConverts : Obligations.VcvtConverts := by
  unfold Obligations.VcvtConverts
  refine ⟨?_, ?_⟩
  · intro s i o t h hb x d e c hzero hfmt
    obtain ⟨u, hu, hw, hst⟩ := execVcvt_sets_out h hb ⟨hzero, hfmt⟩
    rw [cvtOcc_eq] at hst
    exact ⟨u, hu, hw, hst⟩
  · intro f xs ha hb hc hm hs c seen a b zero
    refine ⟨fun hk => ?_, fun hk => ?_, fun hk r hr => ?_⟩
    · have hwrites := VFlight.narrow_writes xs ha hb hc hm hk hs
      simp only [VFlight.writeAt, hk] at hwrites
      exact hwrites
    · have hwrites := VFlight.scale_writes xs ha hb hc hm hk hs
      simp only [VFlight.writeAt, hk] at hwrites
      exact hwrites
    · have hwrites := VFlight.widen_writes xs hm hk hr
      simp only [VFlight.writeAt, hk, VFlight.widenVal_eq] at hwrites
      exact hwrites

end Sys2Proof.Machine
end

section
/-! ## ROM routines (O12) -/

namespace Sys2Proof.Machine

/-! ### The word of a routine issues (R170, R180, R183) -/

/-- A station issues on its schedule tick. -/
theorem State.tickOf_of_issueTick {s : State} {n t : Nat} (h : s.issueTick n = some t) : s.tickOf n = some t := by
  unfold State.issueTick State.liveTick at h
  split at h
  · next hlive =>
    split at hlive
    · split at h
      · cases h
      · rw [hlive]
        exact h
    · cases hlive
  · cases h

/-- A trace record is its die's alone. -/
theorem State.traceWord_eq (s : State) (n : Nat) (h : BitVec 16) (p : OpPlace) (f : Bool) :
    s.traceWord n h p f = { s with dies := (s.traceWord n h p f).dies } := by
  unfold State.traceWord
  dsimp only
  split <;> rfl

theorem State.brkCount_stations (s : State) (n : Nat) (m : Strm) : (s.brkCount n m).stations = s.stations := by
  unfold State.brkCount
  split <;> rfl

theorem State.romIssue_station (s : State) (n : Nat) (m : Strm) (t : Nat) (w : BitVec 16 × Nat) (j : Nat) :
    (s.romIssue n m t w).station j = if n = j then (s.station n).modStream m (·.romStep t) else s.station j := by
  rw [State.romIssue, State.station_congr (State.brkCount_stations _ _ _), State.traceWord_eq]
  exact s.station_modStream n j m _

/-! ### The outcomes of a word of a routine (R161, R170, R172) -/

/-- A word of a routine whose slot the map does not give to its stream: the routine is over and the word faults. -/
def State.romRefused (s : State) (n : Nat) (m : Strm) (t : Nat) (w : BitVec 16 × Nat) (sl : Slot) : State :=
  let p := (s.stream n m).romPlace m t w.2
  ((s.modStream n m (fun z => { z with rom := none })).traceWord n w.1 p true).seqFault n 4 1 sl.idx p

section
variable {s : State} {n t : Nat} {m : Strm} {r : RomSt} {w : BitVec 16 × Nat} (ht : s.issueTick n = some t)
  (hr : (s.stream n m).rom = some r) (hw : (s.stream n m).romWord t = some w)
  (hb : s.brkHits n m w.1 = false ∨ (s.stream n m).skips t = true)
include ht hr hw hb

theorem State.romRun_acts (waits : RomSt → List Nat) (eff : RomSt → State → State) : s.romRun n m r.id waits eff =
    match s.unowned n m w.1 t with
    | some sl => s.romRefused n m t w sl
    | none =>
      if t + 1 < (s.stream n m).next then s.romIssue n m t w
      else if (waits r).isEmpty then eff r (s.romIssue n m t w)
      else (waits r).foldl State.lensAsk s := by
  have hgo : ¬ (r.id ≠ r.id ∨ (s.brkHits n m w.1 && !(s.stream n m).skips t) = true) := by
    rcases hb with h | h <;> simp [h]
  simp only [State.romRun, ht, hr, hw, if_neg hgo]
  rfl

theorem State.romRun_refused {sl : Slot} (hu : s.unowned n m w.1 t = some sl) (waits : RomSt → List Nat) (eff : RomSt → State → State) :
    s.romRun n m r.id waits eff = s.romRefused n m t w sl := by
  rw [State.romRun_acts ht hr hw hb, hu]

variable (hu : s.unowned n m w.1 t = none)
include hu

theorem State.romRun_early (he : t + 1 < (s.stream n m).next) (waits : RomSt → List Nat) (eff : RomSt → State → State) :
    s.romRun n m r.id waits eff = s.romIssue n m t w := by
  rw [State.romRun_acts ht hr hw hb, hu]
  exact if_pos he

variable (hl : (s.stream n m).next ≤ t + 1)
include hl

theorem State.romRun_last {waits : RomSt → List Nat} (hn : waits r = []) (eff : RomSt → State → State) :
    s.romRun n m r.id waits eff = eff r (s.romIssue n m t w) := by
  rw [State.romRun_acts ht hr hw hb, hu]
  exact (if_neg (Nat.not_lt.2 hl)).trans (if_pos (by rw [hn]; rfl))

theorem State.romRun_waits {waits : RomSt → List Nat} (hn : waits r ≠ []) (eff : RomSt → State → State) :
    s.romRun n m r.id waits eff = (waits r).foldl State.lensAsk s := by
  rw [State.romRun_acts ht hr hw hb, hu]
  exact (if_neg (Nat.not_lt.2 hl)).trans (if_neg (by simpa using hn))

end

/-- The command of a routine's word runs its routine. -/
theorem exec_romCmd {n : Stn} {z : RomWord} {id : Nat} {c : Instr} (h : romCmd n z id = some c) (s : State) :
    ∃ waits eff, exec c s = .next (s.romRun n z.strm id waits eff) := by
  unfold romCmd at h
  split at h
  case h_5 => cases h
  all_goals
    cases h
    exact ⟨_, _, rfl⟩

/-! ### What a refused word leaves (R161, R179, R228) -/

theorem seqWord_unowned {s : State} {n : Stn} {p : OpPlace} {sl : Slot} (h : s.reg .stnSeqFault n = seqWord 4 1 sl.idx p % 2 ^ 32) :
    s.fld .stnSeqFault n 27 24 = 4 ∧ s.fld .stnSeqFault n 23 20 = 1 ∧ s.fld .stnSeqFault n 19 17 = sl.idx ∧
      s.fld .stnSeqFault n 15 0 = p.tick % 2 ^ 16 := by
  have hstrm : p.strm.code < 4 := by cases p.strm <;> decide
  have hslot : sl.idx < 8 := by cases sl <;> decide
  have hbank : b2n p.bank < 2 := by cases p.bank <;> decide
  have hrtn : b2n p.rtn < 2 := by cases p.rtn <;> decide
  simp only [State.fld, h, seqWord, bitsOf_eq_div_mod]
  omega

/-- The stream is out of its routine, the station stops, and nothing of its tile registers and gradient buffer differs. -/
theorem State.romRefused_stops {s : State} {n : Stn} {t : Nat} (ht : s.tickOf n = some t) (m : Strm) (w : BitVec 16 × Nat) (sl : Slot) :
    let u := s.romRefused n m t w sl
    u.station n = ((s.station n).modStream m (fun z => { z with rom := none })).stopsBy (t + 1) ∧ u.stackMem = s.stackMem ∧
      (s.bit .stnSeqFault n 31 = false → u.fld .stnSeqFault n 27 24 = 4 ∧ u.fld .stnSeqFault n 23 20 = 1 ∧
        u.fld .stnSeqFault n 19 17 = sl.idx ∧ u.fld .stnSeqFault n 15 0 = t % 2 ^ 16) := by
  intro u
  let p := (s.stream n m).romPlace m t w.2
  let v := (s.modStream n m (fun z => { z with rom := none })).traceWord n w.1 p true
  have hv : v = { s.modStream n m (fun z => { z with rom := none }) with dies := v.dies } := State.traceWord_eq _ _ _ _ _
  have hregs : v.regs = s.regs := by rw [hv]; rfl
  have htick : v.tickOf n = some p.tick := by
    rw [← show s.tickOf n = some p.tick from ht]
    refine State.tickOf_congr (.of_regs (rs := []) hregs) (by simp) ?_ ?_ ?_ n <;> rw [hv] <;> rfl
  have hstn : v.station n = (s.station n).modStream m (fun z => { z with rom := none }) := by
    rw [hv]
    exact (s.station_modStream n n m _).trans (if_pos rfl)
  obtain ⟨hstops, -, hword⟩ := v.seqFault_stops htick 4 1 sl.idx
  refine ⟨?_, by simp [u, State.romRefused], fun hvalid => seqWord_unowned (hword ?_)⟩
  · rw [← hstn]
    exact hstops.station
  · rw [State.bit_congr (State.reg_congr hregs _ _), hvalid]

/-! ### What TILES_ZERO leaves -/

/-- The tile and mask registers of a station without entries (R128). -/
theorem Station.cleared_reads (x : Station) (k : Nat) : ({ x with tiles := [], masks := [] } : Station).tile k = Tile.zero ∧
    ∀ q, q ≠ 0 → ({ x with tiles := [], masks := [] } : Station).mask q k = false :=
  ⟨rfl, fun _ hq => (if_neg hq).trans (by simp [Tbl.get])⟩

/-- A change of one station. -/
theorem State.modStation_stationOnly (v : State) (n : Nat) (f : Station → Station) : v.StationOnly (v.modStation n f) n :=
  ⟨fun j hj => by rw [State.station_modStation, if_neg (Ne.symm hj)], rfl⟩

/-- Settles O12, by whether the map gives the stream the word's slots, and then by whether the word is the routine's last. -/
theorem romRoutinesRun : Obligations.RomRoutinesRun := by
  unfold Obligations.RomRoutinesRun
  intro s n t z r w m ht hr hw hb v x
  have hstn : v.station n = x := (s.romIssue_station n m t w n).trans (if_pos rfl)
  refine ⟨fun hu => ⟨hstn, fun j hj => (s.romIssue_station n m t w j).trans (if_neg (Ne.symm hj)), State.romIssue_mem _ _ _ _ _,
    fun he c hc => ?_, fun hl => ⟨fun hid => ?_, fun hid hecc => ?_, fun hid hn hs => ?_, fun hid hn hs => ?_, fun hid hn => ?_,
    fun hid hn => ?_⟩⟩, fun sl hu c hc => ?_⟩
  · obtain ⟨waits, eff, hexec⟩ := exec_romCmd hc s
    rw [hexec, State.romRun_early ht hr hw hb hu he]
  · have hlast := State.romRun_last ht hr hw hb hu hl (waits := fun _ => []) rfl (fun _ t => t.modStation n ({ · with tiles := [], masks := [] }))
    rw [hid] at hlast
    have hzero : (v.modStation n ({ · with tiles := [], masks := [] })).station n = { x with tiles := [], masks := [] } := by
      rw [State.station_modStation_self, hstn]
    refine ⟨_, congrArg Host.Outcome.next hlast, v.modStation_stationOnly n _, hzero, fun k => ?_, fun q k hq => ?_⟩
    · rw [hzero]
      exact (x.cleared_reads k).1
    · rw [hzero]
      exact (x.cleared_reads k).2 q hq
  · have hlast := State.romRun_last ht hr hw hb hu hl (waits := fun _ => []) rfl (fun r t => t.withEcc n z.ecc (fun u =>
      u.modStation n (·.tieSum (r.s0.toNat % 256) (r.s1.toNat % 256))))
    rw [hid] at hlast
    have hclean : v.withEcc n z.ecc (fun u => u.modStation n (·.tieSum (r.s0.toNat % 256) (r.s1.toNat % 256))) =
        v.modStation n (·.tieSum (r.s0.toNat % 256) (r.s1.toNat % 256)) := by
      rw [hecc]
      rfl
    refine ⟨_, congrArg Host.Outcome.next (hlast.trans hclean), v.modStation_stationOnly n _, ?_⟩
    rw [State.station_modStation_self, hstn]
  · have hlast := State.romRun_last ht hr hw hb hu hl hn (lensClearEff n z.xs)
    rw [hid] at hlast
    exact congrArg Host.Outcome.next (hlast.trans (if_neg (by rw [hs]; decide)))
  · have hlast := State.romRun_last ht hr hw hb hu hl hn (lensSelectEff n z.xs)
    rw [hid] at hlast
    exact congrArg Host.Outcome.next (hlast.trans (if_neg (by rw [hs]; decide)))
  · have hwaits := State.romRun_waits ht hr hw hb hu hl hn (lensClearEff n z.xs)
    rw [hid] at hwaits
    exact congrArg Host.Outcome.next hwaits
  · have hwaits := State.romRun_waits ht hr hw hb hu hl hn (lensSelectEff n z.xs)
    rw [hid] at hwaits
    exact congrArg Host.Outcome.next hwaits
  · obtain ⟨waits, eff, hexec⟩ := exec_romCmd hc s
    obtain ⟨hstop, hmem, hword⟩ := State.romRefused_stops (State.tickOf_of_issueTick ht) m w sl
    refine ⟨_, hexec.trans (congrArg Host.Outcome.next (State.romRun_refused ht hr hw hb hu waits eff)), ?_, ?_, hmem, ?_, ?_, hword⟩
    · rw [hstop]
      cases hm : m <;> rfl
    · rw [hstop]
      cases hm : m <;> rfl
    · rw [State.stream, hstop]
      cases hm : m <;> rfl
    · rw [hstop]
      exact Station.stopsBy_stops _ _

end Sys2Proof.Machine
end

section
/-! ## Restores (O57) -/

namespace Sys2Proof.Machine

/-! ### Page groups that a restore leaves quarantined (R409, Table 15-4) -/

/-- A page group is quarantined by its own epoch and its die's. -/
theorem State.pgQuarantined_congr {s u : State} {rs : List Reg} (h : s.RegsKept u rs) (hg : Reg.msPgEpoch ∉ rs) (hd : Reg.stnDieEpoch ∉ rs)
    {g : Nat} (hlt : g < 4096) : u.pgQuarantined g = s.pgQuarantined g := by
  have hdie : g / 1024 < Reg.stnDieEpoch.info.count := Nat.div_lt_of_lt_mul hlt
  rw [State.pgQuarantined, h.fld hg hlt, h.fld hd hdie, State.pgQuarantined]

theorem State.stampStn_kept (s : State) {i : Nat} (hi : i < 1024) : s.RegsKept (s.stampStn i) [.stnStateEpoch] :=
  s.setFld_regsKept (by simp) hi _ _ _

/-- The stamp of a page group is its own. -/
theorem State.pgQuarantined_stampGroup_ne (s : State) {g h : Nat} (hg : g < 4096) (hh : h < 4096) (hne : g ≠ h) :
    (s.stampGroup g).pgQuarantined h = s.pgQuarantined h := by
  have hword : (s.stampGroup g).fld .msPgEpoch h 15 0 = s.fld .msPgEpoch h 15 0 :=
    State.fld_congr (s.regAt_setFld_ne _ _ _ _ (fun e => hne (Reg.at_inj.1 e))) _ _
  have hdie : (s.stampGroup g).fld .stnDieEpoch (h / 1024) 15 0 = s.fld .stnDieEpoch (h / 1024) 15 0 :=
    (s.setFld_regsKept (rs := [.msPgEpoch]) (by simp) hg _ _ _).fld (by decide) (Nat.div_lt_of_lt_mul hh) _ _
  rw [State.pgQuarantined, hword, hdie, State.pgQuarantined]

theorem State.pgQuarantined_stampGroups {g : Nat} (hg : g < 4096) (l : List Nat) (hl : ∀ h ∈ l, h < 4096 ∧ h ≠ g) (s : State) :
    (l.foldl (fun t h => t.stampGroup h) s).pgQuarantined g = s.pgQuarantined g := by
  induction l generalizing s with
  | nil => rfl
  | cons h l ih =>
    obtain ⟨hlt, hne⟩ := hl h List.mem_cons_self
    rw [List.foldl_cons, ih (fun k hk => hl k (List.mem_cons_of_mem _ hk)), s.pgQuarantined_stampGroup_ne hlt hg hne]

/-- A restore stamps every page group but those of pages that failed to decode. -/
theorem State.pgQuarantined_restoreStamp (s : State) {keep : List Nat} {g : Nat} (hg : g < 4096) (hk : g ∈ keep) :
    (s.restoreStamp keep).pgQuarantined g = s.pgQuarantined g := by
  have hstns : s.RegsKept ((List.range 1024).foldl (fun t i => t.stampStn i) s) [.stnStateEpoch] :=
    State.RegsKept.foldl _ (fun t i hi => t.stampStn_kept (List.mem_range.1 hi)) s
  rw [State.restoreStamp, State.pgQuarantined_stampGroups hg _ (fun h hh => ?_), State.pgQuarantined_congr hstns (by decide) (by decide) hg]
  obtain ⟨hrange, hkeep⟩ := List.mem_filter.1 hh
  refine ⟨List.mem_range.1 hrange, fun e => ?_⟩
  subst e
  simp [hk] at hkeep

/-! ### The end of a restore (R407, R409) -/

/-- The pages of a slot that fail to decode. -/
def Slot_.failing (x : Slot_) (failed : List Nat) : List Nat := (x.pages.map (·.1)).filter (fun p => (failed ++ x.lost).contains p)

/-- Once an own slot has been written and the units are stamped, a restore only reports: of the registers it changes its own status and what
messages to the host count on. -/
theorem State.restoreDone_reports (s : State) {x : Slot_} (failed : List Nat) (xs : List XferAt) (h3 : s.fld .snapStatus 0 31 30 = 3)
    (hown : s.fw.restSlot < 16) (hx : s.slot s.fw.restSlot = x) :
    ((s.restoreOwn x (x.failing failed) xs).restoreStamp ((x.failing failed).map (· / 64))).RegsKept (s.restoreDone failed false xs)
      [.mbxStatus, .ethTxFrames, .fwStatus, .snapStatus] := by
  have hreports : ∀ (cls sev : Nat) (w : Nat → UnitRef) (l : List Nat) (t : State),
      t.RegsKept (l.foldl (fun t p => t.report cls sev (w p) 0 p) t) [.mbxStatus, .ethTxFrames, .fwStatus] := fun cls sev w l t =>
    State.RegsKept.foldl _ (fun t p _ => (t.report_tells cls sev (w p) 0 p).regs) t
  have hstatus : ∀ t : State, t.RegsKept ((t.snapState 0 s.fw.restSlot 100).fwUpd (fun f => { f with restCmd := none }))
      [.mbxStatus, .ethTxFrames, .fwStatus, .snapStatus] := fun t => by
    refine State.RegsKept.trans (t := t.snapState 0 s.fw.restSlot 100) ?_ (.of_regs (State.regs_fwUpd _ _))
    unfold State.snapState
    exact t.setReg_regsKept (by simp) (by decide) _
  have hevent : ∀ (t : State) (q : Word) (st : Nat) (l : List Nat), t.RegsKept (t.activityDone q 3 st l)
      [.mbxStatus, .ethTxFrames, .fwStatus, .snapStatus] := fun t q st l =>
    (State.event_tells t 0x8002 ([q.toNat, 3, st] ++ l) (rs := [.fwStatus, .snapStatus])).regs
  have hdone : ∀ t : State, t.RegsKept (match s.fw.restCmd with
      | some q => if (x.failing failed).isEmpty then t.activityDone (BitVec.ofNat 32 q) 3 0 []
        else t.activityDone (BitVec.ofNat 32 q) 3 0x40 [(x.failing failed).length]
      | none => t) [.mbxStatus, .ethTxFrames, .fwStatus, .snapStatus] := fun t => by
    split
    · split <;> exact hevent _ _ _ _
    · exact .of_regs rfl
  rw [State.restoreDone, if_neg (not_not.2 h3)]
  simp only [Bool.false_eq_true, if_false, if_pos hown, State.restoreKeep, hx]
  refine .trans (.trans (.mono (.trans (.trans (.of_regs ?_) (hreports 0xB 1 _ _ _)) (hreports 0xA 1 _ _ _)) (by simp)) (hstatus _)) (hdone _)
  unfold State.readBlocks State.nandUpd
  exact State.regs_fwUpd _ _

/-! ### A restore that meets a page past the stacks

The statement takes any slot. Page 133,693,440 is page 0 of stack 16,320, which no part has; the word of that number in MS_ERR_COUNT is the
one of page group 0 in MS_PG_EPOCH. -/

/-- A slot with page 0, lost to a codeword, and page 0 of stack 16,320. -/
def straySlot : Slot_ := { Slot_.never with flags := 1, pages := [(0, [], false), (133693440, [], false)], lost := [0] }

/-- A part that restores the slot. -/
def strayRestore : State :=
  { State.reset with
    regs := [(Reg.at .snapStatus 0, 0xC0000000)]
    fw := { FwSt.reset with slots := [(0, straySlot)] } }

/-- The write of the stray page goes through on its second try. -/
def strayRetry : XferAt := ⟨⟨.clean, 1⟩, true, 65536 * 133693440⟩

theorem strayRestore_begun : strayRestore.fld .snapStatus 0 31 30 = 3 ∧ strayRestore.fw.restSlot = 0 ∧ strayRestore.slot 0 = straySlot ∧
    strayRestore.pgQuarantined 0 = false := by decide +kernel

theorem straySlot_failing : straySlot.failing [] = [0] := by decide

/-- The retry is counted on the state epoch of page group 0. -/
theorem strayRestore_written : (strayRestore.restoreOwn straySlot [0] [strayRetry]).pgQuarantined 0 = true := by decide +kernel

/-- Page group 0, which nothing stamps, has become quarantined. -/
theorem strayRestore_done : (strayRestore.restoreDone [] false [strayRetry]).pgQuarantined 0 = true := by
  obtain ⟨h3, hslot, hpages, -⟩ := strayRestore_begun
  have hreports := strayRestore.restoreDone_reports [] [strayRetry] h3 (by rw [hslot]; decide) (by rw [hslot, hpages])
  rw [straySlot_failing] at hreports
  rw [State.pgQuarantined_congr hreports (by decide) (by decide) (by decide), State.pgQuarantined_restoreStamp _ (by decide) (by decide)]
  exact strayRestore_written

/-- Refutes O57: a restore is to leave the page group of a page that failed to decode as it was, whatever else its slot holds; a page past the
last stack has its transfer's retry counted on the word that is that group's state epoch. -/
theorem not_snapshotsRestoresAndMerges : ¬ Obligations.SnapshotsRestoresAndMerges := by
  unfold Obligations.SnapshotsRestoresAndMerges
  rintro ⟨hparts, -⟩
  obtain ⟨-, -, hrestore, -⟩ := hparts strayRestore
  obtain ⟨h3, hslot, hpages, hclean⟩ := strayRestore_begun
  rw [hslot, hpages] at hrestore
  obtain ⟨u, hu, -, -, hgroups, -⟩ := hrestore [] [strayRetry] h3 (by decide) (by decide)
  obtain ⟨-, hsame⟩ := hgroups 0 (by decide)
  have hdone : strayRestore.restoreDone [] false [strayRetry] = u := Host.Outcome.next.inj hu
  have hheld : u.pgQuarantined 0 = strayRestore.pgQuarantined 0 := hsame ⟨0, by decide, rfl⟩
  rw [← hdone, strayRestore_done, hclean] at hheld
  cases hheld

end Sys2Proof.Machine
end

section
/-! ## GTAP, GEJ and GPASS (O24) -/

namespace Sys2Proof.Machine

/-! ### What the op meets (R102, R158) -/

section
variable {s v : State} {i : Issue} (hw : s.WordFrame v i [])
include hw

theorem State.WordFrame.stnKey : v.stnKey i.stn = s.stnKey i.stn :=
  State.stnKey_congr hw.regsKept (by cases i.strm <;> decide) i.stn

theorem State.WordFrame.slotAt (k : Nat) : v.slotAt k = s.slotAt k := by
  rw [State.slotAt, hw.rest]
  rfl

theorem State.WordFrame.passing : v.slotAt (v.stnKey i.stn) = s.slotAt (s.stnKey i.stn) := by
  rw [hw.stnKey, hw.slotAt]

end

/-! ### Words on their way in one station (R113, R115) -/

theorem State.later_frame (s : State) (i : Issue) (due : Nat) (pri : Pri) (w : Wr) (offs : List Nat) :
    s.WordFrame (s.later i.stn due pri w) i offs := .modStation _ _ _ _

@[simp] theorem State.station_later (s : State) (n : Nat) (due : Nat) (pri : Pri) (w : Wr) :
    (s.later n due pri w).station n = { s.station n with late := (s.station n).late ++ [⟨due, pri, w⟩] } := s.station_modStation_self _ _

/-- Two writes sent one after the other. -/
theorem State.later_later (s : State) (i : Issue) (a b : Nat) (p q : Pri) (v w : Wr) : let u := (s.later i.stn a p v).later i.stn b q w
    s.WordFrame u i [] ∧ u.station i.stn = { s.station i.stn with late := (s.station i.stn).late ++ [⟨a, p, v⟩, ⟨b, q, w⟩] } :=
  ⟨(s.later_frame i _ _ _ _).trans (State.later_frame _ i _ _ _ _), by simp⟩

theorem State.addPair_wordFrame (s : State) (i : Issue) (r : Reg) (k n : Nat) :
    s.WordFrame (s.addPair r k n) i [r.at k, r.at k + 4] := by
  refine ⟨fun _ _ => rfl, fun q o ho => ?_, fun _ => rfl, rfl⟩
  simp only [List.mem_cons, List.not_mem_nil, or_false, not_or] at ho
  obtain ⟨-, hlow, hhigh⟩ := ho
  exact s.regAt_setPair_ne _ _ _ _ (Ne.symm hlow) (Ne.symm hhigh)

/-- A word on its way to a latch is counted (R116). -/
theorem State.tapWord_spec (s : State) (i : Issue) (t : Nat) (latch : Bool) (w : RingWord) :
    let u := s.tapWord i.stn t latch w
    s.WordFrame u i [Reg.at .ringTapCount i.stn, Reg.at .ringTapCount i.stn + 4] ∧
      u.station i.stn = { s.station i.stn with late := (s.station i.stn).late ++ [⟨t, .ring, .tap (b2n latch) w⟩] } ∧
      u.pair .ringTapCount i.stn = (s.pair .ringTapCount i.stn + 1) % 2 ^ 64 :=
  ⟨(s.later_frame i _ _ _ _).trans (State.addPair_wordFrame _ i _ _ _), s.station_later _ _ _ _, State.pair_addPair _ _ _ _⟩

/-! ### GTAP (R111) -/

theorem gtapEff_sound {i : Issue} {o : GtapOp} {p : OpPlace} {v : State} (hbad : (v.slotAt (v.stnKey i.stn)).bad = false)
    (hchk : (v.slotAt (v.stnKey i.stn)).misses o.chk o.tag = false) :
    gtapEff i o p v = v.tapWord i.stn p.tick o.latch (v.slotAt (v.stnKey i.stn)) := by
  simp [gtapEff, hbad, hchk]

theorem execGtap_latches {s : State} {i : Issue} {o : GtapOp} {t : Nat} (h : s.opens i .g t = true) (hfree : s.ringFree i.stn = true)
    (hbad : (s.slotAt (s.stnKey i.stn)).bad = false) (hchk : (s.slotAt (s.stnKey i.stn)).misses o.chk o.tag = false) :
    let w := s.slotAt (s.stnKey i.stn)
    let x := (s.station i.stn).opened i .g t
    ∃ u, exec (.gtap i o) s = .next u ∧
      s.WordFrame u i [Reg.at .ringTapCount i.stn, Reg.at .ringTapCount i.stn + 4] ∧
      u.station i.stn = { x with late := x.late ++ [⟨t, .ring, .tap (b2n o.latch) w⟩] } ∧
      u.pair .ringTapCount i.stn = (s.pair .ringTapCount i.stn + 1) % 2 ^ 64 := by
  obtain ⟨v, hv, hst, hw⟩ := s.issue_opens i .g t (gtapEff i o) h
  rw [gtapEff_sound (hw.passing ▸ hbad) (hw.passing ▸ hchk), hw.passing, State.placeOf_tick] at hv
  obtain ⟨hframe, hlate, hcount⟩ := v.tapWord_spec i t o.latch (s.slotAt (s.stnKey i.stn))
  refine ⟨_, congrArg Host.Outcome.next ((State.issueRing_free hfree _).trans hv), (hw.mono (by simp)).trans hframe, ?_, ?_⟩
  · rw [hlate, hst]
  · rw [hcount, hw.pair_of_word i.stn.isLt rfl (by cases i.strm <;> decide)]

/-! ### GEJ (R111) -/

theorem gejEff_sound {i : Issue} {o : GejOp} {p : OpPlace} {v : State} (hbad : o.tap = true → (v.slotAt (v.stnKey i.stn)).bad = false)
    (hchk : (v.slotAt (v.stnKey i.stn)).misses o.chk o.tag = false) :
    gejEff i o p v = (if o.tap then v.tapWord i.stn p.tick o.latch (v.slotAt (v.stnKey i.stn)) else v).setSlot (v.stnKey i.stn) RingWord.empty := by
  cases htap : o.tap with
  | true => simp [gejEff, htap, hbad htap, hchk]
  | false => simp [gejEff, htap, hchk]

@[simp] theorem State.slotAt_setSlot_self (s : State) (k : Nat) (w : RingWord) : (s.setSlot k w).slotAt k = w := Tbl.get_put_self _ _ _ _

@[simp] theorem State.station_setSlot (s : State) (k : Nat) (w : RingWord) (n : Nat) : (s.setSlot k w).station n = s.station n := rfl

@[simp] theorem State.pair_setSlot (s : State) (k : Nat) (w : RingWord) (r : Reg) (n : Nat) : (s.setSlot k w).pair r n = s.pair r n := rfl

/-- A word put into a slot on both sides keeps what differs between two states. -/
theorem State.WordFrame.setSlot {s u : State} {i : Issue} {offs : List Nat} (hw : s.WordFrame u i offs) (k : Nat) (w : RingWord) :
    (s.setSlot k w).WordFrame (u.setSlot k w) i offs := by
  refine ⟨hw.others, hw.regs, hw.dies, ?_⟩
  unfold State.setSlot
  rw [hw.rest]

theorem execGej_empties {s : State} {i : Issue} {o : GejOp} {t : Nat} (h : s.opens i .g t = true) (hfree : s.ringFree i.stn = true)
    (hbad : o.tap = true → (s.slotAt (s.stnKey i.stn)).bad = false)
    (hchk : (s.slotAt (s.stnKey i.stn)).misses o.chk o.tag = false) :
    let k := s.stnKey i.stn
    let w := s.slotAt k
    let x := (s.station i.stn).opened i .g t
    ∃ u, exec (.gej i o) s = .next u ∧ u.slotAt k = RingWord.empty ∧
      (s.setSlot k RingWord.empty).WordFrame u i [Reg.at .ringTapCount i.stn, Reg.at .ringTapCount i.stn + 4] ∧
      (o.tap = true → u.station i.stn = { x with late := x.late ++ [⟨t, .ring, .tap (b2n o.latch) w⟩] } ∧
        u.pair .ringTapCount i.stn = (s.pair .ringTapCount i.stn + 1) % 2 ^ 64) ∧
      (o.tap = false → u.station i.stn = x ∧ u.pair .ringTapCount i.stn = s.pair .ringTapCount i.stn) := by
  obtain ⟨v, hv, hst, hw⟩ := s.issue_opens i .g t (gejEff i o) h
  rw [gejEff_sound (hw.passing ▸ hbad) (hw.passing ▸ hchk), hw.passing, hw.stnKey, State.placeOf_tick] at hv
  have hpair : v.pair .ringTapCount i.stn = s.pair .ringTapCount i.stn := hw.pair_of_word i.stn.isLt rfl (by cases i.strm <;> decide)
  obtain ⟨hframe, hlate, hcount⟩ := v.tapWord_spec i t o.latch (s.slotAt (s.stnKey i.stn))
  refine ⟨_, congrArg Host.Outcome.next ((State.issueRing_free hfree _).trans hv), State.slotAt_setSlot_self _ _ _, ?_, ?_, ?_⟩
  · refine State.WordFrame.setSlot ((hw.mono (by simp)).trans ?_) _ _
    split
    · exact hframe
    · exact .refl _ _ _
  · intro htap
    rw [State.station_setSlot, State.pair_setSlot, if_pos htap, ← hst, ← hpair]
    exact ⟨hlate, hcount⟩
  · intro htap
    rw [State.station_setSlot, State.pair_setSlot, if_neg (by simp [htap])]
    exact ⟨hst, hpair⟩

/-! ### GPASS (R112, R113) -/

theorem gpassEff_sound {i : Issue} {o : GpassOp} {p : OpPlace} {v : State} (hbad : (v.slotAt (v.stnKey i.stn)).bad = false)
    (hchk : (v.slotAt (v.stnKey i.stn)).misses o.chk o.tag = false) :
    gpassEff i o p v = if (v.slotAt (v.stnKey i.stn)).valid then
      (v.gpassInc i o p.tick).gpassStore i p.tick (v.sreg i.stn i.strm o.dr.toNat) (v.sreg i.stn i.strm o.sr.toNat) (v.slotAt (v.stnKey i.stn))
      else v.gpassInc i o p.tick := by
  simp [gpassEff, hbad, hchk]

/-- The updates of INC, on the values read at issue, DR before SR. -/
theorem State.gpassInc_spec (v : State) (i : Issue) (o : GpassOp) (t : Nat) :
    v.WordFrame (v.gpassInc i o t) i [] ∧
      (v.gpassInc i o t).station i.stn = { v.station i.stn with late := (v.station i.stn).late ++
        (if o.inc then [⟨t, .gInc, .sreg i.strm o.dr.toNat (BitVec.ofNat 32 (v.sreg i.stn i.strm o.dr.toNat + 128))⟩,
          ⟨t, .gInc, .sreg i.strm o.sr.toNat (BitVec.ofNat 32 (v.sreg i.stn i.strm o.sr.toNat + 8))⟩] else []) } := by
  unfold State.gpassInc
  split
  · exact v.later_later i _ _ _ _ _ _
  · exact ⟨.refl _ _ _, by simp⟩

/-- DATA and SCALE on their way to the store. -/
theorem State.gpassStore_spec (v : State) (i : Issue) (t a b : Nat) (w : RingWord) :
    let due := t + (if v.profile1 (dieOf i.stn) then 2 else 1)
    v.WordFrame (v.gpassStore i t a b w) i [] ∧
      (v.gpassStore i t a b w).station i.stn = { v.station i.stn with late := (v.station i.stn).late ++
        [⟨due, .ring, .store (a / 128 * 128) (leBytes 128 w.data.toNat)⟩, ⟨due, .ring, .store (b / 8 * 8) (leBytes 8 w.scale.toNat)⟩] } :=
  v.later_later i _ _ _ _ _ _

theorem execGpass_copies {s : State} {i : Issue} {o : GpassOp} {t : Nat} (h : s.opens i .g t = true) (hfree : s.ringFree i.stn = true)
    (hbad : (s.slotAt (s.stnKey i.stn)).bad = false) (hchk : (s.slotAt (s.stnKey i.stn)).misses o.chk o.tag = false) :
    let w := s.slotAt (s.stnKey i.stn)
    let a := s.sreg i.stn i.strm o.dr.toNat
    let b := s.sreg i.stn i.strm o.sr.toNat
    let x := (s.station i.stn).opened i .g t
    let due := t + (if s.profile1 (dieOf i.stn) then 2 else 1)
    ∃ u, exec (.gpass i o) s = .next u ∧ s.WordFrame u i [] ∧
      u.station i.stn = { x with late := x.late ++
        (if o.inc then [⟨t, .gInc, .sreg i.strm o.dr.toNat (BitVec.ofNat 32 (a + 128))⟩,
          ⟨t, .gInc, .sreg i.strm o.sr.toNat (BitVec.ofNat 32 (b + 8))⟩] else []) ++
        (if w.valid then [⟨due, .ring, .store (a / 128 * 128) (leBytes 128 w.data.toNat)⟩,
          ⟨due, .ring, .store (b / 8 * 8) (leBytes 8 w.scale.toNat)⟩] else []) } := by
  intro w a b x due
  obtain ⟨v, hv, hst, hw⟩ := s.issue_opens i .g t (gpassEff i o) h
  rw [gpassEff_sound (hw.passing ▸ hbad) (hw.passing ▸ hchk), hw.passing, State.placeOf_tick, State.sreg_of_opened hst,
    State.sreg_of_opened hst] at hv
  obtain ⟨hinc, hincst⟩ := v.gpassInc_spec i o t
  obtain ⟨hstore, hstorest⟩ := (v.gpassInc i o t).gpassStore_spec i t a b w
  rw [hst, State.sreg_of_opened hst, State.sreg_of_opened hst] at hincst
  refine ⟨_, congrArg Host.Outcome.next ((State.issueRing_free hfree _).trans hv), hw.trans (hinc.trans ?_), ?_⟩
  · split
    · exact hstore
    · exact .refl _ _ _
  · by_cases hvalid : w.valid = true
    · rw [if_pos hvalid, if_pos hvalid, hstorest, hincst, hinc.profile1, hw.profile1]
    · rw [if_neg hvalid, if_neg hvalid, hincst, List.append_nil]

/-! ### The latch (R115) -/

theorem Station.tap_setTap (x : Station) (l : Nat) (w : RingWord) : (x.setTap l w).tap l = w := Tbl.get_put_self _ _ _ _

theorem State.land_tap (s : State) (n : Nat) (l : Nat) (w : RingWord) : (s.land n (.tap l w)).station n = (s.station n).setTap l w :=
  s.station_modStation_self _ _

/-- Settles O24, op by op: each acts on the state in which its word has issued, and meets there the word that passed before. -/
theorem ringOpsLatchEjectAndCopy : Obligations.RingOpsLatchEjectAndCopy := by
  unfold Obligations.RingOpsLatchEjectAndCopy
  refine ⟨fun s i o t h hfree => ?_, fun s i o t h hfree => ?_, fun s i o t h hfree => ?_, fun s n l w => ⟨s.land_tap n l w, ?_⟩⟩
  · exact execGtap_latches h hfree
  · exact execGej_empties h hfree
  · exact execGpass_copies h hfree
  · rw [State.land_tap, Station.tap_setTap]

end Sys2Proof.Machine
end

section
/-! SUPPORT. Shutter requests, faults of a station, and fields of its capture (R179, R220, R228). -/

namespace Sys2Proof.Machine

/-- Of the register words, a request notes causes alone. -/
theorem State.shutReq_wordsKept (s : State) {d : Nat} (hd : d < 4) (bit src : Nat) : s.WordsKept (s.shutReq d bit src) [.shtCause] := by
  unfold State.shutReq
  split
  · exact .of_regs rfl
  · refine .trans (t := s.modDie d _) (.of_regs rfl) (.foldl _ (fun t x hx => ?_) _)
    unfold State.joinFreeze
    dsimp only
    split
    · exact t.setReg_wordsKept (by simp) (s.scope_lt hd x hx) _
    · exact .of_regs rfl

/-- From `s` to `u`, station `n` has faulted: it stops on its next tick, and nothing else differs but registers, reports and dies. -/
structure State.FaultedAt (s u : State) (n : Stn) : Prop where
  station : u.station n = (s.station n).stopsBy (s.tick0 n + 1)
  others : ∀ j, j ≠ n.val → u.station j = s.station j
  rest : u = { s with regs := u.regs, fw := u.fw, dies := u.dies, stations := u.stations }

theorem State.CapturedTo.tick0 {s c : State} {rs : List Reg} (hc : s.CapturedTo c) (hk : s.RegsKept c rs) (hrs : Reg.segSpare ∉ rs) (n : Stn) :
    c.tick0 n = s.tick0 n := by
  obtain ⟨-, -, hrefc, hratio, hpkg⟩ := hc.frame
  rw [State.tick0, State.tickOf_congr hk hrs hrefc hratio hpkg n, State.tick0]

/-- A fault of a station, whatever captured it. -/
theorem State.fault_at {s c : State} {n : Stn} {rs : List Reg} (hc : s.CapturedTo c) (hk : s.RegsKept c rs) (hrs : Reg.segSpare ∉ rs)
    (p : OpPlace) (code : Nat) : s.FaultedAt ((c.traceFault n p).stationFault n code) n ∧
      c.RegsKept ((c.traceFault n p).stationFault n code) [.shtCause] := by
  obtain ⟨hstn, -⟩ := hc.frame
  have htick : (c.traceFault n p).tick0 n = s.tick0 n := hc.tick0 hk hrs n
  obtain ⟨hshut, hkept⟩ := State.sendFault_frame ((c.traceFault n p).stopOn n (s.tick0 n + 1)) (dieOf_lt n) code false n
  obtain ⟨-, -, hstns, -⟩ := hshut.frame
  rw [State.stationFault, htick]
  refine ⟨⟨?_, fun j hj => ?_, ?_⟩, .trans (.of_regs rfl) hkept⟩
  · rw [State.station_congr hstns, State.station_stopOn]
    exact congrArg (Station.stopsBy · _) (State.station_congr hstn n)
  · rw [State.station_congr hstns, State.stopOn, State.station_modStation, if_neg (Ne.symm hj)]
    exact State.station_congr hstn j
  · rw [show (State.sendFault _ (dieOf n) code false n) = _ from hshut, State.stopOn, State.modStation, State.setStation, State.traceFault,
      State.modDie, State.setDie]
    dsimp only
    rw [show c = _ from hc]

theorem State.seqFault_at (s : State) (n : Stn) (code cause slot : Nat) (p : OpPlace) :
    s.FaultedAt (s.seqFault n code cause slot p) n ∧ s.RegsKept (s.seqFault n code cause slot p) [.stnSeqFault, .stnSeqFaultPc, .shtCause] ∧
      (s.bit .stnSeqFault n 31 = false → (s.seqFault n code cause slot p).reg .stnSeqFault n = seqWord code cause slot p % 2 ^ 32) := by
  have hcap := s.captureSeq_kept n code cause slot p
  obtain ⟨hat, hkept⟩ := State.fault_at (s.captureSeq_capturedTo n code cause slot p) hcap (by decide) p code
  exact ⟨hat, (hcap.mono (by simp)).trans (hkept.mono (by simp)),
    fun h => (hkept .stnSeqFault (by decide) n n.isLt).trans (s.reg_captureSeq n code cause slot p h)⟩

/-- What the capture of a fault reads as. -/
theorem seqWord_fields {s : State} {n : Stn} {code cause slot : Nat} {p : OpPlace} (hcode : code < 16) (hcause : cause < 16) (hslot : slot < 8)
    (h : s.reg .stnSeqFault n = seqWord code cause slot p % 2 ^ 32) :
    s.bit .stnSeqFault n 31 = true ∧ s.fld .stnSeqFault n 27 24 = code ∧ s.fld .stnSeqFault n 23 20 = cause ∧
      s.fld .stnSeqFault n 19 17 = slot := by
  have hstrm : p.strm.code < 4 := by cases p.strm <;> decide
  have hbank : b2n p.bank < 2 := by cases p.bank <;> decide
  have hrtn : b2n p.rtn < 2 := by cases p.rtn <;> decide
  simp only [State.bit, State.fld, h, seqWord, bitsOf_eq_div_mod, bitOf_eq_div_mod, decide_eq_true_eq]
  omega

/-- What the capture of a ring error says of its place (Table 4-14). -/
theorem ringFaultWord_place {s u : State} {d kind seg pos : Nat} (hp : pos ≤ 32)
    (h : u.reg .ringErr d = 2 ^ 31 + s.ringFaultWord d kind seg pos % 2 ^ 31) :
    u.fld .ringErr d 24 22 = seg % 8 ∧ u.fld .ringErr d 21 16 = pos % 64 := by
  have href : s.ref (s.netRegion d) % 2 ^ 16 < 2 ^ 16 := Nat.mod_lt _ (by decide)
  have hseg : seg % 8 < 8 := Nat.mod_lt _ (by decide)
  simp only [State.fld, h, State.ringFaultWord, bitsOf_eq_div_mod]
  omega

/-- A ring error of a station (R108, R114). -/
theorem State.stnRingError_at (s : State) (n : Stn) {kind : Nat} (hk : kind < 8) (p : OpPlace) : let u := s.stnRingError n kind p
    s.FaultedAt u n ∧ s.RegsKept u [.ringErr, .shtCause] ∧
      (s.bit .ringErr (dieOf n) 31 = false → u.bit .ringErr (dieOf n) 31 = true ∧ u.fld .ringErr (dieOf n) 30 28 = kind ∧
        u.fld .ringErr (dieOf n) 24 22 = segOf n % 8 ∧ u.fld .ringErr (dieOf n) 21 16 = s.posOf n % 64) := by
  intro u
  let word := s.ringFaultWord (dieOf n) kind (segOf n) (s.posOf n)
  have hcap := s.capture_kept (r := .ringErr) (dieOf_lt n) word
  obtain ⟨hat, hkept⟩ := State.fault_at (n := n) (s.capture_capturedTo .ringErr (dieOf n) word) hcap (by decide) p 15
  obtain ⟨hfirst, -⟩ := s.reg_capture .ringErr (dieOf n) word
  refine ⟨hat, (hcap.mono (by simp)).trans (hkept.mono (by simp)), fun hvalid => ?_⟩
  have hreg : u.reg .ringErr (dieOf n) = 2 ^ 31 + word % 2 ^ 31 := (hkept .ringErr (by decide) _ (dieOf_lt n)).trans (hfirst hvalid)
  obtain ⟨hset, hkind⟩ := ringFaultWord_fields hk (s.posOf_le n) hreg
  exact ⟨hset, hkind, ringFaultWord_place (s.posOf_le n) hreg⟩

/-- Every pair holds less than 2^64. -/
theorem State.pair_lt (s : State) (r : Reg) (i : Nat) : s.pair r i < 2 ^ 64 := by
  have hlow : s.regAt r (r.at i) < 2 ^ 32 := BitVec.isLt _
  have hhigh : s.regAt r (r.at i + 4) < 2 ^ 32 := BitVec.isLt _
  rw [State.pair]
  omega

end Sys2Proof.Machine
end

section
/-! ## GINJ (O25) -/

namespace Sys2Proof.Machine

/-! ### At issue (R110, R113, R115) -/

theorem ginjEff_reads {i : Issue} {o : GinjOp} {p : OpPlace} {v : State} (hsk : o.sk = 0) (hfmt : wclass o.fmt.toNat ≠ none) :
    ginjEff i o p v = (v.ginjWait i o p (p.tick + (if v.profile1 (dieOf i.stn) then 3 else 2))
      (some ((v.station i.stn).storeWord o.fmt.toNat (v.sreg i.stn i.strm o.src.toNat) (v.sreg i.stn i.strm o.ssc.toNat)
        (v.sreg i.stn i.strm o.tr.toNat)))).ginjInc i o p.tick := by
  simp [ginjEff, hsk, hfmt]

theorem ginjEff_queues {i : Issue} {o : GinjOp} {p : OpPlace} {v : State} (hsk : o.sk = 1) :
    ginjEff i o p v = v.ginjWait i o p (p.tick + 2) none := by
  simp [ginjEff, hsk]

theorem State.ginjWait_frame (v : State) (i : Issue) (o : GinjOp) (p : OpPlace) (due : Nat) (w : Option RingWord) :
    v.WordFrame (v.ginjWait i o p due w) i [] := .modStation _ _ _ _

@[simp] theorem State.station_ginjWait (v : State) (i : Issue) (o : GinjOp) (p : OpPlace) (due : Nat) (w : Option RingWord) :
    (v.ginjWait i o p due w).station i.stn = { v.station i.stn with ginj := (v.station i.stn).ginj ++ [⟨due, o, w, p⟩] } :=
  v.station_modStation_self _ _

/-- Waiting changes no scalar register. -/
@[simp] theorem State.sreg_ginjWait (v : State) (i : Issue) (o : GinjOp) (p : OpPlace) (due : Nat) (w : Option RingWord) (n : Nat) :
    (v.ginjWait i o p due w).sreg i.stn i.strm n = v.sreg i.stn i.strm n := by
  rw [State.sreg, State.stream, State.station_ginjWait]
  cases i.strm <;> rfl

/-- The updates of INC, on the values read at issue, in the order SRC, SSC, TR. -/
theorem State.ginjInc_spec (v : State) (i : Issue) (o : GinjOp) (t : Nat) :
    v.WordFrame (v.ginjInc i o t) i [] ∧
      (v.ginjInc i o t).station i.stn = { v.station i.stn with late := (v.station i.stn).late ++
        (if o.inc then [⟨t, .gInc, .sreg i.strm o.src.toNat
            (BitVec.ofNat 32 (v.sreg i.stn i.strm o.src.toNat + (if isFp6 o.fmt.toNat then 96 else 128)))⟩,
          ⟨t, .gInc, .sreg i.strm o.ssc.toNat (BitVec.ofNat 32 (v.sreg i.stn i.strm o.ssc.toNat + 8))⟩,
          ⟨t, .gInc, .sreg i.strm o.tr.toNat (BitVec.ofNat 32 (v.sreg i.stn i.strm o.tr.toNat + 1))⟩] else []) } := by
  unfold State.ginjInc
  split
  · exact ⟨((v.later_frame i _ _ _ _).trans (State.later_frame _ i _ _ _ _)).trans (State.later_frame _ i _ _ _ _), by simp [State.incVal]⟩
  · exact ⟨.refl _ _ _, by simp⟩

theorem execGinj_reads {s : State} {i : Issue} {o : GinjOp} {t : Nat} (h : s.opens i .g t = true) (hsk : o.sk = 0)
    (hfmt : wclass o.fmt.toNat ≠ none) :
    let x := (s.station i.stn).opened i .g t
    let a := s.sreg i.stn i.strm o.src.toNat
    let b := s.sreg i.stn i.strm o.ssc.toNat
    let c := s.sreg i.stn i.strm o.tr.toNat
    let fmt := o.fmt.toNat
    ∃ u, exec (.ginj i o) s = .next u ∧ s.WordFrame u i [] ∧
      u.station i.stn = { x with
        ginj := x.ginj ++ [⟨t + (if s.profile1 (dieOf i.stn) then 3 else 2), o, some (x.storeWord fmt a b c), s.placeOf i t⟩]
        late := x.late ++ (if o.inc then [⟨t, .gInc, .sreg i.strm o.src.toNat (BitVec.ofNat 32 (a + (if isFp6 fmt then 96 else 128)))⟩,
          ⟨t, .gInc, .sreg i.strm o.ssc.toNat (BitVec.ofNat 32 (b + 8))⟩,
          ⟨t, .gInc, .sreg i.strm o.tr.toNat (BitVec.ofNat 32 (c + 1))⟩] else []) } := by
  intro x a b c fmt
  obtain ⟨v, hv, hst, hw⟩ := s.issue_opens i .g t (ginjEff i o) h
  rw [ginjEff_reads hsk hfmt, State.placeOf_tick, hw.profile1, hst, State.sreg_of_opened hst, State.sreg_of_opened hst,
    State.sreg_of_opened hst] at hv
  obtain ⟨hinc, hincst⟩ := (v.ginjWait i o (s.placeOf i t) (t + (if s.profile1 (dieOf i.stn) then 3 else 2))
    (some (x.storeWord fmt a b c))).ginjInc_spec i o t
  rw [State.station_ginjWait, hst] at hincst
  simp only [State.sreg_ginjWait, State.sreg_of_opened hst] at hincst
  exact ⟨_, congrArg Host.Outcome.next hv, hw.trans ((v.ginjWait_frame i _ _ _ _).trans hinc), hincst⟩

theorem execGinj_queues {s : State} {i : Issue} {o : GinjOp} {t : Nat} (h : s.opens i .g t = true) (hsk : o.sk = 1) :
    let x := (s.station i.stn).opened i .g t
    ∃ u, exec (.ginj i o) s = .next u ∧ s.WordFrame u i [] ∧
      u.station i.stn = { x with ginj := x.ginj ++ [⟨t + 2, o, none, s.placeOf i t⟩] } := by
  intro x
  obtain ⟨v, hv, hst, hw⟩ := s.issue_opens i .g t (ginjEff i o) h
  rw [ginjEff_queues hsk, State.placeOf_tick] at hv
  exact ⟨_, congrArg Host.Outcome.next hv, hw.trans (v.ginjWait_frame i _ _ _ _), by rw [State.station_ginjWait, hst]⟩

/-! ### The ring-side tick (R109, R110, R115, R116) -/

theorem State.slotAt_setSlot (s : State) (k l : Nat) (w : RingWord) : (s.setSlot k w).slotAt l = if k = l then w else s.slotAt l :=
  Tbl.get_put _ _ _ _ _

/-- From `s` to `u`, a word has entered the slot and the latch that a GINJ names, and is counted. -/
structure State.Injects (s u : State) (n : Stn) (o : GinjOp) (w : RingWord) : Prop where
  slots : ∀ k, u.slotAt k = if o.loc = false ∧ k = s.stnKey n then w else s.slotAt k
  station : u.station n = if o.tap || o.loc then (s.station n).setTap (b2n o.latch) w else s.station n
  injected : u.pair .ringInjCount n = (s.pair .ringInjCount n + 1) % 2 ^ 64
  tapped : u.pair .ringTapCount n = (s.pair .ringTapCount n + (if o.tap || o.loc then 1 else 0)) % 2 ^ 64

/-- From `s` to `u`, nothing differs but ring words, stations and registers. -/
def State.RingStnOnly (s u : State) : Prop := u = { s with ring := u.ring, stations := u.stations, regs := u.regs }

theorem State.RingStnOnly.trans {s t u : State} (h : s.RingStnOnly t) (g : t.RingStnOnly u) : s.RingStnOnly u :=
  Eq.trans g (by rw [show t = _ from h])

theorem State.setSlot_ringStnOnly (s : State) (k : Nat) (w : RingWord) : s.RingStnOnly (s.setSlot k w) := rfl

theorem State.addPair_ringStnOnly (s : State) (r : Reg) (k n : Nat) : s.RingStnOnly (s.addPair r k n) := rfl

theorem State.modStation_ringStnOnly (s : State) (n : Nat) (f : Station → Station) : s.RingStnOnly (s.modStation n f) := rfl

/-- The slot that a GINJ names. -/
def State.injSlot (s : State) (n : Nat) (o : GinjOp) (w : RingWord) : State := if o.loc then s else s.setSlot (s.stnKey n) w

/-- The latch that a GINJ names. -/
def State.injLatch (s : State) (n : Nat) (o : GinjOp) (w : RingWord) : State :=
  if o.tap || o.loc then (s.modStation n (fun x => x.setTap (b2n o.latch) w)).addPair .ringTapCount n 1 else s

theorem State.inject_eq (s : State) (n : Nat) (o : GinjOp) (w : RingWord) :
    s.inject n o w = ((s.injSlot n o w).injLatch n o w).addPair .ringInjCount n 1 := rfl

theorem State.injSlot_spec (s : State) (n : Nat) (o : GinjOp) (w : RingWord) : let u := s.injSlot n o w
    (∀ k, u.slotAt k = if o.loc = false ∧ k = s.stnKey n then w else s.slotAt k) ∧ u.stations = s.stations ∧ u.regs = s.regs ∧
      s.RingStnOnly u := by
  unfold State.injSlot
  cases o.loc with
  | true => exact ⟨fun k => by simp, rfl, rfl, rfl⟩
  | false =>
    refine ⟨fun k => ?_, rfl, rfl, rfl⟩
    simp only [Bool.false_eq_true, if_false, true_and, State.slotAt_setSlot]
    exact if_congr eq_comm rfl rfl

theorem State.injLatch_spec (s : State) (n : Stn) (o : GinjOp) (w : RingWord) : let u := s.injLatch n o w
    (u.station n = if o.tap || o.loc then (s.station n).setTap (b2n o.latch) w else s.station n) ∧
      u.pair .ringTapCount n = (s.pair .ringTapCount n + (if o.tap || o.loc then 1 else 0)) % 2 ^ 64 ∧
      s.WordsKept u [.ringTapCount] ∧ u.ring = s.ring ∧ s.RingStnOnly u := by
  unfold State.injLatch
  split
  · refine ⟨?_, State.pair_addPair _ _ _ _, ?_, rfl, ?_⟩
    · exact s.station_modStation_self n (fun x => x.setTap (b2n o.latch) w)
    · exact .trans (t := s.modStation n _) (.of_regs rfl) (State.setPair_wordsKept _ (by simp) n.isLt rfl _)
    · exact (s.modStation_ringStnOnly n _).trans (State.addPair_ringStnOnly _ _ _ _)
  · exact ⟨rfl, (Nat.mod_eq_of_lt (s.pair_lt _ _)).symm, .of_regs rfl, rfl, rfl⟩

theorem State.inject_spec (s : State) (n : Stn) (o : GinjOp) (w : RingWord) :
    s.Injects (s.inject n o w) n o w ∧ s.WordsKept (s.inject n o w) [.ringTapCount, .ringInjCount] ∧ s.RingStnOnly (s.inject n o w) := by
  obtain ⟨hslots, hstns, hregs, hslotOnly⟩ := s.injSlot_spec n o w
  obtain ⟨hstn, htap, hkept, hring, hlatchOnly⟩ := (s.injSlot n o w).injLatch_spec n o w
  have hsame : s.WordsKept (s.injSlot n o w) [] := .of_regs hregs
  have hcount : ((s.injSlot n o w).injLatch n o w).WordsKept (s.inject n o w) [.ringInjCount] :=
    State.setPair_wordsKept _ (by simp) n.isLt rfl _
  rw [State.station_congr hstns] at hstn
  refine ⟨⟨fun k => ?_, hstn, ?_, ?_⟩, ?_, ?_⟩
  · exact (congrArg (Tbl.get (fun _ => RingWord.empty) · k) hring).trans (hslots k)
  · rw [State.inject_eq, State.pair_addPair, hkept.pair (by decide) n.isLt rfl, hsame.pair (by simp) n.isLt rfl]
  · rw [hcount.pair (by decide) n.isLt rfl, htap, hsame.pair (by simp) n.isLt rfl]
  · exact (hsame.mono (by simp)).trans ((hkept.mono (by simp)).trans (hcount.mono (by simp)))
  · exact (hslotOnly.trans hlatchOnly).trans (State.addPair_ringStnOnly _ _ _ _)

/-! ### Feed queues (R105, R107, R108) -/

theorem State.feed_setFeed_self (s : State) (seg q : Nat) (x : FeedQ) : (s.setFeed seg q x).feed seg q = x := Tbl.get_put_self _ _ _ _

theorem State.feed_setFeed_ne (s : State) {seg q a p : Nat} (x : FeedQ) (hq : q < 4) (hp : p < 4) (h : a ≠ seg ∨ p ≠ q) :
    (s.setFeed seg q x).feed a p = s.feed a p := by
  rw [State.feed, State.setFeed, Tbl.get_put_other _ _ _ _ (by omega), State.feed]

/-- A queue whose head word has left: its head descriptor counts it, and leaves with its last word. -/
def FeedQ.taken (f : FeedQ) : FeedQ := { f with
  words := f.words.drop 1
  descs := match f.descs with
    | d :: rest => if d.used + 1 < d.total then { d with used := d.used + 1 } :: rest else rest
    | [] => [] }

/-- A queue that has run low requests a shutter. -/
theorem State.feedTaken_eq (s : State) (seg q : Nat) : s.feedTaken seg q = s.setFeed seg q (s.feed seg q).taken ∨
    s.feedTaken seg q = (s.setFeed seg q (s.feed seg q).taken).shutReq (seg / 8) 2 (4 * seg + q) := by
  unfold State.feedTaken
  extract_lets f ds g v
  split
  · exact .inr rfl
  · exact .inl rfl

/-- From `s` to `u`, nothing differs but feed queues, registers and dies. -/
def State.FeedOnly (s u : State) : Prop := u = { s with feeds := u.feeds, regs := u.regs, dies := u.dies }

theorem State.FeedOnly.trans {s t u : State} (h : s.FeedOnly t) (g : t.FeedOnly u) : s.FeedOnly u :=
  Eq.trans g (by rw [show t = _ from h])

theorem State.setFeed_feedOnly (s : State) (seg q : Nat) (x : FeedQ) : s.FeedOnly (s.setFeed seg q x) := rfl

theorem State.ShutOnly.feedOnly {s u : State} (h : s.ShutOnly u) : s.FeedOnly u ∧ u.feeds = s.feeds := by
  rw [show u = _ from h]
  exact ⟨rfl, rfl⟩

theorem State.feed_congr {s u : State} (h : u.feeds = s.feeds) (seg q : Nat) : u.feed seg q = s.feed seg q := by
  rw [State.feed, h, State.feed]

/-- Of the queues one has a word less, and causes of shutter requests may be noted. -/
theorem State.feedTaken_spec (s : State) {seg : Nat} (hseg : seg < 32) {q : Nat} (hq : q < 4) : let u := s.feedTaken seg q
    u.feed seg q = (s.feed seg q).taken ∧ (∀ a p, p < 4 → (a ≠ seg ∨ p ≠ q) → u.feed a p = s.feed a p) ∧
      s.WordsKept u [.shtCause] ∧ s.FeedOnly u := by
  let t := s.setFeed seg q (s.feed seg q).taken
  have hsame : ∀ a p, p < 4 → (a ≠ seg ∨ p ≠ q) → t.feed a p = s.feed a p := fun a p hp h => s.feed_setFeed_ne _ hq hp h
  obtain heq | heq := s.feedTaken_eq seg q
  · rw [heq]
    exact ⟨s.feed_setFeed_self seg q _, hsame, .of_regs rfl, rfl⟩
  · obtain ⟨honly, hfeeds⟩ := (t.shutReq_shutOnly (seg / 8) 2 (4 * seg + q)).feedOnly
    rw [heq]
    refine ⟨(State.feed_congr hfeeds _ _).trans (s.feed_setFeed_self seg q _), fun a p hp h => ?_, ?_, (s.setFeed_feedOnly seg q _).trans honly⟩
    · exact (State.feed_congr hfeeds a p).trans (hsame a p hp h)
    · exact .trans (t := t) (.of_regs rfl) (t.shutReq_wordsKept (by omega) _ _)

@[simp] theorem State.lanesUsed_useLane (s : State) (seg : Nat) : (s.useLane seg).lanesUsed seg = s.lanesUsed seg + 1 := by
  rw [State.lanesUsed, State.useLane, Tbl.get_put_self]

/-! ### What the ring side does -/

theorem State.ringFits {s : State} {n : Nat} {g : GPend} (hslot : g.op.loc = true ∨ (s.slotAt (s.stnKey n)).valid = false) :
    (!g.op.loc && (s.slotAt (s.stnKey n)).valid) = false := by
  rcases hslot with h | h <;> simp [h]

theorem State.ringSide_own {s : State} {n : Nat} {g : GPend} {w : RingWord} (hw : g.word = some w)
    (hslot : g.op.loc = true ∨ (s.slotAt (s.stnKey n)).valid = false) : s.ringSide n g = s.inject n g.op w := by
  simp only [State.ringSide, State.ringFits hslot, hw, Bool.false_eq_true, if_false]

section
variable {s : State} {n : Nat} {g : GPend} (hw : g.word = none) (hslot : g.op.loc = true ∨ (s.slotAt (s.stnKey n)).valid = false)
include hw hslot

theorem State.ringSide_crowded (hlane : 12 ≤ s.lanesUsed (segOf n)) : s.ringSide n g = s.seqFault n 4 6 2 g.place := by
  simp only [State.ringSide, State.ringFits hslot, hw, hlane, Bool.false_eq_true, if_false, if_true]

theorem State.ringSide_starved (hlane : s.lanesUsed (segOf n) < 12) (hempty : (s.feed (segOf n) (g.op.src.toNat % 4)).words = []) :
    s.ringSide n g = s.stnRingError n 6 g.place := by
  simp only [State.ringSide, State.ringFits hslot, hw, Nat.not_le.2 hlane, hempty, Bool.false_eq_true, if_false]

theorem State.ringSide_takes (hlane : s.lanesUsed (segOf n) < 12) {w : RingWord} {rest : List RingWord}
    (hwords : (s.feed (segOf n) (g.op.src.toNat % 4)).words = w :: rest) :
    s.ringSide n g = ((s.useLane (segOf n)).inject n g.op w).feedTaken (segOf n) (g.op.src.toNat % 4) := by
  simp only [State.ringSide, State.ringFits hslot, hw, Nat.not_le.2 hlane, hwords, Bool.false_eq_true, if_false]

end

theorem State.ringSide_full {s : State} {n : Nat} {g : GPend} (hloc : g.op.loc = false) (hslot : (s.slotAt (s.stnKey n)).valid = true) :
    s.ringSide n g = s.seqFault n 4 4 2 g.place := by
  unfold State.ringSide
  dsimp only
  rw [if_pos]
  simp [hloc, hslot]

/-- A word from the feed queue takes a lane and leaves its queue. -/
theorem State.ringSide_fed {s : State} {n : Stn} {g : GPend} (hw : g.word = none)
    (hslot : g.op.loc = true ∨ (s.slotAt (s.stnKey n)).valid = false) {w : RingWord} {rest : List RingWord}
    (hlane : s.lanesUsed (segOf n) < 12) (hwords : (s.feed (segOf n) (g.op.src.toNat % 4)).words = w :: rest) :
    let q := g.op.src.toNat % 4
    let u := s.ringSide n g
    s.Injects u n g.op w ∧ u.lanesUsed (segOf n) = s.lanesUsed (segOf n) + 1 ∧ (u.feed (segOf n) q).words = rest ∧
      (∀ seg p, p < 4 → (seg ≠ segOf n ∨ p ≠ q) → u.feed seg p = s.feed seg p) := by
  intro q u
  let v := (s.useLane (segOf n)).inject n g.op w
  have hu : u = v.feedTaken (segOf n) q := State.ringSide_takes hw hslot hlane hwords
  obtain ⟨hinj, -, hrest⟩ := (s.useLane (segOf n)).inject_spec n g.op w
  obtain ⟨hqueue, hothers, hkept, htaken⟩ := v.feedTaken_spec (segOf_lt n) (Nat.mod_lt g.op.src.toNat (by decide : 4 > 0))
  have hfeed : ∀ a p, v.feed a p = s.feed a p := fun a p => by
    rw [show v = _ from hrest]
    rfl
  have hlanes : v.lanesUsed (segOf n) = s.lanesUsed (segOf n) + 1 := by
    rw [← State.lanesUsed_useLane, show v = _ from hrest]
    rfl
  rw [hu]
  refine ⟨⟨fun k => ?_, ?_, ?_, ?_⟩, ?_, ?_, fun a p hp h => ?_⟩
  · refine Eq.trans ?_ (hinj.slots k)
    rw [htaken]
    rfl
  · refine Eq.trans ?_ hinj.station
    rw [htaken]
    rfl
  · exact (hkept.pair (by decide) n.isLt rfl).trans hinj.injected
  · exact (hkept.pair (by decide) n.isLt rfl).trans hinj.tapped
  · refine Eq.trans ?_ hlanes
    rw [htaken]
    rfl
  · rw [hqueue, FeedQ.taken, hfeed, hwords, List.drop_one, List.tail_cons]
  · exact (hothers a p hp h).trans (hfeed a p)

/-! ### What the ring side refuses (Table 4-8) -/

/-- A faulted station moves no word, and stops. -/
theorem State.FaultedAt.stops {s u : State} {n : Stn} (h : s.FaultedAt u n) : u.ring = s.ring ∧ u.feeds = s.feeds ∧
    (u.station n).stopAt = ((s.station n).stopsBy (s.tick0 n + 1)).stopAt :=
  ⟨by rw [h.rest], by rw [h.rest], congrArg Station.stopAt h.station⟩

theorem State.slotConflict (s : State) (n : Stn) {cause : Nat} (hc : cause < 16) (p : OpPlace) : let u := s.seqFault n 4 cause 2 p
    (u.ring = s.ring ∧ u.feeds = s.feeds ∧ (u.station n).stopAt = ((s.station n).stopsBy (s.tick0 n + 1)).stopAt) ∧
    (s.bit .stnSeqFault n 31 = false → u.bit .stnSeqFault n 31 = true ∧
      u.fld .stnSeqFault n 27 24 = 4 ∧ u.fld .stnSeqFault n 23 20 = cause ∧ u.fld .stnSeqFault n 19 17 = 2) := by
  obtain ⟨hat, -, hfirst⟩ := s.seqFault_at n 4 cause 2 p
  exact ⟨hat.stops, fun hvalid => seqWord_fields (by decide) hc (by decide) (hfirst hvalid)⟩

/-- Settles O25: what issue leaves waiting, then the cases of the ring-side tick in the order of Table 4-8. -/
theorem ginjWaitsForItsRingSideTick : Obligations.GinjWaitsForItsRingSideTick := by
  unfold Obligations.GinjWaitsForItsRingSideTick
  refine ⟨fun s i o t h => ⟨fun hsk hfmt => execGinj_reads h hsk hfmt, fun hsk => execGinj_queues h hsk⟩,
    fun s n g w hw hslot => ?_, fun s n g hw hslot => ?_, fun s n g => ?_⟩
  · obtain ⟨⟨hslots, hstn, hinj, htap⟩, -⟩ := s.inject_spec n g.op w
    rw [State.ringSide_own hw hslot]
    exact ⟨hslots, hstn, hinj, htap⟩
  · intro q u w rest hlane hwords
    obtain ⟨⟨hslots, hstn, hinj, htap⟩, hlanes, hfeed, hothers⟩ := State.ringSide_fed hw hslot hlane hwords
    exact ⟨hslots, hstn, hinj, htap, hlanes, hfeed, hothers⟩
  · intro q full u stops conflict
    have hfree : ¬ full → g.op.loc = true ∨ (s.slotAt (s.stnKey n)).valid = false := fun h => by
      simpa [full, or_iff_not_imp_left] using h
    refine ⟨fun hfull => ?_, fun hfull hw hlane => ?_, fun hfull hw hlane hempty => ?_⟩
    · have hu : u = s.seqFault n 4 4 2 g.place := State.ringSide_full hfull.1 hfull.2
      simp only [conflict, stops, hu]
      exact s.slotConflict n (by decide) g.place
    · have hu : u = s.seqFault n 4 6 2 g.place := State.ringSide_crowded hw (hfree hfull) hlane
      simp only [conflict, stops, hu]
      exact s.slotConflict n (by decide) g.place
    · have hu : u = s.stnRingError n 6 g.place := State.ringSide_starved hw (hfree hfull) hlane hempty
      obtain ⟨hat, -, hfirst⟩ := s.stnRingError_at n (by decide : 6 < 8) g.place
      simp only [stops, hu]
      exact ⟨hat.stops, hfirst⟩

end Sys2Proof.Machine
end

section
/-! ## Seams, bridges and crossing FIFOs (O35) -/

namespace Sys2Proof.Machine

/-! ### Alarms of the ring (R119, R229, R236) -/

/-- From `s` to `u`, nothing differs but registers, reports and dies. -/
def State.AlarmOnly (s u : State) : Prop := u = { s with regs := u.regs, fw := u.fw, dies := u.dies }

theorem State.AlarmOnly.trans {s t u : State} (h : s.AlarmOnly t) (g : t.AlarmOnly u) : s.AlarmOnly u :=
  Eq.trans g (by rw [show t = _ from h])

theorem State.CapturedTo.alarm {s u : State} (h : s.CapturedTo u) : s.AlarmOnly u := Eq.trans h (by rw [show u = _ from h])

theorem State.ShutOnly.alarm {s u : State} (h : s.ShutOnly u) : s.AlarmOnly u := Eq.trans h (by rw [show u = _ from h])

/-- Words on the ring and on their way to it stand. -/
theorem State.AlarmOnly.words {s u : State} (h : s.AlarmOnly u) : u.stations = s.stations ∧ u.ring = s.ring ∧
    (∀ r, u.arriving r = s.arriving r) ∧ (∀ k, u.seamQ k = s.seamQ k) ∧ ∀ d, u.bridgeQ d = s.bridgeQ d := by
  rw [show u = _ from h]
  exact ⟨rfl, rfl, fun _ => rfl, fun _ => rfl, fun _ => rfl⟩

theorem State.raiseAs_capturedTo (s : State) (cls kind i off : Nat) :
    s.CapturedTo (s.raiseAs cls kind i off) ∧ (s.raiseAs cls kind i off).regs = s.regs := by
  unfold State.raiseAs
  split <;> exact ⟨rfl, rfl⟩

theorem State.sendFault_holds (s : State) (d code : Nat) (unit : Bool) (n : Nat) :
    ((s.sendFault d code unit n).die d).reqs.contains ⟨12, 0⟩ = true := (State.shutReq_holds _ d 12 0).1

/-- RING_ERR takes the kind of a first error. -/
theorem State.ringError_spec (s : State) {d kind seg pos : Nat} (hd : d < 4) (hk : kind < 8) (hp : pos ≤ 32) : let u := s.ringError d kind seg pos
    s.AlarmOnly u ∧ s.RegsKept u [.ringErr] ∧ (s.bit .ringErr d 31 = false → u.fld .ringErr d 30 28 = kind) := by
  obtain ⟨hfirst, -⟩ := s.reg_capture .ringErr d (s.ringFaultWord d kind seg pos)
  refine ⟨(s.capture_capturedTo _ _ _).alarm, s.capture_kept (r := .ringErr) hd _, fun hvalid => ?_⟩
  obtain ⟨-, hkind⟩ := ringFaultWord_fields (u := s.ringError d kind seg pos) hk hp (hfirst hvalid)
  exact hkind

theorem State.clockError_spec (s : State) {d kind seg : Nat} (hk : kind < 8) : let u := s.clockError d kind seg
    s.AlarmOnly u ∧ (s.bit .ringErr d 31 = false → u.fld .ringErr d 30 28 = kind) := by
  intro u
  have hseg : seg % 8 < 8 := Nat.mod_lt _ (by decide)
  have href : s.ref (s.netRegion d) % 2 ^ 16 < 2 ^ 16 := Nat.mod_lt _ (by decide)
  by_cases hvalid : s.bit .ringErr d 31 = true
  · rw [show u = s from if_pos hvalid]
    exact ⟨rfl, fun h => absurd hvalid (by rw [h]; decide)⟩
  · let word := 2 ^ 31 + kind * 2 ^ 28 + seg % 8 * 2 ^ 22 + s.ref (s.netRegion d) % 2 ^ 16
    have hu : u = (s.setReg .ringErr d word).raiseAs 7 2 d (Reg.at .ringErr d) := if_neg hvalid
    obtain ⟨hraise, hregs⟩ := (s.setReg .ringErr d word).raiseAs_capturedTo 7 2 d (Reg.at .ringErr d)
    rw [hu]
    refine ⟨((s.setReg_capturedTo _ _ _).trans hraise).alarm, fun _ => ?_⟩
    rw [State.fld, State.reg_congr hregs, State.reg_setReg, bitsOf_eq_div_mod]
    omega

/-- A fault flit of a die (R228, R229). -/
theorem State.sendFault_alarm (s : State) {d : Nat} (hd : d < 4) (code : Nat) (unit : Bool) (n : Nat) : let u := s.sendFault d code unit n
    s.AlarmOnly u ∧ (u.die d).reqs.contains ⟨12, 0⟩ = true ∧ u.fld .ringErr d 30 28 = s.fld .ringErr d 30 28 := by
  obtain ⟨hshut, hkept⟩ := s.sendFault_frame hd code unit n
  exact ⟨hshut.alarm, s.sendFault_holds _ _ _ _, hkept.fld (by decide) hd 30 28⟩

theorem State.ringDieFault_spec (s : State) {d kind code seg : Nat} (hd : d < 4) (hk : kind < 8) : let u := s.ringDieFault d kind code seg 0
    s.AlarmOnly u ∧ (s.bit .ringErr d 31 = false → u.fld .ringErr d 30 28 = kind) := by
  obtain ⟨herr, -, hfirst⟩ := s.ringError_spec (seg := seg) hd hk (Nat.zero_le 32)
  obtain ⟨hsend, -, hfld⟩ := (s.ringError d kind seg 0).sendFault_alarm hd code true 0
  exact ⟨herr.trans hsend, fun hvalid => hfld.trans (hfirst hvalid)⟩

theorem State.clockFault_spec (s : State) {d kind seg : Nat} (hd : d < 4) (hk : kind < 8) :
    let u := (s.clockError d kind seg).sendFault d 15 true 0
    s.AlarmOnly u ∧ (u.die d).reqs.contains ⟨12, 0⟩ = true ∧ (s.bit .ringErr d 31 = false → u.fld .ringErr d 30 28 = kind) := by
  obtain ⟨herr, hfirst⟩ := s.clockError_spec (d := d) (seg := seg) hk
  obtain ⟨hsend, hholds, hfld⟩ := (s.clockError d kind seg).sendFault_alarm hd 15 true 0
  exact ⟨herr.trans hsend, hholds, fun hvalid => hfld.trans (hfirst hvalid)⟩

/-! ### Words on their way -/

@[simp] theorem State.arriving_setArriving (s : State) (r : Nat) (w : List RingWord) : (s.setArriving r w).arriving r = w := Tbl.get_put_self _ _ _ _

@[simp] theorem State.seamQ_setSeamQ (s : State) (k : Nat) (q : List RingWord) : (s.setSeamQ k q).seamQ k = q := Tbl.get_put_self _ _ _ _

@[simp] theorem State.bridgeQ_setBridgeQ (s : State) (d : Nat) (q : List RingWord) : (s.setBridgeQ d q).bridgeQ d = q := Tbl.get_put_self _ _ _ _

/-! ### Seams (R117 to R119, R125) -/

theorem State.seamCross_eq {s : State} {d : Nat} {up : Bool} (err : Bool) {w : RingWord} {q : List RingWord} (hway : s.pkgRing = false ∨ up = true)
    (hrun : s.halted (2 * d + b2n up) = false) (hroom : s.arriving (2 * d + b2n up) = []) (hq : s.seamQ (2 * d + b2n (!up)) = w :: q) :
    s.seamCross d up err = if w.valid && (err || !w.ok) then
        ((s.setSeamQ (2 * d + b2n (!up)) q).setArriving (2 * d + b2n up) [w.poisoned]).ringDieFault d 3 15 (if up then 4 else 0) 0
      else (s.setSeamQ (2 * d + b2n (!up)) q).setArriving (2 * d + b2n up) [w] := by
  have hopen : (s.pkgRing && !up) = false := by rcases hway with h | h <;> simp [h]
  simp only [State.seamCross, hopen, hrun, hroom, hq, List.isEmpty_nil, Bool.not_true, Bool.or_false, Bool.false_eq_true, if_false]

/-- A sound word crosses as it is. -/
theorem State.seamCross_sound {s : State} {d : Nat} {up err : Bool} {w : RingWord} {q : List RingWord} (hway : s.pkgRing = false ∨ up = true)
    (hrun : s.halted (2 * d + b2n up) = false) (hroom : s.arriving (2 * d + b2n up) = []) (hq : s.seamQ (2 * d + b2n (!up)) = w :: q)
    (hsound : w.valid = true → err = false ∧ w.ok = true) :
    s.seamCross d up err = (s.setSeamQ (2 * d + b2n (!up)) q).setArriving (2 * d + b2n up) [w] := by
  rw [State.seamCross_eq err hway hrun hroom hq, if_neg]
  cases hvalid : w.valid with
  | false => simp
  | true =>
    obtain ⟨herr, hok⟩ := hsound hvalid
    simp [herr, hok]

/-- A word that fails crosses poisoned. -/
theorem State.seamCross_fails {s : State} {d : Nat} (hd : d < 4) {up err : Bool} {w : RingWord} {q : List RingWord}
    (hway : s.pkgRing = false ∨ up = true) (hrun : s.halted (2 * d + b2n up) = false) (hroom : s.arriving (2 * d + b2n up) = [])
    (hq : s.seamQ (2 * d + b2n (!up)) = w :: q) (hvalid : w.valid = true) (hbad : err = true ∨ w.ok = false) :
    let u := s.seamCross d up err
    u.arriving (2 * d + b2n up) = [w.poisoned] ∧ u.seamQ (2 * d + b2n (!up)) = q ∧
      (s.bit .ringErr d 31 = false → u.fld .ringErr d 30 28 = 3) := by
  intro u
  let v := (s.setSeamQ (2 * d + b2n (!up)) q).setArriving (2 * d + b2n up) [w.poisoned]
  have hu : u = v.ringDieFault d 3 15 (if up then 4 else 0) 0 := by
    refine (State.seamCross_eq err hway hrun hroom hq).trans (if_pos ?_)
    rcases hbad with h | h <;> simp [hvalid, h]
  obtain ⟨halarm, hfirst⟩ := v.ringDieFault_spec (code := 15) (seg := if up then 4 else 0) hd (by decide : 3 < 8)
  obtain ⟨-, -, harr, hseam, -⟩ := halarm.words
  rw [hu]
  refine ⟨(harr _).trans (State.arriving_setArriving _ _ _), (hseam _).trans ?_, hfirst⟩
  exact s.seamQ_setSeamQ _ _

/-! ### Bridges (R120) -/

/-- A saturating field reads as what it has counted to. -/
theorem State.fld_countFld_self (s : State) (r : Reg) (i n : Nat) {hi lo : Nat} (h : lo ≤ hi) (hh : hi < 32) :
    (s.countFld r i hi lo n).fld r i hi lo = satTo (hi + 1 - lo) (s.fld r i hi lo + n) := by
  rw [State.countFld, s.fld_setFld_self _ _ _ h hh, Nat.mod_eq_of_lt]
  have hpos : 0 < 2 ^ (hi + 1 - lo) := Nat.two_pow_pos _
  unfold satTo
  split <;> omega

section
variable {s : State} {d : Nat} {w : RingWord} {q : List RingWord} (hring : s.pkgRing = true) (hroom : s.arriving (2 * d) = [])
  (hq : s.bridgeQ d = w :: q) (hvalid : w.valid = true) (hok : w.ok = true)
include hring hroom hq hvalid hok

theorem State.bridgeDeliver_eq (n : Nat) : s.bridgeDeliver d n =
    let v := if decide (0 < n) && s.bit .ringBridge d 0 then (s.setBridgeQ d q).countFld .ringBridge d 31 16 1 else s.setBridgeQ d q
    if n ≤ (if s.bit .ringBridge d 0 then 1 else 0) then v.setArriving (2 * d) [w]
    else ((v.countFld .ringBridge d 15 8 1).setArriving (2 * d) [w.poisoned]).ringError d 4 0 0 := by
  simp only [State.bridgeDeliver, hring, hroom, hq, hvalid, hok, List.isEmpty_nil, Bool.not_true, Bool.or_false, Bool.false_eq_true, if_false,
    if_true]

theorem State.bridgeDeliver_sound : s.bridgeDeliver d 0 = (s.setBridgeQ d q).setArriving (2 * d) [w] := by
  rw [State.bridgeDeliver_eq hring hroom hq hvalid hok]
  simp

theorem State.bridgeDeliver_retries (hretry : s.bit .ringBridge d 0 = true) : let u := s.bridgeDeliver d 1
    u.arriving (2 * d) = [w] ∧ u.bridgeQ d = q ∧ u.fld .ringBridge d 31 16 = satTo 16 (s.fld .ringBridge d 31 16 + 1) := by
  intro u
  have hu : u = ((s.setBridgeQ d q).countFld .ringBridge d 31 16 1).setArriving (2 * d) [w] := by
    rw [show u = _ from State.bridgeDeliver_eq hring hroom hq hvalid hok 1]
    simp [hretry]
  rw [hu]
  exact ⟨State.arriving_setArriving _ _ _, s.bridgeQ_setBridgeQ d q, State.fld_countFld_self (s.setBridgeQ d q) .ringBridge d 1 (by decide) (by decide)⟩

theorem State.bridgeDeliver_fails (hd : d < 4) : let u := s.bridgeDeliver d 2
    u.arriving (2 * d) = [w.poisoned] ∧ u.bridgeQ d = q ∧ u.fld .ringBridge d 15 8 = satTo 8 (s.fld .ringBridge d 15 8 + 1) ∧
      (s.bit .ringErr d 31 = false → u.fld .ringErr d 30 28 = 4) := by
  intro u
  let v := if s.bit .ringBridge d 0 then (s.setBridgeQ d q).countFld .ringBridge d 31 16 1 else s.setBridgeQ d q
  let z := (v.countFld .ringBridge d 15 8 1).setArriving (2 * d) [w.poisoned]
  have hu : u = z.ringError d 4 0 0 := by
    rw [show u = _ from State.bridgeDeliver_eq hring hroom hq hvalid hok 2]
    have hmany : ¬ 2 ≤ (if s.bit .ringBridge d 0 then 1 else 0) := by split <;> decide
    dsimp only
    rw [if_neg hmany]
    rfl
  have hv : v.bridgeQ d = q ∧ s.RegsKept v [.ringBridge] ∧ v.fld .ringBridge d 15 8 = s.fld .ringBridge d 15 8 := by
    simp only [v]
    split
    · exact ⟨s.bridgeQ_setBridgeQ d q, .trans (t := s.setBridgeQ d q) (.of_regs rfl) (State.countFld_regsKept _ (by simp) hd _ _ _),
        (s.setBridgeQ d q).fld_setFld_apart _ _ _ (by decide) (by decide) (by decide)⟩
    · exact ⟨s.bridgeQ_setBridgeQ d q, .of_regs rfl, rfl⟩
  obtain ⟨hbridge, hkept, hother⟩ := hv
  have hz : s.RegsKept z [.ringBridge] :=
    hkept.trans (.trans (t := v.countFld .ringBridge d 15 8 1) (State.countFld_regsKept _ (by simp) hd _ _ _) (.of_regs rfl))
  obtain ⟨halarm, herr, hfirst⟩ := z.ringError_spec (seg := 0) hd (by decide : 4 < 8) (Nat.zero_le 32)
  obtain ⟨-, -, harr, -, hbridges⟩ := halarm.words
  rw [hu]
  refine ⟨(harr _).trans (State.arriving_setArriving _ _ _), (hbridges d).trans hbridge, ?_, fun h => hfirst ?_⟩
  · rw [herr.fld (by decide) hd, ← hother]
    exact v.fld_countFld_self .ringBridge d 1 (by decide) (by decide)
  · rw [hz.bit (by decide) hd]
    exact h

end

/-! ### Crossing FIFOs (R121, R234, R236) -/

theorem State.occ_lt (s : State) (d : Nat) (f : Fifo) : s.occ d f < 16 := by
  have h : s.occ d f = s.reg .shtFifo d / 2 ^ fifoLo f % 2 ^ (fifoLo f + 3 + 1 - fifoLo f) := bitsOf_eq_div_mod _ _ _
  rw [h]
  cases f <;> exact Nat.mod_lt _ (by decide)

theorem State.occ_setOcc (s : State) (d : Nat) (f : Fifo) {n : Nat} (hn : n < 16) : (s.setOcc d f n).occ d f = n := by
  cases f <;> exact (s.fld_setFld_self .shtFifo d n (by decide) (by decide)).trans (Nat.mod_eq_of_lt hn)

/-- An occupancy after one tick of drift. -/
def State.drifted (s : State) (d : Nat) (f : Fifo) (up : Bool) : Nat := if up then min 8 (s.occ d f + 1) else s.occ d f - 1

theorem State.drifted_lt (s : State) (d : Nat) (f : Fifo) (up : Bool) : s.drifted d f up < 16 := by
  have h := s.occ_lt d f
  unfold State.drifted
  split <;> omega

theorem State.fifoDrift_spec (s : State) {d : Nat} (hd : d < 4) (f : Fifo) (up : Bool) : let n := s.drifted d f up
    let u := s.fifoDrift d f up
    u.occ d f = n ∧ (1 < n → n < 7 → u = s.setOcc d f n) ∧ (n ≤ 1 ∨ 7 ≤ n → (u.die d).reqs.contains ⟨fifoBit f, fifoLo f⟩ = true) := by
  intro n u
  have hn : n < 16 := s.drifted_lt d f up
  by_cases hlimit : n ≤ 1 ∨ 7 ≤ n
  · have hu : u = ((s.setOcc d f n).shutReq d (fifoBit f) (fifoLo f)).modDie d
        (fun x => if x.frozen ∧ x.recentre = none then { x with recentre := some 4 } else x) := if_pos hlimit
    obtain ⟨hholds, -⟩ := (s.setOcc d f n).shutReq_holds d (fifoBit f) (fifoLo f)
    rw [hu]
    refine ⟨?_, fun h h' => by omega, fun _ => ?_⟩
    · exact ((State.shutReq_kept _ hd _ _).fld (by decide) hd _ _).trans (s.occ_setOcc d f hn)
    · rw [State.die_modDie_self]
      split <;> exact hholds
  · have hu : u = s.setOcc d f n := if_neg hlimit
    rw [hu]
    exact ⟨s.occ_setOcc d f hn, fun _ _ => rfl, fun h => absurd h hlimit⟩

/-- The crossing's words behind a FIFO. -/
def State.crossWords (s : State) (d : Nat) (f : Fifo) : List RingWord :=
  if f = .br then s.bridgeQ d else s.seamQ (2 * d + (if f = .s01 then 0 else 1))

theorem State.crossWords_congr {s u : State} (hseam : ∀ k, u.seamQ k = s.seamQ k) (hbridge : ∀ d, u.bridgeQ d = s.bridgeQ d) (d : Nat) (f : Fifo) :
    u.crossWords d f = s.crossWords d f := by
  rw [State.crossWords, hbridge, hseam, State.crossWords]

/-- Other words behind a FIFO. -/
def State.setCrossWords (s : State) (d : Nat) (f : Fifo) (q : List RingWord) : State :=
  if f = .br then s.setBridgeQ d q else s.setSeamQ (2 * d + (if f = .s01 then 0 else 1)) q

theorem State.setCrossWords_spec (s : State) (d : Nat) (f : Fifo) (q : List RingWord) : let u := s.setCrossWords d f q
    u.crossWords d f = q ∧ u.stations = s.stations ∧ u.ring = s.ring ∧ u.regs = s.regs := by
  cases f <;> exact ⟨Tbl.get_put_self _ _ _ _, rfl, rfl, rfl⟩

/-- The region whose first position a crossing FIFO leads to. -/
def crossRegion (d : Nat) (f : Fifo) : Nat := 2 * d + (if f = .s01 then 1 else 0)

theorem State.crossPoison_empty {s : State} {d : Nat} {f : Fifo} (hrun : s.halted (crossRegion d f) = false) (hocc : s.occ d f = 0) :
    ∃ q, s.crossPoison d f = (((s.setCrossWords d f q).setArriving (crossRegion d f) [RingWord.lost]).clockError d (if f = .br then 4 else 3)
      (if f = .s01 then 4 else 0)).sendFault d 15 true 0 := by
  unfold crossRegion at hrun
  unfold State.crossPoison
  simp only [hrun, hocc, Bool.false_eq_true, if_false, if_true]
  generalize RingWord.lost = w
  cases f <;> exact ⟨_, rfl⟩

theorem State.crossPoison_full {s : State} {d : Nat} {f : Fifo} (hrun : s.halted (crossRegion d f) = false) (hocc : 8 ≤ s.occ d f) :
    s.crossPoison d f = ((s.setCrossWords d f (overrun (s.crossWords d f))).clockError d (if f = .br then 4 else 3)
      (if f = .s01 then 4 else 0)).sendFault d 15 true 0 := by
  have hne : s.occ d f ≠ 0 := by omega
  unfold crossRegion at hrun
  unfold State.crossPoison
  simp only [hrun, hocc, hne, Bool.false_eq_true, if_false, if_true]
  cases f <;> simp only [State.setCrossWords, State.crossWords, reduceCtorEq, if_false, if_true]

theorem clockKind_lt (f : Fifo) : (if f = .br then 4 else 3) < 8 := by cases f <;> decide

theorem State.crossPoison_reads {s : State} {d : Nat} (hd : d < 4) {f : Fifo} (hrun : s.halted (crossRegion d f) = false) (hocc : s.occ d f = 0) :
    let u := s.crossPoison d f
    u.arriving (crossRegion d f) = [RingWord.lost] ∧ u.stations = s.stations ∧ (u.die d).reqs.contains ⟨12, 0⟩ = true ∧
      (s.bit .ringErr d 31 = false → u.fld .ringErr d 30 28 = if f = .br then 4 else 3) := by
  intro u
  obtain ⟨q, hu⟩ := State.crossPoison_empty hrun hocc
  obtain ⟨-, hstns, -, hregs⟩ := s.setCrossWords_spec d f q
  obtain ⟨halarm, hholds, hfirst⟩ := State.clockFault_spec ((s.setCrossWords d f q).setArriving (crossRegion d f) [RingWord.lost])
    (seg := if f = .s01 then 4 else 0) hd (clockKind_lt f)
  obtain ⟨hsame, -, harr, -, -⟩ := halarm.words
  rw [show u = _ from hu]
  exact ⟨(harr _).trans (State.arriving_setArriving _ _ _), hsame.trans hstns, hholds,
    fun h => hfirst ((congrArg (bitOf · 31) (State.reg_congr hregs .ringErr d)).trans h)⟩

theorem State.crossPoison_writes {s : State} {d : Nat} (hd : d < 4) {f : Fifo} (hrun : s.halted (crossRegion d f) = false) (hocc : 8 ≤ s.occ d f) :
    let u := s.crossPoison d f
    u.stations = s.stations ∧ u.ring = s.ring ∧ u.crossWords d f = overrun (s.crossWords d f) ∧ (u.die d).reqs.contains ⟨12, 0⟩ = true ∧
      (s.bit .ringErr d 31 = false → u.fld .ringErr d 30 28 = if f = .br then 4 else 3) := by
  intro u
  obtain ⟨hwords, hstns, hring, hregs⟩ := s.setCrossWords_spec d f (overrun (s.crossWords d f))
  obtain ⟨halarm, hholds, hfirst⟩ := State.clockFault_spec (s.setCrossWords d f (overrun (s.crossWords d f)))
    (seg := if f = .s01 then 4 else 0) hd (clockKind_lt f)
  obtain ⟨hsame, hsameRing, -, hseam, hbridge⟩ := halarm.words
  rw [show u = _ from State.crossPoison_full hrun hocc]
  refine ⟨hsame.trans hstns, hsameRing.trans hring, ?_, hholds,
    fun h => hfirst ((congrArg (bitOf · 31) (State.reg_congr hregs .ringErr d)).trans h)⟩
  exact (State.crossWords_congr hseam hbridge d f).trans hwords

/-- The word written last is lost, and the next to be delivered is poisoned. -/
theorem overrun_of_two (w v : RingWord) (q : List RingWord) : overrun (w :: (q ++ [v])) = RingWord.lost :: (q ++ [RingWord.empty]) := by
  simp [overrun]

theorem overrun_of_one (w : RingWord) : overrun [w] = [RingWord.lost] := by simp [overrun]

/-- Settles O35, crossing by crossing, the ordinary path before the error. -/
theorem crossingsDeliverOrPoison : Obligations.CrossingsDeliverOrPoison := by
  unfold Obligations.CrossingsDeliverOrPoison
  intro s d
  refine ⟨?_, fun w q hring hroom hq hvalid hok => ⟨?_, fun hretry => ?_, ?_⟩, fun f up => ?_, ?_⟩
  · intro up err w q r hway hrun hroom hq
    refine ⟨fun hsound => ?_, fun hvalid hbad => ?_⟩
    · exact ⟨_, rfl, State.seamCross_sound hway hrun hroom hq hsound⟩
    · exact ⟨_, rfl, State.seamCross_fails d.isLt hway hrun hroom hq hvalid hbad⟩
  · exact ⟨_, rfl, State.bridgeDeliver_sound hring hroom hq hvalid hok⟩
  · exact ⟨_, rfl, State.bridgeDeliver_retries hring hroom hq hvalid hok hretry⟩
  · exact ⟨_, rfl, State.bridgeDeliver_fails hring hroom hq hvalid hok d.isLt⟩
  · exact ⟨_, rfl, s.fifoDrift_spec d.isLt f up⟩
  · intro f r hrun
    refine ⟨fun hocc => ⟨_, rfl, State.crossPoison_reads d.isLt hrun hocc⟩, fun hocc => ?_⟩
    obtain ⟨hstns, hring, hwords, hholds, hfirst⟩ := State.crossPoison_writes d.isLt hrun hocc
    refine ⟨_, rfl, hstns, hring, ⟨fun w v q h => ?_, fun w h => ?_⟩, hholds, hfirst⟩
    · exact hwords.trans ((congrArg overrun h).trans (overrun_of_two w v q))
    · exact hwords.trans ((congrArg overrun h).trans (overrun_of_one w))

end Sys2Proof.Machine
end

section
/-! ## Feed queues (O34) -/

namespace Sys2Proof.Machine

/-! ### Descriptors of a queue (R273, R274) -/

/-- The first descriptor that a test finds is the one that follows those it does not. -/
theorem find?_of_prefix {α : Type} {test : α → Bool} {pre post : List α} {d : α} (hpre : ∀ e ∈ pre, test e = false) (hd : test d = true) :
    (pre ++ d :: post).find? test = some d := by
  induction pre with
  | nil => exact List.find?_cons_of_pos hd
  | cons e es ih =>
    rw [List.cons_append, List.find?_cons_of_neg (by rw [hpre e List.mem_cons_self]; decide)]
    exact ih fun x hx => hpre x (List.mem_cons_of_mem e hx)

/-- Only the first descriptor that passes the test is replaced or taken out. -/
theorem fixFirst_of_prefix {test : Desc → Bool} (f : Desc → Option Desc) {pre post : List Desc} {d : Desc} (hpre : ∀ e ∈ pre, test e = false)
    (hd : test d = true) : fixFirst test f (pre ++ d :: post) = pre ++ ((f d).toList ++ post) := by
  induction pre with
  | nil =>
    rw [List.nil_append, fixFirst, if_pos hd]
    cases f d <;> rfl
  | cons e es ih =>
    rw [List.cons_append, fixFirst, if_neg (by rw [hpre e List.mem_cons_self]; decide), ih fun x hx => hpre x (List.mem_cons_of_mem e hx),
      List.cons_append]

/-- A request released changes a die alone. -/
theorem State.feedRelease_eq (s : State) (seg q : Nat) : s.feedRelease seg q = { s with dies := (s.feedRelease seg q).dies } := by
  unfold State.feedRelease
  dsimp only
  split <;> rfl

theorem State.feed_setFeed_other (s : State) {seg q a p : Nat} (x : FeedQ) (h : 4 * a + p ≠ 4 * seg + q) :
    (s.setFeed seg q x).feed a p = s.feed a p := by
  rw [State.feed, State.setFeed, Tbl.get_put_other _ _ _ _ (Ne.symm h), State.feed]

/-- From `s` to `u`, nothing differs but one feed queue and dies. -/
def State.QueueSet (s u : State) (seg q : Nat) (x : FeedQ) : Prop := u = { s.setFeed seg q x with dies := u.dies }

theorem State.QueueSet.frame {s u : State} {seg q : Nat} {x : FeedQ} (h : s.QueueSet u seg q x) : u.feed seg q = x ∧ u.stations = s.stations ∧
    u.regs = s.regs ∧ u.ring = s.ring ∧ (∀ a p, 4 * a + p ≠ 4 * seg + q → u.feed a p = s.feed a p) := by
  have hfeeds : u.feeds = (s.setFeed seg q x).feeds := by rw [show u = _ from h]
  refine ⟨(State.feed_congr hfeeds _ _).trans (s.feed_setFeed_self seg q x), ?_, ?_, ?_, fun a p hne => (State.feed_congr hfeeds a p).trans ?_⟩
  · rw [show u = _ from h]
    rfl
  · rw [show u = _ from h]
    rfl
  · rw [show u = _ from h]
    rfl
  · exact s.feed_setFeed_other x hne

theorem State.fixDesc_set (s : State) (seg q : Nat) (test : Desc → Bool) (f : Desc → Option Desc) :
    s.QueueSet (s.fixDesc seg q test f) seg q { s.feed seg q with descs := fixFirst test f (s.feed seg q).descs } :=
  State.feedRelease_eq _ _ _

/-! ### A post that fails (R203, R273) -/

theorem State.sendFault_shutOnly (s : State) (d code : Nat) (unit : Bool) (n : Nat) : s.ShutOnly (s.sendFault d code unit n) :=
  (State.ShutOnly.foldl (fun t x => t.modDie_shutOnly x _) (s.scope d) s).trans (State.shutReq_shutOnly _ d 12 0)

/-- What STN_LX_FAULT takes of a fault (Table 7-21). -/
def lxWord (code : Nat) (m : Strm) (tag tick : Nat) : Nat := code * 2 ^ 24 + m.code * 2 ^ 22 + tag % 64 * 2 ^ 16 + tick % 2 ^ 16

/-- The poster stops, the queues stand, and the first capture has the code. -/
theorem State.postFails_spec (s : State) (seg q : Nat) (d : Desc) {code : Nat} (hcode : code < 16) : let u := s.postFails seg q d code
    (∀ a p, u.feed a p = s.feed a p) ∧ (u.station d.stn).run = .stopped ∧
      (d.stn < 1024 → s.bit .stnLxFault d.stn 31 = false → u.fld .stnLxFault d.stn 27 24 = code) := by
  intro u
  let tag := q + 4 * b2n (decide (segOf d.stn ≠ seg))
  let c := s.captureLx d.stn code d.place.strm tag (s.tick0 d.stn)
  have hcap : s.CapturedTo c := s.capture_capturedTo _ _ _
  have hshut : (c.stopStation d.stn .stopped).ShutOnly u := State.sendFault_shutOnly _ _ _ _ _
  have hfeeds : u.feeds = s.feeds := by
    rw [show u = _ from hshut]
    show c.feeds = s.feeds
    rw [show c = _ from hcap]
  obtain ⟨-, -, hstns, -⟩ := hshut.frame
  refine ⟨fun a p => State.feed_congr hfeeds a p, ?_, fun hstn hvalid => ?_⟩
  · rw [State.station_congr hstns, State.stopStation, State.station_modStation_self, Station.stop]
  · obtain ⟨-, hkept⟩ := (c.stopStation d.stn .stopped).sendFault_frame (dieOf_lt ⟨d.stn, hstn⟩) code false d.stn
    obtain ⟨hfirst, -⟩ := s.reg_capture .stnLxFault d.stn (lxWord code d.place.strm tag (s.tick0 d.stn))
    have hreg : u.reg .stnLxFault d.stn = 2 ^ 31 + lxWord code d.place.strm tag (s.tick0 d.stn) % 2 ^ 31 :=
      (hkept .stnLxFault (by decide) d.stn hstn).trans (hfirst hvalid)
    have hstrm : d.place.strm.code < 4 := by cases d.place.strm <;> decide
    simp only [State.fld, hreg, lxWord, bitsOf_eq_div_mod]
    omega

/-! ### FEED_DESCRIPTOR_READ (R273, R274) -/

section
variable {s : State} {seg q : Nat} {pre post : List Desc} {d : Desc} (hdescs : (s.feed seg q).descs = pre ++ d :: post)
  (hpre : ∀ e ∈ pre, e.isRead = true) (hd : d.isRead = false)
include hdescs hpre hd

/-- The queue once its first unread descriptor has been replaced or taken out. -/
theorem State.fixUnread (f : Desc → Option Desc) : s.QueueSet (s.fixDesc seg q (fun x => !x.isRead) f) seg q
    { s.feed seg q with descs := pre ++ ((f d).toList ++ post) } := by
  have h := s.fixDesc_set seg q (fun x => !x.isRead) f
  rwa [hdescs, fixFirst_of_prefix f (fun e he => by simp [hpre e he]) (by simp [hd])] at h

theorem State.descRead_eq : let bs := (s.portView d.stn).rdStore d.la 32
    s.descRead seg q .clean = if s.descRefused seg (d.parse bs) bs
      then (s.fixDesc seg q (fun x => !x.isRead) (fun _ => none)).postFails seg q d 11
      else s.fixDesc seg q (fun x => !x.isRead) (fun _ => some (d.parse bs)) := by
  have hfind : (s.feed seg q).descs.find? (fun x => !x.isRead) = some d := by
    rw [hdescs]
    exact find?_of_prefix (fun e he => by simp [hpre e he]) (by simp [hd])
  simp only [State.descRead, hfind, reduceCtorEq, if_false]

theorem State.descRead_accepts (hok : s.descRefused seg (d.parse ((s.portView d.stn).rdStore d.la 32)) ((s.portView d.stn).rdStore d.la 32) = false) :
    let u := s.descRead seg q .clean
    u.feed seg q = { s.feed seg q with descs := pre ++ d.parse ((s.portView d.stn).rdStore d.la 32) :: post } ∧ u.stations = s.stations ∧
      u.regs = s.regs ∧ u.ring = s.ring := by
  intro u
  have hu : u = s.fixDesc seg q (fun x => !x.isRead) (fun _ => some (d.parse ((s.portView d.stn).rdStore d.la 32))) :=
    (State.descRead_eq hdescs hpre hd).trans (if_neg (by rw [hok]; decide))
  obtain ⟨hfeed, hstns, hregs, hring, -⟩ := (State.fixUnread hdescs hpre hd _).frame
  rw [hu]
  exact ⟨hfeed, hstns, hregs, hring⟩

theorem State.descRead_refuses (hstn : d.stn < 1024)
    (hbad : s.descRefused seg (d.parse ((s.portView d.stn).rdStore d.la 32)) ((s.portView d.stn).rdStore d.la 32) = true) :
    let u := s.descRead seg q .clean
    u.feed seg q = { s.feed seg q with descs := pre ++ post } ∧ (u.station d.stn).run = .stopped ∧
      (s.bit .stnLxFault d.stn 31 = false → u.fld .stnLxFault d.stn 27 24 = 11) := by
  intro u
  have hu : u = (s.fixDesc seg q (fun x => !x.isRead) (fun _ => none)).postFails seg q d 11 :=
    (State.descRead_eq hdescs hpre hd).trans (if_pos hbad)
  obtain ⟨hfeed, -, hregs, -, -⟩ := (State.fixUnread hdescs hpre hd (fun _ => none)).frame
  obtain ⟨hsame, hstop, hcode⟩ := (s.fixDesc seg q (fun x => !x.isRead) (fun _ => none)).postFails_spec seg q d (by decide : 11 < 16)
  rw [hu]
  exact ⟨(hsame seg q).trans hfeed, hstop, fun hvalid => hcode hstn ((congrArg (bitOf · 31) (State.reg_congr hregs _ _)).trans hvalid)⟩

end

/-! ### FEED_QUEUE_FILL (R105, R264, R278, R279) -/

/-- A transfer of a stack changes registers and reports alone. -/
theorem State.msError_capturedTo (s : State) (n kind a : Nat) : s.CapturedTo (s.msError n kind a) := by
  unfold State.msError State.msErrorAt
  refine State.CapturedTo.trans ?_ (State.setReg_capturedTo _ _ _ _)
  split
  · exact (State.raise_capturedTo _ _ _).1
  · exact State.capture_capturedTo _ _ _ _

theorem State.xfer_capturedTo (s : State) (n a kind fails : Nat) (e : Ecc) : s.CapturedTo (s.xfer n a kind fails e) := by
  have hcount : s.CapturedTo (s.countFld .msErrCount n 15 8 (s.retries n fails)) := State.setReg_capturedTo _ _ _ _
  unfold State.xfer
  dsimp only
  split
  · exact hcount.trans (State.msError_capturedTo _ _ _ _)
  · cases e with
    | clean => exact hcount
    | corrected => exact hcount.trans (State.setReg_capturedTo _ _ _ _)
    | bad => exact hcount.trans (State.msError_capturedTo _ _ _ _)

/-- A descriptor holds words that have not been fetched. -/
def Desc.unfetched (d : Desc) : Bool := !d.isRead || decide (d.fetched < d.total)

/-- A descriptor of which a quarantined page group holds the next word: what has been fetched of it stays. -/
def Desc.cut (x : Desc) : Option Desc := if x.used < x.fetched then some { x with nk := 0, ncb := x.fetched - 1 } else none

theorem Desc.unfetched_next {pre : List Desc} {d : Desc} (hpre : ∀ e ∈ pre, e.isRead = true ∧ e.total ≤ e.fetched) (hleft : d.fetched < d.total) :
    (∀ e ∈ pre, e.unfetched = false) ∧ d.unfetched = true := by
  refine ⟨fun e he => ?_, by simp [Desc.unfetched, hleft]⟩
  obtain ⟨heread, hetotal⟩ := hpre e he
  simp [Desc.unfetched, heread, hetotal]

section
variable {s : State} {seg q : Nat} {pre post : List Desc} {d : Desc} {r : Rgn} (hdescs : (s.feed seg q).descs = pre ++ d :: post)
  (hpre : ∀ e ∈ pre, e.isRead = true ∧ e.total ≤ e.fetched) (hread : d.isRead = true) (hleft : d.fetched < d.total)
  (hr : (s.rgns seg).find? (fun r => r.base = d.origin) = some r) (hroom : (s.feed seg q).words.length < 1024)
include hdescs hpre hleft

theorem State.fixNext (t : State) (ht : (t.feed seg q).descs = (s.feed seg q).descs) (f : Desc → Option Desc) :
    t.QueueSet (t.fixDesc seg q Desc.unfetched f) seg q { t.feed seg q with descs := pre ++ ((f d).toList ++ post) } := by
  obtain ⟨hskip, hnext⟩ := Desc.unfetched_next hpre hleft
  have h := t.fixDesc_set seg q Desc.unfetched f
  rwa [ht, hdescs, fixFirst_of_prefix f hskip hnext] at h

include hread hr hroom

theorem State.feedFill_eq (e : Ecc) (n : Nat) : s.feedFill seg q e n = if s.feedStale seg d r d.fetched
      then (s.fixDesc seg q Desc.unfetched Desc.cut).postFails seg q d 6
      else ((s.xfer seg (d.addrOf r d.fetched 0) 2 n e).setFeed seg q
        { s.feed seg q with words := (s.feed seg q).words ++ [s.feedWord seg d r d.fetched (!s.readOk seg n e)] }).fixDesc seg q
          Desc.unfetched (fun x => some { x with fetched := x.fetched + 1 }) := by
  obtain ⟨hskip, hnext⟩ := Desc.unfetched_next hpre hleft
  have hfind : (s.feed seg q).descs.find? (fun d => !d.isRead || decide (d.fetched < d.total)) = some d := by
    rw [hdescs]
    exact find?_of_prefix hskip hnext
  have hgo : (!d.isRead || decide (1024 ≤ (s.feed seg q).words.length)) = false := by simp [hread, hroom]
  simp only [State.feedFill, hfind, hr, hgo, Bool.false_eq_true, if_false]
  rfl

theorem State.feedFill_fetches (e : Ecc) (n : Nat) (hfresh : s.feedStale seg d r d.fetched = false) : let u := s.feedFill seg q e n
    u.feed seg q = { s.feed seg q with
      words := (s.feed seg q).words ++ [s.feedWord seg d r d.fetched (!s.readOk seg n e)]
      descs := pre ++ { d with fetched := d.fetched + 1 } :: post } ∧
    (∀ a p, 4 * a + p ≠ 4 * seg + q → u.feed a p = s.feed a p) ∧ u.ring = s.ring ∧ u.stations = s.stations := by
  intro u
  let x : FeedQ := { s.feed seg q with words := (s.feed seg q).words ++ [s.feedWord seg d r d.fetched (!s.readOk seg n e)] }
  let v := (s.xfer seg (d.addrOf r d.fetched 0) 2 n e).setFeed seg q x
  have hu : u = v.fixDesc seg q Desc.unfetched (fun x => some { x with fetched := x.fetched + 1 }) :=
    (State.feedFill_eq hdescs hpre hread hleft hr hroom e n).trans (if_neg (by rw [hfresh]; decide))
  have hcap := s.xfer_capturedTo seg (d.addrOf r d.fetched 0) 2 n e
  have hxfeeds : (s.xfer seg (d.addrOf r d.fetched 0) 2 n e).feeds = s.feeds := by rw [show s.xfer _ _ _ _ _ = _ from hcap]
  have hqueue : v.feed seg q = x := State.feed_setFeed_self _ _ _ _
  obtain ⟨hfeed, hstns, -, hring, hothers⟩ :=
    (State.fixNext hdescs hpre hleft v (by rw [hqueue]) (fun x => some { x with fetched := x.fetched + 1 })).frame
  obtain ⟨hcapStns, hcapRing, -⟩ := hcap.frame
  rw [hqueue] at hfeed
  rw [hu]
  refine ⟨hfeed, fun a p hne => (hothers a p hne).trans ?_, hring.trans hcapRing, hstns.trans hcapStns⟩
  exact (State.feed_setFeed_other _ x hne).trans (State.feed_congr hxfeeds a p)

theorem State.feedFill_stale (e : Ecc) (n : Nat) (hstale : s.feedStale seg d r d.fetched = true) : let u := s.feedFill seg q e n
    (u.feed seg q).words = (s.feed seg q).words ∧ (u.station d.stn).run = .stopped ∧
      (d.stn < 1024 → s.bit .stnLxFault d.stn 31 = false → u.fld .stnLxFault d.stn 27 24 = 6) := by
  intro u
  have hu : u = (s.fixDesc seg q Desc.unfetched Desc.cut).postFails seg q d 6 :=
    (State.feedFill_eq hdescs hpre hread hleft hr hroom e n).trans (if_pos hstale)
  obtain ⟨hfeed, -, hregs, -, -⟩ := (State.fixNext hdescs hpre hleft s rfl Desc.cut).frame
  obtain ⟨hsame, hstop, hcode⟩ := (s.fixDesc seg q Desc.unfetched Desc.cut).postFails_spec seg q d (by decide : 6 < 16)
  rw [hu]
  exact ⟨by rw [hsame, hfeed], hstop,
    fun hstn hvalid => hcode hstn ((congrArg (bitOf · 31) (State.reg_congr hregs _ _)).trans hvalid)⟩

end

/-! ### FEED_POINT_INJECTION (R106 to R108) -/

/-- A named tick with no word in the queue. -/
theorem State.headInject_none {s : State} {seg q : Nat} (j : Nat) (d : Desc) (h : (s.feed seg q).words = []) :
    ∃ x, s.headInject seg q j d = (s.setFeed seg q x).underrun d := by
  unfold State.headInject
  dsimp only
  split
  · exact ⟨_, rfl⟩
  · next hwords =>
    rw [h] at hwords
    cases hwords

section
variable {s : State} {seg q t : Nat} {post : List Desc} {d : Desc} (hdescs : (s.feed seg q).descs = d :: post)
  (ht : s.feedTick seg = some t) (hacted : (s.feed seg q).acted ≠ some (s.ref (segRegion seg))) (hread : d.isRead = true)
  (hmissed : d.missed = false) (hnow : d.named t = some d.used) (hpost : ∀ e ∈ post, (s.descFull e).named t = none ∨ e.missed = true)
include hdescs ht hacted hread hmissed hnow hpost

/-- The head descriptor names the tick, and no descriptor behind it does. -/
theorem State.feedInject_eq : s.feedInject seg q =
    (s.setFeed seg q { s.feed seg q with acted := some (s.ref (segRegion seg)) }).headInject seg q d.used d := by
  have hfull : s.descFull d = d := by simp [State.descFull, hread]
  have hdue : s.feedDue seg q = true := by simp [State.feedDue, ht, hacted, hdescs, hfull, hnow, hmissed]
  have hlate : s.lateDescs seg q t = [] := by
    rw [State.lateDescs, hdescs, List.drop_one, List.tail_cons, List.filter_eq_nil_iff]
    intro e he
    rcases hpost e he with h | h <;> simp [h]
  simp only [State.feedInject, ht, hdue, hlate, hdescs, hfull, hnow, hmissed, Bool.not_true, Bool.false_eq_true, if_false,
    List.not_mem_nil, List.map_id', List.foldl_nil]

theorem State.feedInject_moves (hseg : seg < 32) (hq : q < 4) {w : RingWord} {ws : List RingWord} (hwords : (s.feed seg q).words = w :: ws)
    (hempty : (s.slotAt (posKey seg 0)).valid = false) : let u := s.feedInject seg q
    u.slotAt (posKey seg 0) = w ∧ (∀ k, k ≠ posKey seg 0 → u.slotAt k = s.slotAt k) ∧
      u.feed seg q = ⟨ws, if d.used + 1 < d.total then { d with used := d.used + 1 } :: post else post, some (s.ref (segRegion seg))⟩ ∧
      u.pair .segFeedInjCount seg = (s.pair .segFeedInjCount seg + 1) % 2 ^ 64 ∧ u.stations = s.stations := by
  intro u
  let x : FeedQ := { s.feed seg q with acted := some (s.ref (segRegion seg)) }
  let v := s.setFeed seg q x
  let y := ((v.useLane seg).setSlot (posKey seg 0) w).addPair .segFeedInjCount seg 1
  have hvqueue : v.feed seg q = x := s.feed_setFeed_self seg q x
  have hu : u = y.feedTaken seg q := by
    have hwords' : (v.feed seg q).words = w :: ws := by rw [hvqueue]; exact hwords
    have hempty' : (v.slotAt (posKey seg 0)).valid = false := hempty
    refine (State.feedInject_eq hdescs ht hacted hread hmissed hnow hpost).trans ?_
    show v.headInject seg q d.used d = _
    simp only [State.headInject, hwords', hempty', Nat.lt_irrefl, Bool.false_eq_true, if_false]
    rfl
  obtain ⟨hqueue, -, hkept, honly⟩ := y.feedTaken_spec hseg hq
  have hring : u.ring = y.ring := by rw [hu, show y.feedTaken seg q = _ from honly]
  have hslot : ∀ k, u.slotAt k = if posKey seg 0 = k then w else s.slotAt k := fun k =>
    (congrArg (Tbl.get (fun _ => RingWord.empty) · k) hring).trans ((v.useLane seg).slotAt_setSlot (posKey seg 0) k w)
  refine ⟨(hslot _).trans (if_pos rfl), fun k hk => (hslot k).trans (if_neg (Ne.symm hk)), ?_, ?_, ?_⟩
  · rw [hu, hqueue, show y.feed seg q = x from hvqueue, FeedQ.taken, hwords, hdescs]
    rfl
  · rw [hu, hkept.pair (by decide) hseg rfl]
    exact State.pair_addPair _ _ _ _
  · rw [hu, show y.feedTaken seg q = _ from honly]
    rfl

theorem State.feedInject_underruns (hwords : (s.feed seg q).words = []) (hstn : d.stn < 1024) : let u := s.feedInject seg q
    u.ring = s.ring ∧ (u.station d.stn).stopAt ≠ none ∧ (s.bit .ringErr (dieOf d.stn) 31 = false → u.fld .ringErr (dieOf d.stn) 30 28 = 6) := by
  intro u
  let v := s.setFeed seg q { s.feed seg q with acted := some (s.ref (segRegion seg)) }
  have hwords' : (v.feed seg q).words = [] := by
    rw [s.feed_setFeed_self]
    exact hwords
  obtain ⟨x, hx⟩ := State.headInject_none d.used d hwords'
  let miss := v.setFeed seg q x
  let p : OpPlace := { d.place with tick := miss.tick0 d.stn }
  have hu : u = miss.stnRingError d.stn 6 p := (State.feedInject_eq hdescs ht hacted hread hmissed hnow hpost).trans hx
  obtain ⟨hat, -, hfirst⟩ := miss.stnRingError_at ⟨d.stn, hstn⟩ (by decide : 6 < 8) p
  rw [hu]
  refine ⟨?_, ?_, fun hvalid => ?_⟩
  · rw [hat.rest]
    rfl
  · rw [hat.station]
    exact Station.stopsBy_stops _ _
  · obtain ⟨-, hkind, -⟩ := hfirst hvalid
    exact hkind

end

/-- Settles O34, command by command. -/
theorem feedQueuesReadFillAndInject : Obligations.FeedQueuesReadFillAndInject := by
  unfold Obligations.FeedQueuesReadFillAndInject
  intro s g q pre post d x
  refine ⟨fun hdescs hpre hd hstn => ?_, fun r e n hdescs hpre hread hleft hr hroom => ⟨fun hfresh => ?_, fun hstale => ?_⟩,
    fun t hdescs ht hacted hread hmissed hnow hpost => ⟨fun w ws hwords hempty => ?_, fun hwords hstn => ?_⟩⟩
  · exact ⟨fun hok => ⟨_, rfl, State.descRead_accepts hdescs hpre hd hok⟩, fun hbad => ⟨_, rfl, State.descRead_refuses hdescs hpre hd hstn hbad⟩⟩
  · exact ⟨_, rfl, State.feedFill_fetches hdescs hpre hread hleft hr hroom e n hfresh⟩
  · exact ⟨_, rfl, State.feedFill_stale hdescs hpre hread hleft hr hroom e n hstale⟩
  · exact ⟨_, rfl, State.feedInject_moves hdescs ht hacted hread hmissed hnow hpost g.isLt q.isLt hwords hempty⟩
  · exact ⟨_, rfl, State.feedInject_underruns hdescs ht hacted hread hmissed hnow hpost hwords hstn⟩

end Sys2Proof.Machine
end

section
/-! ## Control writes of dies and stacks (O42) -/

namespace Sys2Proof.Machine

/-! ### An accepted write that acts, in full (R10) -/

/-- Two states with the same registers, stations, dies and stacks, and the same tests stopped. -/
structure State.Alike (s u : State) : Prop where
  regs : u.regs = s.regs
  stations : u.stations = s.stations
  dies : u.dies = s.dies
  stackMem : u.stackMem = s.stackMem
  tgStops : u.tgStops = s.tgStops

namespace State.Alike

variable {s u : State} (h : s.Alike u)
include h

theorem reg (r : Reg) (i : Nat) : u.reg r i = s.reg r i := State.reg_congr h.regs r i

theorem bit (r : Reg) (i k : Nat) : u.bit r i k = s.bit r i k := congrArg (bitOf · k) (h.reg r i)

theorem fld (r : Reg) (i hi lo : Nat) : u.fld r i hi lo = s.fld r i hi lo := congrArg (bitsOf · hi lo) (h.reg r i)

theorem station (n : Nat) : u.station n = s.station n := State.station_congr h.stations n

theorem die (d : Nat) : u.die d = s.die d := State.die_congr h.dies d

end State.Alike

/-- Beyond what it does, a write sends its answer, and the alert pin where it changes. -/
theorem State.writeOut_effect {s : State} {who : Requester} {r : Reg} {i v : Nat} (h : s.accepts who r i v)
    (hrgn : r ≠ .prismRgnBase ∧ r ≠ .prismRgnShape ∧ r ≠ .prismRgnScale ∧ r ≠ .prismRgnTwin) :
    ((s.putReg r i false v).csrEffect who r i v).Alike (s.writeOut who (r.at i) 4 v) := by
  obtain ⟨hloc, hchk⟩ := h
  have hout : s.writeOut who (r.at i) 4 v = (s.alertPin ((s.putReg r i false v).csrEffect who r i v)).emit (.reg who (r.at i) stOk 0) := by
    simp only [State.writeOut, State.csrWrite, hloc, hchk, ne_eq, not_true, if_false, State.leaveTwin_of_no_region _ _ _ hrgn]
  rw [hout, State.alertPin_eq]
  exact ⟨rfl, rfl, rfl, rfl, rfl⟩

/-- Of a register without RWE fields, a write takes the fields of its word. -/
theorem State.putReg_plain (s : State) {r : Reg} (i v : Nat) (h : r.info.rwe = 0) : s.putReg r i false v = s.putFields r i false v := by
  rw [State.putReg_eq, if_pos h]

theorem State.putFields_wordsKept (s : State) {r : Reg} {i : Nat} (hi : i < r.info.count) (v : Nat) : s.WordsKept (s.putFields r i false v) [r] :=
  s.setReg_wordsKept (by simp) hi _

theorem State.bit_putFields (s : State) (r : Reg) (i v : Nat) {k : Nat} (hk : k < 32) :
    (s.putFields r i false v).bit r i k = r.info.bitAfter (s.reg r i) v k := s.testBit_putFields r i false v hk

/-- A field of RW bits reads as the value written. -/
theorem State.fld_putFields (s : State) (r : Reg) (i v : Nat) {hi lo : Nat} (hhi : hi < 32)
    (hrw : ∀ k, lo ≤ k → k ≤ hi → r.info.rw.testBit k = true ∧ r.info.w1c.testBit k = false) :
    (s.putFields r i false v).fld r i hi lo = bitsOf v hi lo := by
  refine bitsOf_congr fun k hlo hkhi => ?_
  obtain ⟨h1, h2⟩ := hrw k hlo hkhi
  refine (s.testBit_putFields r i false v (by omega)).trans ?_
  simp [RegInfo.bitAfter, h1, h2]

/-- The word of a register without RW and W1C bits stays. -/
theorem State.reg_putFields_none (s : State) (r : Reg) (i v : Nat) (hrw : r.info.rw = 0) (hw1c : r.info.w1c = 0) :
    (s.putFields r i false v).reg r i = s.reg r i := by
  refine Nat.eq_of_testBit_eq fun k => ?_
  by_cases hk : k < 32
  · refine (s.testBit_putFields r i false v hk).trans ?_
    simp only [RegInfo.bitAfter, hrw, hw1c, Nat.zero_testBit, Bool.false_and, Bool.not_false, Bool.and_true]
    rfl
  · have hbig : 2 ^ 32 ≤ 2 ^ k := Nat.pow_le_pow_right (by decide) (by omega)
    have h (t : State) : (t.reg r i).testBit k = false := Nat.testBit_lt_two_pow (lt_of_lt_of_le (BitVec.isLt _) hbig)
    rw [h, h]

theorem State.bit_setFld_one (s : State) (r : Reg) (i v : Nat) {k : Nat} (hk : k < 32) : (s.setFld r i k k v).bit r i k = v.testBit 0 := by
  rw [s.bit_setFld r i v (le_refl k) hk, if_pos ⟨le_refl k, le_refl k⟩, Nat.sub_self]

/-! ### Bits forced on or off in the value written -/

theorem bitsOf_or_apart (v m : Nat) {hi lo : Nat} (h : ∀ k, lo ≤ k → k ≤ hi → m.testBit k = false) : bitsOf (v ||| m) hi lo = bitsOf v hi lo :=
  bitsOf_congr fun k hlo hhi => by rw [Nat.testBit_or, h k hlo hhi, Bool.or_false]

/-- Bit `k` of a word without its bit `k`, and the others. -/
theorem testBit_only_off (v b : Nat) {k : Nat} (hk : k < 32) (hb : b < 32) :
    (only v (2 ^ 32 - 1 - 2 ^ b)).testBit k = (v.testBit k && decide (k ≠ b)) := by
  have hlt : 2 ^ b < 2 ^ 32 := Nat.pow_lt_pow_right (by decide) hb
  have hsub : 2 ^ 32 - 1 - 2 ^ b = 2 ^ 32 - (2 ^ b + 1) := by omega
  rw [testBit_only _ _ hk, hsub, Nat.testBit_two_pow_sub_succ hlt, Nat.testBit_two_pow]
  simp [hk, eq_comm]

/-! ### FW_HOLD (R243) -/

section
variable (s : State) (d v : Nat)

/-- The counters that SHT_CTRL clears are of other registers. -/
theorem State.shtClear_kept {d : Nat} (hd : d < 4) : s.RegsKept (s.shtClear d) [.shtCount, .shtTicks, .shtFifo] ∧ (s.shtClear d).dies = s.dies := by
  have hcount : s.WordsKept (s.setReg .shtCount d 0) [.shtCount, .shtTicks, .shtFifo] := s.setReg_wordsKept (by simp) hd 0
  have hticks := State.setPair_wordsKept (s.setReg .shtCount d 0) (r := .shtTicks) (rs := [.shtCount, .shtTicks, .shtFifo]) (by simp) hd rfl 0
  have hfifo := State.setFld_wordsKept ((s.setReg .shtCount d 0).setPair .shtTicks d 0) (r := .shtFifo)
    (rs := [.shtCount, .shtTicks, .shtFifo]) (by simp) hd 31 16 0
  exact ⟨fun q hq j hj => ((hcount.trans hticks).trans hfifo).reg hq hj, rfl⟩

/-- The hold of a die once SHT_CTRL has taken its fields. -/
def State.shtWritten (s : State) (d v : Nat) : State :=
  (s.putFields .shtCtrl d false v).onlyIf (bitOf v 13) (·.shtClear d)

theorem State.shtWritten_spec {d : Nat} (hd : d < 4) : (s.shtWritten d v).bit .shtCtrl d 14 = v.testBit 14 ∧ (s.shtWritten d v).dies = s.dies := by
  have hbit : (s.putFields .shtCtrl d false v).bit .shtCtrl d 14 = v.testBit 14 := by
    rw [s.bit_putFields .shtCtrl d v (by decide), RegInfo.bitAfter,
      if_pos (by decide : (Reg.info .shtCtrl).rw.testBit 14 = true)]
    simp [Reg.info]
  unfold State.shtWritten State.onlyIf
  split
  · obtain ⟨hkept, hdies⟩ := (s.putFields .shtCtrl d false v).shtClear_kept hd
    exact ⟨(hkept.bit (by decide) hd 14).trans hbit, hdies⟩
  · exact ⟨hbit, rfl⟩

theorem State.writeOut_shtCtrl {s : State} {who : Requester} {d v : Nat} (h : s.accepts who .shtCtrl d v) :
    ((s.shtWritten d v).fwHold d).Alike (s.writeOut who (Reg.at .shtCtrl d) 4 v) := by
  have heff := State.writeOut_effect h (by decide)
  rw [s.putReg_plain d v rfl] at heff
  exact heff

theorem State.fwHold_set {s : State} {who : Requester} {d v : Nat} (hd : d < 4) (h : s.accepts who .shtCtrl d v) (hv : v.testBit 14 = true) :
    let u := s.writeOut who (Reg.at .shtCtrl d) 4 v
    u.bit .shtCtrl d 14 = true ∧ (u.die d).reqs.contains ⟨11, 0⟩ = true := by
  intro u
  obtain ⟨hbit, -⟩ := s.shtWritten_spec v hd
  have halike := State.writeOut_shtCtrl h
  rw [State.fwHold, if_pos (hbit.trans hv)] at halike
  obtain ⟨hholds, -⟩ := (s.shtWritten d v).shutReq_holds d 11 0
  refine ⟨(halike.bit .shtCtrl d 14).trans (((State.shutReq_kept _ hd 11 0).bit (by decide) hd 14).trans (hbit.trans hv)), ?_⟩
  rw [halike.die]
  exact hholds

theorem State.fwHold_release {s : State} {who : Requester} {d v : Nat} (hd : d < 4) (h : s.accepts who .shtCtrl d v) (hv : v.testBit 14 = false) :
    let u := s.writeOut who (Reg.at .shtCtrl d) 4 v
    u.bit .shtCtrl d 14 = false ∧ (u.die d).reqs = (s.die d).reqs.filter (fun q => q ≠ ⟨11, 0⟩) := by
  intro u
  obtain ⟨hbit, hdies⟩ := s.shtWritten_spec v hd
  have halike := State.writeOut_shtCtrl h
  rw [State.fwHold, if_neg (by rw [hbit, hv]; decide)] at halike
  refine ⟨(halike.bit .shtCtrl d 14).trans (hbit.trans hv), ?_⟩
  rw [halike.die, State.shutRel, State.die_modDie_self, State.die_congr hdies]

end

/-! ### SPARE_SUBSTITUTION (R122) -/

/-- Stations of a list are given one state epoch. -/
def State.stampSlots (s : State) (g e : Nat) (l : List Nat) : State := l.foldl (fun t k => t.setFld .stnStateEpoch (32 * g + k) 15 0 e) s

theorem State.spareTo_eq (s : State) (g q : Nat) : s.spareTo g q = (s.setFld .segSpare g 5 0 q).stampSlots g
    (2 ^ 16 - 1 - s.fld .stnDieEpoch (g / 8) 15 0) ((List.range 32).filter (fun k => decide (slotPos (s.sparePos g) k ≠ slotPos q k))) := rfl

theorem State.stampSlots_kept (s : State) {g : Nat} (hg : g < 32) (e : Nat) (l : List Nat) (hl : ∀ k ∈ l, k < 32) :
    s.RegsKept (s.stampSlots g e l) [.stnStateEpoch] ∧ (s.stampSlots g e l).stations = s.stations := by
  refine ⟨.foldl l (fun t k hk => t.setFld_regsKept (by simp) ?_ _ _ _) s, 
    foldl_keeps State.stations (f := fun t k => t.setFld .stnStateEpoch (32 * g + k) 15 0 e) (fun _ _ => rfl) l s⟩
  have hk32 := hl k hk
  show 32 * g + k < 1024
  omega

theorem State.fld_stampSlots (s : State) (g e : Nat) (l : List Nat) (k : Nat) :
    (s.stampSlots g e l).fld .stnStateEpoch (32 * g + k) 15 0 = if k ∈ l then e % 2 ^ 16 else s.fld .stnStateEpoch (32 * g + k) 15 0 := by
  induction l generalizing s with
  | nil => rfl
  | cons a l ih =>
    refine (ih (s.setFld .stnStateEpoch (32 * g + a) 15 0 e)).trans ?_
    by_cases hmem : k ∈ l
    · rw [if_pos hmem, if_pos (List.mem_cons_of_mem a hmem)]
    · rw [if_neg hmem]
      by_cases hka : k = a
      · rw [hka, if_pos List.mem_cons_self]
        exact s.fld_setFld_self _ _ _ (by decide) (by decide)
      · rw [if_neg (by simp [hka, hmem])]
        exact State.fld_congr (s.regAt_setFld_ne _ _ _ _ (fun h => hka (by have := Reg.at_inj.1 h; omega))) 15 0

theorem bitsOf_lt (v hi lo : Nat) : bitsOf v hi lo < 2 ^ (hi + 1 - lo) := Nat.mod_lt _ (Nat.two_pow_pos _)

/-- SPARE_POS moves, and the stations whose slot moves are quarantined, the others as they were. -/
theorem State.spareTo_spec (s : State) {g q : Nat} (hg : g < 32) (hq : q < 2 ^ 6) : let u := s.spareTo g q
    u.sparePos g = q ∧ u.stations = s.stations ∧
      (∀ k < 32, slotPos (s.sparePos g) k ≠ slotPos q k → u.quarantined (32 * g + k) = true) ∧
      (∀ k < 32, slotPos (s.sparePos g) k = slotPos q k → u.quarantined (32 * g + k) = s.quarantined (32 * g + k)) := by
  intro u
  let e := s.fld .stnDieEpoch (g / 8) 15 0
  let v := s.setFld .segSpare g 5 0 q
  let l := (List.range 32).filter (fun k => decide (slotPos (s.sparePos g) k ≠ slotPos q k))
  have he : e < 2 ^ 16 := bitsOf_lt _ 15 0
  have hspare : s.RegsKept v [.segSpare] := s.setFld_regsKept (by simp) hg _ _ _
  obtain ⟨hstamp, hstns⟩ := v.stampSlots_kept hg (2 ^ 16 - 1 - e) l (fun k hk => List.mem_range.1 (List.mem_filter.1 hk).1)
  have hword (k : Nat) (hk : k < 32) : u.fld .stnStateEpoch (32 * g + k) 15 0 = if slotPos (s.sparePos g) k ≠ slotPos q k
      then (2 ^ 16 - 1 - e) % 2 ^ 16 else s.fld .stnStateEpoch (32 * g + k) 15 0 := by
    have hlt : 32 * g + k < Reg.stnStateEpoch.info.count := by show 32 * g + k < 1024; omega
    refine (v.fld_stampSlots g (2 ^ 16 - 1 - e) l k).trans ?_
    rw [hspare.fld (by decide) hlt]
    exact if_congr (by simp [l, hk]) rfl rfl
  have hdie (k : Nat) (hk : k < 32) : dieOf (32 * g + k) = g / 8 := by unfold dieOf; omega
  have hepoch : u.fld .stnDieEpoch (g / 8) 15 0 = e := by
    have hlt : g / 8 < Reg.stnDieEpoch.info.count := by show g / 8 < 4; omega
    exact (hstamp.fld (by decide) hlt 15 0).trans (hspare.fld (by decide) hlt 15 0)
  refine ⟨?_, hstns, fun k hk hne => ?_, fun k hk heq => ?_⟩
  · exact (hstamp.fld (by decide) hg 5 0).trans ((s.fld_setFld_self _ _ _ (by decide) (by decide)).trans (Nat.mod_eq_of_lt hq))
  · rw [State.quarantined, hword k hk, if_pos hne, hdie k hk, hepoch, decide_eq_true_eq]
    omega
  · rw [State.quarantined, hword k hk, if_neg (not_not.2 heq), hdie k hk, hepoch, State.quarantined, hdie k hk]

theorem State.writeOut_segSpare {s : State} {who : Requester} {g v : Nat} (hg : g < 32) (h : s.accepts who .segSpare g v)
    (hstop : s.ownerStopped .segSpare g = true) : let u := s.writeOut who (Reg.at .segSpare g) 4 v
    u.sparePos g = bitsOf v 5 0 ∧ u.stations = s.stations ∧
      (∀ k < 32, slotPos (s.sparePos g) k ≠ slotPos (bitsOf v 5 0) k → u.quarantined (32 * g + k) = true) ∧
      (∀ k < 32, slotPos (s.sparePos g) k = slotPos (bitsOf v 5 0) k → u.quarantined (32 * g + k) = s.quarantined (32 * g + k)) := by
  intro u
  let t := (s.putFields .segSpare g false v).dropRwe .segSpare g
  have halike := State.writeOut_effect h (by decide)
  have hput : s.putReg .segSpare g false v = t.spareTo g (bitsOf v 5 0) := by
    rw [State.putReg_eq, if_neg (by decide), if_pos hstop]
    rfl
  rw [hput] at halike
  have hsameRegs : (t.spareTo g (bitsOf v 5 0)).RegsKept u [] := .of_regs halike.regs
  have hstns : t.stations = s.stations := rfl
  have hregs : t.regs = (s.putFields .segSpare g false v).regs := State.dropRwe_regs _ _ _
  have hkept : s.RegsKept t [.segSpare] := fun r hr i hi =>
    (State.reg_congr hregs r i).trans ((s.putFields_wordsKept hg v).reg hr hi)
  have hspare : t.sparePos g = s.sparePos g :=
    State.fld_congr ((State.reg_congr hregs _ _).trans (s.reg_putFields_none .segSpare g v rfl rfl)) 5 0
  obtain ⟨hpos, hsame, hmoved, hstay⟩ := t.spareTo_spec hg (bitsOf_lt v 5 0)
  rw [hspare] at hmoved hstay
  have hquar (k : Nat) (hk : k < 32) : u.quarantined (32 * g + k) = (t.spareTo g (bitsOf v 5 0)).quarantined (32 * g + k) :=
    State.quarantined_congr hsameRegs (by simp) (by simp) (by omega)
  refine ⟨(halike.fld .segSpare g 5 0).trans hpos, halike.stations.trans (hsame.trans hstns),
    fun k hk hne => (hquar k hk).trans (hmoved k hk hne), fun k hk heq => (hquar k hk).trans ((hstay k hk heq).trans ?_)⟩
  exact State.quarantined_congr hkept (by decide) (by decide) (by omega)

/-! ### FMT_TABLE_WRITE (R92, R93) -/

section
variable {s : State} {who : Requester} {d v k : Nat} (hd : d < 4) (hk : k < 4096) (h : s.accepts who .fmtTable (4096 * d + k) v)
include hk h

theorem State.fmtTable_stopped (hstop : s.dieRunning d = false) :
    (s.writeOut who (Reg.at .fmtTable (4096 * d + k)) 4 v).reg .fmtTable (4096 * d + k) =
      mix (s.reg .fmtTable (4096 * d + k)) v 0xFFFF038F := by
  have hix : (4096 * d + k) / 4096 = d := by omega
  have hown : s.ownerStopped .fmtTable (4096 * d + k) = true := by
    simp only [State.ownerStopped, Reg.stn, Reg.dieIx, Reg.info, hix, hstop, Bool.not_false]
  rw [State.reg_congr (State.writeOut_acts h (by decide)) .fmtTable]
  show ((s.putReg .fmtTable (4096 * d + k) false v).reg .fmtTable (4096 * d + k)) = _
  rw [State.putReg_eq, if_neg (by decide), if_pos hown, State.applyRwe_eq _ _ _ (by decide), State.reg_setReg,
    State.reg_congr (State.dropRwe_regs _ _ _), s.reg_putFields_none .fmtTable _ v rfl rfl]
  exact Nat.mod_eq_of_lt (BitVec.isLt _)

include hd

theorem State.fmtTable_running (hrun : s.dieRunning d = true) : let u := s.writeOut who (Reg.at .fmtTable (4096 * d + k)) 4 v
    u.reg .fmtTable (4096 * d + k) = s.reg .fmtTable (4096 * d + k) ∧
      (⟨Reg.at .fmtTable (4096 * d + k), BitVec.ofNat 32 (only v 0xFFFF038F), s.maxPassed d + 1⟩ : DieRwe) ∈ (u.die d).rwe := by
  intro u
  have hix : (4096 * d + k) / 4096 = d := by omega
  have hdie : Reg.dieIx .fmtTable (4096 * d + k) = some d := by simp only [Reg.dieIx, Reg.info, hix]
  have hown : s.ownerStopped .fmtTable (4096 * d + k) = false := by
    simp only [State.ownerStopped, Reg.stn, Reg.dieIx, Reg.info, hix, hrun, Bool.not_true]
  have hput : s.putReg .fmtTable (4096 * d + k) false v =
      (s.putFields .fmtTable (4096 * d + k) false v).holdRwe .fmtTable (4096 * d + k) (only v 0xFFFF038F) := by
    rw [State.putReg_eq, if_neg (by decide), if_neg (by rw [hown]; decide)]
    rfl
  have halike := State.writeOut_effect h (by decide)
  rw [hput] at halike
  have hlt : 4096 * d + k < Reg.fmtTable.info.count := by show 4096 * d + k < 16384; omega
  rw [← s.maxPassed_putFields (r := .fmtTable) (i := 4096 * d + k) (hi := false) v (by decide) hlt (by simp) hd, halike.die]
  refine ⟨(halike.reg .fmtTable _).trans ?_, State.mem_rwe_holdRwe_die _ _ rfl hdie⟩
  exact (State.reg_congr (State.holdRwe_regs _ _ _ _) _ _).trans (s.reg_putFields_none .fmtTable _ v rfl rfl)

end

/-! ### State epochs (R397) -/

/-- A register whose low half is its one field takes it. -/
theorem State.writeOut_lowHalf {s : State} {who : Requester} {r : Reg} {i v : Nat} (h : s.accepts who r i v)
    (hrgn : r ≠ .prismRgnBase ∧ r ≠ .prismRgnShape ∧ r ≠ .prismRgnScale ∧ r ≠ .prismRgnTwin) (hrwe : r.info.rwe = 0)
    (hrw : r.info.rw = 0xFFFF) (hw1c : r.info.w1c = 0) (heff : ∀ t : State, t.csrEffect who r i v = t) :
    (s.writeOut who (r.at i) 4 v).fld r i 15 0 = v % 2 ^ 16 := by
  rw [State.fld_congr (State.regAt_congr (State.writeOut_acts h hrgn) r (r.at i)), heff, s.putReg_plain i v hrwe,
    s.fld_putFields r i v (by decide) fun k _ hk => ?_]
  · rfl
  · rw [hrw, hw1c]
    refine ⟨?_, Nat.zero_testBit k⟩
    interval_cases k <;> rfl

/-! ### DBG_STEP (R182) -/

theorem State.tick0_congr {s u : State} {rs : List Reg} (h : s.RegsKept u rs) (hrs : Reg.segSpare ∉ rs) (hrefc : u.refc = s.refc)
    (hratio : u.ratio = s.ratio) (hpkg : u.pkgRing = s.pkgRing) (n : Stn) : u.tick0 n = s.tick0 n := by
  rw [State.tick0, State.tickOf_congr h hrs hrefc hratio hpkg n, State.tick0]

/-- A station at its break resumes: for good with FREE, or for TICKS + 1 ticks. -/
theorem State.writeOut_dbgStep {s : State} {who : Requester} {d w : Nat} (hd : d < 4) (h : s.accepts who .dbgStep d w) (hgo : w.testBit 31 = true)
    (hscope : bitsOf w 25 24 = 0) : let u := s.writeOut who (Reg.at .dbgStep d) 4 w
    let n := 256 * d + bitsOf w 23 16
    let stop := if w.testBit 30 then none else some (s.tick0 n + (bitsOf w 15 0 + 1))
    u.station n = { s.station n with run := .running, stopAt := stop, step := stop } ∧ ∀ j, j ≠ n → u.station j = s.station j := by
  intro u n stop
  let t := s.putFields .dbgStep d false w
  have halike := State.writeOut_effect h (by decide)
  have hgoes : (s.putReg .dbgStep d false w).csrEffect who .dbgStep d w = t.dbgGo d w := by
    rw [s.putReg_plain d w rfl]
    exact t.onlyIf_set hgo (·.dbgGo d w)
  have hn : n < 1024 := by
    have hlow : bitsOf w 23 16 < 2 ^ 8 := bitsOf_lt w 23 16
    show 256 * d + bitsOf w 23 16 < 1024
    omega
  have hkept : s.RegsKept t [.dbgStep] := fun r hr i hi => (s.putFields_wordsKept hd w).reg hr hi
  have htick : t.tick0 n = s.tick0 n := State.tick0_congr hkept (by decide) rfl rfl rfl ⟨n, hn⟩
  have hdbg : t.dbgGo d w = t.modStation n (fun x => { x with run := .running, stopAt := stop, step := stop }) := by
    unfold State.dbgGo
    dsimp only
    rw [if_pos hscope, htick]
    rfl
  have hothers (j : Nat) (hj : j ≠ n) : (t.dbgGo d w).station j = s.station j := by
    rw [hdbg, State.station_modStation, if_neg (Ne.symm hj)]
    rfl
  have hown : (t.dbgGo d w).station n = { s.station n with run := .running, stopAt := stop, step := stop } := by
    rw [hdbg, State.station_modStation_self]
    rfl
  rw [hgoes] at halike
  exact ⟨(halike.station n).trans hown, fun j hj => (halike.station j).trans (hothers j hj)⟩

/-- DBG_STEP_FREE, whatever other bits the value has. -/
theorem State.dbgStep_free {s : State} {who : Requester} {d v : Nat} (hd : d < 4) (h : s.accepts who .dbgStep d (v ||| (2 ^ 31 + 2 ^ 30)))
    (hscope : bitsOf v 25 24 = 0) : let u := s.writeOut who (Reg.at .dbgStep d) 4 (v ||| (2 ^ 31 + 2 ^ 30))
    let n := 256 * d + bitsOf v 23 16
    u.station n = { s.station n with run := .running, stopAt := none, step := none } ∧ ∀ j, j ≠ n → u.station j = s.station j := by
  have hgo : (v ||| (2 ^ 31 + 2 ^ 30)).testBit 31 = true := by
    rw [Nat.testBit_or, show (2 ^ 31 + 2 ^ 30 : Nat).testBit 31 = true by decide, Bool.or_true]
  have hfree : (v ||| (2 ^ 31 + 2 ^ 30)).testBit 30 = true := by
    rw [Nat.testBit_or, show (2 ^ 31 + 2 ^ 30 : Nat).testBit 30 = true by decide, Bool.or_true]
  have hlow (hi lo : Nat) (hhi : hi < 30) : bitsOf (v ||| (2 ^ 31 + 2 ^ 30)) hi lo = bitsOf v hi lo := by
    refine bitsOf_or_apart v _ fun k _ hk => ?_
    rw [show 2 ^ 31 + 2 ^ 30 = 2 ^ 30 * 3 from rfl, Nat.testBit_two_pow_mul]
    simp only [ge_iff_le, show ¬ 30 ≤ k by omega, decide_false, Bool.false_and]
  have hstep := State.writeOut_dbgStep hd h hgo ((hlow 25 24 (by decide)).trans hscope)
  rwa [hlow 23 16 (by decide), hfree] at hstep

/-- DBG_STEP_TICKS, whatever the high bits of the value are. -/
theorem State.dbgStep_ticks {s : State} {who : Requester} {d v : Nat} (hd : d < 4) (h : s.accepts who .dbgStep d (only v (2 ^ 30 - 1) + 2 ^ 31))
    (hscope : bitsOf v 25 24 = 0) : let u := s.writeOut who (Reg.at .dbgStep d) 4 (only v (2 ^ 30 - 1) + 2 ^ 31)
    let n := 256 * d + bitsOf v 23 16
    u.station n = { s.station n with run := .running, stopAt := some (s.tick0 n + bitsOf v 15 0 + 1),
                                     step := some (s.tick0 n + bitsOf v 15 0 + 1) } ∧ ∀ j, j ≠ n → u.station j = s.station j := by
  have hlt : only v (2 ^ 30 - 1) < 2 ^ 31 := by
    refine Nat.lt_pow_two_of_testBit _ fun k hk => ?_
    by_cases hk32 : k < 32
    · rw [testBit_only _ _ hk32, Nat.testBit_two_pow_sub_one, decide_eq_false (by omega), Bool.and_false]
    · exact Nat.testBit_lt_two_pow (lt_of_lt_of_le (only_lt _ _) (Nat.pow_le_pow_right (by decide) (by omega)))
  have hbit (k : Nat) (hk : k < 31) : (only v (2 ^ 30 - 1) + 2 ^ 31).testBit k = (v.testBit k && decide (k < 30)) := by
    rw [Nat.add_comm, Nat.testBit_two_pow_add_gt hk, testBit_only _ _ (by omega), Nat.testBit_two_pow_sub_one]
  have hgo : (only v (2 ^ 30 - 1) + 2 ^ 31).testBit 31 = true := by
    rw [Nat.add_comm, Nat.testBit_two_pow_add_eq, Nat.testBit_lt_two_pow hlt, Bool.not_false]
  have hlow (hi lo : Nat) (hhi : hi < 30) : bitsOf (only v (2 ^ 30 - 1) + 2 ^ 31) hi lo = bitsOf v hi lo :=
    bitsOf_congr fun k _ hk => by rw [hbit k (by omega), decide_eq_true (by omega), Bool.and_true]
  have hstep := State.writeOut_dbgStep hd h hgo ((hlow 25 24 (by decide)).trans hscope)
  rw [hlow 23 16 (by decide), hlow 15 0 (by decide), hbit 30 (by decide)] at hstep
  rwa [decide_eq_false (by decide), Bool.and_false] at hstep

/-! ### LC_INV (R277) -/

theorem State.writeOut_lcInv {s : State} {who : Requester} {d v : Nat} (h : s.accepts who .msLcCtrl d v) (hinv : bitOf v 1 = true) :
    ((s.writeOut who (Reg.at .msLcCtrl d) 4 v).die d) = (s.die d).lcInvalidate := by
  have halike := State.writeOut_effect h (by decide)
  rw [s.putReg_plain d v rfl] at halike
  let t := s.putFields .msLcCtrl d false v
  have hdies : (t.csrEffect who .msLcCtrl d v).dies = (t.modDie d DieSt.lcInvalidate).dies := by
    show (State.onlyIf (t.onlyIf (bitOf v 1) (fun t => t.modDie d DieSt.lcInvalidate)) (bitOf v 2) _).dies = _
    rw [t.onlyIf_set hinv]
    unfold State.onlyIf
    split <;> rfl
  exact (halike.die d).trans <| (State.die_congr hdies d).trans (t.die_modDie_self d _)

/-! ### Channel tests (R278, R281) -/

/-- From `s` to `u`, nothing differs but registers, reports and the stacks. -/
def State.TestOnly (s u : State) : Prop := u = { s with regs := u.regs, fw := u.fw, stackMem := u.stackMem }

theorem State.TestOnly.trans {s t u : State} (h : s.TestOnly t) (g : t.TestOnly u) : s.TestOnly u :=
  Eq.trans g (by rw [show t = _ from h])

theorem State.CapturedTo.test {s u : State} (h : s.CapturedTo u) : s.TestOnly u ∧ u.stackMem = s.stackMem := by
  rw [show u = _ from h]
  exact ⟨rfl, rfl⟩

theorem State.msErrorAt_capturedTo (s : State) (n kind ch page : Nat) : s.CapturedTo (s.msErrorAt n kind ch page) := by
  unfold State.msErrorAt
  refine State.CapturedTo.trans ?_ (State.setReg_capturedTo _ _ _ _)
  split
  · exact (State.raise_capturedTo _ _ _).1
  · exact State.capture_capturedTo _ _ _ _

theorem State.tgXfer_capturedTo (s : State) (c x : Nat) (write : Bool) (bad : TgFails) : s.CapturedTo (s.tgXfer c x write bad).1 := by
  unfold State.tgXfer
  split
  · rfl
  · dsimp only
    split
    · exact State.setReg_capturedTo _ _ _ _
    · exact (s.setReg_capturedTo _ _ _).trans (State.msErrorAt_capturedTo _ _ _ _ _)

theorem State.tgWrite_testOnly (c pat : Nat) (bad : TgFails) (n : Nat) : ∀ (s : State) (x : Nat), s.TestOnly (s.tgWrite c pat x bad n) := by
  induction n with
  | zero => exact fun _ _ => rfl
  | succ n ih =>
    intro s x
    rw [State.tgWrite]
    refine State.TestOnly.trans (State.TestOnly.trans (s.tgXfer_capturedTo c x true bad).test.1 ?_) (ih _ _)
    unfold State.onlyIf
    split <;> rfl

theorem State.tgCheck1_capturedTo (s : State) (c pat x : Nat) (bad : TgFails) : s.CapturedTo (s.tgCheck1 c pat x bad) := by
  have hxfer := s.tgXfer_capturedTo c x false bad
  unfold State.tgCheck1
  dsimp only
  split
  · exact hxfer
  · split
    · exact hxfer.trans (State.setReg_capturedTo _ _ _ _)
    · exact ((hxfer.trans (State.setReg_capturedTo _ _ _ _)).trans (State.setReg_capturedTo _ _ _ _)).trans (State.setReg_capturedTo _ _ _ _)

theorem State.tgCheck_capturedTo (c pat : Nat) (bad : TgFails) (n : Nat) : ∀ (s : State) (x : Nat), s.CapturedTo (s.tgCheck c pat x bad n) := by
  induction n with
  | zero => exact fun _ _ => rfl
  | succ n ih =>
    intro s x
    rw [State.tgCheck]
    exact (s.tgCheck1_capturedTo c pat x bad).trans (ih _ _)

/-- What a run writes and checks before its status bit falls; one that only checks changes no memory. -/
theorem State.tgRun_eq (s : State) (c done : Nat) (bad : TgFails) : ∃ t, s.tgRun c done bad = t.setFld .msTgStatus c 31 31 0 ∧ s.TestOnly t ∧
    (s.fld .msTgCtrl c 29 28 = 2 → t.stackMem = s.stackMem) := by
  unfold State.tgRun
  extract_lets v q mode pat wr ck
  have hwrite := State.tgWrite_testOnly c pat bad (32 * wr) s q.1
  obtain ⟨hcheck, hmem⟩ := (State.tgCheck_capturedTo c pat bad (32 * ck) (s.tgWrite c pat q.1 bad (32 * wr)) q.1).test
  refine ⟨_, rfl, hwrite.trans hcheck, fun hmode => hmem.trans ?_⟩
  have hwr : wr = 0 := if_pos hmode
  rw [hwr, Nat.mul_zero, State.tgWrite]

/-- A run ends with its status bit 0. -/
theorem State.tgRun_spec (s : State) {c : Nat} (done : Nat) (bad : TgFails) : let u := s.tgRun c done bad
    s.TestOnly u ∧ u.bit .msTgStatus c 31 = false ∧ (s.fld .msTgCtrl c 29 28 = 2 → u.stackMem = s.stackMem) := by
  obtain ⟨t, ht, honly, hmem⟩ := s.tgRun_eq c done bad
  rw [ht]
  obtain ⟨hstatus, hsame⟩ := (t.setReg_capturedTo .msTgStatus c (setBits (t.reg .msTgStatus c) 31 31 0)).test
  refine ⟨honly.trans hstatus, ?_, fun hmode => hsame.trans (hmem hmode)⟩
  rw [State.bit_setFld_one _ _ _ _ (by decide), Nat.zero_testBit]

@[simp] theorem State.reg_withStops (s : State) (l : List Nat) (r : Reg) (i : Nat) : ({ s with tgStops := l } : State).reg r i = s.reg r i := rfl

@[simp] theorem State.bit_withStops (s : State) (l : List Nat) (r : Reg) (i k : Nat) : ({ s with tgStops := l } : State).bit r i k = s.bit r i k :=
  rfl

theorem State.TestOnly.frame {s u : State} (h : s.TestOnly u) : u.stations = s.stations ∧ u.tgStops = s.tgStops := by
  rw [show u = _ from h]
  exact ⟨rfl, rfl⟩

theorem execTgRunDone_eq {s : State} (r : TgDone) (hon : s.bit .msTgStatus r.ch 31 = true) : exec (.tgRunDone r) s = .next
    (if s.tgStops.contains r.ch.val then { s.tgRun r.ch (min r.upto (s.tgLines r.ch)) r.fails with tgStops := s.tgStops.filter (· ≠ r.ch.val) }
     else if s.fld .msTgCtrl r.ch 29 28 = 3 then (s.tgRun r.ch (s.tgLines r.ch) r.fails).setFld .msTgStatus r.ch 31 31 1
     else s.tgRun r.ch (s.tgLines r.ch) r.fails) :=
  congrArg Host.Outcome.next (if_pos hon)

/-- A run that STOP was noted of ends; one that nothing stops ends with its range, where one that repeats goes on. -/
theorem State.tgRunDone_spec {s : State} (ch : Fin 128) (upto : Nat) (bad : TgFails) (hon : s.bit .msTgStatus ch 31 = true) :
    ∃ u, exec (.tgRunDone ⟨ch, upto, bad⟩) s = .next u ∧ u.stations = s.stations ∧
      u.bit .msTgStatus ch 31 = (decide (s.fld .msTgCtrl ch 29 28 = 3) && !s.tgStops.contains ch.val) ∧ u.tgStops.contains ch.val = false ∧
      (s.fld .msTgCtrl ch 29 28 = 2 → u.stackMem = s.stackMem) := by
  refine ⟨_, execTgRunDone_eq ⟨ch, upto, bad⟩ hon, ?_⟩
  dsimp only
  split
  · next hstop =>
    obtain ⟨honly, hbit, hmem⟩ := s.tgRun_spec (c := ch) (min upto (s.tgLines ch)) bad
    generalize s.tgRun ch (min upto (s.tgLines ch)) bad = t at honly hbit hmem
    refine ⟨honly.frame.1, ?_, ?_, hmem⟩
    · rw [hstop, Bool.not_true, Bool.and_false, State.bit_withStops, hbit]
    · simp
  · next hstop =>
    have hfree : s.tgStops.contains ch.val = false := by simpa using hstop
    obtain ⟨honly, hbit, hmem⟩ := s.tgRun_spec (c := ch) (s.tgLines ch) bad
    generalize s.tgRun ch (s.tgLines ch) bad = t at honly hbit hmem
    obtain ⟨hstns, hstops⟩ := honly.frame
    split
    · next hmode =>
      refine ⟨by simpa using hstns, ?_, ?_, fun h => absurd (hmode.symm.trans h) (by decide)⟩
      · rw [State.bit_setFld_one _ _ _ _ (by decide), hmode, hfree]
        rfl
      · simpa [hstops] using hfree
    · next hmode =>
      refine ⟨hstns, ?_, (congrArg (List.contains · ch.val) hstops).trans hfree, hmem⟩
      rw [decide_eq_false hmode, Bool.false_and]
      exact hbit

/-- The state in which a write of MS_TG_CTRL has its effects. -/
theorem State.writeOut_msTgCtrl {s : State} {who : Requester} {c v : Nat} (h : s.accepts who .msTgCtrl c v) :
    (((s.putFields .msTgCtrl c false v).onlyIf (bitOf v 31) (·.tgStart c)).onlyIf (bitOf v 30) (·.tgStop c)).Alike
      (s.writeOut who (Reg.at .msTgCtrl c) 4 v) := by
  have heff := State.writeOut_effect h (by decide)
  rw [s.putReg_plain c v rfl] at heff
  exact heff

/-- The registers of a test that begins. -/
def State.tgBegun (s : State) (c : Nat) : State := (s.setReg .msTgErrs c 0).setFld .msTgStatus c 31 31 1

theorem State.tgBegun_spec (s : State) {c : Nat} (hc : c < 128) : (s.tgBegun c).reg .msTgErrs c = 0 ∧ (s.tgBegun c).bit .msTgStatus c 31 = true := by
  have hstatus : (s.setReg .msTgErrs c 0).RegsKept (s.tgBegun c) [.msTgStatus] := State.setFld_regsKept _ (by simp) hc _ _ _
  refine ⟨(hstatus .msTgErrs (by decide) c hc).trans (s.reg_setReg _ _ 0), ?_⟩
  rw [State.tgBegun, State.bit_setFld_one _ _ _ _ (by decide)]
  decide

theorem State.tgStart_spec (s : State) {c : Nat} (hc : c < 128) : let u := s.tgStart c
    u.reg .msTgErrs c = 0 ∧ u.bit .msTgStatus c 31 = true ∧ u.stackMem = s.stackMem ∧ u.stations = s.stations := by
  obtain ⟨herrs, hbit⟩ := s.tgBegun_spec hc
  unfold State.tgBegun at herrs hbit
  unfold State.tgStart
  exact ⟨by rw [State.reg_withStops, herrs], by rw [State.bit_withStops, hbit], by simp, by simp⟩

theorem State.tgStop_spec (s : State) {c : Nat} (hon : s.bit .msTgStatus c 31 = true) : let u := s.tgStop c
    u.tgStops.contains c = true ∧ u.bit .msTgStatus c 31 = true ∧ u.stations = s.stations ∧ u.stackMem = s.stackMem := by
  unfold State.tgStop
  split
  · exact ⟨by simp, hon, rfl, rfl⟩
  · next h => exact ⟨by simpa [hon] using h, hon, rfl, rfl⟩

theorem State.writeOut_tgStart {s : State} {who : Requester} {c v : Nat} (hc : c < 128) (h : s.accepts who .msTgCtrl c v)
    (hstart : bitOf v 31 = true) (hrun : bitOf v 30 = false) : let u := s.writeOut who (Reg.at .msTgCtrl c) 4 v
    u.reg .msTgErrs c = 0 ∧ u.bit .msTgStatus c 31 = true ∧ u.stackMem = s.stackMem := by
  intro u
  have halike := State.writeOut_msTgCtrl h
  rw [State.onlyIf_set _ hstart, State.onlyIf, if_neg (by rw [hrun]; decide)] at halike
  obtain ⟨herrs, hbit, hmem, -⟩ := (s.putFields .msTgCtrl c false v).tgStart_spec hc
  exact ⟨(halike.reg _ _).trans herrs, (halike.bit _ _ _).trans hbit, halike.stackMem.trans hmem⟩

theorem State.writeOut_tgStop {s : State} {who : Requester} {c v : Nat} (hc : c < 128) (h : s.accepts who .msTgCtrl c v)
    (hstop : bitOf v 30 = true) (hon : s.bit .msTgStatus c 31 = true) : let u := s.writeOut who (Reg.at .msTgCtrl c) 4 v
    u.tgStops.contains c = true ∧ u.bit .msTgStatus c 31 = true ∧ u.stations = s.stations ∧ u.stackMem = s.stackMem := by
  intro u
  let t := s.putFields .msTgCtrl c false v
  have halike := State.writeOut_msTgCtrl h
  rw [State.onlyIf_set _ hstop] at halike
  have hruns : (t.onlyIf (bitOf v 31) (·.tgStart c)).bit .msTgStatus c 31 = true ∧
      (t.onlyIf (bitOf v 31) (·.tgStart c)).stations = s.stations ∧ (t.onlyIf (bitOf v 31) (·.tgStart c)).stackMem = s.stackMem := by
    unfold State.onlyIf
    split
    · obtain ⟨-, hbit, hmem, hstns⟩ := t.tgStart_spec hc
      exact ⟨hbit, hstns, hmem⟩
    · exact ⟨(congrArg (bitOf · 31) ((s.putFields_wordsKept (r := .msTgCtrl) hc v).reg (q := .msTgStatus) (by decide) hc)).trans hon, rfl, rfl⟩
  obtain ⟨hbit, hstns, hmem⟩ := hruns
  obtain ⟨hnoted, hstill, hsameStns, hsameMem⟩ := State.tgStop_spec _ hbit
  exact ⟨(congrArg (List.contains · c) halike.tgStops).trans hnoted, (halike.bit _ _ _).trans hstill,
    halike.stations.trans (hsameStns.trans hstns), halike.stackMem.trans (hsameMem.trans hmem)⟩

/-! ### PATROL_SCRUB (R266, R279) -/

theorem execPatrolScrub_on {s : State} (ch : Fin 128) (n : Nat) (hon : s.bit .msCtrl (ch.val / 4) 2 = true) :
    exec (.patrolScrub ch n) s = .next (s.countFld .msErrCount (ch.val / 4) 31 16 n) := congrArg Host.Outcome.next (if_pos hon)

theorem State.countFld_regsOnly (s : State) (r : Reg) (i hi lo n : Nat) : s.RegsOnly (s.countFld r i hi lo n) [r.at i] :=
  ⟨fun q _ ho => s.regAt_setFld_ne r q i _ (fun e => ho (by simp [e])), rfl⟩

/-- Settles O42, the writes of dies and stations, then those of stacks and what the stacks do by themselves. -/
theorem dieAndStackControlWrites : Obligations.DieAndStackControlWrites := by
  unfold Obligations.DieAndStackControlWrites
  refine ⟨fun s who d val => ?_, fun s who val ch => ?_⟩
  · intro v
    refine ⟨fun h => ⟨_, rfl, ?_⟩, fun h => ⟨_, rfl, ?_⟩, fun g h hstop => ⟨_, rfl, ?_⟩, fun tag h => ⟨fun hstop => ⟨_, rfl, ?_⟩, fun hrun => ⟨_, rfl, ?_⟩⟩,
      fun n h => ⟨_, rfl, ?_⟩, fun g h => ⟨_, rfl, ?_⟩, ?_⟩
    · exact State.fwHold_set d.isLt h (bitOf_or_pow v 14)
    · exact State.fwHold_release d.isLt h (by rw [testBit_only_off v 14 (by decide) (by decide)]; simp)
    · exact State.writeOut_segSpare g.isLt h hstop
    · exact State.fmtTable_stopped tag.isLt h hstop
    · exact State.fmtTable_running d.isLt tag.isLt h hrun
    · exact State.writeOut_lowHalf h (by decide) rfl rfl rfl (fun _ => rfl)
    · exact State.writeOut_lowHalf h (by decide) rfl rfl rfl (fun _ => rfl)
    · intro hscope n
      exact ⟨fun h => ⟨_, rfl, State.dbgStep_free d.isLt h hscope⟩, fun h => ⟨_, rfl, State.dbgStep_ticks d.isLt h hscope⟩⟩
  · intro v
    refine ⟨fun d h => ⟨_, rfl, ?_⟩, fun h hrun => ⟨_, rfl, ?_⟩, fun h hon => ⟨_, rfl, ?_⟩, fun upto bad hon => ?_, fun n hon => ?_⟩
    · have hdie := State.writeOut_lcInv h (bitOf_or_pow v 1)
      exact ⟨congrArg DieSt.lines hdie, congrArg DieSt.fills hdie⟩
    · refine State.writeOut_tgStart ch.isLt h (bitOf_or_pow v 31) ?_
      rw [bitOf, Nat.testBit_or, Nat.testBit_two_pow]
      simpa [bitOf] using hrun
    · exact State.writeOut_tgStop ch.isLt h (bitOf_or_pow v 30) hon
    · exact State.tgRunDone_spec ch upto bad hon
    · exact ⟨_, execPatrolScrub_on ch n hon, s.countFld_regsOnly _ _ _ _ _, s.fld_countFld_self _ _ _ (by decide) (by decide)⟩

end Sys2Proof.Machine
end

section
/-! ## What a landing does to its station (O37) -/

namespace Sys2Proof.Machine

/-- From `x` to `y`, the ops and the writes in flight stand. -/
structure Station.FlightSame (x y : Station) : Prop where
  late : y.late = x.late
  vq : y.vq = x.vq
  dq : y.dq = x.dq
  mq : y.mq = x.mq
  unst : y.unst = x.unst

theorem Station.FlightSame.refl (x : Station) : x.FlightSame x := ⟨rfl, rfl, rfl, rfl, rfl⟩

theorem Station.FlightSame.trans {x y z : Station} (h : x.FlightSame y) (g : y.FlightSame z) : x.FlightSame z :=
  ⟨g.late.trans h.late, g.vq.trans h.vq, g.dq.trans h.dq, g.mq.trans h.mq, g.unst.trans h.unst⟩

/-- From `x` to `y`, the tiles and the scalar registers stand, and so does what is in flight. -/
structure Station.Beside (x y : Station) : Prop where
  flight : x.FlightSame y
  tiles : y.tiles = x.tiles
  scalars : ∀ m, (y.stream m).s = (x.stream m).s

theorem Station.Beside.refl (x : Station) : x.Beside x := ⟨.refl x, rfl, fun _ => rfl⟩

theorem Station.Beside.trans {x y z : Station} (h : x.Beside y) (g : y.Beside z) : x.Beside z :=
  ⟨h.flight.trans g.flight, g.tiles.trans h.tiles, fun m => (g.scalars m).trans (h.scalars m)⟩

/-- A change of a stream that leaves its scalar registers alone. -/
theorem Station.modStream_beside (x : Station) (m : Strm) (f : StreamSt → StreamSt) (hf : ∀ y, (f y).s = y.s) : x.Beside (x.modStream m f) := by
  refine ⟨by cases m <;> exact ⟨rfl, rfl, rfl, rfl, rfl⟩, by cases m <;> rfl, fun k => ?_⟩
  cases m <;> cases k <;> first | exact hf _ | rfl

theorem Station.setLens_beside (x : Station) (m : Strm) (r : LensRec) : x.Beside (x.setLens m r) := by
  cases m <;> exact ⟨⟨rfl, rfl, rfl, rfl, rfl⟩, rfl, fun k => by cases k <;> rfl⟩

theorem Station.lensAdd_beside (x : Station) (l : LensSrc) (f : LensRec → LensRec) : x.Beside (x.lensAdd l f) := by
  unfold Station.lensAdd
  split
  · exact x.setLens_beside _ _
  · exact ⟨⟨rfl, rfl, rfl, rfl, rfl⟩, rfl, fun k => by cases k <;> rfl⟩

theorem Station.setMask_beside (x : Station) (n : Nat) (vs : List (Nat × Bool)) : x.Beside (x.setMask n vs) := by
  unfold Station.setMask
  split
  · exact .refl x
  · exact ⟨⟨rfl, rfl, rfl, rfl, rfl⟩, rfl, fun k => by cases k <;> rfl⟩

theorem Station.foldl_setEntry_beside (vs : List (Nat × Nat)) (x : Station) : x.Beside (vs.foldl (fun y p => y.setEntry p.1 p.2) x) := by
  induction vs generalizing x with
  | nil => exact .refl x
  | cons p vs ih => exact .trans (y := x.setEntry p.1 p.2) ⟨⟨rfl, rfl, rfl, rfl, rfl⟩, rfl, fun k => by cases k <;> rfl⟩ (ih _)

section
variable (s : State) (n : Nat)

theorem State.modStation_beside (f : Station → Station) (hf : ∀ x, Station.Beside x (f x)) : (s.station n).Beside ((s.modStation n f).station n) := by
  rw [State.station_modStation_self]
  exact hf _

theorem State.lensTake_beside (l : LensSrc) (f : LensRec → LensRec) : (s.station n).Beside ((s.lensTake n l f).station n) := by
  unfold State.lensTake
  split
  · exact s.modStation_beside n _ (fun x => x.lensAdd_beside l f)
  · exact .refl _

theorem State.entWrite_beside (k row : Nat) (bs : List Byte) : (s.station n).Beside ((s.entWrite n k row bs).station n) := by
  unfold State.entWrite
  dsimp only
  split
  · split
    · exact s.modStation_beside n _ (fun x => ⟨⟨rfl, rfl, rfl, rfl, rfl⟩, rfl, fun k => by cases k <;> rfl⟩)
    · exact s.modStation_beside n _ (fun x => ⟨⟨rfl, rfl, rfl, rfl, rfl⟩, rfl, fun k => by cases k <;> rfl⟩)
    · exact .refl _
  · exact .refl _

theorem State.leaveTag_beside (m : Strm) : (s.station n).Beside ((s.leaveTag n m).station n) := by
  unfold State.leaveTag
  dsimp only
  split
  · exact s.modStation_beside n _ (fun x => (x.setLens_beside m _).trans ⟨⟨rfl, rfl, rfl, rfl, rfl⟩, rfl, fun k => by cases k <;> rfl⟩)
  · exact s.modStation_beside n _ (fun x => x.setLens_beside m _)

theorem State.setPhase_beside (m : Strm) (tag : BitVec 12) (lens : Bool) : (s.station n).Beside ((s.setPhase n m tag lens).station n) := by
  have hset : ∀ t : State, (t.station n).Beside ((t.modStream n m (fun y => { y with ltag := tag, lens := lens })).station n) := fun t =>
    t.modStation_beside n _ (fun x => x.modStream_beside m _ (fun _ => rfl))
  unfold State.setPhase
  dsimp only
  split
  · exact (s.leaveTag_beside n m).trans (hset _)
  · exact hset s

/-- Of the writes that land, those of tiles and of scalar registers alone touch tiles and scalar registers, and none touches what is in
flight. -/
theorem State.land_beside {w : Wr} (hels : ∀ k vs, w ≠ .els k vs) (hbytes : ∀ k vs, w ≠ .bytes k vs) (hsreg : ∀ m k v, w ≠ .sreg m k v) :
    (s.station n).Beside ((s.land n w).station n) := by
  have plain : ∀ (f : Station → Station), (∀ x, x.FlightSame (f x) ∧ (f x).tiles = x.tiles ∧ (f x).f = x.f ∧ (f x).b = x.b ∧ (f x).u = x.u) →
      (s.station n).Beside ((s.modStation n f).station n) := fun f hf => s.modStation_beside n f fun x => by
    obtain ⟨hflight, htiles, hF, hB, hU⟩ := hf x
    exact ⟨hflight, htiles, fun m => by cases m <;> simp only [Station.stream, hF, hB, hU]⟩
  have same : ∀ x : Station, x.FlightSame x := .refl
  cases w with
  | els k vs => exact absurd rfl (hels k vs)
  | bytes k vs => exact absurd rfl (hbytes k vs)
  | sreg m k v => exact absurd rfl (hsreg m k v)
  | mask k vs => exact s.modStation_beside n _ (fun x => x.setMask_beside k vs)
  | nacc m v => exact s.modStation_beside n _ (fun x => x.modStream_beside m _ (fun _ => rfl))
  | naccAdd m clr rows =>
    exact s.modStation_beside n (fun x => x.modStream m (fun y => { y with nacc := BitVec.ofNat 48 (naccSum clr (s.stream n m).nacc.toNat rows).1 }))
      (fun x => x.modStream_beside m _ (fun _ => rfl))
  | flags m code => exact .refl _
  | drained l vals => exact s.lensTake_beside n l _
  | counts l a b => exact s.lensTake_beside n l _
  | store a bs => exact plain _ (fun x => ⟨⟨rfl, rfl, rfl, rfl, rfl⟩, rfl, rfl, rfl, rfl⟩)
  | grad vs => exact s.modStation_beside n _ (fun x => x.foldl_setEntry_beside vs)
  | gradBytes a bs => exact plain _ (fun x => ⟨⟨rfl, rfl, rfl, rfl, rfl⟩, rfl, rfl, rfl, rfl⟩)
  | stash k row bs => exact s.entWrite_beside n k row bs
  | back k a bs => exact plain _ (fun x => ⟨⟨rfl, rfl, rfl, rfl, rfl⟩, rfl, rfl, rfl, rfl⟩)
  | lane scale a bs => exact plain _ (fun x => by cases scale <;> exact ⟨⟨rfl, rfl, rfl, rfl, rfl⟩, rfl, rfl, rfl, rfl⟩)
  | tap l w => exact plain _ (fun x => ⟨⟨rfl, rfl, rfl, rfl, rfl⟩, rfl, rfl, rfl, rfl⟩)
  | phase m tag lens => exact s.setPhase_beside n m tag lens

/-! ### Tiles -/

@[simp] theorem State.station_land_els (k : Nat) (vs : List (Nat × Word)) :
    (s.land n (.els k vs)).station n = (s.station n).setTile k (((s.station n).tile k).setEls vs) := s.station_modStation_self n _

@[simp] theorem State.station_land_bytes (k : Nat) (vs : List (Nat × Byte)) :
    (s.land n (.bytes k vs)).station n = (s.station n).setTile k (((s.station n).tile k).setBytes vs) := s.station_modStation_self n _

@[simp] theorem State.station_land_sreg (m : Strm) (k : Nat) (v : Word) :
    (s.land n (.sreg m k v)).station n = (s.station n).modStream m (·.setSreg k v) := s.station_modStation_self n _

theorem Station.tile_setTile (x : Station) (k r : Nat) (t : Tile) : (x.setTile k t).tile r = if k = r then t else x.tile r := Tbl.get_put _ _ _ _ _

theorem State.land_flight (w : Wr) : (s.station n).FlightSame ((s.land n w).station n) := by
  cases w with
  | els k vs => exact (s.station_land_els n k vs) ▸ ⟨rfl, rfl, rfl, rfl, rfl⟩
  | bytes k vs => exact (s.station_land_bytes n k vs) ▸ ⟨rfl, rfl, rfl, rfl, rfl⟩
  | sreg m k v =>
    rw [State.station_land_sreg]
    cases m <;> exact ⟨rfl, rfl, rfl, rfl, rfl⟩
  | _ => exact (s.land_beside n (by simp) (by simp) (by simp)).flight

end

/-- What a landing makes of the tiles rests on the tiles alone. -/
theorem State.land_tiles {s t : State} {n : Nat} (w : Wr) (h : (s.station n).tiles = (t.station n).tiles) :
    ((s.land n w).station n).tiles = ((t.land n w).station n).tiles := by
  cases w with
  | els k vs => simp only [State.station_land_els, Station.setTile, Station.tile, h]
  | bytes k vs => simp only [State.station_land_bytes, Station.setTile, Station.tile, h]
  | sreg m k v =>
    rw [State.station_land_sreg, State.station_land_sreg]
    cases m <;> exact h
  | _ => exact (s.land_beside n (by simp) (by simp) (by simp)).tiles.trans (h.trans (t.land_beside n (by simp) (by simp) (by simp)).tiles.symm)

theorem State.foldl_land_tiles {n : Nat} (ws : List Late) : ∀ {s t : State}, (s.station n).tiles = (t.station n).tiles →
    ((ws.foldl (fun u w => u.land n w.wr) s).station n).tiles = ((ws.foldl (fun u w => u.land n w.wr) t).station n).tiles := by
  induction ws with
  | nil => exact id
  | cons w ws ih => exact fun h => ih (State.land_tiles w.wr h)

theorem State.foldl_land_flight (n : Nat) (ws : List Late) : ∀ s : State,
    (s.station n).FlightSame ((ws.foldl (fun u w => u.land n w.wr) s).station n) := by
  induction ws with
  | nil => exact fun s => .refl _
  | cons w ws ih => exact fun s => (s.land_flight n w.wr).trans (ih _)

/-! ### The end of a tick in the pipelines (R127, R252) -/

theorem State.postOld_beside (s : State) (n : Nat) : (s.station n).Beside ((s.postOld n).station n) := by
  have hposts : ∀ (l : List LensOld) (t : State), (l.foldl (fun t o => t.postRec n o.strm o.tag o.rcd) t).station n = t.station n := by
    intro l
    induction l with
    | nil => exact fun t => rfl
    | cons o l ih => exact fun t => ih _
  unfold State.postOld
  dsimp only
  rw [hposts]
  exact s.modStation_beside n _ (fun x => ⟨⟨rfl, rfl, rfl, rfl, rfl⟩, rfl, fun k => by cases k <;> rfl⟩)

/-- The writes of the tick land; posts of the collector and the sources of X ops touch neither tiles nor what is in flight. -/
theorem State.pipeTick_lands (s : State) (n u : Nat) : let x := (s.station n).reads u
    (((s.setStation n (x.flying u)).landAll n (x.dueWrites u)).station n).Beside ((s.pipeTick n u).station n) := by
  intro x
  have heq : s.pipeTick n u = (((s.setStation n (x.flying u)).landAll n (x.dueWrites u)).postOld n).modStation n (fun y =>
    { y with xq := y.xq.map (fun e => e.readSource y u) }) := rfl
  rw [heq]
  generalize (s.setStation n (x.flying u)).landAll n (x.dueWrites u) = t
  exact (t.postOld_beside n).trans (State.modStation_beside _ n _ (fun y => ⟨⟨rfl, rfl, rfl, rfl, rfl⟩, rfl, fun k => by cases k <;> rfl⟩))

theorem State.pipeTick_flight (s : State) (n u : Nat) : (((s.station n).reads u).flying u).FlightSame ((s.pipeTick n u).station n) := by
  let t := s.setStation n (((s.station n).reads u).flying u)
  have ht : t.station n = ((s.station n).reads u).flying u := State.station_setStation_self _ _ _
  have hland := t.foldl_land_flight n (sortPri ((((s.station n).reads u).dueWrites u).filter
    (fun w => !w.givesWay (((s.station n).reads u).dueWrites u))))
  rw [ht] at hland
  exact hland.trans (s.pipeTick_lands n u).flight

/-- What the end of a tick makes of a station's tiles rests on the station alone. -/
theorem State.pipeTick_tiles {s t : State} {n : Nat} (h : s.station n = t.station n) (u : Nat) :
    ((s.pipeTick n u).station n).tiles = ((t.pipeTick n u).station n).tiles := by
  rw [(s.pipeTick_lands n u).tiles, (t.pipeTick_lands n u).tiles, h]
  exact State.foldl_land_tiles _ (by rw [State.station_setStation_self, State.station_setStation_self])

/-- What stays in flight at the end of a tick (R127, R252). -/
theorem State.pipeTick_stays (s : State) (n u : Nat) : let x := s.station n
    let y := (s.pipeTick n u).station n
    (∀ f ∈ y.vq, ∃ g ∈ x.vq, f = g.capture x u ∧ f.done u = false) ∧
    (∀ f ∈ y.dq, ∃ g ∈ x.dq, f = g.capture x u ∧ f.done u = false) ∧
    (∀ f ∈ y.mq, f ∈ x.mq ∧ f.done u = false) ∧
    (∀ w ∈ y.late, u < w.due ∧ (w ∈ x.late ∨ ∃ f ∈ x.mq, w ∈ f.reads x u)) ∧
    (∀ w ∈ x.late, u < w.due → w ∈ y.late) := by
  intro x y
  obtain ⟨hlate, hvq, hdq, hmq, -⟩ := s.pipeTick_flight n u
  simp only [y, hlate, hvq, hdq, hmq, Station.flying, Station.reads, List.mem_filter, List.mem_map, List.mem_append, List.mem_flatMap,
    Bool.not_eq_true', decide_eq_false_iff_not, Nat.not_le]
  refine ⟨?_, ?_, fun f h => h, fun w h => h.symm, fun w h hdue => ⟨.inl h, hdue⟩⟩
  · rintro f ⟨⟨g, hg, rfl⟩, hdone⟩
    exact ⟨g, hg, rfl, hdone⟩
  · rintro f ⟨⟨g, hg, rfl⟩, hdone⟩
    exact ⟨g, hg, rfl, hdone⟩

end Sys2Proof.Machine
end

section
/-! ## Which write of a tick stands (O37) -/

namespace Sys2Proof.Machine

theorem exists_last_split {α : Type} {a : α} {l : List α} (h : a ∈ l) : ∃ p q, l = p ++ a :: q ∧ a ∉ q := by
  obtain ⟨p, q, hl, hp⟩ := List.eq_append_cons_of_mem (List.mem_reverse.2 h)
  exact ⟨q.reverse, p.reverse, by simpa using congrArg List.reverse hl, by simpa using hp⟩

/-- Only the total of an XNORM gives way. -/
theorem Late.givesWay_false {w : Late} {ws : List Late} (h : ∀ m v, w.wr ≠ .nacc m v) : w.givesWay ws = false := by
  unfold Late.givesWay
  split
  · next hwr => exact absurd hwr (h _ _)
  · rfl

/-- A fact that a write establishes holds once the writes of its tick have landed, if no write that lands after it undoes it: it may rest on
what every landing keeps (R127, R129, R252). -/
theorem State.landAll_holds {n : Nat} {ws : List Late} {w : Late} (keeps holds : State → Prop) (hw : w ∈ ws) (hway : w.givesWay ws = false)
    (hkeeps : ∀ t wr, keeps t → keeps (t.land n wr)) (hsets : ∀ t, keeps t → holds (t.land n w.wr))
    (hlater : ∀ z ∈ ws, z ≠ w → w.pri.rank ≤ z.pri.rank → ∀ t, keeps t → holds t → holds (t.land n z.wr)) {s : State} (hs : keeps s) :
    holds (s.landAll n ws) := by
  obtain ⟨hperm, hsorted⟩ := sortPri_sorted (ws.filter (fun w => !w.givesWay ws))
  have hmem : w ∈ sortPri (ws.filter (fun w => !w.givesWay ws)) := hperm.mem_iff.2 (List.mem_filter.2 ⟨hw, by simp [hway]⟩)
  obtain ⟨p, q, hsplit, hlast⟩ := exists_last_split hmem
  have hbefore : ∀ (l : List Late) (t : State), keeps t → keeps (l.foldl (fun t w => t.land n w.wr) t) := by
    intro l
    induction l with
    | nil => exact fun t h => h
    | cons z l ih => exact fun t h => ih _ (hkeeps t z.wr h)
  have hafter : ∀ l : List Late, (∀ z ∈ l, z ∈ ws ∧ z ≠ w ∧ w.pri.rank ≤ z.pri.rank) → ∀ t : State, keeps t → holds t →
      holds (l.foldl (fun t w => t.land n w.wr) t) := by
    intro l
    induction l with
    | nil => exact fun _ t _ h => h
    | cons z l ih =>
      intro hl t hk h
      obtain ⟨hz, hne, hrank⟩ := hl z List.mem_cons_self
      exact ih (fun y hy => hl y (List.mem_cons_of_mem _ hy)) _ (hkeeps t z.wr hk) (hlater z hz hne hrank t hk h)
  rw [hsplit] at hsorted hperm
  rw [State.landAll, hsplit, List.foldl_append, List.foldl_cons]
  have hfirst := hbefore p s hs
  refine hafter q (fun z hz => ⟨?_, fun h => hlast (h ▸ hz), ?_⟩) _ (hkeeps _ _ hfirst) (hsets _ hfirst)
  · exact (List.mem_filter.1 (hperm.mem_iff.1 (by simp [hz]))).1
  · exact List.rel_of_pairwise_cons (List.pairwise_append.1 hsorted).2.1 hz

/-! ### Scalar registers -/

theorem StreamSt.sreg_setSreg (y : StreamSt) (k l : Nat) (v : Word) : (y.setSreg k v).sreg l = if k = l then v else y.sreg l := Tbl.get_put _ _ _ _ _

theorem State.sreg_land_self (s : State) (n : Nat) (m : Strm) (k : Nat) (v : Word) : ((s.land n (.sreg m k v)).stream n m).sreg k = v := by
  rw [State.stream, State.station_land_sreg]
  cases m <;> exact (StreamSt.sreg_setSreg _ _ _ _).trans (if_pos rfl)

theorem State.sreg_land_other (s : State) (n : Nat) {m : Strm} {k : Nat} {w : Wr} (h : ∀ v, w ≠ .sreg m k v) :
    ((s.land n w).stream n m).sreg k = (s.stream n m).sreg k := by
  have beside : ∀ {y : Station}, (s.station n).Beside y → (y.stream m).sreg k = (s.stream n m).sreg k := fun hb => by
    rw [StreamSt.sreg, hb.scalars m, StreamSt.sreg, State.stream]
  cases w with
  | els r vs =>
    rw [State.stream, State.station_land_els]
    cases m <;> rfl
  | bytes r vs =>
    rw [State.stream, State.station_land_bytes]
    cases m <;> rfl
  | sreg p l v =>
    rw [State.stream, State.station_land_sreg]
    by_cases hp : p = m
    · subst hp
      have hl : l ≠ k := fun hl => h v (hl ▸ rfl)
      cases p <;> exact (StreamSt.sreg_setSreg _ _ _ _).trans (if_neg hl)
    · cases p <;> cases m <;> first | exact absurd rfl hp | rfl
  | _ => exact beside (s.land_beside n (by simp) (by simp) (by simp))

theorem State.landAll_sreg (s : State) (n : Nat) {ws : List Late} {w : Late} {m : Strm} {k : Nat} {v : Word} (hw : w ∈ ws) (hwr : w.wr = .sreg m k v)
    (hlast : ∀ z ∈ ws, z ≠ w → ∀ v', z.wr = .sreg m k v' → z.pri.rank < w.pri.rank) : ((s.landAll n ws).stream n m).sreg k = v := by
  refine State.landAll_holds (fun _ => True) (fun t => (t.stream n m).sreg k = v) hw (Late.givesWay_false (by simp [hwr])) (fun _ _ _ => trivial)
    (fun t _ => ?_) (fun z hz hne hrank t _ h => ?_) trivial
  · rw [hwr]
    exact t.sreg_land_self n m k v
  · exact (t.sreg_land_other n (fun v' hz' => Nat.not_lt.2 hrank (hlast z hz hne v' hz'))).trans h

/-! ### Tile elements -/

@[simp] theorem Tile.length_setEls (vs : List (Nat × Word)) : ∀ t : Tile, (t.setEls vs).length = t.length := by
  induction vs with
  | nil => exact fun t => rfl
  | cons p vs ih => exact fun t => (ih _).trans (List.length_set ..)

@[simp] theorem Tile.length_setBytes (vs : List (Nat × Byte)) : ∀ t : Tile, (t.setBytes vs).length = t.length := by
  induction vs with
  | nil => exact fun t => rfl
  | cons p vs ih => exact fun t => (ih _).trans (List.length_set ..)

theorem Tile.el_set (t : Tile) (a k : Nat) (v : Word) (hk : k < t.length) : Tile.el (t.set a v) k = if a = k then v else t.el k := by
  rw [Tile.el, Tile.el, List.getD_eq_getElem?_getD, List.getD_eq_getElem?_getD, List.getElem?_set]
  split
  · next h => rw [if_pos (h ▸ hk), Option.getD_some]
  · rfl

/-- An element reads as the values written to it agree, or as it stood. -/
theorem Tile.el_setEls {k : Nat} {v : Word} (vs : List (Nat × Word)) (hv : ∀ p ∈ vs, p.1 = k → p.2 = v) : ∀ t : Tile, k < t.length →
    ((∃ p ∈ vs, p.1 = k) ∨ t.el k = v) → (t.setEls vs).el k = v := by
  induction vs with
  | nil => exact fun t _ h => h.resolve_left (by simp)
  | cons p vs ih =>
    intro t hk h
    refine ih (fun q hq => hv q (List.mem_cons_of_mem _ hq)) _ (by simpa using hk) ?_
    rw [Tile.el_set _ _ _ _ hk]
    rcases h with ⟨q, hq, hqk⟩ | h
    · rcases List.mem_cons.1 hq with rfl | hq
      · exact .inr ((if_pos hqk).trans (hv _ List.mem_cons_self hqk))
      · exact .inl ⟨q, hq, hqk⟩
    · split
      · next hpk => exact .inr (hv p List.mem_cons_self hpk)
      · exact .inr h

theorem Tile.el_setEls_apart {k : Nat} (vs : List (Nat × Word)) (h : ¬ ∃ p ∈ vs, p.1 = k) (t : Tile) (hk : k < t.length) :
    (t.setEls vs).el k = t.el k :=
  Tile.el_setEls vs (fun p hp hpk => absurd ⟨p, hp, hpk⟩ h) t hk (.inr rfl)

/-- A landing changes the tiles that it names. -/
theorem State.tile_land_other (s : State) (n : Nat) {r : Nat} {w : Wr} (hels : ∀ vs, w ≠ .els r vs) (hbytes : ∀ vs, w ≠ .bytes r vs) :
    ((s.land n w).station n).tile r = (s.station n).tile r := by
  cases w with
  | els q vs => rw [State.station_land_els, Station.tile_setTile, if_neg (fun h => hels vs (congrArg (Wr.els · vs) h))]
  | bytes q vs => rw [State.station_land_bytes, Station.tile_setTile, if_neg (fun h => hbytes vs (congrArg (Wr.bytes · vs) h))]
  | sreg m k v =>
    rw [State.station_land_sreg]
    cases m <;> rfl
  | _ => exact congrArg (Tbl.get _ · r) (s.land_beside n (by simp) (by simp) (by simp)).tiles

theorem State.length_tile_land (s : State) (n r : Nat) (w : Wr) : (((s.land n w).station n).tile r).length = ((s.station n).tile r).length := by
  by_cases h : (∀ vs, w ≠ .els r vs) ∧ ∀ vs, w ≠ .bytes r vs
  · rw [s.tile_land_other n h.1 h.2]
  · cases w with
    | els q vs =>
      rw [State.station_land_els, Station.tile_setTile]
      split
      · next hq => rw [hq, Tile.length_setEls]
      · rfl
    | bytes q vs =>
      rw [State.station_land_bytes, Station.tile_setTile]
      split
      · next hq => rw [hq, Tile.length_setBytes]
      · rfl
    | _ => exact absurd ⟨by simp, by simp⟩ h

theorem State.landAll_el (s : State) (n : Nat) {ws : List Late} {w : Late} {r k : Nat} {vs : List (Nat × Word)} {v : Word} (hw : w ∈ ws)
    (hwr : w.wr = .els r vs) (hmem : (k, v) ∈ vs) (hagree : ∀ p ∈ vs, p.1 = k → p.2 = v) (hk : k < ((s.station n).tile r).length)
    (hlast : ∀ z ∈ ws, z ≠ w → (∀ bs, z.wr = .bytes r bs → z.pri.rank < w.pri.rank) ∧
      ∀ vs', z.wr = .els r vs' → (∃ p ∈ vs', p.1 = k) → z.pri.rank < w.pri.rank) : (((s.landAll n ws).station n).tile r).el k = v := by
  refine State.landAll_holds (fun t => k < ((t.station n).tile r).length) (fun t => ((t.station n).tile r).el k = v) hw
    (Late.givesWay_false (by simp [hwr])) (fun t z h => (t.length_tile_land n r z).symm ▸ h) (fun t hlen => ?_) (fun z hz hne hrank t hlen h => ?_) hk
  · rw [hwr, State.station_land_els, Station.tile_setTile, if_pos rfl]
    exact Tile.el_setEls vs hagree _ hlen (.inl ⟨_, hmem, rfl⟩)
  · obtain ⟨hbytes, hels⟩ := hlast z hz hne
    by_cases hz' : ∃ vs', z.wr = .els r vs'
    · obtain ⟨vs', hvs⟩ := hz'
      rw [hvs, State.station_land_els, Station.tile_setTile, if_pos rfl,
        Tile.el_setEls_apart vs' (fun hp => Nat.not_lt.2 hrank (hels vs' hvs hp)) _ hlen]
      exact h
    · rw [t.tile_land_other n (fun vs' hvs => hz' ⟨vs', hvs⟩) (fun bs hbs => Nat.not_lt.2 hrank (hbytes bs hbs))]
      exact h

end Sys2Proof.Machine
end

section
/-! ## What stands while ticks go on (O37) -/

namespace Sys2Proof.Machine

/-! ### Reference counts, fault flits and resumes -/

/-- From `s` to `u`, no reference count and no announced resume differs, and every fault flit is still on its way. -/
structure State.Onward (s u : State) : Prop where
  refc : u.refc = s.refc
  flits : ∀ d, (s.die d).flits ⊆ (u.die d).flits
  resume : ∀ d, (u.die d).resumeIn = (s.die d).resumeIn

namespace State.Onward

variable {s t u : State}

theorem of_dies (hrefc : u.refc = s.refc) (hdies : u.dies = s.dies) : s.Onward u :=
  ⟨hrefc, fun d => by rw [State.die_congr hdies d]; exact List.Subset.refl _, fun d => by rw [State.die_congr hdies d]⟩

theorem trans (h : s.Onward t) (g : t.Onward u) : s.Onward u :=
  ⟨g.refc.trans h.refc, fun d => List.Subset.trans (h.flits d) (g.flits d), fun d => (g.resume d).trans (h.resume d)⟩

theorem foldl {α : Type} {f : State → α → State} (l : List α) (h : ∀ (s : State), ∀ a ∈ l, s.Onward (f s a)) (s : State) :
    s.Onward (l.foldl f s) := by
  induction l generalizing s with
  | nil => exact of_dies rfl rfl
  | cons a l ih => exact (h s a List.mem_cons_self).trans (ih (fun t b hb => h t b (List.mem_cons_of_mem a hb)) _)

theorem ref (h : s.Onward u) (r : Nat) : u.ref r = s.ref r := by rw [State.ref, h.refc, State.ref]

end State.Onward

theorem State.CapturedTo.onward {s u : State} (h : s.CapturedTo u) : s.Onward u := by
  rw [show u = _ from h]
  exact .of_dies rfl rfl

theorem State.modDie_onward (s : State) (d : Nat) (f : DieSt → DieSt) (hf : ∀ x : DieSt, x.flits ⊆ (f x).flits ∧ (f x).resumeIn = x.resumeIn) :
    s.Onward (s.modDie d f) := by
  refine ⟨rfl, fun e => ?_, fun e => ?_⟩
  · rw [State.die_modDie]
    split
    · next h => exact h ▸ (hf _).1
    · exact List.Subset.refl _
  · rw [State.die_modDie]
    split
    · next h => exact h ▸ (hf _).2
    · rfl

theorem State.joinFreeze_onward (s : State) (d c bit : Nat) : s.Onward (s.joinFreeze d c bit) := by
  unfold State.joinFreeze
  dsimp only
  split
  · exact .of_dies rfl rfl
  · refine ⟨rfl, fun e => ?_, fun e => ?_⟩
    all_goals
      rw [State.die_setDie]
      split
      · next h => subst h; simp
      · simp

theorem State.shutReq_onward (s : State) (d bit src : Nat) : s.Onward (s.shutReq d bit src) := by
  unfold State.shutReq
  split
  · exact .of_dies rfl rfl
  · refine .trans (t := s.modDie d (fun x => { x with reqs := x.reqs ++ [⟨bit, src⟩] })) ?_ (.foldl _ (fun t x _ => t.joinFreeze_onward x _ bit) _)
    exact s.modDie_onward d _ (fun _ => ⟨List.Subset.refl _, rfl⟩)

theorem State.shutRel_onward (s : State) (d bit src : Nat) : s.Onward (s.shutRel d bit src) :=
  s.modDie_onward d _ (fun _ => ⟨List.Subset.refl _, rfl⟩)

theorem State.sendFault_onward (s : State) (d code : Nat) (unit : Bool) (n : Nat) : s.Onward (s.sendFault d code unit n) := by
  unfold State.sendFault
  refine .trans ?_ (State.shutReq_onward _ d 12 0)
  exact .foldl _ (fun t x _ => t.modDie_onward x
    (fun y => { y with flits := y.flits ++ [⟨if x = d then 24 else 48, code, d, unit, n % 256, s.ref (s.netRegion d)⟩] })
    (fun y => ⟨List.subset_append_left y.flits _, rfl⟩)) s

theorem State.traceFault_onward (s : State) (n : Nat) (p : OpPlace) : s.Onward (s.traceFault n p) :=
  s.modDie_onward _ _ (fun _ => ⟨List.Subset.refl _, rfl⟩)

theorem State.modStation_onward (s : State) (n : Nat) (f : Station → Station) : s.Onward (s.modStation n f) := .of_dies rfl rfl

theorem State.stationFault_onward (s : State) (n code : Nat) : s.Onward (s.stationFault n code) :=
  (s.modStation_onward n _).trans (State.sendFault_onward _ _ _ _ _)

/-- A fault of a station, whatever captured it. -/
theorem State.CapturedTo.fault_onward {s c : State} (h : s.CapturedTo c) (n code : Nat) (p : OpPlace) :
    s.Onward ((c.traceFault n p).stationFault n code) :=
  h.onward.trans ((c.traceFault_onward n p).trans (State.stationFault_onward _ n code))

theorem State.seqFault_onward (s : State) (n code cause slot : Nat) (p : OpPlace) : s.Onward (s.seqFault n code cause slot p) :=
  (s.captureSeq_capturedTo n code cause slot p).fault_onward n code p

theorem State.stnRingError_onward (s : State) (n kind : Nat) (p : OpPlace) : s.Onward (s.stnRingError n kind p) :=
  (s.capture_capturedTo .ringErr (dieOf n) _).fault_onward n 15 p

theorem State.LandFrame.onward {s u : State} {n : Nat} (h : s.LandFrame u n) : s.Onward u := by
  refine ⟨by rw [h.rest], fun d => ?_, fun d => by rw [← congrArg DieSt.resumeIn (h.dies d)]⟩
  rw [← congrArg DieSt.flits (h.dies d)]
  exact List.Subset.refl _

/-! ### Changes that leave stations and ring words alone -/

/-- From `s` to `u`, the stations, the ring words and the reported stations stand too. -/
structure State.Still (s u : State) : Prop where
  onward : s.Onward u
  stations : u.stations = s.stations
  ring : u.ring = s.ring
  subst : u.fw.subst = s.fw.subst

namespace State.Still

variable {s t u : State}

theorem of_parts (hrefc : u.refc = s.refc) (hdies : u.dies = s.dies) (hstns : u.stations = s.stations) (hring : u.ring = s.ring)
    (hsubst : u.fw.subst = s.fw.subst) : s.Still u := ⟨.of_dies hrefc hdies, hstns, hring, hsubst⟩

theorem refl (s : State) : s.Still s := .of_parts rfl rfl rfl rfl rfl

theorem trans (h : s.Still t) (g : t.Still u) : s.Still u :=
  ⟨h.onward.trans g.onward, g.stations.trans h.stations, g.ring.trans h.ring, g.subst.trans h.subst⟩

theorem foldl {α : Type} {f : State → α → State} (l : List α) (h : ∀ (s : State) a, s.Still (f s a)) (s : State) : s.Still (l.foldl f s) := by
  induction l generalizing s with
  | nil => exact refl s
  | cons a l ih => exact (h s a).trans (ih _)

end State.Still

theorem State.ShutOnly.still {s u : State} (h : s.ShutOnly u) (g : s.Onward u) : s.Still u := by
  obtain ⟨-, hfw, hstns, -⟩ := h.frame
  exact ⟨g, hstns, h.ring, congrArg FwSt.subst hfw⟩

theorem State.modDie_still (s : State) (d : Nat) (f : DieSt → DieSt) (hf : ∀ x : DieSt, x.flits ⊆ (f x).flits ∧ (f x).resumeIn = x.resumeIn) :
    s.Still (s.modDie d f) := ⟨s.modDie_onward d f hf, rfl, rfl, rfl⟩

theorem State.shutReq_still (s : State) (d bit src : Nat) : s.Still (s.shutReq d bit src) :=
  (s.shutReq_shutOnly d bit src).still (s.shutReq_onward d bit src)

theorem State.shutRel_still (s : State) (d bit src : Nat) : s.Still (s.shutRel d bit src) :=
  s.modDie_still d _ (fun _ => ⟨List.Subset.refl _, rfl⟩)

theorem State.sendFault_still (s : State) (d code : Nat) (unit : Bool) (n : Nat) : s.Still (s.sendFault d code unit n) :=
  (s.sendFault_shutOnly d code unit n).still (s.sendFault_onward d code unit n)

theorem State.setReg_still (s : State) (r : Reg) (i v : Nat) : s.Still (s.setReg r i v) := .of_parts rfl rfl rfl rfl rfl

theorem State.setFld_still (s : State) (r : Reg) (i hi lo v : Nat) : s.Still (s.setFld r i hi lo v) := s.setReg_still r i _

theorem State.countFld_still (s : State) (r : Reg) (i hi lo n : Nat) : s.Still (s.countFld r i hi lo n) := s.setFld_still r i hi lo _

/-- An update of the processors' state that leaves the reported stations alone. -/
theorem State.fwUpd_still (s : State) (f : FwSt → FwSt) (hf : ∀ x : FwSt, (f x).subst = x.subst) : s.Still (s.fwUpd f) :=
  .of_parts rfl rfl rfl rfl (hf _)

theorem State.emit_still (s : State) (o : Out) : s.Still (s.emit o) := .of_parts rfl rfl rfl rfl rfl

theorem State.raiseAs_still (s : State) (cls kind i off : Nat) : s.Still (s.raiseAs cls kind i off) := by
  unfold State.raiseAs
  split
  · exact s.fwUpd_still _ (fun _ => rfl)
  · exact .refl s

theorem State.raise_still (s : State) (r : Reg) (i : Nat) : s.Still (s.raise r i) := by
  unfold State.raise
  split
  · exact s.raiseAs_still _ _ _ _
  · exact .refl s

theorem State.capture_still (s : State) (r : Reg) (i v : Nat) : s.Still (s.capture r i v) := by
  unfold State.capture
  split
  · exact .refl s
  · exact (s.setReg_still r i _).trans (State.raise_still _ r i)

theorem State.ringDieFault_still (s : State) (d kind code seg pos : Nat) : s.Still (s.ringDieFault d kind code seg pos) :=
  (s.capture_still .ringErr d _).trans (State.sendFault_still _ d code true 0)

/-! ### Changes that leave tiles and ring words alone -/

/-- From `s` to `u`, the tiles of every station and the ring words stand too. -/
structure State.Calm (s u : State) : Prop where
  onward : s.Onward u
  tiles : ∀ i, (u.station i).tiles = (s.station i).tiles
  ring : u.ring = s.ring

theorem State.Still.calm {s u : State} (h : s.Still u) : s.Calm u :=
  ⟨h.onward, fun i => congrArg Station.tiles (State.station_congr h.stations i), h.ring⟩

namespace State.Calm

variable {s t u : State}

theorem refl (s : State) : s.Calm s := (State.Still.refl s).calm

theorem trans (h : s.Calm t) (g : t.Calm u) : s.Calm u :=
  ⟨h.onward.trans g.onward, fun i => (g.tiles i).trans (h.tiles i), g.ring.trans h.ring⟩

theorem foldl {α : Type} {f : State → α → State} (l : List α) (h : ∀ (s : State) a, s.Calm (f s a)) (s : State) : s.Calm (l.foldl f s) := by
  induction l generalizing s with
  | nil => exact refl s
  | cons a l ih => exact (h s a).trans (ih _)

end State.Calm

theorem State.modStation_calm (s : State) (n : Nat) (f : Station → Station) (hf : ∀ x, (f x).tiles = x.tiles) : s.Calm (s.modStation n f) := by
  refine ⟨s.modStation_onward n f, fun i => ?_, rfl⟩
  rw [State.station_modStation]
  split
  · next h => exact h ▸ hf _
  · rfl

theorem State.fwUpd_calm (s : State) (f : FwSt → FwSt) : s.Calm (s.fwUpd f) := ⟨.of_dies rfl rfl, fun _ => rfl, rfl⟩

end Sys2Proof.Machine
end

section
/-! ## What a die does on its ticks (O37) -/

namespace Sys2Proof.Machine

/-! ### Stack writes (R278, R400) -/

theorem State.msErrorAt_still (s : State) (n kind ch page : Nat) : s.Still (s.msErrorAt n kind ch page) := by
  unfold State.msErrorAt
  split
  · exact (s.raise_still .msErr n).trans (State.countFld_still _ _ _ _ _ _)
  · exact (s.capture_still .msErr n _).trans (State.countFld_still _ _ _ _ _ _)

theorem State.xfer_still (s : State) (n a kind fails : Nat) (e : Ecc) : s.Still (s.xfer n a kind fails e) := by
  have hcount := s.countFld_still .msErrCount n 15 8 (s.retries n fails)
  unfold State.xfer
  dsimp only
  split
  · exact hcount.trans (State.msErrorAt_still _ _ _ _ _)
  · cases e with
    | clean => exact hcount
    | corrected => exact hcount.trans (State.countFld_still _ _ _ _ _ _)
    | bad mem addr => exact hcount.trans (State.msErrorAt_still _ _ _ _ _)

theorem State.xfers_still (s : State) (xs : List XferAt) (wr : Bool) (off len : Nat) : s.Still (s.xfers xs wr off len) :=
  .foldl _ (fun t _ => t.xfer_still _ _ _ _ _) s

theorem State.stackWrN_still (n : Nat) (bs : List Byte) : ∀ (s : State) (a : Nat), s.Still (s.stackWrN n a bs) := by
  induction bs with
  | nil => exact fun s a => .refl s
  | cons b bs ih => exact fun s a => .trans (t := s.stackWr n a b) (.of_parts rfl rfl rfl rfl rfl) (ih _ _)

theorem State.stackWrBut_still (lost : List Nat) (bs : List Byte) : ∀ (s : State) (off : Nat), s.Still (s.stackWrBut lost off bs) := by
  induction bs with
  | nil => exact fun s off => .refl s
  | cons b bs ih =>
    intro s off
    refine .trans ?_ (ih _ _)
    split
    · exact .refl s
    · exact .of_parts rfl rfl rfl rfl rfl

theorem State.reservePut_still (s : State) (p : Nat) : s.Still (s.reservePut p) := by
  unfold State.reservePut
  dsimp only
  split
  · exact (State.stackWrN_still _ _ s _).trans (State.fwUpd_still _ _ (fun _ => rfl))
  · exact .refl s

theorem State.copyPage_still (s : State) (p : Nat) (xs : List XferAt) : s.Still (s.copyPage p xs) := by
  unfold State.copyPage
  exact (s.xfers_still xs false (65536 * p) 65536).trans (State.fwUpd_still _ _ (fun _ => rfl))

theorem State.copyFirst_still (s : State) (n a len : Nat) (xs : List XferAt) : s.Still (s.copyFirst n a len xs) :=
  .foldl _ (fun t p => ((((t.reservePut_still p).trans (State.copyPage_still _ p xs)).trans (State.countFld_still _ _ _ _ _ _)).trans
    (State.shutReq_still _ _ _ _)).trans (State.shutRel_still _ _ _ _)) s

theorem State.stackPut_still (s : State) (n a : Nat) (bs : List Byte) (xs : List XferAt) : s.Still (s.stackPut n a bs xs) :=
  ((s.copyFirst_still n a bs.length xs).trans (State.xfers_still _ xs true _ _)).trans (State.stackWrBut_still _ bs _ _)

/-! ### Trace and feed requests (R108, R183) -/

theorem State.traceDrain_still (s : State) (d : Nat) (xs : List XferAt) : s.Still (s.traceDrain d xs) := by
  unfold State.traceDrain
  split
  · exact .refl s
  · next t ts _ =>
    have hpop : s.Still (s.modDie d (fun x => { x with trace := ts })) := s.modDie_still d _ (fun _ => ⟨List.Subset.refl _, rfl⟩)
    extract_lets cfg n h off s0 s2
    have hput : s.Still s2 := hpop.trans ((State.stackPut_still _ _ _ _ xs).trans (State.setFld_still _ _ _ _ _ _))
    split
    · exact hpop.trans (State.countFld_still _ _ _ _ _ _)
    · split
      · exact hput.trans (State.setFld_still _ _ _ _ _ _)
      · exact hput

theorem State.traceMerge_still (s : State) (d : Nat) : s.Still (s.traceMerge d) := by
  unfold State.traceMerge
  split
  · exact .refl s
  · next t ts _ =>
    have hpop : s.Still (s.modDie d (fun x => { x with traceIn := ts })) := s.modDie_still d _ (fun _ => ⟨List.Subset.refl _, rfl⟩)
    dsimp only
    split
    · exact hpop.trans (State.modDie_still _ d _ (fun _ => ⟨List.Subset.refl _, rfl⟩))
    · exact hpop.trans (State.countFld_still _ _ _ _ _ _)

theorem State.feedReleases_still (s : State) (d : Nat) : s.Still (s.feedReleases d) := by
  refine .foldl _ (fun t q => ?_) s
  unfold State.feedRelease
  dsimp only
  split
  · exact t.shutRel_still _ _ _
  · exact .refl t

/-! ### Restores and buddy copies (R401, R407) -/

theorem State.restoreStart_still (s : State) (slot : Nat) (cmd : Option Nat) : s.Still (s.restoreStart slot cmd) := by
  unfold State.restoreStart
  extract_lets x here s1 s2 s3
  have hepochs : s.Still s1 := .foldl _ (fun t d => t.setFld_still _ _ _ _ _) s
  have hgroups : s1.Still s2 := .foldl _ (fun t g => by split <;> exact t.setFld_still .msPgEpoch g 15 0 _) s1
  have hstns : s2.Still s3 := .foldl _ (fun t i => t.setFld_still .stnStateEpoch i 15 0 _) s2
  exact ((hepochs.trans hgroups).trans (hstns.trans (s3.setReg_still .snapStatus 0 _))).trans (State.fwUpd_still _ _ (fun _ => rfl))

theorem State.restoreDue_still (s : State) : s.Still s.restoreDue := by
  unfold State.restoreDue
  split
  · have hdue := s.fwUpd_still (fun f => { f with restDue := false }) (fun _ => rfl)
    dsimp only
    split
    · exact hdue.trans (State.restoreStart_still _ _ _)
    · exact hdue
  · exact .refl s

theorem State.tellSteward_still (s : State) (v : Word) : s.Still (s.tellSteward v) := by
  unfold State.tellSteward
  split
  · exact s.emit_still _
  · exact s.fwUpd_still _ (fun _ => rfl)

theorem State.noteBad_still (s : State) (status m : Nat) : s.Still (s.noteBad status m) := by
  have hcap := s.capture_still .pyErr 0 (7 * 2 ^ 27 + 0 * 2 ^ 23 + m % 2 ^ 16)
  unfold State.noteBad State.pyErr
  split
  · dsimp only
    split
    · exact hcap.trans (State.tellSteward_still _ _)
    · exact hcap
  · exact .refl s

theorem State.enqueue_still (s : State) (agent m : Nat) (h : Hdr) (data : List Byte) : s.Still (s.enqueue agent m h data) := by
  unfold State.enqueue
  split
  · exact s.noteBad_still 6 m
  · exact .of_parts rfl rfl rfl rfl rfl

theorem State.fwWrite_still (s : State) (agent : Nat) (a : BitVec 64) (bs : List Byte) : s.Still (s.fwWrite agent a bs) := by
  unfold State.fwWrite
  split
  · exact s.enqueue_still _ _ _ _
  · exact s.noteBad_still _ _
  · exact s.emit_still _

theorem State.buddySend_still (s : State) (p : Nat) : s.Still (s.buddySend p) := by
  unfold State.buddySend State.fwWrites
  refine .trans ?_ (.foldl _ (fun t _ => t.fwWrite_still _ _ _) _)
  exact s.fwUpd_still _ (fun _ => rfl)

theorem State.buddyFlush_still (s : State) : s.Still s.buddyFlush := by
  unfold State.buddyFlush
  split
  · exact .refl s
  · extract_lets n t
    have hdrop : s.Still t := s.fwUpd_still _ (fun _ => rfl)
    split
    · exact hdrop.trans (.foldl _ (fun v p => v.buddySend_still p) t)
    · exact hdrop

/-! ### Spare substitutions (R122, R123) -/

theorem State.spareTo_still (s : State) (g q : Nat) : s.Still (s.spareTo g q) :=
  (s.setFld_still .segSpare g 5 0 q).trans (.foldl _ (fun t _ => t.setFld_still _ _ _ _ _) _)

theorem State.report_calm (s : State) (cls sev : Nat) (u : UnitRef) (cap0 cap1 : Nat) : s.Calm (s.report cls sev u cap0 cap1) := by
  rw [(s.report_tells cls sev u cap0 cap1).rest]
  exact ⟨.of_dies rfl rfl, fun _ => rfl, rfl⟩

theorem State.substSpare_calm (s : State) (i : Nat) : s.Calm (s.substSpare i) := by
  unfold State.substSpare
  dsimp only
  split
  · exact ((s.spareTo_still _ _).calm.trans (State.fwUpd_calm _ _)).trans (State.restoreDue_still _).calm
  · exact s.report_calm _ _ _ _ _

theorem State.substAt_calm (s : State) (d : Nat) : s.Calm (s.substAt d) := by
  have hstop : s.Calm (s.stopDie d) := .foldl _ (fun t i => t.modStation_calm i (Station.stop · .stopped) (fun _ => rfl)) s
  unfold State.substAt
  dsimp only
  split
  · exact .refl s
  · exact (hstop.trans (State.fwUpd_calm _ _)).trans (.foldl _ (fun t i => t.substSpare_calm i) _)

/-- No station of the die waits to be replaced: nothing is done. -/
theorem State.substAt_none {s : State} {d : Nat} (h : ∀ i ∈ s.fw.subst, dieOf i ≠ d) : s.substAt d = s := by
  have hnone : s.fw.subst.filter (fun i => decide (dieOf i = d)) = [] := List.filter_eq_nil_iff.2 fun i hi => by simpa using h i hi
  simp [State.substAt, hnone]

theorem State.dieTick_calm (s : State) (d : Nat) (xs : List XferAt) : s.Calm (s.dieTick d xs) := by
  have hfirst := ((s.traceDrain_still d xs).trans (State.traceMerge_still _ d)).trans (State.feedReleases_still _ d)
  refine ((hfirst.calm.trans ?_).trans (State.restoreDue_still _).calm).trans (State.buddyFlush_still _).calm
  unfold State.onlyIf
  split
  · exact State.substAt_calm _ d
  · exact .refl _

theorem State.dieTick_still {s : State} {d : Nat} (xs : List XferAt) (h : ∀ i ∈ s.fw.subst, dieOf i ≠ d) : s.Still (s.dieTick d xs) := by
  have hfirst := ((s.traceDrain_still d xs).trans (State.traceMerge_still _ d)).trans (State.feedReleases_still _ d)
  refine ((hfirst.trans ?_).trans (State.restoreDue_still _)).trans (State.buddyFlush_still _)
  unfold State.onlyIf
  split
  · exact (congrArg (State.Still _) (State.substAt_none (hfirst.subst.symm ▸ h))).mpr (.refl _)
  · exact .refl _

end Sys2Proof.Machine
end

section
/-! ## The end of a station's schedule tick (O37) -/

namespace Sys2Proof.Machine

/-- The registers that the end of a station's schedule tick may write. -/
def tickRegs : List Reg := [.vecFlags, .stnSeqFault, .stnSeqFaultPc, .ringErr, .shtCause, .ringInjCount, .ringTapCount]

/-- From `s` to `u`, schedule ticks of the stations `l` have ended: time and the other stations stand. -/
structure State.StnTick (s u : State) (l : List Nat) : Prop where
  onward : s.Onward u
  others : ∀ j, j ∉ l → u.station j = s.station j
  kept : s.RegsKept u tickRegs
  ratio : u.ratio = s.ratio
  pkgRing : u.pkgRing = s.pkgRing

namespace State.StnTick

variable {s t u : State} {l : List Nat}

theorem refl (s : State) (l : List Nat) : s.StnTick s l := ⟨.of_dies rfl rfl, fun _ _ => rfl, .of_regs rfl, rfl, rfl⟩

theorem trans (h : s.StnTick t l) (g : t.StnTick u l) : s.StnTick u l :=
  ⟨h.onward.trans g.onward, fun j hj => (g.others j hj).trans (h.others j hj), h.kept.trans g.kept, g.ratio.trans h.ratio, g.pkgRing.trans h.pkgRing⟩

theorem mono {k : List Nat} (h : s.StnTick u k) (hsub : k ⊆ l) : s.StnTick u l :=
  ⟨h.onward, fun j hj => h.others j fun hk => hj (hsub hk), h.kept, h.ratio, h.pkgRing⟩

theorem foldl {α : Type} {f : State → α → State} (as : List α) (h : ∀ (s : State), ∀ a ∈ as, s.StnTick (f s a) l) (s : State) :
    s.StnTick (as.foldl f s) l := by
  induction as generalizing s with
  | nil => exact refl s l
  | cons a as ih => exact (h s a List.mem_cons_self).trans (ih (fun t b hb => h t b (List.mem_cons_of_mem a hb)) _)

/-- The schedule ticks of stations stand. -/
theorem tickOf (h : s.StnTick u l) (n : Stn) : u.tickOf n = s.tickOf n :=
  State.tickOf_congr h.kept (by decide) h.onward.refc h.ratio h.pkgRing n

end State.StnTick

/-- A change of one station, and of dies and registers as far as a tick's end may go. -/
theorem State.stnTick_of_same {s u : State} {l : List Nat} (h : s.Onward u) (hstns : u.stations = s.stations) (hk : s.RegsKept u tickRegs)
    (hratio : u.ratio = s.ratio) (hpkg : u.pkgRing = s.pkgRing) : s.StnTick u l :=
  ⟨h, fun j _ => State.station_congr hstns j, hk, hratio, hpkg⟩

theorem State.LandFrame.stnTick {s u : State} {n : Stn} (h : s.LandFrame u n) : s.StnTick u [n] := by
  refine ⟨h.onward, fun j hj => h.others j (by simpa using hj), fun r hr i hi => ?_, by rw [h.rest], by rw [h.rest]⟩
  have hne : r ≠ .vecFlags := fun e => hr (e ▸ by decide)
  rw [State.reg, h.regs r _ (Reg.at_zero_ne hne hi n.isLt), State.reg]

/-- From `s` to `u`, the schedule tick of a station has gone on without a change of its tiles. -/
structure State.StnStep (s u : State) (n : Nat) : Prop where
  tick : s.StnTick u [n]
  tiles : (u.station n).tiles = (s.station n).tiles

namespace State.StnStep

variable {s t u : State} {n : Nat}

theorem refl (s : State) (n : Nat) : s.StnStep s n := ⟨.refl s _, rfl⟩

theorem trans (h : s.StnStep t n) (g : t.StnStep u n) : s.StnStep u n := ⟨h.tick.trans g.tick, g.tiles.trans h.tiles⟩

theorem foldl {α : Type} {f : State → α → State} (h : ∀ (s : State) (a : α), s.StnStep (f s a) n) (as : List α) (s : State) :
    s.StnStep (as.foldl f s) n := by
  induction as generalizing s with
  | nil => exact refl s n
  | cons a as ih => exact (h s a).trans (ih _)

theorem of_same (h : s.Onward u) (hstns : u.stations = s.stations) (hk : s.RegsKept u tickRegs)
    (hratio : u.ratio = s.ratio) (hpkg : u.pkgRing = s.pkgRing) : s.StnStep u n :=
  ⟨State.stnTick_of_same h hstns hk hratio hpkg, congrArg Station.tiles (State.station_congr hstns n)⟩

end State.StnStep

theorem State.modStation_stnTick (s : State) (n : Nat) (f : Station → Station) : s.StnTick (s.modStation n f) [n] := by
  refine ⟨s.modStation_onward n f, fun j hj => ?_, .of_regs rfl, rfl, rfl⟩
  rw [State.station_modStation, if_neg (fun h => hj (by simp [h]))]

theorem State.modStation_step (s : State) (n : Nat) (f : Station → Station) (hf : ∀ x, (f x).tiles = x.tiles) : s.StnStep (s.modStation n f) n :=
  ⟨s.modStation_stnTick n f, by rw [State.station_modStation_self, hf]⟩

theorem State.FaultedAt.step {s u : State} {n : Stn} (h : s.FaultedAt u n) (ho : s.Onward u) {rs : List Reg} (hk : s.RegsKept u rs)
    (hrs : rs ⊆ tickRegs) : s.StnStep u n :=
  ⟨⟨ho, fun j hj => h.others j (by simpa using hj), hk.mono hrs, by rw [h.rest], by rw [h.rest]⟩, by rw [h.station]; rfl⟩

theorem State.seqFault_step (s : State) (n : Stn) (code cause slot : Nat) (p : OpPlace) : s.StnStep (s.seqFault n code cause slot p) n := by
  obtain ⟨hat, hkept, -⟩ := s.seqFault_at n code cause slot p
  exact hat.step (s.seqFault_onward n code cause slot p) hkept (by decide)

theorem State.stnRingError_step (s : State) (n : Stn) {kind : Nat} (hk : kind < 8) (p : OpPlace) : s.StnStep (s.stnRingError n kind p) n := by
  obtain ⟨hat, hkept, -⟩ := s.stnRingError_at n hk p
  exact hat.step (s.stnRingError_onward n kind p) hkept (by decide)

/-! ### The ring-side ops (R110, R115) -/

theorem State.WordsKept.regs {s u : State} {rs : List Reg} (h : s.WordsKept u rs) : s.RegsKept u rs := fun _ hr _ hi => h.reg hr hi

theorem State.addPair_step (s : State) (n : Stn) {r : Reg} (hr : r ∈ tickRegs) (hp : r.info.pair = true) (hn : n.val < r.info.count) (k : Nat) :
    s.StnStep (s.addPair r n k) n :=
  .of_same (.of_dies rfl rfl) rfl (State.setPair_wordsKept s hr hn hp _).regs rfl rfl

theorem State.inject_step (s : State) (n : Stn) (o : GinjOp) (w : RingWord) : s.StnStep (s.inject n o w) n := by
  rw [State.inject_eq]
  refine .trans (.trans (t := s.injSlot n o w) ?_ ?_) (State.addPair_step _ n (r := .ringInjCount) (by decide) rfl n.isLt 1)
  · unfold State.injSlot
    split
    · exact .refl s n
    · exact .of_same (.of_dies rfl rfl) rfl (.of_regs rfl) rfl rfl
  · unfold State.injLatch
    split
    · refine .trans ?_ (State.addPair_step _ n (r := .ringTapCount) (by decide) rfl n.isLt 1)
      exact State.modStation_step _ n _ (fun _ => rfl)
    · exact .refl _ n

theorem State.feedTaken_step (s : State) (n : Stn) (q : Nat) : s.StnStep (s.feedTaken (segOf n) q) n := by
  have hset : s.StnStep (s.setFeed (segOf n) q (s.feed (segOf n) q).taken) n := .of_same (.of_dies rfl rfl) rfl (.of_regs rfl) rfl rfl
  obtain heq | heq := s.feedTaken_eq (segOf n) q
  · rwa [heq]
  · rw [heq]
    have hseg : segOf n / 8 < 4 := by have := segOf_lt n; omega
    have hshut := State.shutReq_shutOnly (s.setFeed (segOf n) q (s.feed (segOf n) q).taken) (segOf n / 8) 2 (4 * segOf n + q)
    refine hset.trans (.of_same (State.shutReq_onward _ _ _ _) hshut.frame.2.2.1 ((State.shutReq_wordsKept _ hseg _ _).regs.mono (by decide)) ?_ ?_)
    · rw [show State.shutReq _ _ _ _ = _ from hshut]
    · rw [show State.shutReq _ _ _ _ = _ from hshut]

theorem State.ringSide_step (s : State) (n : Stn) (g : GPend) : s.StnStep (s.ringSide n g) n := by
  unfold State.ringSide
  dsimp only
  split
  · exact s.seqFault_step n _ _ _ _
  · split
    · exact s.inject_step n _ _
    · split
      · exact s.seqFault_step n _ _ _ _
      · split
        · exact s.stnRingError_step n (by decide) _
        · have hlane : s.StnStep (s.useLane (segOf n)) n := .of_same (.of_dies rfl rfl) rfl (.of_regs rfl) rfl rfl
          exact (hlane.trans (State.inject_step _ n _ _)).trans (State.feedTaken_step _ n _)

theorem State.ginjDue_step (s : State) (n : Stn) (t : Nat) : s.StnStep (s.ginjDue n t) n := by
  unfold State.ginjDue
  extract_lets due s1
  have hwait : s.StnStep s1 n := s.modStation_step n _ (fun _ => rfl)
  split
  · exact hwait.trans (.foldl (fun u g => u.ringSide_step n g) _ _)
  · exact hwait

/-! ### Held LUNST ops and spill ticks (R195, R262) -/

theorem State.unstash_tick (s : State) (n : Stn) (o : StashOp) (k t : Nat) : s.StnTick (s.unstash n o k t) [n.val] := by
  have htaken : ∀ u : State, u.StnTick (u.entTaken n k o.row.toNat) [n.val] := fun u => u.modStation_stnTick n _
  unfold State.unstash
  split
  · exact .refl s _
  · split
    · dsimp only
      refine .trans ?_ (htaken _)
      split
      · exact s.modStation_stnTick n _
      · exact (s.land_frame n _).stnTick
    · exact htaken s

theorem State.freeUnst_tick (s : State) (n : Stn) : s.StnTick (s.freeUnst n) [n.val] := by
  unfold State.freeUnst
  extract_lets x go s1
  split
  · exact .refl s _
  · have hgo : s.StnTick s1 [n.val] := (s.modStation_stnTick n _).trans (.foldl _ (fun t h _ => t.unstash_tick n h.2.1 h.1 h.2.2.tick) _)
    split
    · exact hgo.trans (State.stnTick_of_same (State.shutRel_onward _ _ _ _) rfl (.of_regs rfl) rfl rfl)
    · exact hgo

theorem State.freeUnst_none {s : State} {n : Nat} (h : (s.station n).unst = []) : s.freeUnst n = s := by
  unfold State.freeUnst
  dsimp only
  rw [h]
  rfl

theorem State.stashTick_step (s : State) (n : Nat) : s.StnStep (s.stashTick n) n := by
  have hstart : s.StnStep (s.startXfer n) n := by
    unfold State.startXfer
    split
    · exact s.modStation_step n _ (fun _ => rfl)
    · exact s.modStation_step n _ (fun _ => rfl)
  have hfirst : s.StnStep (if (s.station n).xfer.isNone then s.startXfer n else s) n := by
    split
    · exact hstart
    · exact .refl s n
  refine hfirst.trans ?_
  unfold State.stashTick
  exact State.modStation_step _ n _ (fun _ => rfl)

/-! ### The whole tick -/

theorem Station.tiles_modStream (x : Station) (m : Strm) (f : StreamSt → StreamSt) : (x.modStream m f).tiles = x.tiles := by
  cases m <;> rfl

/-- What follows the pipelines and the held LUNST ops in a tick leaves the tiles alone. -/
theorem State.tickWork_step (s : State) (n : Stn) (t : Nat) : ((s.pipeTick n t).freeUnst n).StnStep (s.tickWork n t) n := by
  unfold State.tickWork
  extract_lets s0 late s1
  have hs1 : s0.StnStep s1 n := .foldl (fun u m => u.modStation_step n _ (fun x => x.tiles_modStream m _)) _ _
  refine (State.ginjDue_step _ n t).trans (hs1.trans ?_)
  split
  · exact s1.stashTick_step n
  · exact .refl s1 n

theorem State.tickWork_tick (s : State) (n : Stn) (t : Nat) : s.StnTick (s.tickWork n t) [n.val] :=
  ((s.pipeTick_frame n t).stnTick.trans (State.freeUnst_tick _ n)).trans (s.tickWork_step n t).tick

/-- With no LUNST held, the pipelines alone write tiles. -/
theorem State.tickWork_tiles {s : State} {n : Stn} (h : (s.station n).unst = []) (t : Nat) :
    ((s.tickWork n t).station n).tiles = ((s.pipeTick n t).station n).tiles := by
  have hunst : ((s.pipeTick n t).station n).unst = [] := (s.pipeTick_flight n t).unst.trans h
  rw [(s.tickWork_step n t).tiles, State.freeUnst_none hunst]

end Sys2Proof.Machine
end

section
/-! ## The end of a region's schedule tick (O37) -/

namespace Sys2Proof.Machine

theorem lt_of_regionOf {i : Nat} {r : Region} (h : regionOf i = r) : i < 1024 := by
  have hr := r.isLt
  unfold regionOf dieOf at h
  omega

/-- The end of the schedule tick of one station of a region. -/
def State.tickStep (s : State) (i : Nat) : State :=
  match s.tickOf i with
  | some k => s.tickWork i k
  | none => s

/-- The stations of a region that have left their reset state. -/
def State.stnsOf (s : State) (r : Nat) : List Nat := s.used.filter (fun i => decide (regionOf i = r))

theorem State.endTick_eq (s : State) (r : Nat) : s.endTick r = (s.stnsOf r).foldl State.tickStep s := rfl

theorem State.mem_stnsOf {s : State} {r i : Nat} : i ∈ s.stnsOf r ↔ i ∈ s.used ∧ regionOf i = r := by
  simp [State.stnsOf]

theorem State.tickStep_tick (s : State) (n : Stn) : s.StnTick (s.tickStep n) [n.val] := by
  unfold State.tickStep
  split
  · exact s.tickWork_tick n _
  · exact .refl s _

theorem State.foldl_tickStep (l : List Nat) (h : ∀ i ∈ l, i < 1024) (s : State) : s.StnTick (l.foldl State.tickStep s) l :=
  .foldl l (fun t i hi => (t.tickStep_tick ⟨i, h i hi⟩).mono (by simpa using hi)) s

theorem State.endTick_tick (s : State) (r : Region) : s.StnTick (s.endTick r) (s.stnsOf r) :=
  State.foldl_tickStep _ (fun _ hi => lt_of_regionOf (State.mem_stnsOf.1 hi).2) s

/-- Each station of the region ends its tick as it stood before it. -/
theorem State.endTick_tiles {s : State} {r : Region} (hnodup : s.used.Nodup) {i k : Nat} (hi : i ∈ s.used) (hr : regionOf i = r)
    (hk : s.tickOf i = some k) (hunst : (s.station i).unst = []) :
    ((s.endTick r).station i).tiles = ((s.pipeTick i k).station i).tiles := by
  have hlt : ∀ j ∈ s.stnsOf r, j < 1024 := fun _ hj => lt_of_regionOf (State.mem_stnsOf.1 hj).2
  obtain ⟨p, q, hsplit⟩ := List.append_of_mem (State.mem_stnsOf.2 ⟨hi, hr⟩)
  have hsame : (p ++ i :: q).Nodup := hsplit ▸ hnodup.filter _
  obtain ⟨-, hq, hdisj⟩ := List.nodup_append.1 hsame
  have hp : i ∉ p := fun h => hdisj i h i List.mem_cons_self rfl
  rw [hsplit] at hlt
  have hbefore := State.foldl_tickStep p (fun j hj => hlt j (by simp [hj])) s
  let n : Stn := ⟨i, lt_of_regionOf hr⟩
  have hstn := hbefore.others i hp
  have hstep : (p.foldl State.tickStep s).tickStep i = (p.foldl State.tickStep s).tickWork n k := by
    rw [State.tickStep, hbefore.tickOf n, hk]
  have hafter := State.foldl_tickStep q (fun j hj => hlt j (by simp [hj])) ((p.foldl State.tickStep s).tickWork n k)
  rw [State.endTick_eq, hsplit, List.foldl_append, List.foldl_cons, hstep, hafter.others i (List.nodup_cons.1 hq).1]
  exact (State.tickWork_tiles (n := n) (hstn ▸ hunst) k).trans (State.pipeTick_tiles hstn k)

/-! ### The ring moves (R102, R117) -/

theorem Tbl.get_puts {α : Type} [DecidableEq α] (d : Nat → α) (vs : List α) : ∀ (t : Tbl α) (a k : Nat),
    Tbl.get d (Tbl.puts d t a vs) k = if a ≤ k then vs.getD (k - a) (Tbl.get d t k) else Tbl.get d t k := by
  induction vs with
  | nil => exact fun t a k => by simp [Tbl.puts]
  | cons v vs ih =>
    intro t a k
    rw [Tbl.puts, ih, Tbl.get_put]
    rcases Nat.lt_trichotomy k a with h | rfl | h
    · rw [if_neg (by omega), if_neg (by omega), if_neg (by omega)]
    · simp
    · obtain ⟨j, rfl⟩ := Nat.exists_eq_add_of_lt h
      rw [if_pos (by omega), if_neg (by omega), if_pos (by omega), show a + j + 1 - a = j + 1 by omega, show a + j + 1 - (a + 1) = j by omega,
        List.getD_cons_succ]

theorem State.ringFirst_still (s : State) (r : Nat) : s.Still (s.ringFirst r).1 := by
  have hset : ∀ (t : State) (q : List RingWord), t.Still (t.setInQ r q) := by
    intro t q
    unfold State.setInQ
    split <;> exact .of_parts rfl rfl rfl rfl rfl
  unfold State.ringFirst
  dsimp only
  split
  · exact .refl s
  · split
    · exact (hset s _).trans (.of_parts rfl rfl rfl rfl rfl)
    · exact hset s _
    · exact .refl s

theorem State.ringLeave_still (s : State) (r : Nat) (w : RingWord) : s.Still (s.ringLeave r w) := by
  unfold State.ringLeave
  dsimp only
  split
  · split
    · exact s.ringDieFault_still _ _ _ _ _
    · exact .refl s
  · unfold State.setInQ
    split <;> exact .of_parts rfl rfl rfl rfl rfl

/-- Everything that the shift of a region's ring leaves alone but its own words. -/
structure State.Shifted (s u : State) (r : Nat) : Prop where
  onward : s.Onward u
  stations : u.stations = s.stations
  passed : ∀ k < 131, u.slotAt (132 * r + k + 1) = s.slotAt (132 * r + k)
  taken : u.slotAt (132 * r) = (s.ringFirst r).2
  apart : ∀ k, k / 132 ≠ r → u.slotAt k = s.slotAt k

theorem State.ringShift_shifts (s : State) (r : Nat) : s.Shifted (s.ringShift r) r := by
  let v := (s.ringFirst r).1.ringLeave r ((s.ringWords r).getLastD RingWord.empty)
  have hv : s.Still v := (s.ringFirst_still r).trans (State.ringLeave_still _ r _)
  let ws := (s.ringFirst r).2 :: (s.ringWords r).take 131
  have hlen : ws.length = 132 := by simp [ws, State.ringWords]
  have hslot : ∀ k, (s.ringShift r).slotAt k = if 132 * r ≤ k then ws.getD (k - 132 * r) (v.slotAt k) else v.slotAt k :=
    fun k => Tbl.get_puts _ ws v.ring (132 * r) k
  have hsame : ∀ k, v.slotAt k = s.slotAt k := fun k => congrArg (Tbl.get _ · k) hv.ring
  refine ⟨⟨hv.onward.refc, hv.onward.flits, hv.onward.resume⟩, hv.stations, fun k hk => ?_, ?_, fun k hk => ?_⟩
  · rw [hslot, if_pos (by omega), show 132 * r + k + 1 - 132 * r = k + 1 by omega, List.getD_cons_succ]
    simp [State.ringWords, hk, List.getD_eq_getElem?_getD]
  · rw [hslot, if_pos (Nat.le_refl _), Nat.sub_self, List.getD_cons_zero]
  · rw [hslot]
    split
    · rw [List.getD_eq_default _ _ (by omega), hsame]
    · exact hsame k

/-- The word that a crossing has delivered, where the position takes one. -/
theorem State.ringFirst_arriving {s : State} {r : Nat} {w : RingWord} (h : s.arriving r = [w]) (htakes : s.ringTakes r = true) :
    (s.ringFirst r).2 = w := by
  simp [State.ringFirst, h, htakes]

end Sys2Proof.Machine
end

section
/-! ## TICK and CLOCK_STRETCH (O37) -/

namespace Sys2Proof.Machine

/-! ### The control net of a die -/

/-- What a region's tick does for its die, where the control net counts on it. -/
def State.onNet (s : State) (net : Bool) (d : Nat) (xs : List XferAt) : State := if net then (s.flitsMove d).dieTick d xs else s

/-- A fault flit at the end of a tick that moves the control net, or of another. -/
def FaultFlit.moved (f : FaultFlit) (net : Bool) : FaultFlit := if net then { f with left := f.left - 1 } else f

theorem State.flitsMove_die (s : State) (d e : Nat) : ((s.flitsMove d).die e).resumeIn = (s.die e).resumeIn ∧
    ((s.flitsMove d).die d).flits = (s.die d).flits.map (·.moved true) := by
  refine ⟨?_, congrArg DieSt.flits ((s.die_modDie d d _).trans (if_pos rfl))⟩
  rw [State.flitsMove, State.die_modDie]
  split
  · next h => exact h ▸ rfl
  · rfl

/-- What the control net leaves alone, and what it brings nearer. -/
theorem State.onNet_spec (s : State) (net : Bool) (d : Nat) (xs : List XferAt) : let u := s.onNet net d xs
    (∀ r, u.ref r = s.ref r) ∧ u.ring = s.ring ∧ (∀ i, (u.station i).tiles = (s.station i).tiles) ∧
      (∀ f ∈ (s.die d).flits, f.moved net ∈ (u.die d).flits) ∧ (u.die d).resumeIn = (s.die d).resumeIn := by
  cases net with
  | false => exact ⟨fun _ => rfl, rfl, fun _ => rfl, fun f hf => hf, rfl⟩
  | true =>
    obtain ⟨hresume, hflits⟩ := s.flitsMove_die d d
    have hcalm := (s.flitsMove d).dieTick_calm d xs
    refine ⟨hcalm.onward.ref, hcalm.ring, hcalm.tiles, fun f hf => hcalm.onward.flits d ?_, (hcalm.onward.resume d).trans hresume⟩
    rw [hflits]
    exact List.mem_map_of_mem hf

/-- With no station of the die to be replaced, its control net changes no station. -/
theorem State.onNet_stations {s : State} {d : Nat} (net : Bool) (xs : List XferAt) (h : ∀ i ∈ s.fw.subst, dieOf i ≠ d) :
    (s.onNet net d xs).stations = s.stations := by
  cases net with
  | false => rfl
  | true => exact (State.dieTick_still (s := s.flitsMove d) xs h).stations

/-! ### X ops come nearer (R202) -/

theorem State.foldl_modStation (f : Station → Station) (l : List Nat) (hl : l.Nodup) : ∀ (s : State) (i : Nat),
    (l.foldl (fun t i => t.modStation i f) s).station i = if i ∈ l then f (s.station i) else s.station i := by
  induction l with
  | nil => exact fun s i => by simp
  | cons a l ih =>
    intro s i
    obtain ⟨ha, hl⟩ := List.nodup_cons.1 hl
    rw [List.foldl_cons, ih hl, State.station_modStation]
    by_cases hai : a = i
    · subst hai
      simp [ha]
    · simp [hai, Ne.symm hai]

theorem State.xNearer_frame (s : State) (r : Nat) : (s.xNearer r).dies = s.dies ∧ (s.xNearer r).refc = s.refc ∧ (s.xNearer r).ring = s.ring ∧
    (s.xNearer r).fw = s.fw := by
  have hfold : ∀ (l : List Nat) (t : State), (l.foldl (fun t i => t.modStation i Station.xNearer) t).dies = t.dies ∧
      (l.foldl (fun t i => t.modStation i Station.xNearer) t).refc = t.refc ∧ (l.foldl (fun t i => t.modStation i Station.xNearer) t).ring = t.ring ∧
      (l.foldl (fun t i => t.modStation i Station.xNearer) t).fw = t.fw := by
    intro l
    induction l with
    | nil => exact fun t => ⟨rfl, rfl, rfl, rfl⟩
    | cons a l ih => exact fun t => ih _
  exact hfold _ s

theorem Tbl.get_of_not_mem {α : Type} (d : Nat → α) {n : Nat} (t : Tbl α) (h : n ∉ t.map (·.1)) : Tbl.get d t n = d n := by
  induction t with
  | nil => rfl
  | cons p t ih =>
    obtain ⟨hp, ht⟩ := not_or.1 (List.mem_cons.not.1 h)
    rw [Tbl.get, if_neg (Ne.symm hp)]
    exact ih ht

/-- Every station of the region has its X ops nearer; one in its reset state has none. -/
theorem State.station_xNearer {s : State} (hnodup : s.used.Nodup) (r i : Nat) :
    (s.xNearer r).station i = if regionOf i = r then (s.station i).xNearer else s.station i := by
  refine (State.foldl_modStation Station.xNearer (s.stnsOf r) (hnodup.filter _) s i).trans ?_
  by_cases hi : i ∈ s.used
  · simp [State.mem_stnsOf, hi]
  · have hreset : s.station i = Station.reset := Tbl.get_of_not_mem _ _ hi
    simp only [State.mem_stnsOf, hi, false_and, if_false, hreset]
    split <;> rfl

/-! ### An unfrozen tick -/

theorem State.stopsDue_calm (s : State) (r : Nat) : s.Calm (s.stopsDue r) := by
  refine .foldl _ (fun t i => ?_) s
  unfold State.stopDue
  split
  · split
    · exact t.modStation_calm i _ (fun _ => rfl)
    · exact .refl t
  · exact .refl t

theorem State.settleAsks_calm (s : State) (r : Nat) : s.Calm (s.settleAsks r) := by
  refine .foldl _ (fun t i => ?_) s
  have htimed : ∀ (d bit tgt : Nat), t.Calm (t.timedReq d bit tgt) := fun d bit tgt => .foldl _ (fun v x =>
    (v.modDie_still x (fun y => { y with timed := y.timed ++ [(bit, tgt)] }) (fun _ => ⟨List.Subset.refl _, rfl⟩)).calm) t
  unfold State.settleAsk
  split
  · exact .refl t
  · split
    · dsimp only
      split
      · exact State.Calm.trans (t := t.timedReq _ _ _) (htimed _ _ _) (State.modStation_calm _ i
          (fun x => { x with settleAt := x.settleAt.filter (fun u => decide (_ ≤ u)) ++ [_] }) (fun _ => rfl))
      · exact .refl t
    · exact .refl t

theorem State.xNearer_calm (s : State) (r : Nat) : s.Calm (s.xNearer r) :=
  .foldl _ (fun t i => t.modStation_calm i Station.xNearer (fun _ => rfl)) s

/-- What follows the shift of the ring and the count changes neither. -/
theorem State.runTick_calm (s : State) (r : Nat) : (((s.endTick r).ringShift r).refTick r).Calm ((s.runTick r).xNearer r) := by
  have hlanes : (((s.endTick r).ringShift r).refTick r).Still ((((s.endTick r).ringShift r).refTick r).freeLanes r) :=
    .of_parts rfl rfl rfl rfl rfl
  exact ((hlanes.calm.trans (State.stopsDue_calm _ r)).trans (State.settleAsks_calm _ r)).trans (State.xNearer_calm _ r)

theorem State.ref_refTick (s : State) (r j : Nat) : (s.refTick r).ref j = if r = j then s.ref r + 1 else s.ref j :=
  Tbl.get_put (fun _ => 0) s.refc r j (s.ref r + 1)

/-- An unfrozen tick of a region, up to what its die does (R102 to R104, R117, R209). -/
theorem State.runTick_spec (s : State) (r : Region) : let u := (s.runTick r).xNearer r
    u.ref r = s.ref r + 1 ∧ (∀ j, j ≠ r.val → u.ref j = s.ref j) ∧ (∀ d, (s.die d).flits ⊆ (u.die d).flits) ∧
      (∀ k < 131, u.slotAt (132 * r + k + 1) = (s.endTick r).slotAt (132 * r + k)) ∧
      (∀ k, k / 132 ≠ r.val → u.slotAt k = (s.endTick r).slotAt k) ∧
      (∀ w, (s.endTick r).arriving r = [w] → (s.endTick r).ringTakes r = true → u.slotAt (132 * r) = w) ∧
      (∀ i, (u.station i).tiles = ((s.endTick r).station i).tiles) := by
  intro u
  obtain hend := s.endTick_tick r
  obtain ⟨honward, hstns, hpassed, htaken, hapart⟩ := (s.endTick r).ringShift_shifts r
  have hcalm := s.runTick_calm r
  have href : ∀ j, ((s.endTick r).ringShift r).ref j = s.ref j := (hend.onward.trans honward).ref
  have hcount : ∀ j, u.ref j = if r.val = j then s.ref r + 1 else s.ref j := fun j => by
    rw [hcalm.onward.ref, State.ref_refTick, href, href]
  have hslot : ∀ k, u.slotAt k = ((s.endTick r).ringShift r).slotAt k := fun k => congrArg (Tbl.get _ · k) hcalm.ring
  refine ⟨(hcount r).trans (if_pos rfl), fun j hj => (hcount j).trans (if_neg (Ne.symm hj)), fun d => ?_, fun k hk => ?_, fun k hk => ?_,
    fun w hw htakes => ?_, fun i => ?_⟩
  · exact List.Subset.trans ((hend.onward.trans honward).flits d) (hcalm.onward.flits d)
  · exact (hslot _).trans (hpassed k hk)
  · exact (hslot k).trans (hapart k hk)
  · exact (hslot _).trans (htaken.trans (State.ringFirst_arriving hw htakes))
  · exact (hcalm.tiles i).trans (congrArg Station.tiles (State.station_congr hstns i))

/-! ### A frozen tick -/

theorem State.recentred_still (s : State) (d : Nat) : s.Still (s.recentred d) := by
  have hfifos : s.Still ((s.offCentre d).foldl (fun t f => t.recentreFifo d f) s) :=
    .foldl _ (fun t f => (t.setFld_still .shtFifo d _ _ 4).trans (State.countFld_still _ _ _ _ _ _)) s
  refine hfifos.trans ?_
  exact State.modDie_still _ d _ (fun _ => ⟨List.Subset.refl _, rfl⟩)

/-- A frozen tick of a region, up to what its stations' X ops and its die do (R209, R223, R246). -/
theorem State.coldTick_spec (s : State) (r : Nat) : let u := s.coldTick r
    u.refc = s.refc ∧ u.stations = s.stations ∧ u.ring = s.ring ∧ u.fw.subst = s.fw.subst ∧ (∀ d, (s.die d).flits ⊆ (u.die d).flits) ∧
      (u.die (r / 2)).resumeIn = if r = s.netRegion (r / 2) then (s.die (r / 2)).resumeIn.map (· - 1) else (s.die (r / 2)).resumeIn := by
  have hcount : s.Still (s.countFrozen r) := by
    unfold State.countFrozen
    split
    · exact .of_parts rfl rfl rfl rfl rfl
    · exact .refl s
  unfold State.coldTick
  dsimp only
  split
  · let t := (s.countFrozen r).modDie (r / 2) (fun y => { y with resumeIn := y.resumeIn.map (· - 1), recentre := y.recentre.map (· - 1) })
    have htick : t.Still ((s.countFrozen r).frozenTick (r / 2)) := by
      unfold State.frozenTick
      dsimp only
      split
      · exact t.recentred_still _
      · exact .refl t
    have hflits : ∀ d, (t.die d).flits = ((s.countFrozen r).die d).flits := fun d => by
      rw [State.die_modDie]
      split
      · next h => exact h ▸ rfl
      · rfl
    have hresume : (t.die (r / 2)).resumeIn = ((s.countFrozen r).die (r / 2)).resumeIn.map (· - 1) :=
      congrArg DieSt.resumeIn ((State.die_modDie _ _ _ _).trans (if_pos rfl))
    refine ⟨htick.onward.refc.trans hcount.onward.refc, htick.stations.trans hcount.stations, htick.ring.trans hcount.ring,
      htick.subst.trans hcount.subst, fun d => ?_, ?_⟩
    · exact List.Subset.trans (hcount.onward.flits d) (hflits d ▸ htick.onward.flits d)
    · rw [htick.onward.resume, hresume, hcount.onward.resume]
  · exact ⟨hcount.onward.refc, hcount.stations, hcount.ring, hcount.subst, hcount.onward.flits, hcount.onward.resume _⟩

/-! ### The command -/

theorem State.tick_waits {s : State} {r : Nat} (xs : List XferAt) (h : s.ticking r = false ∨ s.tickWaits r = true) : s.tick r xs = s := by
  unfold State.tick
  rcases h with h | h <;> simp [h]

theorem State.tick_eq {s : State} {r : Nat} (xs : List XferAt) (ht : s.ticking r = true) (hw : s.tickWaits r = false) :
    s.tick r xs = ((if (s.die (r / 2)).frozen then s.coldTick r else s.runTick r).xNearer r).onNet (decide (r = s.netRegion (r / 2))) (r / 2) xs := by
  unfold State.tick State.onNet
  simp [ht, hw]

section
variable {s : State} {r : Region} (xs : List XferAt) (ht : s.ticking r = true) (hw : s.tickWaits r = false)
include ht hw

theorem State.tick_runs (hf : (s.die (r / 2)).frozen = false) : let u := s.tick r xs
    u.ref r = s.ref r + 1 ∧ (∀ j, j ≠ r.val → u.ref j = s.ref j) ∧
      (∀ f ∈ (s.die (r / 2)).flits, f.moved (decide (r = s.netRegion (r / 2))) ∈ (u.die (r / 2)).flits) ∧
      (∀ k < 131, u.slotAt (132 * r + k + 1) = (s.endTick r).slotAt (132 * r + k)) ∧
      (∀ k, k / 132 ≠ r.val → u.slotAt k = (s.endTick r).slotAt k) ∧
      (∀ w, (s.endTick r).arriving r = [w] → (s.endTick r).ringTakes r = true → u.slotAt (132 * r) = w) ∧
      (∀ i, (u.station i).tiles = ((s.endTick r).station i).tiles) := by
  intro u
  have heq : u = ((s.runTick r).xNearer r).onNet (decide (r = s.netRegion (r / 2))) (r / 2) xs := by
    rw [show u = _ from State.tick_eq xs ht hw, hf]
    rfl
  obtain ⟨hself, hothers, hflits, hpassed, hapart, htaken, htiles⟩ := s.runTick_spec r
  obtain ⟨href, hring, hnet, hmoved, -⟩ := ((s.runTick r).xNearer r).onNet_spec (decide (r = s.netRegion (r / 2))) (r / 2) xs
  have hslot : ∀ k, (((s.runTick r).xNearer r).onNet (decide (r = s.netRegion (r / 2))) (r / 2) xs).slotAt k = ((s.runTick r).xNearer r).slotAt k :=
    fun k => congrArg (Tbl.get _ · k) hring
  rw [heq]
  exact ⟨(href r).trans hself, fun j hj => (href j).trans (hothers j hj), fun f hf => hmoved f (hflits _ hf),
    fun k hk => (hslot _).trans (hpassed k hk), fun k hk => (hslot k).trans (hapart k hk), fun w hw ht => (hslot _).trans (htaken w hw ht),
    fun i => (hnet i).trans (htiles i)⟩

theorem State.tick_frozen (hf : (s.die (r / 2)).frozen = true) : let u := s.tick r xs
    (∀ j, u.ref j = s.ref j) ∧ u.ring = s.ring ∧
      (∀ f ∈ (s.die (r / 2)).flits, f.moved (decide (r = s.netRegion (r / 2))) ∈ (u.die (r / 2)).flits) ∧
      (s.used.Nodup → (∀ i ∈ s.fw.subst, dieOf i ≠ r / 2) →
        ∀ i, u.station i = if regionOf i = r.val then (s.station i).xNearer else s.station i) ∧
      (u.die (r / 2)).resumeIn = if r = s.netRegion (r / 2) then (s.die (r / 2)).resumeIn.map (· - 1) else (s.die (r / 2)).resumeIn := by
  intro u
  have heq : u = ((s.coldTick r).xNearer r).onNet (decide (r = s.netRegion (r / 2))) (r / 2) xs := by
    rw [show u = _ from State.tick_eq xs ht hw, hf]
    rfl
  obtain ⟨hrefc, hstns, hring, hsubst, hflits, hresume⟩ := s.coldTick_spec r
  obtain ⟨hxdies, hxrefc, hxring, hxfw⟩ := (s.coldTick r).xNearer_frame r
  obtain ⟨href, hnring, -, hmoved, hnresume⟩ := ((s.coldTick r).xNearer r).onNet_spec (decide (r = s.netRegion (r / 2))) (r / 2) xs
  have hdie : ∀ d, ((s.coldTick r).xNearer r).die d = (s.coldTick r).die d := State.die_congr hxdies
  rw [heq]
  refine ⟨fun j => (href j).trans ?_, hnring.trans (hxring.trans hring), fun f hf => hmoved f ?_, fun hnodup hno i => ?_, ?_⟩
  · rw [State.ref, hxrefc, hrefc, State.ref]
  · rw [hdie]
    exact hflits _ hf
  · have hused : (s.coldTick r).used = s.used := congrArg (List.map _) hstns
    rw [State.station_congr (State.onNet_stations _ xs (by rwa [hxfw, hsubst])), State.station_xNearer (hused ▸ hnodup),
      State.station_congr hstns]
  · rw [hnresume, hdie, hresume]

end

/-! ### What a tick waits for (log entry 1) -/

theorem State.tickWaits_resume {s : State} {r : Nat} (hf : (s.die (r / 2)).frozen = true)
    (h : s.announceDue (r / 2) = true ∨ (s.die (r / 2)).resumeIn = some 0) : s.tickWaits r = true := by
  rcases h with h | h <;> simp [State.tickWaits, hf, h]

theorem State.tickWaits_freeze {s : State} {r : Nat} (hf : (s.die (r / 2)).frozen = false) (h : s.halted r = true) : s.tickWaits r = true := by
  simp [State.tickWaits, hf, h]

theorem State.tickWaits_flit {s : State} {r : Nat} (hnet : r = s.netRegion (r / 2)) (h : s.flitDue (r / 2) = true) : s.tickWaits r = true := by
  unfold State.tickWaits
  cases (s.die (r / 2)).frozen <;> simp [← hnet, h]

theorem State.frozen_of_liveTick {s : State} {i t : Nat} (h : s.liveTick i = some t) : (s.die (regionOf i / 2)).frozen = false := by
  unfold State.liveTick at h
  split at h
  · next hrun => simp_all [State.halted]
  · cases h

/-- What falls on the station's tick. -/
theorem State.stationDue_of {s : State} {i t : Nat} (ht : s.liveTick i = some t)
    (h : (∃ b, (s.station i).bounds.head? = some b ∧ b.tick ≤ t) ∨ (∃ m w, (s.stream i m).wait = some w ∧ w.ends t = true) ∨
      (∃ m w, (s.stream i m).romWord t = some w)) : s.stationDue i = true := by
  have hall : ∀ m : Strm, m ∈ [Strm.F, .B, .U] := fun m => by cases m <;> decide
  unfold State.stationDue
  rw [ht]
  dsimp only
  rw [Bool.or_eq_true, List.any_eq_true]
  rcases h with ⟨b, hb, hdue⟩ | ⟨m, w, hwait, hends⟩ | ⟨m, w, hrom⟩
  · left
    obtain ⟨l, hl⟩ : ∃ l, (s.station i).bounds = b :: l := by
      cases hbs : (s.station i).bounds with
      | nil => simp [hbs] at hb
      | cons c l => exact ⟨l, by simpa [hbs] using hb⟩
    simp [Station.boundaryDue, hl, hdue]
  · right
    have hwait' : ((s.station i).stream m).wait = some w := hwait
    exact ⟨m, hall m, by simp [hwait', hends]⟩
  · right
    have hrom' : ((s.station i).stream m).romWord t = some w := hrom
    exact ⟨m, hall m, by simp [hrom']⟩

theorem State.tickWaits_station {s : State} {r : Nat} {i t : Nat} (hi : i ∈ s.used) (hr : regionOf i = r) (ht : s.liveTick i = some t)
    (h : s.stationDue i = true) : s.tickWaits r = true := by
  have hf : (s.die (r / 2)).frozen = false := hr ▸ State.frozen_of_liveTick ht
  have hany : s.used.any (fun i => decide (regionOf i = r) && s.stationDue i) = true := List.any_eq_true.2 ⟨i, hi, by simp [hr, h]⟩
  simp [State.tickWaits, hf, hany]

/-- Settles O37: the two kinds of tick, what a tick waits for, and the clock stretch; then what stays in flight, and which of the writes of one
target stands. -/
theorem ticksMoveTheRing : Obligations.TicksMoveTheRing := by
  unfold Obligations.TicksMoveTheRing
  refine ⟨fun s r xs => ?_, fun s n u => s.pipeTick_stays n u, fun s n ws w m k v => s.landAll_sreg n,
    fun s n ws w r k vs v hw hwr hmem hagree hk hlast => s.landAll_el n hw hwr hmem hagree hk hlast, by decide⟩
  intro net nearer
  refine ⟨fun ht hw hf => ?_, fun ht hw hf => ?_, fun h => congrArg Host.Outcome.next (State.tick_waits xs h),
    State.tickWaits_resume, State.tickWaits_freeze, State.tickWaits_flit,
    fun i t hi hr ht h => State.tickWaits_station hi hr ht (State.stationDue_of ht h), ?_⟩
  · obtain ⟨hself, hothers, hflits, hpassed, hapart, htaken, htiles⟩ := State.tick_runs xs ht hw hf
    refine ⟨_, rfl, hself, hothers, fun f hf => ?_, hpassed, hapart, htaken, fun hnodup i k hi hr hk hunst => ?_, fun i hi => ?_⟩
    · simpa [FaultFlit.moved, net] using hflits f hf
    · exact (htiles i).trans (State.endTick_tiles hnodup hi hr hk hunst)
    · refine (htiles i).trans (congrArg Station.tiles ((s.endTick_tick r).others i fun h => hi ?_))
      exact (State.mem_stnsOf.1 h).2
  · obtain ⟨href, hring, hflits, hstns, hresume⟩ := State.tick_frozen xs ht hw hf
    refine ⟨_, rfl, href, hring, fun f hf => ?_, hstns, hresume⟩
    simpa [FaultFlit.moved, net] using hflits f hf
  · exact ⟨_, rfl, s.countFld_regsOnly .clkRegionStatus r 15 0 1, s.fld_countFld_self .clkRegionStatus r 1 (by decide) (by decide)⟩

end Sys2Proof.Machine
end

section
/-! ## A command that runs is answered (O54) -/

namespace Sys2Proof.Machine

/-! ### From the mailbox to the answer (R349, R350) -/

/-- The registers that an answer to the host writes. -/
def answerRegs : List Reg := [.mbxStatus, .ethTxFrames, .mbxNextSeq]

/-- Hearing a message changes the port's posted entries and the port of events alone. -/
theorem State.heard_frame (s : State) (p : EthPort) : s.computeSame (s.heard p) ∧ (s.heard p).regs = s.regs ∧ (s.heard p).fuses = s.fuses ∧
    (s.heard p).pwr = s.pwr ∧ (s.heard p).mcast = s.mcast ∧ (s.heard p).fw.slots = s.fw.slots :=
  ⟨⟨rfl, rfl, rfl, rfl, rfl⟩, rfl, rfl, rfl, rfl, rfl⟩

/-- A command that passes every check that all commands have runs, is recorded and answered. -/
theorem State.receive_runs {s : State} {h : TcsHdr} {k : Kind} (c : Instr) (run : State → Ran) (after : State → State)
    (hruns : s.tcsRuns h k.opc k.rom) (hwake : k.wake = false) :
    s.receive h c (fun t => t.tcsRun h k c run after) =
      (let q := run (s.heard h.port)
       let t := q.1.finish h k (k.opc / 0x1000) q.2.1 q.2.2
       if q.2.1 = 0 then after t else t) := by
  obtain ⟨hon, hqp, hlive, hcheck, hrom, hrsv, -⟩ := hruns
  have hcheck' : (s.heard h.port).tcsCheck h = .pass (k.opc / 0x1000) := hcheck
  have hinRom (p : Nat) : (s.heard h.port).inRom p = s.inRom p := rfl
  have hpre : (s.heard h.port).preStatus h k (k.opc / 0x1000) = 0 := by
    unfold State.preStatus
    rw [if_neg (by simp), hinRom, hinRom, if_neg (by rcases hrom with h | ⟨h, g⟩ <;> simp [*]), if_neg (by simp [hrsv])]
  have hsame : (if k.wake && decide ((s.heard h.port).idleState = 1) then (s.heard h.port).leaveIdle 0 else s.heard h.port) = s.heard h.port :=
    if_neg (by simp [hwake])
  unfold State.receive
  rw [if_neg (by simp [hon, hqp]), if_neg (by simp [hlive])]
  unfold State.tcsRun
  beta_reduce
  rw [hcheck']
  dsimp only
  rw [hpre, if_neg (by decide), if_neg (by simp [hwake]), hsame]

theorem State.fwUpd_tells (s : State) (f : FwSt → FwSt) {rs : List Reg} : s.Tells (s.fwUpd f) rs := .of_regs rfl

theorem State.journalAdd_tells (s : State) {p : Nat} (hp : p < 4) (d : Done) {rs : List Reg} (hrs : Reg.mbxNextSeq ∈ rs) :
    s.Tells (s.journalAdd p d) rs := by
  unfold State.journalAdd
  exact (s.fwUpd_tells _).trans (.of_setReg hrs hp (by decide) _)

/-- The journal takes the completion as its newest entry. -/
theorem State.journalAdd_fw (s : State) (p : Nat) (d : Done) : ((s.journalAdd p d).journal p).getLast? = some d ∧
    (s.journalAdd p d).fw = { s.fw with journal := (s.journalAdd p d).fw.journal } := by
  have hlast := getLast?_drop_append (s.journal p) d 255
  unfold State.journalAdd
  generalize (s.journal p ++ [d]).drop ((s.journal p).length + 1 - 256) = l at hlast ⊢
  exact ⟨(congrArg List.getLast? (Tbl.get_put_self _ _ _ _)).trans hlast, rfl⟩

/-- What the answer to a command leaves behind. -/
structure State.Replied (t u : State) (h : TcsHdr) (opc : Nat) (load : List Nat) : Prop where
  answered : t.answered u h opc 0 load
  tells : t.Tells u [.mbxNextSeq]
  fw : u.fw = { t.fw with journal := u.fw.journal }

theorem qpKey_mailbox_lt (p : EthPort) : qpKey p 0 < Reg.ethQpStatus.info.count := by
  have := p.isLt
  show 65 * p.val + 0 < 130
  omega

theorem State.finish_replies {t : State} {h : TcsHdr} {k : Kind} (hk : k.opc / 0x1000 < 4) (hlost : t.bit .mbxStatus 0 30 = false)
    (hqp : t.qpState (qpKey h.port 0) = 1) (load : List Nat) :
    t.Replied (t.finish h k (k.opc / 0x1000) 0 load) h k.opc load := by
  let d := t.doneOf h k.opc 0 load
  let v := t.journalAdd (k.opc / 0x1000) d
  have hv : t.Tells v [.mbxNextSeq] := t.journalAdd_tells hk d (by simp)
  have hlost' : v.bit .mbxStatus 0 30 = false := (hv.flags 30 (by decide) (by decide)).trans hlost
  have hqp' : v.qpState (qpKey h.port 0) = 1 := (hv.regs.fld (by decide) (qpKey_mailbox_lt h.port) 31 30).trans hqp
  have hsend : t.finish h k (k.opc / 0x1000) 0 load =
      v.mailTx h.port (.completion h.port h.fp.toNat k.opc h.seq d.rcnt 0 d.sess d.step load) := by
    rw [State.finish, State.sendDone, State.toHost, hlost', Bool.and_false, if_neg Bool.false_ne_true]
    rfl
  have hmail := v.mailTx_tells h.port (.completion h.port h.fp.toNat k.opc h.seq d.rcnt 0 d.sess d.step load) (rs := [.mbxNextSeq])
  have hfw := v.mailTx_fw h.port (.completion h.port h.fp.toNat k.opc h.seq d.rcnt 0 d.sess d.step load)
  obtain ⟨hjournal, hkept⟩ := t.journalAdd_fw (k.opc / 0x1000) d
  have hexpected : v.expected (k.opc / 0x1000) = (t.expected (k.opc / 0x1000) + 1) % 2 ^ 32 := State.reg_setReg _ _ _ _
  rw [hsend]
  refine ⟨⟨⟨d.rcnt, d.sess, d.step, ?_, ?_⟩, ?_⟩, hv.trans hmail, by rw [hfw]; exact hkept⟩
  · rw [State.mailTx, if_pos hqp']
    exact State.lastSent_roceTx _ _ _
  · rw [State.journal, hfw]
    exact hjournal
  · refine Eq.trans ?_ hexpected
    have hregs := v.mailTx_tells h.port (.completion h.port h.fp.toNat k.opc h.seq d.rcnt 0 d.sess d.step load) (rs := [])
    exact hregs.regs .mbxNextSeq (by decide) _ hk

theorem State.computeSame_trans {s t u : State} (h : s.computeSame t) (g : t.computeSame u) : s.computeSame u := by
  obtain ⟨h1, h2, h3, h4, h5⟩ := h
  obtain ⟨g1, g2, g3, g4, g5⟩ := g
  exact ⟨g1.trans h1, g2.trans h2, g3.trans h3, g4.trans h4, g5.trans h5⟩

/-- The registers by which a command is answered. -/
def askRegs : List Reg := [.mbxStatus, .ethQpStatus, .mbxNextSeq]

/-- An accepted command: what it came to is answered, and the answer changes nothing but the mailbox. -/
structure State.Accepted (s t u : State) (h : TcsHdr) (opc : Nat) : Prop where
  answered : s.answered u h opc 0 []
  same : s.computeSame u
  kept : t.RegsKept u answerRegs
  fw : u.fw = { t.fw with journal := u.fw.journal }

theorem State.accepts_command {s : State} {h : TcsHdr} {k : Kind} (c : Instr) {run : State → Ran} {after : State → State} {t : State}
    {rs : List Reg} (hruns : s.tcsRuns h k.opc k.rom) (hwake : k.wake = false) (hrun : run (s.heard h.port) = (t, 0, []))
    (hk : (s.heard h.port).RegsKept t rs) (hrs : ∀ r ∈ askRegs, r ∉ rs) (hsame : (s.heard h.port).computeSame t) (hopc : k.opc / 0x1000 < 4) :
    ∃ u, s.receive h c (fun t => t.tcsRun h k c run after) = after u ∧ s.Accepted t u h k.opc := by
  obtain ⟨hfirst, hregs, -⟩ := s.heard_frame h.port
  have hread : ∀ r ∈ askRegs, ∀ i < r.info.count, t.reg r i = s.reg r i := fun r hr i hi =>
    (hk r (hrs r hr) i hi).trans (State.reg_congr hregs r i)
  have hlost : t.bit .mbxStatus 0 30 = false := by
    refine (congrArg (bitOf · 30) (hread .mbxStatus (by decide) 0 (by decide))).trans ?_
    obtain ⟨-, -, -, hcheck, -⟩ := hruns
    refine Bool.eq_false_iff.2 fun hset => ?_
    unfold State.tcsCheck at hcheck
    split at hcheck
    · cases hcheck
    · rw [if_pos (.inr hset)] at hcheck
      cases hcheck
  have hqp : t.qpState (qpKey h.port 0) = 1 :=
    (congrArg (bitsOf · 31 30) (hread .ethQpStatus (by decide) _ (qpKey_mailbox_lt h.port))).trans hruns.2.1
  obtain ⟨⟨hlast, hseq⟩, htells, hfw⟩ := State.finish_replies (t := t) (h := h) (k := k) hopc hlost hqp []
  have hexpected : t.expected (k.opc / 0x1000) = s.expected (k.opc / 0x1000) := hread .mbxNextSeq (by decide) _ hopc
  refine ⟨t.finish h k (k.opc / 0x1000) 0 [], ?_, ⟨hlast, hexpected ▸ hseq⟩, ?_, htells.regs, hfw⟩
  · rw [State.receive_runs c run after hruns hwake, hrun]
    rfl
  · exact State.computeSame_trans hfirst (State.computeSame_trans hsame htells.computeSame)

end Sys2Proof.Machine
end

section
/-! ## Commits of a processor (O54) -/

namespace Sys2Proof.Machine

/-! ### What writes of the fabric's registers may change -/

/-- From `s` to `u`, nothing differs but the Pycia ports, what the processors keep, the outputs and, of the register words, those of `rs`. -/
structure State.Fabric (s u : State) (rs : List Reg) : Prop where
  rest : u = { s with regs := u.regs, ports := u.ports, fw := u.fw, out := u.out }
  kept : s.WordsKept u rs

namespace State.Fabric

variable {s t u : State} {rs : List Reg}

theorem of_regs (hrest : u = { s with regs := u.regs, ports := u.ports, fw := u.fw, out := u.out }) (hregs : u.regs = s.regs) : s.Fabric u rs :=
  ⟨hrest, .of_regs hregs⟩

theorem refl (s : State) (rs : List Reg) : s.Fabric s rs := .of_regs rfl rfl

theorem trans (h : s.Fabric t rs) (g : t.Fabric u rs) : s.Fabric u rs :=
  ⟨Eq.trans g.rest (by rw [h.rest]), h.kept.trans g.kept⟩

theorem mono {qs : List Reg} (h : s.Fabric u qs) (hsub : qs ⊆ rs) : s.Fabric u rs := ⟨h.rest, h.kept.mono hsub⟩

theorem foldl {α : Type} {f : State → α → State} (h : ∀ (s : State) a, s.Fabric (f s a) rs) (l : List α) (s : State) :
    s.Fabric (l.foldl f s) rs := by
  induction l generalizing s with
  | nil => exact .refl s rs
  | cons a l ih => exact (h s a).trans (ih _)

theorem computeSame (h : s.Fabric u rs) : s.computeSame u := by
  rw [h.rest]
  exact ⟨rfl, rfl, rfl, rfl, rfl⟩

/-- What a write's checks read besides registers. -/
theorem frame (h : s.Fabric u rs) : u.fuses = s.fuses ∧ u.pwr = s.pwr ∧ u.pins = s.pins ∧ u.mcast = s.mcast ∧ u.stations = s.stations := by
  rw [h.rest]
  exact ⟨rfl, rfl, rfl, rfl, rfl⟩

end State.Fabric

/-! ### A link is dropped (R304) -/

theorem State.noteBad_fabric (s : State) (st m : Nat) : s.Fabric (s.noteBad st m) [.pyErr] := by
  have hcap : s.Fabric (s.capture .pyErr 0 (7 * 2 ^ 27 + 0 * 2 ^ 23 + m % 2 ^ 16)) [.pyErr] := by
    refine ⟨?_, s.capture_wordsKept (by simp) (by decide) _⟩
    rw [show State.capture _ _ _ _ = _ from s.capture_capturedTo .pyErr 0 _]
  unfold State.noteBad State.pyErr
  split
  · dsimp only
    split
    · refine hcap.trans ?_
      unfold State.tellSteward
      split <;> exact .of_regs rfl rfl
    · exact hcap
  · exact .refl s _

theorem State.enqueue_fabric (s : State) (agent m : Nat) (h : Hdr) (data : List Byte) : s.Fabric (s.enqueue agent m h data) [.pyErr] := by
  unfold State.enqueue
  split
  · exact s.noteBad_fabric 6 m
  · exact .of_regs rfl rfl

theorem State.release_fabric (s : State) (q : QMsg) (n : Nat) : s.Fabric (s.release q n) [.pyErr] := by
  unfold State.release State.onlyIf
  split
  · exact .of_regs rfl rfl
  · exact .refl s _

theorem State.bounce_fabric (s : State) (h : List Byte) : s.Fabric (s.bounce h) [.pyErr] := by
  have hnote := s.noteBad_fabric 6 (flitTo h)
  unfold State.bounce
  dsimp only
  split
  · exact hnote
  · split
    · exact hnote.trans (.of_regs rfl rfl)
    · exact hnote.trans (State.enqueue_fabric _ _ _ _ _)

theorem State.reroute_fabric (s : State) (q : QMsg) : s.Fabric (s.reroute q) [.pyErr] := by
  unfold State.reroute
  split
  · next h _ _ =>
    split
    · exact .of_regs rfl rfl
    · exact (s.bounce_fabric h).trans (State.release_fabric _ _ _)
  · exact .refl s _

theorem State.dropLink_fabric (s : State) (p : Nat) : s.Fabric (s.dropLink p) [.pyErr] := by
  have hmod : ∀ (t : State) (o : Nat) (f : PyPortSt → PyPortSt), t.Fabric (t.modPort o f) [.pyErr] := fun t o f => .of_regs rfl rfl
  have hdisown : s.Fabric (s.disown p) [.pyErr] := .foldl (fun t o => hmod t o _) _ s
  have hrelease : ∀ (l : List QMsg) (t : State), t.Fabric (l.foldl (fun t q => t.release q q.flits.length) t) [.pyErr] :=
    fun l t => .foldl (fun t q => t.release_fabric q _) l t
  have hset : ∀ (t : State) (x : PyPortSt), t.Fabric (t.setPort p x) [.pyErr] := fun t x => .of_regs rfl rfl
  exact ((hdisown.trans (hrelease _ _)).trans (hset _ _)).trans (.foldl (fun t q => t.reroute_fabric q) _ _)

/-! ### Effects of a write on its own word -/

/-- From `s` to `u`, of the registers `ps` the words at index `i` alone may differ, and of `rs` any. -/
structure State.Acted (s u : State) (ps rs : List Reg) (i : Nat) : Prop where
  fabric : s.Fabric u (ps ++ rs)
  apart : ∀ q ∈ ps, ∀ j < q.info.count, j ≠ i → u.reg q j = s.reg q j

theorem State.Acted.refl (s : State) (ps rs : List Reg) (i : Nat) : s.Acted s ps rs i := ⟨.refl s _, fun _ _ _ _ _ => rfl⟩

theorem State.Acted.trans {s t u : State} {ps rs : List Reg} {i : Nat} (h : s.Acted t ps rs i) (g : t.Acted u ps rs i) : s.Acted u ps rs i :=
  ⟨h.fabric.trans g.fabric, fun q hq j hj hne => (g.apart q hq j hj hne).trans (h.apart q hq j hj hne)⟩

/-- A change of registers `rs` alone. -/
theorem State.Fabric.acted {s u : State} {ps rs : List Reg} {i : Nat} (h : s.Fabric u rs) (hdisj : ∀ q ∈ ps, q ∉ rs) : s.Acted u ps rs i :=
  ⟨h.mono (List.subset_append_right ps rs), fun q hq _ hj _ => h.kept.reg (hdisj q hq) hj⟩

theorem State.setFld_acted (s : State) {r : Reg} {ps rs : List Reg} {i : Nat} (hr : r ∈ ps) (hi : i < r.info.count) (hi' lo v : Nat) :
    s.Acted (s.setFld r i hi' lo v) ps rs i := by
  refine ⟨⟨rfl, s.setFld_wordsKept (by simp [hr]) hi _ _ _⟩, fun q hq j hj hne => ?_⟩
  refine State.regAt_setFld_ne _ _ _ _ _ fun h => hne ?_
  by_cases hqr : r = q
  · subst hqr
    exact (Reg.at_inj.1 h).symm
  · exact absurd h (Reg.at_ne (a := 0) (b := 0) hqr hi hj (by split <;> decide) (by split <;> decide))

/-- The registers in which a port shows its own link. -/
def portRegs : List Reg := [.pyPortStatus, .pyNeighbor]

theorem State.toTrain_acted (s : State) {p : Nat} (hp : p < 16) : s.Acted (s.toTrain p) portRegs [.pyErr] p := by
  have hports : ∀ t : State, t.Acted (t.modPort p PyPortSt.fresh) portRegs [.pyErr] p := fun t =>
    State.Fabric.acted (.of_regs rfl rfl) (by decide)
  exact ((((s.setFld_acted (by decide) hp _ _ _).trans (State.setFld_acted _ (by decide) hp _ _ _)).trans
    (State.setFld_acted _ (by decide) hp _ _ _)).trans (hports _))

theorem State.pyEnable_acted (s : State) {p : Nat} (hp : p < 16) : s.Acted (s.pyEnable p) portRegs [.pyErr] p := by
  unfold State.pyEnable
  split
  · exact s.toTrain_acted hp
  · exact .refl s _ _ _

theorem State.pyDisable_acted (s : State) {p : Nat} (hp : p < 16) : s.Acted (s.pyDisable p) portRegs [.pyErr] p := by
  unfold State.pyDisable
  split
  · exact .refl s _ _ _
  · have hdown : s.Acted (s.setPyState p 0) portRegs [.pyErr] p := s.setFld_acted (by decide) hp _ _ _
    exact hdown.trans ((State.dropLink_fabric _ p).acted (by decide))

/-! ### Writes of one register (R353) -/

/-- From `s` to `t`, a processor's writes of register `r` have been made: the words that `l` indexes hold their values, each written once, and
nothing else differs but what their effects may change: of the registers `ps` the words at those indices, of `rs` any. -/
structure State.Wrote (s t : State) (r : Reg) (ps rs : List Reg) (l : List (Nat × Nat)) : Prop where
  fabric : s.Fabric t (r :: (ps ++ rs))
  apart : ∀ q ∈ r :: ps, ∀ j < q.info.count, j ∉ l.map (·.1) → t.reg q j = s.reg q j
  written : ∀ w ∈ l, ∀ k < 32, r.info.rw.testBit k = true → (t.reg r w.1).testBit k = w.2.testBit k

theorem State.Wrote.none (s : State) (r : Reg) (ps rs : List Reg) : s.Wrote s r ps rs [] :=
  ⟨.refl s _, fun _ _ _ _ _ => rfl, fun _ h => by cases h⟩

/-- One more word is written. -/
theorem State.Wrote.snoc {s t u : State} {r : Reg} {ps rs : List Reg} {l : List (Nat × Nat)} {w : Nat × Nat} (h : s.Wrote t r ps rs l)
    (g : t.Wrote u r ps rs [w]) (hw : w.1 ∉ l.map (·.1)) (hl : ∀ v ∈ l, v.1 < r.info.count) : s.Wrote u r ps rs (l ++ [w]) := by
  refine ⟨h.fabric.trans g.fabric, fun q hq j hj hne => ?_, fun v hv k hk hrw => ?_⟩
  · rw [List.map_append, List.mem_append, not_or] at hne
    exact (g.apart q hq j hj hne.2).trans (h.apart q hq j hj hne.1)
  · rcases List.mem_append.1 hv with hv | hv
    · have hne : v.1 ∉ [w].map (·.1) := fun he => by
        have hvw : v.1 = w.1 := by simpa using he
        exact hw (hvw ▸ List.mem_map_of_mem hv)
      rw [g.apart r List.mem_cons_self v.1 (hl v hv) hne]
      exact h.written v hv k hk hrw
    · exact g.written v hv k hk hrw

theorem State.putFields_wrote (s : State) {r : Reg} {i : Nat} (ps rs : List Reg) (hi : i < r.info.count) (hps : r ∉ ps) (hw1c : r.info.w1c = 0)
    (v : Nat) : s.Wrote (s.putFields r i false v) r ps rs [(i, v)] := by
  refine ⟨⟨rfl, (s.putFields_wordsKept hi v).mono (by simp)⟩, fun q hq j hj hne => ?_, fun w hw k hk hrw => ?_⟩
  · refine s.regAt_putFields_ne r q i false v fun h => ?_
    by_cases hqr : q = r
    · subst hqr
      exact hne (by simpa using Reg.at_inj.1 h)
    · exact absurd h (Reg.at_ne (a := 0) (b := 0) hqr hj hi (by split <;> decide) (by split <;> decide))
  · obtain rfl := List.mem_singleton.1 hw
    refine (s.testBit_putFields r i false v hk).trans ?_
    simp [RegInfo.bitAfter, hrw, hw1c]

/-- A register that a commit writes plainly: its fields are RW, it is no word of a region, and a write that sets no WO bit acts on `ps` and
`rs` alone. -/
structure Reg.Committed (r : Reg) (p : Proc) (ps rs : List Reg) : Prop where
  rwe : r.info.rwe = 0
  w1c : r.info.w1c = 0
  plain : r ≠ .prismRgnBase ∧ r ≠ .prismRgnShape ∧ r ≠ .prismRgnScale ∧ r ≠ .prismRgnTwin
  fresh : r ∉ ps ++ rs
  effect : ∀ (t : State) i v, i < r.info.count → v &&& r.info.wo = 0 → t.Acted (t.csrEffect (.fp p) r i v) ps rs i

theorem Reg.committed_quiet {r : Reg} (p : Proc) (hrwe : r.info.rwe = 0) (hw1c : r.info.w1c = 0)
    (hplain : r ≠ .prismRgnBase ∧ r ≠ .prismRgnShape ∧ r ≠ .prismRgnScale ∧ r ≠ .prismRgnTwin) (hacts : r.acts = false) :
    r.Committed p [] [] :=
  ⟨hrwe, hw1c, hplain, by simp, fun t i v _ _ => (t.csrEffect_of_not_acts (.fp p) i v hacts).symm ▸ .refl t _ _ i⟩

section
variable {r : Reg} {p : Proc} {ps rs : List Reg} (hr : r.Committed p ps rs)
include hr

theorem State.csrWrite_wrote {t : State} {i v : Nat} (h : t.accepts (.fp p) r i v) (hi : i < r.info.count)
    (hwo : v &&& r.info.wo = 0) : ∃ u, t.csrWrite (.fp p) (r.at i) 4 v = (u, stOk) ∧ t.Wrote u r ps rs [(i, v)] := by
  obtain ⟨hloc, hchk⟩ := h
  obtain ⟨hrps, hrrs⟩ := not_or.1 (List.mem_append.not.1 hr.fresh)
  have hput := t.putFields_wrote ps rs hi hrps hr.w1c v
  have hact := hr.effect (t.putFields r i false v) i v hi hwo
  refine ⟨t.alertPin ((t.putFields r i false v).csrEffect (.fp p) r i v), ?_, ?_⟩
  · simp only [State.csrWrite, hloc, hchk, ne_eq, not_true, if_false, State.leaveTwin_of_no_region _ _ _ hr.plain, State.putReg_plain _ _ _ hr.rwe]
  · rw [State.alertPin_eq]
    refine ⟨hput.fabric.trans ((hact.fabric.mono (by simp)).trans (.of_regs rfl rfl)), fun q hq j hj hne => ?_, fun w hw k hk hrw => ?_⟩
    · refine Eq.trans ?_ (hput.apart q hq j hj hne)
      rcases List.mem_cons.1 hq with rfl | hq
      · exact hact.fabric.kept.reg hr.fresh hj
      · exact hact.apart q hq j hj (by simpa using hne)
    · refine Eq.trans ?_ (hput.written w hw k hk hrw)
      obtain rfl := List.mem_singleton.1 hw
      exact congrArg (Nat.testBit · k) (hact.fabric.kept.reg hr.fresh hi)

/-- A commit of writes of one register, each index once and each accepted behind those before it, is applied whole. -/
theorem State.commit_wrote {s : State} : ∀ (rest done : List (Nat × Nat)) (t : State), ((done ++ rest).map (·.1)).Nodup →
    (∀ w ∈ done ++ rest, w.1 < r.info.count ∧ w.2 &&& r.info.wo = 0) → s.Wrote t r ps rs done →
    (∀ l w m t, done ++ rest = l ++ w :: m → s.Wrote t r ps rs l → t.accepts (.fp p) r w.1 w.2) →
    ∃ u, t.commit p (rest.map (fun w => (r.at w.1, w.2))) = (u, 0, []) ∧ s.Wrote u r ps rs (done ++ rest) := by
  intro rest
  induction rest with
  | nil => exact fun done t _ _ h _ => ⟨t, rfl, by rwa [List.append_nil]⟩
  | cons w rest ih =>
    intro done t hnodup hlt h hacc
    obtain ⟨hw, hwo⟩ := hlt w (by simp)
    have hnew : w.1 ∉ done.map (·.1) := fun hm => by
      rw [List.map_append, List.nodup_append] at hnodup
      exact hnodup.2.2 _ hm _ (by simp) rfl
    obtain ⟨u, hu, hwrote⟩ := State.csrWrite_wrote hr (hacc done w rest t rfl h) hw hwo
    have hassoc : done ++ w :: rest = (done ++ [w]) ++ rest := by simp
    rw [hassoc] at hnodup hlt hacc ⊢
    obtain ⟨v, hv, hall⟩ := ih (done ++ [w]) u hnodup hlt
      (h.snoc hwrote hnew (fun x hx => (hlt x (by simp [hx])).1)) hacc
    refine ⟨v, ?_, hall⟩
    rw [List.map_cons, State.commit, hu, if_pos rfl]
    exact hv

end

end Sys2Proof.Machine
end

section
/-! ## Steward's commands (O54) -/

namespace Sys2Proof.Machine

/-! ### A command whose run is a commit -/

/-- A register of the I/O domain that belongs to no die answers while that domain is powered. -/
theorem State.regLocate_io {s : State} (hon : bitOf s.pwr.on.toNat 13 = true) {r : Reg} (hdom : r.info.dom = .io) (hscope : r.info.scope = .one)
    {i : Nat} (hi : i < r.info.count) : s.regLocate (r.at i) 4 = .ok (r, i, false) := by
  have hfind := Reg.find_at_self r hi
  have halign : r.at i % 4 = 0 := by
    by_contra h
    rw [Reg.find, if_neg h] at hfind
    cases hfind
  simp [State.regLocate, hfind, halign, Reg.stn, hscope, State.regPowered, hdom, hon]

theorem okIf_eq {c : Bool} (h : c = true) : okIf c = stOk := if_pos h

theorem State.within_pos {s : State} {ok : Bool} {run : State → Ran} (h : ok = true) : s.within ok run = run s := if_pos h

theorem State.barIf_neg {s : State} {bad : Bool} {run : State → Ran} (h : bad = false) : s.barIf bad run = run s := if_neg (by simp [h])

/-- A field of RW bits holds its part of the value written. -/
theorem State.fld_of_written {u : State} {r : Reg} {i v hi lo : Nat}
    (h : ∀ k < 32, r.info.rw.testBit k = true → (u.reg r i).testBit k = v.testBit k) (hhi : hi < 32)
    (hrw : ∀ k < 32, lo ≤ k → k ≤ hi → r.info.rw.testBit k = true) : u.fld r i hi lo = bitsOf v hi lo :=
  bitsOf_congr fun k hlo hk => h k (by omega) (hrw k (by omega) hlo hk)

/-- From `s` to `u`, the command has been answered and its writes of register `r` are in force: the words that `l` indexes hold their values,
the others what they held. -/
structure State.InForce (s u : State) (h : TcsHdr) (opc : Nat) (r : Reg) (l : List (Nat × Nat)) : Prop where
  answered : s.answered u h opc 0 []
  same : s.computeSame u
  written : ∀ w ∈ l, ∀ k < 32, r.info.rw.testBit k = true → (u.reg r w.1).testBit k = w.2.testBit k
  others : ∀ j < r.info.count, j ∉ l.map (·.1) → u.reg r j = s.reg r j

section
variable {s t u : State} {h : TcsHdr} {opc : Nat} {r : Reg} {l : List (Nat × Nat)}

theorem State.InForce.fld (g : s.InForce u h opc r l) {w : Nat × Nat} (hw : w ∈ l) {hi lo : Nat} (hhi : hi < 32)
    (hrw : ∀ k < 32, lo ≤ k → k ≤ hi → r.info.rw.testBit k = true) : u.fld r w.1 hi lo = bitsOf w.2 hi lo :=
  State.fld_of_written (g.written w hw) hhi hrw

theorem State.InForce.bit (g : s.InForce u h opc r l) {w : Nat × Nat} (hw : w ∈ l) {k : Nat} (hk : k < 32) (hrw : r.info.rw.testBit k = true) :
    u.bit r w.1 k = bitOf w.2 k := g.written w hw k hk hrw

theorem State.Accepted.inForce {ps rs : List Reg} (ha : s.Accepted t u h opc) (hw : (s.heard h.port).Wrote t r ps rs l)
    (hr : r ∉ answerRegs) (hl : ∀ w ∈ l, w.1 < r.info.count) : s.InForce u h opc r l where
  answered := ha.answered
  same := ha.same
  written w hm k hk hrw := (congrArg (Nat.testBit · k) (ha.kept r hr w.1 (hl w hm))).trans (hw.written w hm k hk hrw)
  others j hj hne := ((ha.kept r hr j hj).trans (hw.apart r (by simp) j hj hne)).trans (State.reg_congr (s.heard_frame h.port).2.1 r j)

end

/-- A command that passes its checks, and runs with status 0 to `t`, is answered, and stands as `t` does. -/
theorem State.settles {s t : State} {h : TcsHdr} {k : Kind} {run : State → Ran} {after : State → State} {rs : List Reg} {c : Instr}
    {P : State → Prop} (hruns : s.tcsRuns h k.opc k.rom) (hwake : k.wake = false) (hopc : k.opc / 0x1000 < 4) (hafter : ∀ u, after u = u)
    (hrun : run (s.heard h.port) = (t, 0, [])) (hk : (s.heard h.port).RegsKept t rs) (hrs : ∀ r ∈ askRegs, r ∉ rs)
    (hsame : (s.heard h.port).computeSame t) (hP : ∀ u, s.Accepted t u h k.opc → P u) :
    ∃ u, (.next (s.receive h c (fun t => t.tcsRun h k c run after)) : Host.Outcome State Fault Refusal) = .next u ∧
      s.answered u h k.opc 0 [] ∧ s.computeSame u ∧ P u := by
  obtain ⟨u, hrec, hacc⟩ := State.accepts_command c (after := after) hruns hwake hrun hk hrs hsame hopc
  exact ⟨u, congrArg _ (hrec.trans (hafter u)), hacc.answered, hacc.same, hP u hacc⟩

/-- What a command needs to run whose only step is a commit of writes of one register. -/
structure State.Commits (s : State) (h : TcsHdr) (k : Kind) (run : State → Ran) (r : Reg) (p : Proc) (ps rs : List Reg) (l : List (Nat × Nat)) :
    Prop where
  runs : s.tcsRuns h k.opc k.rom
  wake : k.wake = false
  opc : k.opc / 0x1000 < 4
  plain : r.Committed p ps rs
  ask : ∀ q ∈ askRegs, q ∉ r :: (ps ++ rs)
  answer : r ∉ answerRegs
  distinct : (l.map (·.1)).Nodup
  valid : ∀ w ∈ l, w.1 < r.info.count ∧ w.2 &&& r.info.wo = 0
  passes : ∀ m w n t, l = m ++ w :: n → (s.heard h.port).Wrote t r ps rs m → t.accepts (.fp p) r w.1 w.2
  commits : run (s.heard h.port) = (s.heard h.port).commit p (l.map (fun w => (r.at w.1, w.2)))

/-- The command that makes the commit is answered, with its writes in force. -/
theorem State.Commits.settles {s : State} {h : TcsHdr} {k : Kind} {run : State → Ran} {r : Reg} {p : Proc} {ps rs : List Reg}
    {l : List (Nat × Nat)} {c : Instr} {P : State → Prop} (g : s.Commits h k run r p ps rs l) (hP : ∀ u, s.InForce u h k.opc r l → P u) :
    ∃ u, (.next (s.receive h c (fun t => t.tcsRun h k c run noMore)) : Host.Outcome State Fault Refusal) = .next u ∧
      s.answered u h k.opc 0 [] ∧ s.computeSame u ∧ P u := by
  obtain ⟨t, hcommit, hwrote⟩ := State.commit_wrote g.plain l [] _ g.distinct g.valid (.none _ _ _ _) g.passes
  exact State.settles g.runs g.wake g.opc (fun _ => rfl) (g.commits.trans hcommit) hwrote.fabric.kept.regs g.ask hwrote.fabric.computeSame
    fun u hacc => hP u (hacc.inForce hwrote g.answer fun w hw => (g.valid w hw).1)

/-- The I/O registers of a commit answer at every write of it. -/
theorem State.Wrote.accepts_io {s t : State} {h : TcsHdr} {r : Reg} {p : Proc} {ps rs : List Reg} {l : List (Nat × Nat)} {w : Nat × Nat}
    (hwrote : (s.heard h.port).Wrote t r ps rs l) (hon : bitOf s.pwr.on.toNat 13 = true) (hdom : r.info.dom = .io) (hscope : r.info.scope = .one)
    (hw : w.1 < r.info.count) (hchk : t.csrCheck (.fp p) r w.1 w.2 = stOk) : t.accepts (.fp p) r w.1 w.2 := by
  have hpwr : t.pwr = s.pwr := hwrote.fabric.frame.2.1
  exact ⟨State.regLocate_io (by rw [hpwr]; exact hon) hdom hscope hw, hchk⟩

/-- A word with its flag of validity, bit 31, and a number below it. -/
theorem bitOf_flagged {x : Nat} (h : x < 2 ^ 31) : bitOf (2 ^ 31 + x) 31 = true := by
  rw [bitOf_eq_div_mod]
  simp only [decide_eq_true_eq]
  omega

theorem bitsOf_flagged {x n : Nat} (hn : n < 31) (h : x < 2 ^ (n + 1)) : bitsOf (2 ^ 31 + x) n 0 = x := by
  have hdvd : 2 ^ 31 % 2 ^ (n + 1) = 0 := Nat.mod_eq_zero_of_dvd (Nat.pow_dvd_pow 2 (by omega))
  rw [bitsOf_eq_div_mod, pow_zero, Nat.div_one, Nat.sub_zero, Nat.add_mod, hdvd, Nat.zero_add, Nat.mod_mod, Nat.mod_eq_of_lt h]

/-! ### MODULE_ID_SET (R300) -/

section
variable {s : State} {h : TcsHdr} (hon : bitOf s.pwr.on.toNat 13 = true)
include hon

theorem State.moduleIdSet_ownId {id : BitVec 16} (hruns : s.tcsRuns h 0x2001 false) (hid : id.toNat < 0x4000) (hports : ∀ p < 16, s.pyState p = 0) :
    ∃ u, exec (.moduleIdSet h id) s = .next u ∧ s.answered u h 0x2001 0 [] ∧ s.computeSame u ∧ u.ownId = some id.toNat := by
  have hsmall : bitsOf (2 ^ 31 + id.toNat) 15 0 = id.toNat := bitsOf_flagged (by decide) id.isLt
  refine State.Commits.settles (k := ⟨0x2001, false, false⟩) (r := .pyModuleId) (p := 2) (ps := []) (rs := []) (l := [(0, 2 ^ 31 + id.toNat)])
    { runs := hruns, wake := rfl, opc := by decide, plain := Reg.committed_quiet 2 rfl rfl (by decide) rfl, ask := by decide, answer := by decide
      distinct := List.nodup_singleton _
      valid := fun w hw => ?_, passes := fun m w n t hl hwrote => ?_, commits := ?_ } fun u g => ?_
  · obtain rfl := List.mem_singleton.1 hw
    exact ⟨Nat.one_pos, Nat.and_zero _⟩
  · obtain rfl : w = (0, 2 ^ 31 + id.toNat) := List.mem_singleton.1 (by rw [hl]; simp)
    have hstate : ∀ p < 16, t.pyState p = 0 := fun p hp =>
      (congrArg (bitsOf · 31 28) (hwrote.fabric.kept.reg (by decide) hp)).trans (hports p hp)
    refine hwrote.accepts_io hon rfl rfl Nat.one_pos (okIf_eq ?_)
    rw [hsmall, decide_eq_true hid, Bool.true_and, List.all_eq_true]
    exact fun p hp => decide_eq_true (hstate p (List.mem_range.1 hp))
  · have hquiet : (List.range 16).any (fun p => decide ((s.heard h.port).pyState p ≠ 0)) = false :=
      List.any_eq_false.2 fun p hp => by
        rw [decide_eq_true_iff, not_not]
        exact hports p (List.mem_range.1 hp)
    exact (State.within_pos (decide_eq_true hid)).trans (State.barIf_neg hquiet)
  · have hvalid : u.bit .pyModuleId 0 31 = true := (g.bit List.mem_cons_self (by decide) rfl).trans (bitOf_flagged (by have := id.isLt; omega))
    rw [State.ownId, if_pos hvalid, g.fld List.mem_cons_self (by decide) (by decide), hsmall]

end

/-! ### PORT_SET (R303) -/

/-- The word that PORT_SET writes to a port's control register. -/
def portWord (en half spare : Bool) (role : BitVec 4) : Nat := b2n en * 2 ^ 31 + b2n half * 2 ^ 28 + b2n spare * 2 ^ 27 + role.toNat * 2 ^ 16

/-- It sets no WO bit, and its fields are the command's. -/
theorem portWord_fields (en half spare : Bool) (role : BitVec 4) :
    portWord en half spare role &&& Reg.pyPortCtrl.info.wo = 0 ∧ bitsOf (portWord en half spare role) 19 16 = role.toNat ∧
    bitOf (portWord en half spare role) 31 = en ∧ bitOf (portWord en half spare role) 28 = half ∧
    bitOf (portWord en half spare role) 27 = spare := by
  revert en half spare role
  decide

theorem Reg.committed_pyPortCtrl (p : Proc) : Reg.pyPortCtrl.Committed p portRegs [.pyErr] := by
  refine ⟨rfl, rfl, by decide, by decide, fun t i v hi hwo => ?_⟩
  have hbit : ∀ k, Reg.pyPortCtrl.info.wo.testBit k = true → bitOf v k = false := fun k hk => by
    have := congrArg (Nat.testBit · k) hwo
    simpa [Nat.testBit_and, hk, bitOf] using this
  have hact : t.csrEffect (.fp p) .pyPortCtrl i v = if bitOf v 31 then t.pyEnable i else t.pyDisable i := by
    simp [State.csrEffect, State.onlyIf, hbit 29 (by decide), hbit 30 (by decide)]
  rw [hact]
  split
  · exact t.pyEnable_acted hi
  · exact t.pyDisable_acted hi

/-- The ports that a mask names. -/
def maskedPorts (mask : BitVec 16) : List Nat := (List.range 16).filter (fun p => bitOf mask.toNat p)

theorem mem_maskedPorts {mask : BitVec 16} {p : Nat} : p ∈ maskedPorts mask ↔ p < 16 ∧ bitOf mask.toNat p = true := by
  simp [maskedPorts]

theorem State.portSet_ports {s : State} {h : TcsHdr} (hon : bitOf s.pwr.on.toNat 13 = true) {mask : BitVec 16} (en : Bool) {role : BitVec 4}
    (half spare : Bool) (hruns : s.tcsRuns h 0x2002 false) (hrole : roleOk role.toNat = true)
    (hports : ∀ p < 16, bitOf mask.toNat p = true → s.pyState p = 0 ∨ s.role p = role.toNat) :
    ∃ u, exec (.portSet h mask en role half spare) s = .next u ∧ s.answered u h 0x2002 0 [] ∧ s.computeSame u ∧
      (∀ p < 16, bitOf mask.toNat p = true → u.role p = role.toNat ∧ u.bit .pyPortCtrl p 31 = en ∧
        u.bit .pyPortCtrl p 28 = half ∧ u.bit .pyPortCtrl p 27 = spare) ∧
      (∀ p < 16, bitOf mask.toNat p = false → u.reg .pyPortCtrl p = s.reg .pyPortCtrl p) := by
  let v := portWord en half spare role
  obtain ⟨hwo, hfld, hen, hhalf, hspare⟩ := portWord_fields en half spare role
  let l := (maskedPorts mask).map (fun p => (p, v))
  have hfst : l.map (·.1) = maskedPorts mask := List.map_map.trans (List.map_id _)
  have hmem {w : Nat × Nat} (hw : w ∈ l) : w.1 ∈ maskedPorts mask ∧ w.2 = v := by
    obtain ⟨p, hp, rfl⟩ := List.mem_map.1 hw
    exact ⟨hp, rfl⟩
  have hnodup : (l.map (·.1)).Nodup := hfst ▸ List.nodup_range.filter _
  refine State.Commits.settles (k := ⟨0x2002, false, false⟩) (r := .pyPortCtrl) (p := 2) (ps := portRegs) (rs := [.pyErr]) (l := l)
    { runs := hruns, wake := rfl, opc := by decide, plain := Reg.committed_pyPortCtrl 2, ask := by decide, answer := by decide, distinct := hnodup
      valid := fun w hw => ?_, passes := fun m w n t hl hwrote => ?_, commits := ?_ } fun u g => ⟨fun p hp hset => ?_, fun p hp hclear => ?_⟩
  · obtain ⟨hp, hv⟩ := hmem hw
    exact ⟨(mem_maskedPorts.1 hp).1, hv ▸ hwo⟩
  · obtain ⟨hp, hv⟩ := hmem (w := w) (by rw [hl]; simp)
    obtain ⟨hlt, hset⟩ := mem_maskedPorts.1 hp
    have hnew : w.1 ∉ m.map (·.1) := fun hm => by
      rw [hl, List.map_append, List.nodup_append] at hnodup
      exact hnodup.2.2 _ hm _ (by simp) rfl
    have hstate : t.pyState w.1 = s.pyState w.1 := congrArg (bitsOf · 31 28) (hwrote.apart .pyPortStatus (by decide) w.1 hlt hnew)
    have hold : t.role w.1 = s.role w.1 := congrArg (bitsOf · 19 16) (hwrote.apart .pyPortCtrl (by decide) w.1 hlt hnew)
    refine hwrote.accepts_io hon rfl rfl hlt (okIf_eq ?_)
    rw [hv, hstate, hold, hfld]
    refine Bool.and_eq_true_iff.2 ⟨hrole, Bool.or_eq_true_iff.2 ((hports w.1 hlt hset).imp decide_eq_true fun hsame => ?_)⟩
    exact decide_eq_true hsame.symm
  · refine (State.within_pos hrole).trans ?_
    rw [List.map_map]
    rfl
  · have hw : (p, v) ∈ l := List.mem_map.2 ⟨p, mem_maskedPorts.2 ⟨hp, hset⟩, rfl⟩
    exact ⟨(g.fld hw (by decide) (by decide)).trans hfld, (g.bit hw (by decide) rfl).trans hen, (g.bit hw (by decide) rfl).trans hhalf,
      (g.bit hw (by decide) rfl).trans hspare⟩
  · refine g.others p hp fun hm => ?_
    rw [hfst, mem_maskedPorts, hclear] at hm
    exact Bool.false_ne_true hm.2

/-! ### ROUTE_SET (R312) -/

section
variable {s : State} {h : TcsHdr} (hon : bitOf s.pwr.on.toNat 13 = true)
include hon

theorem State.routeSet_routes {first : Nat} {entries : List Word} (hruns : s.tcsRuns h 0x2003 false) (hlen : entries.length ≤ 1000)
    (hfit : first + entries.length ≤ 16384) :
    ∃ u, exec (.routeSet h first entries) s = .next u ∧ s.answered u h 0x2003 0 [] ∧ s.computeSame u ∧
      (∀ k < entries.length, u.bit .pyRoute (first + k) 31 = (entries.getD k 0).getLsbD 31 ∧
        u.fld .pyRoute (first + k) 7 0 = (entries.getD k 0).toNat % 256) := by
  let l := entries.zipIdx.map (fun q => (first + q.2, q.1.toNat))
  have hmem {w : Nat × Nat} (hw : w ∈ l) : w.1 < 16384 := by
    obtain ⟨q, hq, rfl⟩ := List.mem_map.1 hw
    have hlt := List.snd_lt_of_mem_zipIdx hq
    simp only
    omega
  have hfst : l.map (·.1) = (List.range' 0 entries.length).map (first + ·) := by
    rw [← List.zipIdx_map_snd, List.map_map, List.map_map]
    rfl
  refine State.Commits.settles (k := ⟨0x2003, false, false⟩) (r := .pyRoute) (p := 2) (ps := []) (rs := []) (l := l)
    { runs := hruns, wake := rfl, opc := by decide, plain := Reg.committed_quiet 2 rfl rfl (by decide) rfl, ask := by decide, answer := by decide
      distinct := hfst ▸ List.Nodup.map (fun a b hab => Nat.add_left_cancel hab) List.nodup_range'
      valid := fun w hw => ⟨hmem hw, Nat.and_zero _⟩
      passes := fun m w n t hl hwrote => hwrote.accepts_io hon rfl rfl (hmem (by rw [hl]; simp)) rfl, commits := ?_ } fun u g k hk => ?_
  · refine (State.within_pos (by simp [hlen, hfit])).trans ?_
    rw [List.map_map]
    rfl
  · have hw : (first + k, (entries.getD k 0).toNat) ∈ l :=
      List.mem_map.2 ⟨(entries.getD k 0, k), List.mk_mem_zipIdx_iff_getElem?.2 (by simp [hk]), rfl⟩
    refine ⟨g.bit hw (by decide) rfl, (g.fld hw (by decide) (by decide)).trans ?_⟩
    exact (bitsOf_eq_div_mod _ 7 0).trans (congrArg (· % 256) (Nat.div_one _))

end

/-! ### MCAST_SET (R321) -/

/-- Entry `i` of a group of those members: valid for a member, zero behind the last. -/
def memberWord (members : List (BitVec 16)) (i : Nat) : Nat :=
  match members[i]? with
  | some m => 2 ^ 31 + m.toNat
  | none => 0

theorem memberWord_valid (members : List (BitVec 16)) (i : Nat) : bitOf (memberWord members i) 31 = decide (i < members.length) := by
  rcases Nat.lt_or_ge i members.length with h | h
  · rw [memberWord, List.getElem?_eq_getElem h, decide_eq_true h]
    exact bitOf_flagged (by have := (members[i]).isLt; omega)
  · rw [memberWord, List.getElem?_eq_none h, decide_eq_false (by omega)]
    rfl

theorem memberWord_id {members : List (BitVec 16)} {i : Nat} (h : i < members.length) :
    bitsOf (memberWord members i) 15 0 = (members.getD i 0).toNat := by
  rw [memberWord, List.getElem?_eq_getElem h, List.getD_eq_getElem _ _ h]
  exact bitsOf_flagged (by decide) (members[i]).isLt

theorem mcastWrites_eq (g : Nat) (members : List (BitVec 16)) :
    mcastWrites g members = (List.range 64).map (fun i => (Reg.at .pyMcastMember (64 * g + i), memberWord members i)) := rfl

/-- Of a range the numbers below `n`, where the range holds them all. -/
theorem filter_range_lt {m n : Nat} (h : n ≤ m) : (List.range m).filter (fun i => decide (i < n)) = List.range n := by
  obtain ⟨d, rfl⟩ := Nat.exists_eq_add_of_le h
  rw [List.range_add, List.filter_append, List.filter_eq_self.2 (by simp), List.filter_eq_nil_iff.2 (by simp), List.append_nil]

section
variable {s : State} {h : TcsHdr} (hon : bitOf s.pwr.on.toNat 13 = true)
include hon

theorem State.mcastSet_members {g : BitVec 8} {members : List (BitVec 16)} (hruns : s.tcsRuns h 0x2005 false) (hg : g.toNat ≤ 254)
    (hlen : members.length ≤ 64) (hidle : (s.group g.toNat).msgs = []) :
    ∃ u, exec (.mcastSet h g members) s = .next u ∧ s.answered u h 0x2005 0 [] ∧ s.computeSame u ∧
      u.members g.toNat = List.range members.length ∧
      (∀ k < members.length, u.fld .pyMcastMember (64 * g.toNat + k) 15 0 = (members.getD k 0).toNat) := by
  let l := (List.range 64).map (fun i => (64 * g.toNat + i, memberWord members i))
  have hmem {i : Nat} (hi : i < 64) : (64 * g.toNat + i, memberWord members i) ∈ l := List.mem_map.2 ⟨i, List.mem_range.2 hi, rfl⟩
  have hgroup {w : Nat × Nat} (hw : w ∈ l) : w.1 < 16320 ∧ w.1 / 64 = g.toNat := by
    obtain ⟨i, hi, rfl⟩ := List.mem_map.1 hw
    have hlt := List.mem_range.1 hi
    constructor <;> simp only <;> omega
  have hfst : l.map (·.1) = (List.range 64).map (64 * g.toNat + ·) := List.map_map
  refine State.Commits.settles (k := ⟨0x2005, false, false⟩) (r := .pyMcastMember) (p := 2) (ps := []) (rs := []) (l := l)
    { runs := hruns, wake := rfl, opc := by decide, plain := Reg.committed_quiet 2 rfl rfl (by decide) rfl, ask := by decide, answer := by decide
      distinct := by rw [hfst]; exact List.Nodup.map (fun a b hab => Nat.add_left_cancel hab) List.nodup_range
      valid := fun w hw => ⟨(hgroup hw).1, Nat.and_zero _⟩, passes := fun m w n t hl hwrote => ?_, commits := ?_ }
    fun u f => ⟨?_, fun k hk => ?_⟩
  · obtain ⟨hlt, hdiv⟩ := hgroup (w := w) (by rw [hl]; simp)
    refine hwrote.accepts_io hon rfl rfl hlt (okIf_eq ?_)
    have hmcast : t.group g.toNat = s.group g.toNat := congrArg (fun x => Tbl.get (fun _ => McGroup.reset) x g.toNat) hwrote.fabric.frame.2.2.2.1
    rw [hdiv, hmcast, hidle]
    rfl
  · have hempty : (!((s.heard h.port).group g.toNat).msgs.isEmpty) = false := congrArg (fun x => !List.isEmpty x) hidle
    refine (State.within_pos (by simp [hg, hlen])).trans ?_
    rw [hempty, if_neg Bool.false_ne_true, mcastWrites_eq, List.map_map]
    rfl
  · rw [← filter_range_lt hlen]
    refine List.filter_congr fun i hi => ?_
    exact (f.bit (hmem (List.mem_range.1 hi)) (by decide) rfl).trans (memberWord_valid members i)
  · exact (f.fld (hmem (by omega)) (by decide) (by decide)).trans (memberWord_id hk)

/-! ### REMAP_SET (R314) -/

/-- While no station runs, a commit of the logical index and of remap entries is applied whole. -/
theorem State.commit_remap (hstill : s.anyRunning = false) (v : Nat) {l : List (Nat × Nat)} (hdistinct : (l.map (·.1)).Nodup)
    (hlt : ∀ w ∈ l, w.1 < Reg.pyRemap.info.count) :
    ∃ t u, s.commit 2 ((Reg.at .pySelfLogical 0, v) :: l.map (fun w => (Reg.at .pyRemap w.1, w.2))) = (u, 0, []) ∧
      s.Wrote t .pySelfLogical [] [] [(0, v)] ∧ t.Wrote u .pyRemap [] [] l := by
  have hself : Reg.pySelfLogical.Committed 2 [] [] := Reg.committed_quiet 2 rfl rfl (by decide) rfl
  have hremap : Reg.pyRemap.Committed 2 [] [] := Reg.committed_quiet 2 rfl rfl (by decide) rfl
  have hpass {t : State} {r : Reg} {i w : Nat} (hfab : s.Fabric t [.pySelfLogical, .pyRemap])
      (hloc : t.regLocate (r.at i) 4 = .ok (r, i, false)) (hr : t.csrCheck (.fp 2) r i w = okIf (!t.anyRunning)) : t.accepts (.fp 2) r i w := by
    obtain ⟨hfuses, -, -, -, hstns⟩ := hfab.frame
    have hrun : t.anyRunning = false := (State.anyRunning_congr hfab.kept.regs (by decide) (by decide) hstns hfuses).trans hstill
    exact ⟨hloc, hr.trans (okIf_eq (by rw [hrun]; rfl))⟩
  have hanswers {t : State} (hfab : s.Fabric t [.pySelfLogical, .pyRemap]) : bitOf t.pwr.on.toNat 13 = true := by
    rw [hfab.frame.2.1]
    exact hon
  have hquiet := State.Fabric.refl s [.pySelfLogical, .pyRemap]
  obtain ⟨t, hfirst, hwrote⟩ := State.csrWrite_wrote (t := s) (i := 0) (v := v) hself
    (hpass hquiet (State.regLocate_io hon rfl rfl Nat.one_pos) rfl) Nat.one_pos (Nat.and_zero _)
  have hfab : s.Fabric t [.pySelfLogical, .pyRemap] := hwrote.fabric.mono (by simp)
  obtain ⟨u, hrest, hall⟩ := State.commit_wrote hremap l [] t hdistinct (fun w hw => ⟨hlt w hw, Nat.and_zero _⟩) (.none _ _ _ _)
    fun m w n u hl g => by
      have hfab' := hfab.trans (g.fabric.mono (by simp))
      exact hpass hfab' (State.regLocate_io (hanswers hfab') rfl rfl (hlt w (by rw [show l = _ from hl]; simp))) rfl
  refine ⟨t, u, ?_, hwrote, hall⟩
  rw [State.commit, hfirst, if_pos rfl]
  exact hrest

theorem State.remapSet_remaps {own : BitVec 14} {pairs : List (BitVec 16 × BitVec 14)} (hruns : s.tcsRuns h 0x2004 false)
    (hlen : pairs.length ≤ 1000) (hstill : s.anyRunning = false) (hlogical : ∀ q ∈ pairs, 0x8000 ≤ q.1.toNat ∧ q.1.toNat < 0xC000)
    (hnodup : (pairs.map (fun q => q.1)).Nodup) :
    ∃ u, exec (.remapSet h own pairs) s = .next u ∧ s.answered u h 0x2004 0 [] ∧ s.computeSame u ∧
      u.bit .pySelfLogical 0 31 = true ∧ u.fld .pySelfLogical 0 13 0 = own.toNat ∧
      (∀ q ∈ pairs, u.bit .pyRemap (q.1.toNat - 0x8000) 31 = true ∧ u.fld .pyRemap (q.1.toNat - 0x8000) 13 0 = q.2.toNat) := by
  let v := 2 ^ 31 + own.toNat
  let l := pairs.map (fun q => (q.1.toNat - 0x8000, 2 ^ 31 + q.2.toNat))
  have hvalid : ∀ w ∈ l, w.1 < Reg.pyRemap.info.count := fun w hw => by
    obtain ⟨q, hq, rfl⟩ := List.mem_map.1 hw
    have hrange := hlogical q hq
    show q.1.toNat - 0x8000 < 16384
    omega
  have hdistinct : (l.map (·.1)).Nodup := by
    have hinj : ∀ x ∈ pairs.map (fun q => q.1), ∀ y ∈ pairs.map (fun q => q.1), x.toNat - 0x8000 = y.toNat - 0x8000 → x = y := by
      rintro x hx y hy hxy
      obtain ⟨p, hp, rfl⟩ := List.mem_map.1 hx
      obtain ⟨q, hq, rfl⟩ := List.mem_map.1 hy
      have hplow := (hlogical p hp).1
      have hqlow := (hlogical q hq).1
      exact BitVec.eq_of_toNat_eq (by omega)
    have hall := hnodup.map_on hinj
    rwa [List.map_map] at hall ⊢
  obtain ⟨t1, t, hcommit, hself, hremap⟩ := State.commit_remap (s := s.heard h.port) hon hstill v hdistinct hvalid
  have hfab : (s.heard h.port).Fabric t [.pySelfLogical, .pyRemap] := (hself.fabric.mono (by simp)).trans (hremap.fabric.mono (by simp))
  have hchecks : (decide (pairs.length ≤ 1000) && pairs.all (fun q => decide (0x8000 ≤ q.1.toNat) && decide (q.1.toNat < 0xC000))) = true := by
    rw [decide_eq_true hlen, Bool.true_and, List.all_eq_true]
    exact fun q hq => Bool.and_eq_true_iff.2 ⟨decide_eq_true (hlogical q hq).1, decide_eq_true (hlogical q hq).2⟩
  have hrun : ((s.heard h.port).barIf (s.heard h.port).anyRunning (fun w => w.commit 2 ((Reg.at .pySelfLogical 0, v)
      :: pairs.map (fun q => (Reg.at .pyRemap (q.1.toNat - 0x8000), 2 ^ 31 + q.2.toNat))))) = (t, 0, []) := by
    refine (State.barIf_neg hstill).trans ?_
    rw [← hcommit, List.map_map]
    rfl
  refine State.settles (k := ⟨0x2004, false, false⟩) hruns rfl (by decide) (fun _ => rfl) ((State.within_pos hchecks).trans hrun) hfab.kept.regs
    (by decide) hfab.computeSame fun u hacc => ?_
  have hown : ∀ k < 32, Reg.pySelfLogical.info.rw.testBit k = true → (u.reg .pySelfLogical 0).testBit k = v.testBit k := fun k hk hrw => by
    rw [hacc.kept .pySelfLogical (by decide) 0 (by decide), hremap.fabric.kept.reg (by decide) (by decide)]
    exact hself.written _ List.mem_cons_self k hk hrw
  refine ⟨(hown 31 (by decide) rfl).trans (bitOf_flagged (by have := own.isLt; omega)), ?_, fun q hq => ?_⟩
  · exact (State.fld_of_written hown (by decide) (by decide)).trans (bitsOf_flagged (by decide) own.isLt)
  · have hw : (q.1.toNat - 0x8000, 2 ^ 31 + q.2.toNat) ∈ l := List.mem_map.2 ⟨q, hq, rfl⟩
    have hentry : ∀ k < 32, Reg.pyRemap.info.rw.testBit k = true →
        (u.reg .pyRemap (q.1.toNat - 0x8000)).testBit k = (2 ^ 31 + q.2.toNat).testBit k :=
      fun k hk hrw => (congrArg (Nat.testBit · k) (hacc.kept .pyRemap (by decide) _ (hvalid _ hw))).trans (hremap.written _ hw k hk hrw)
    refine ⟨(hentry 31 (by decide) rfl).trans (bitOf_flagged (by have := q.2.isLt; omega)), ?_⟩
    exact (State.fld_of_written hentry (by decide) (by decide)).trans (bitsOf_flagged (by decide) q.2.isLt)

end

end Sys2Proof.Machine
end

section
/-! ## Keeper's commands (O54) -/

namespace Sys2Proof.Machine

/-! ### SNAP_TAKE (R399) -/

theorem State.snapState_slot (s : State) (st : Nat) {slot : Nat} (h : slot < 64) : (s.snapState st slot 0).fld .snapStatus 0 29 24 = slot := by
  rw [State.snapState, State.fld_setReg _ _ _ _ (by decide), bitsOf_eq_div_mod]
  have hlow : s.fld .snapStatus 0 15 0 < 2 ^ 16 := bitsOf_lt _ 15 0
  omega

theorem State.snapState_kept (s : State) (st slot : Nat) : s.RegsKept (s.snapState st slot 0) [.snapStatus] := by
  unfold State.snapState
  exact s.setReg_regsKept (by simp) (by decide) _

theorem State.fw_fwUpd (s : State) (f : FwSt → FwSt) : (s.fwUpd f).fw = f s.fw := rfl

theorem State.snapArmed_slot (s : State) {slot : Nat} (h : slot < 64) (cmd : Option Nat) :
    s.RegsKept (s.snapArmed slot cmd) [.snapStatus] ∧ (s.snapArmed slot cmd).fld .snapStatus 0 29 24 = slot ∧
    (s.snapArmed slot cmd).fw.snapCmd = cmd := by
  unfold State.snapArmed
  refine ⟨(s.snapState_kept 1 slot).trans (.of_regs (State.regs_fwUpd _ _)), ?_, congrArg FwSt.snapCmd (State.fw_fwUpd _ _)⟩
  exact (State.fld_congr (State.regAt_congr (State.regs_fwUpd _ _) _ _) 29 24).trans (s.snapState_slot 1 h)

theorem State.snapTake_arms {s : State} {h : TcsHdr} {slot : BitVec 8} (hruns : s.tcsRuns h 0x3001 false) (hslot : slot.toNat ≤ 15)
    (hidle : s.mirrorIdle = true) (hpart : s.bit .snapCtrl 0 31 = false) (hrunning : s.anyRunning = true) :
    ∃ u, exec (.snapTake h slot) s = .next u ∧ s.answered u h 0x3001 0 [] ∧ s.computeSame u ∧ u.fld .snapStatus 0 31 30 = 1 ∧
      u.fld .snapStatus 0 29 24 = slot.toNat ∧ u.fw.snapCmd = some h.seq.toNat := by
  let v := s.heard h.port
  let t := v.snapArmed slot.toNat (some h.seq.toNat)
  obtain ⟨hsnaps, -, -, hstate, hrun⟩ := v.snapArmed_frame slot.toNat (some h.seq.toNat)
  have hpart' : v.bit .snapCtrl 0 31 = false := hpart
  have harm : v.snapArm slot.toNat (some h.seq.toNat) = t := by
    rw [State.snapArm_eq, hpart', Bool.false_and, if_neg Bool.false_ne_true, if_pos (hrun.trans hrunning)]
  have htake : v.snapTake h slot.toNat = (t, 0, []) := by
    unfold State.snapTake
    rw [State.within_pos (by simp [hslot]), if_neg (by rw [show v.mirrorIdle = true from hidle]; decide), State.barIf_neg (by rw [hpart']; rfl),
      if_neg (by omega), harm]
  obtain ⟨hkept, hfld, hcmd⟩ := v.snapArmed_slot (slot := slot.toNat) (by omega) (some h.seq.toNat)
  refine State.settles (k := ⟨0x3001, false, false⟩) hruns rfl (by decide) (fun _ => rfl) htake hkept (by decide) hsnaps.tells.computeSame
    fun u hacc => ?_
  have hreg : u.reg .snapStatus 0 = t.reg .snapStatus 0 := hacc.kept .snapStatus (by decide) 0 (by decide)
  exact ⟨(State.fld_congr hreg 31 30).trans hstate, (State.fld_congr hreg 29 24).trans hfld, (congrArg FwSt.snapCmd hacc.fw).trans hcmd⟩

/-! ### SNAP_RESTORE (R407) -/

/-- Bits 15:0 of a register's words at the indices of a list are written, each with what the state names for it at the time. -/
def State.putEach (s : State) (r : Reg) (val : State → Nat → Nat) (l : List Nat) : State := l.foldl (fun t i => t.setFld r i 15 0 (val t i)) s

section
variable {r : Reg} {val : State → Nat → Nat}
  (hval : ∀ (s t : State) i, i < r.info.count → s.RegsKept t [r] → t.reg r i = s.reg r i → val t i = val s i)
include hval

/-- Where the value at an index depends on no other word of its register, each word takes the value that the first state names. -/
theorem State.putEach_spec : ∀ (l : List Nat) (s : State), l.Nodup → (∀ i ∈ l, i < r.info.count) →
    s.putEach r val l = { s with regs := (s.putEach r val l).regs } ∧ s.RegsKept (s.putEach r val l) [r] ∧
    ∀ i < r.info.count, (s.putEach r val l).fld r i 15 0 = if i ∈ l then val s i % 2 ^ 16 else s.fld r i 15 0
  | [], s, _, _ => ⟨rfl, .of_regs rfl, fun _ _ => rfl⟩
  | a :: l, s, hnodup, hlt => by
    let t := s.setFld r a 15 0 (val s a)
    obtain ⟨hnew, hnodup⟩ := List.nodup_cons.1 hnodup
    have ha : a < r.info.count := hlt a List.mem_cons_self
    have hkept : s.RegsKept t [r] := s.setFld_regsKept (by simp) ha _ _ _
    obtain ⟨hrest, hregs, hflds⟩ := State.putEach_spec l t hnodup (fun i hi => hlt i (List.mem_cons_of_mem a hi))
    refine ⟨hrest, hkept.trans hregs, fun i hi => (hflds i hi).trans ?_⟩
    rcases eq_or_ne i a with rfl | hne
    · rw [if_neg hnew, if_pos List.mem_cons_self]
      exact s.fld_setFld_self _ _ _ (by decide) (by decide)
    · have hreg : t.reg r i = s.reg r i := s.regAt_setFld_ne _ _ _ _ fun h => hne (Reg.at_inj.1 h).symm
      rw [hval s t i hi hkept hreg, State.fld_congr hreg]
      simp [hne]

end

theorem nextEpoch_lt {e : Nat} (h : e < 2 ^ 16) : nextEpoch e < 2 ^ 16 := by
  unfold nextEpoch
  split <;> omega

/-- The page groups that a restore of a slot quarantines besides those that the slot holds. -/
def State.buddyGroups (s : State) (slot : Nat) : List Nat := if slot < 16 then [] else s.relocHere (s.slot slot)

/-- A restore of a slot writes over a page group. -/
def State.restoresGroup (s : State) (slot g : Nat) : Bool := (s.slot slot).holds g || (s.buddyGroups slot).contains g

/-- The epoch of a page group as a restore begins: its die's where the group stays, the complement where it is written over. -/
def restoreEpoch (lost : Nat → Bool) (t : State) (g : Nat) : Nat := if lost g then 0xFFFF - t.dieEpoch (g / 1024) else t.dieEpoch (g / 1024)

/-- The epochs of the dies have advanced. -/
def State.advancedDies (s : State) : State := s.putEach .stnDieEpoch (fun t d => nextEpoch (t.dieEpoch d)) (List.range 4)

/-- The page groups have their epochs. -/
def State.markedGroups (s : State) (lost : Nat → Bool) : State := s.putEach .msPgEpoch (restoreEpoch lost) (List.range 4096)

/-- Every station is quarantined. -/
def State.staleStations (s : State) : State := s.putEach .stnStateEpoch (fun t i => 0xFFFF - t.dieEpoch (dieOf i)) (List.range 1024)

/-- The state once every unit has its epoch. -/
def State.restoreMarked (s : State) (slot : Nat) : State := (s.advancedDies.markedGroups (s.restoresGroup slot)).staleStations

theorem State.markGroup_eq (s : State) (lost : Nat → Bool) (g : Nat) :
    (if lost g then s.staleGroup g else s.stampGroup g) = s.setFld .msPgEpoch g 15 0 (restoreEpoch lost s g) := by
  unfold restoreEpoch
  split <;> rfl

theorem State.restoreStart_eq (s : State) (slot : Nat) (cmd : Option Nat) : s.restoreStart slot cmd =
    ((s.restoreMarked slot).snapState 3 slot 0).fwUpd (fun f => { f with restSlot := slot, restCmd := cmd }) := by
  have hgroups (l : List Nat) (t : State) : l.foldl (fun t g => if s.restoresGroup slot g then t.staleGroup g else t.stampGroup g) t =
      t.putEach .msPgEpoch (restoreEpoch (s.restoresGroup slot)) l :=
    congrArg (fun f => l.foldl f t) (funext₂ fun t g => t.markGroup_eq _ g)
  unfold State.restoreMarked State.markedGroups
  rw [← hgroups]
  rfl

/-- From `s` to `u`, every unit has the epoch that a restore of a slot gives it. -/
structure State.Marked (s u : State) (slot : Nat) : Prop where
  same : s.computeSame u
  regs : s.RegsKept u [.stnDieEpoch, .msPgEpoch, .stnStateEpoch]
  dies : ∀ d < 4, u.dieEpoch d = nextEpoch (s.dieEpoch d)
  groups : ∀ g < 4096, u.fld .msPgEpoch g 15 0 = restoreEpoch (s.restoresGroup slot) u g
  stations : ∀ i < 1024, u.fld .stnStateEpoch i 15 0 = 0xFFFF - u.dieEpoch (dieOf i)

theorem State.dieEpoch_lt (s : State) (d : Nat) : s.dieEpoch d < 2 ^ 16 := bitsOf_lt _ 15 0

theorem restoreEpoch_lt (lost : Nat → Bool) (s : State) (g : Nat) : restoreEpoch lost s g < 2 ^ 16 := by
  have hlt := s.dieEpoch_lt (g / 1024)
  unfold restoreEpoch
  split <;> omega

theorem restoreEpoch_congr {s t : State} {g : Nat} (h : t.dieEpoch (g / 1024) = s.dieEpoch (g / 1024)) (lost : Nat → Bool) :
    restoreEpoch lost t g = restoreEpoch lost s g := by
  rw [restoreEpoch, restoreEpoch, h]

theorem State.RegsKept.dieEpoch {s t : State} {rs : List Reg} (h : s.RegsKept t rs) (hr : Reg.stnDieEpoch ∉ rs) {d : Nat} (hd : d < 4) :
    t.dieEpoch d = s.dieEpoch d := h.fld hr hd 15 0

theorem group_die_lt {g : Nat} (h : g < 4096) : g / 1024 < 4 := by omega

theorem station_die_lt {i : Nat} (h : i < 1024) : dieOf i < 4 := by unfold dieOf; omega

theorem State.restoreMarked_marked (s : State) (slot : Nat) : s.Marked (s.restoreMarked slot) slot := by
  obtain ⟨hrest1, hregs1, hflds1⟩ := State.putEach_spec (r := .stnDieEpoch) (val := fun t d => nextEpoch (t.dieEpoch d))
    (fun _ _ d _ _ he => congrArg nextEpoch (State.fld_congr he 15 0)) (List.range 4) s List.nodup_range (fun _ => List.mem_range.1)
  obtain ⟨hrest2, hregs2, hflds2⟩ := State.putEach_spec (r := .msPgEpoch) (val := restoreEpoch (s.restoresGroup slot))
    (fun _ _ g hg hk _ => restoreEpoch_congr (hk.dieEpoch (by decide) (group_die_lt hg)) _) (List.range 4096) s.advancedDies List.nodup_range
    (fun _ => List.mem_range.1)
  obtain ⟨hrest3, hregs3, hflds3⟩ := State.putEach_spec (r := .stnStateEpoch) (val := fun t i => 0xFFFF - t.dieEpoch (dieOf i))
    (fun _ _ i hi hk _ => congrArg (0xFFFF - ·) (hk.dieEpoch (by decide) (station_die_lt hi))) (List.range 1024)
    (s.advancedDies.markedGroups (s.restoresGroup slot)) List.nodup_range (fun _ => List.mem_range.1)
  have hsame {s t : State} (h : t = { s with regs := t.regs }) : s.computeSame t := by
    rw [h]
    exact ⟨rfl, rfl, rfl, rfl, rfl⟩
  have hlast {d : Nat} (hd : d < 4) : (s.restoreMarked slot).dieEpoch d = (s.advancedDies.markedGroups (s.restoresGroup slot)).dieEpoch d :=
    hregs3.dieEpoch (by decide) hd
  have hmid {d : Nat} (hd : d < 4) : (s.restoreMarked slot).dieEpoch d = s.advancedDies.dieEpoch d :=
    (hlast hd).trans (hregs2.dieEpoch (by decide) hd)
  refine ⟨State.computeSame_trans (hsame hrest1) (State.computeSame_trans (hsame hrest2) (hsame hrest3)),
    ((hregs1.mono (by simp)).trans (hregs2.mono (by simp))).trans (hregs3.mono (by simp)), fun d hd => ?_, fun g hg => ?_, fun i hi => ?_⟩
  · rw [hmid hd]
    refine (hflds1 d hd).trans ?_
    rw [if_pos (List.mem_range.2 hd), Nat.mod_eq_of_lt (nextEpoch_lt (s.dieEpoch_lt d))]
  · refine (hregs3.fld (by decide) hg 15 0).trans ((hflds2 g hg).trans ?_)
    rw [if_pos (List.mem_range.2 hg), Nat.mod_eq_of_lt (restoreEpoch_lt _ _ g), restoreEpoch_congr (hmid (group_die_lt hg))]
  · refine (hflds3 i hi).trans ?_
    rw [if_pos (List.mem_range.2 hi), hlast (station_die_lt hi), Nat.mod_eq_of_lt (by omega)]

/-- What the beginning of a restore leaves behind. -/
structure State.Restores (s u : State) (slot : Nat) : Prop where
  same : s.computeSame u
  regs : s.RegsKept u [.stnDieEpoch, .msPgEpoch, .stnStateEpoch, .snapStatus]
  state : u.fld .snapStatus 0 31 30 = 3
  begun : u.fw.restSlot = slot
  dies : ∀ d < 4, u.dieEpoch d = nextEpoch (s.dieEpoch d)
  stations : ∀ i < 1024, u.quarantined i = true
  groups : ∀ g < 4096, u.pgQuarantined g = s.restoresGroup slot g

theorem State.restoreStart_restores (s : State) (slot : Nat) (cmd : Option Nat) : s.Restores (s.restoreStart slot cmd) slot := by
  let m := s.restoreMarked slot
  obtain ⟨hsame, hregs, hdies, hgroups, hstns⟩ := s.restoreMarked_marked slot
  let u := (m.snapState 3 slot 0).fwUpd (fun f => { f with restSlot := slot, restCmd := cmd })
  have hkept : m.RegsKept u [.snapStatus] := (m.snapState_kept 3 slot).trans (.of_regs (State.regs_fwUpd _ _))
  have hepoch {d : Nat} (hd : d < 4) : u.dieEpoch d = m.dieEpoch d := hkept.dieEpoch (by decide) hd
  have hnoted : m.computeSame u := State.computeSame_trans (m.snapState_snaps 3 slot).tells.computeSame (State.fwUpd_tells (rs := []) _ _).computeSame
  rw [State.restoreStart_eq]
  refine ⟨State.computeSame_trans hsame hnoted, (hregs.mono (by simp)).trans (hkept.mono (by simp)), ?_,
    congrArg FwSt.restSlot (State.fw_fwUpd _ _), fun d hd => (hepoch hd).trans (hdies d hd), fun i hi => ?_, fun g hg => ?_⟩
  · exact (State.fld_congr (State.regAt_congr (State.regs_fwUpd _ _) _ _) 31 30).trans (m.snapState_state (by decide) slot)
  · have hfld : u.fld .stnStateEpoch i 15 0 = 0xFFFF - m.dieEpoch (dieOf i) := (hkept.fld (by decide) hi 15 0).trans (hstns i hi)
    have hne : u.fld .stnStateEpoch i 15 0 ≠ u.dieEpoch (dieOf i) := by
      rw [hfld, hepoch (station_die_lt hi)]
      have hlt := m.dieEpoch_lt (dieOf i)
      omega
    exact decide_eq_true hne
  · have hfld : u.fld .msPgEpoch g 15 0 = restoreEpoch (s.restoresGroup slot) m g := (hkept.fld (by decide) hg 15 0).trans (hgroups g hg)
    have hlt := m.dieEpoch_lt (g / 1024)
    have hne : (u.fld .msPgEpoch g 15 0 ≠ u.dieEpoch (g / 1024)) ↔ s.restoresGroup slot g = true := by
      rw [hfld, hepoch (group_die_lt hg), restoreEpoch]
      split
      · next hover => exact ⟨fun _ => hover, fun _ => by omega⟩
      · next hstays => exact ⟨fun h => absurd rfl h, fun h => absurd h hstays⟩
    exact Bool.eq_iff_iff.2 (decide_eq_true_iff.trans hne)

theorem State.snapRestore_begins {s : State} {h : TcsHdr} {slot : BitVec 8} (hruns : s.tcsRuns h 0x3002 false) (hslot : slot.toNat < 20)
    (hidle : s.mirrorIdle = true) (hstill : s.anyRunning = false) (hgood : (s.slot slot.toNat).good = true) :
    ∃ u, exec (.snapRestore h slot) s = .next u ∧ s.answered u h 0x3002 0 [] ∧ s.computeSame u ∧
      u.fld .snapStatus 0 31 30 = 3 ∧ u.fw.restSlot = slot.toNat ∧
      (∀ d < 4, u.fld .stnDieEpoch d 15 0 = nextEpoch (s.fld .stnDieEpoch d 15 0)) ∧
      (∀ i < 1024, u.quarantined i = true) ∧ (∀ g < 4096, u.pgQuarantined g =
        ((s.slot slot.toNat).holds g || (decide (16 ≤ slot.toNat) && (s.relocHere (s.slot slot.toNat)).contains g))) := by
  let v := s.heard h.port
  let t := v.restoreStart slot.toNat (some h.seq.toNat)
  obtain ⟨hsame, hregs, hstate, hbegun, hdies, hstns, hgroups⟩ := v.restoreStart_restores slot.toNat (some h.seq.toNat)
  have hrun : v.snapRestore h slot.toNat = (t, 0, []) := by
    unfold State.snapRestore
    rw [State.within_pos (decide_eq_true hslot), if_neg (by rw [show v.mirrorIdle = true from hidle]; decide), State.barIf_neg]
    rw [show v.anyRunning = false from hstill, show (v.slot slot.toNat).good = true from hgood]
    rfl
  refine State.settles (k := ⟨0x3002, false, false⟩) hruns rfl (by decide) (fun _ => rfl) hrun hregs (by decide) hsame fun u hacc => ?_
  have hfld {r : Reg} (hr : r ∉ answerRegs) {i : Nat} (hi : i < r.info.count) (a b : Nat) : u.fld r i a b = t.fld r i a b := hacc.kept.fld hr hi a b
  refine ⟨(hfld (by decide) (by decide) 31 30).trans hstate, (congrArg FwSt.restSlot hacc.fw).trans hbegun,
    fun d hd => (hfld (by decide) hd 15 0).trans (hdies d hd), fun i hi => ?_, fun g hg => ?_⟩
  · refine Eq.trans ?_ (hstns i hi)
    rw [State.quarantined, State.quarantined, hfld (by decide) hi, hfld (by decide) (station_die_lt hi)]
  · refine Eq.trans ?_ ((hgroups g hg).trans ?_)
    · rw [State.pgQuarantined, State.pgQuarantined, hfld (by decide) hg, hfld (by decide) (group_die_lt hg)]
    · show ((s.slot slot.toNat).holds g || (s.buddyGroups slot.toNat).contains g) = _
      unfold State.buddyGroups
      by_cases hown : slot.toNat < 16
      · rw [if_pos hown, decide_eq_false (by omega)]
        rfl
      · rw [if_neg hown, decide_eq_true (by omega), Bool.true_and]

end Sys2Proof.Machine
end

section
/-! ## RETIRE_SET, and the commands of Steward and Keeper together (O54) -/

namespace Sys2Proof.Machine

/-! ### Writes of the retirement table (R280) -/

theorem State.commit_append {p : Proc} {s t : State} {l m : List (Nat × Nat)} (h : s.commit p l = (t, 0, [])) :
    s.commit p (l ++ m) = t.commit p m := by
  induction l generalizing s with
  | nil =>
    obtain rfl : s = t := congrArg Prod.fst h
    rfl
  | cons w l ih =>
    rw [State.commit] at h
    rw [List.cons_append, State.commit]
    split at h
    · next hok => rw [if_pos hok]; exact ih h
    · cases congrArg (fun q => q.2.1) h

theorem State.dieRunning_congr {s t : State} {rs : List Reg} (h : s.RegsKept t rs) (h1 : Reg.stnStateEpoch ∉ rs) (h2 : Reg.stnDieEpoch ∉ rs)
    (hs : t.stations = s.stations) (hf : t.fuses = s.fuses) (d : Nat) : t.dieRunning d = s.dieRunning d := by
  rw [State.dieRunning, State.dieRunning, State.used, State.used, hs]
  exact congrArg _ (funext fun i => by rw [State.running_congr h h1 h2 hs hf])

/-- The retirement table of a stack answers while the stacks of its die are up. -/
theorem State.regLocate_prismRetire {s : State} {n j : Nat} (hn : n < 32) (hj : j < 32) (hup : s.stacksUp (n / 8) = true) :
    s.regLocate (Reg.at .prismRetire (32 * n + j)) 4 = .ok (.prismRetire, 32 * n + j, false) := by
  have hi : 32 * n + j < Reg.prismRetire.info.count := by
    show 32 * n + j < 1024
    omega
  have hfind := Reg.find_at_self .prismRetire hi
  have halign : Reg.at .prismRetire (32 * n + j) % 4 = 0 := by
    by_contra h
    rw [Reg.find, if_neg h] at hfind
    cases hfind
  have hpowered : s.regPowered .prismRetire (32 * n + j) = true := by
    show s.stacksUp ((32 * n + j) / 32 / 8) = true
    rw [show (32 * n + j) / 32 = n by omega]
    exact hup
  have hstn : Reg.stn .prismRetire (32 * n + j) = none := rfl
  simp [State.regLocate, hfind, halign, hstn, hpowered]

section
variable {s : State} {n : Nat} (hn : n < 32) (hstill : s.dieRunning (n / 8) = false) (hup : s.stacksUp (n / 8) = true)
include hn hstill hup

/-- A write of an entry is accepted where no other entry that is valid names its page. -/
theorem State.accepts_prismRetire {t : State} (hfab : s.Fabric t [.prismRetire]) {j v : Nat} (hj : j < 32)
    (hnew : bitOf v 31 = true → ∀ i < 32, i ≠ j → t.bit .prismRetire (32 * n + i) 31 = true →
      t.fld .prismRetire (32 * n + i) 12 0 ≠ bitsOf v 12 0) : t.accepts (.fp 3) .prismRetire (32 * n + j) v := by
  obtain ⟨hfuses, -, -, -, hstns⟩ := hfab.frame
  have hrun : t.dieRunning (n / 8) = false := (State.dieRunning_congr hfab.kept.regs (by decide) (by decide) hstns hfuses _).trans hstill
  have hup' : t.stacksUp (n / 8) = true := (hfab.kept.regs.bit (by decide) Nat.one_pos _).trans hup
  refine ⟨State.regLocate_prismRetire hn hj hup', ?_⟩
  have hstack : (32 * n + j) / 32 = n := by omega
  have hentry : (32 * n + j) % 32 = j := by omega
  show t.checkRetire (32 * n + j) v = stOk
  unfold State.checkRetire
  rw [hstack, hentry]
  refine okIf_eq ?_
  rw [hrun, Bool.not_false, Bool.true_and, Bool.not_eq_true', Bool.and_eq_false_imp]
  refine fun hv => List.any_eq_false.2 fun i hi => ?_
  simp only [Bool.and_eq_true, decide_eq_true_eq, not_and]
  exact fun hne hset => hnew hv i (List.mem_range.1 hi) hne.1 hne.2 hset

/-- The entries of a stack, all emptied. -/
def emptiedEntries (n : Nat) : List (Nat × Nat) := (List.range 32).map (fun i => (32 * n + i, 0))

/-- The entries of a stack that take the pages of a list. -/
def pageEntries (n : Nat) (pages : List (BitVec 13)) : List (Nat × Nat) := pages.zipIdx.map (fun q => (32 * n + q.2, 2 ^ 31 + q.1.toNat))

omit hn hstill hup in
theorem retireWrites_eq (n : Nat) (pages : List (BitVec 13)) : retireWrites n pages =
    (emptiedEntries n).map (fun w => (Reg.at .prismRetire w.1, w.2)) ++ (pageEntries n pages).map (fun w => (Reg.at .prismRetire w.1, w.2)) := by
  rw [emptiedEntries, pageEntries, List.map_map, List.map_map]
  rfl

omit hn hstill hup in
theorem mem_pageEntries {pages : List (BitVec 13)} {w : Nat × Nat} :
    w ∈ pageEntries n pages ↔ ∃ i < pages.length, w = (32 * n + i, 2 ^ 31 + (pages.getD i 0).toNat) := by
  constructor
  · intro hw
    obtain ⟨q, hq, rfl⟩ := List.mem_map.1 hw
    obtain ⟨hlt, hpage⟩ := List.getElem?_eq_some_iff.1 (List.mem_zipIdx_iff_getElem?.1 hq)
    exact ⟨q.2, hlt, by rw [List.getD_eq_getElem _ _ hlt, hpage]⟩
  · rintro ⟨i, hi, rfl⟩
    exact List.mem_map.2 ⟨(pages.getD i 0, i), List.mk_mem_zipIdx_iff_getElem?.2 (by simp [hi]), rfl⟩

omit hn hstill hup in
theorem pageEntries_fst (n : Nat) (pages : List (BitVec 13)) : (pageEntries n pages).map (·.1) = (List.range pages.length).map (32 * n + ·) := by
  rw [pageEntries, List.range_eq_range', ← List.zipIdx_map_snd, List.map_map, List.map_map]
  rfl

omit hn hstill hup in
/-- Two entries of distinct pages name distinct pages. -/
theorem pageEntries_page_ne {pages : List (BitVec 13)} (hnodup : pages.Nodup) {i j : Nat} (hi : i < pages.length) (hj : j < pages.length)
    (hne : i ≠ j) : (pages.getD i 0).toNat ≠ (pages.getD j 0).toNat := fun h => hne (by
  rw [List.getD_eq_getElem _ _ hi, List.getD_eq_getElem _ _ hj] at h
  exact (List.Nodup.getElem_inj_iff hnodup).1 (BitVec.eq_of_toNat_eq h))

/-- While the die is stopped, a commit of a new retirement table is applied whole: first every entry is emptied, then the pages are entered. -/
theorem State.commit_retire {pages : List (BitVec 13)} (hlen : pages.length < 32) (hnodup : pages.Nodup) :
    ∃ t u, s.commit 3 (retireWrites n pages) = (u, 0, []) ∧ s.Wrote t .prismRetire [] [] (emptiedEntries n) ∧
      t.Wrote u .prismRetire [] [] (pageEntries n pages) := by
  have hretire : Reg.prismRetire.Committed 3 [] [] := Reg.committed_quiet 3 rfl rfl (by decide) rfl
  have hcount {i : Nat} (hi : i < 32) : 32 * n + i < Reg.prismRetire.info.count := by
    show 32 * n + i < 1024
    omega
  have hinj : Function.Injective (32 * n + ·) := fun a b hab => Nat.add_left_cancel hab
  have hfst : (emptiedEntries n).map (·.1) = (List.range 32).map (32 * n + ·) := List.map_map
  have hzero {w : Nat × Nat} (hw : w ∈ emptiedEntries n) : ∃ i < 32, w = (32 * n + i, 0) := by
    obtain ⟨i, hi, rfl⟩ := List.mem_map.1 hw
    exact ⟨i, List.mem_range.1 hi, rfl⟩
  obtain ⟨t, hempty, hwrote⟩ := State.commit_wrote hretire (emptiedEntries n) [] s
    (by rw [List.nil_append, hfst]; exact List.nodup_range.map hinj)
    (fun w hw => by
      obtain ⟨i, hi, rfl⟩ := hzero hw
      exact ⟨hcount hi, Nat.and_zero _⟩) (.none _ _ _ _)
    (fun m w l t hl hw => by
      obtain ⟨i, hi, rfl⟩ := hzero (w := w) (by rw [show emptiedEntries n = _ from hl]; simp)
      exact State.accepts_prismRetire hn hstill hup hw.fabric hi (fun h => absurd ((Nat.zero_testBit 31).symm.trans h) Bool.false_ne_true))
  have hcleared {i : Nat} (hi : i < 32) : t.bit .prismRetire (32 * n + i) 31 = false :=
    (hwrote.written _ (List.mem_map.2 ⟨i, List.mem_range.2 hi, rfl⟩) 31 (by decide) rfl).trans (Nat.zero_testBit 31)
  obtain ⟨u, hpages, hall⟩ := State.commit_wrote hretire (pageEntries n pages) [] t
    (by rw [List.nil_append, pageEntries_fst]; exact List.nodup_range.map hinj)
    (fun w hw => by
      obtain ⟨i, hi, rfl⟩ := mem_pageEntries.1 hw
      exact ⟨hcount (by omega), Nat.and_zero _⟩) (.none _ _ _ _)
    (fun m w l u hl hw => by
      have hl : pageEntries n pages = m ++ w :: l := hl
      obtain ⟨j, hj, rfl⟩ := mem_pageEntries.1 (show w ∈ pageEntries n pages by rw [hl]; simp)
      refine State.accepts_prismRetire hn hstill hup (hwrote.fabric.trans hw.fabric) (by omega) fun _ i hi hne hset => ?_
      by_cases hm : 32 * n + i ∈ m.map (·.1)
      · obtain ⟨w, hwm, hwi⟩ := List.mem_map.1 hm
        obtain ⟨i', hi', rfl⟩ := mem_pageEntries.1 (show w ∈ pageEntries n pages by rw [hl]; simp [hwm])
        obtain rfl : i' = i := Nat.add_left_cancel hwi
        rw [State.fld_of_written (hw.written _ hwm) (by decide) (by decide), bitsOf_flagged (by decide) (pages.getD i' 0).isLt,
          bitsOf_flagged (by decide) (pages.getD j 0).isLt]
        exact pageEntries_page_ne hnodup hi' hj hne
      · have hsame : u.bit .prismRetire (32 * n + i) 31 = t.bit .prismRetire (32 * n + i) 31 :=
          congrArg (bitOf · 31) (hw.apart .prismRetire List.mem_cons_self _ (hcount hi) hm)
        rw [hsame, hcleared hi] at hset
        cases hset)
  refine ⟨t, u, ?_, hwrote, hall⟩
  rw [retireWrites_eq, State.commit_append hempty]
  exact hpages

end

/-! ### RETIRE_SET (R280) -/

/-- An accepted list is kept by Keeper, and no register with it. -/
theorem State.retirePersist_fw (t : State) (n : Nat) (pages : List (BitVec 13)) :
    ∃ f, State.retirePersist (t, 0, []) n pages = (t.fwUpd f, 0, []) := ⟨_, rfl⟩

theorem State.retireSet_pages {s : State} {h : TcsHdr} {k : Seg} {pages : List (BitVec 13)} (hruns : s.tcsRuns h 0x3005 false)
    (hlen : pages.length < 32) (hnodup : pages.Nodup) (hstill : s.dieRunning (k.val / 8) = false) (hup : s.stacksUp (k.val / 8) = true) :
    ∃ u, exec (.retireSet h k pages) s = .next u ∧ s.answered u h 0x3005 0 [] ∧ s.computeSame u ∧
      (∀ i < 32, u.bit .prismRetire (32 * k + i) 31 = decide (i < pages.length)) ∧
      (∀ i < pages.length, u.fld .prismRetire (32 * k + i) 12 0 = (pages.getD i 0).toNat) := by
  let v := s.heard h.port
  obtain ⟨t1, t, hcommit, hempty, hpages⟩ := State.commit_retire (s := v) k.isLt hstill hup hlen hnodup
  obtain ⟨f, hpersist⟩ := t.retirePersist_fw k pages
  have hfab : v.Fabric (t.fwUpd f) [.prismRetire] := (hempty.fabric.trans hpages.fabric).trans (.of_regs rfl rfl)
  have hrun : State.retirePersist (v.commit 3 (retireWrites k pages)) k pages = (t.fwUpd f, 0, []) :=
    (congrArg (State.retirePersist · k pages) hcommit).trans hpersist
  have hchecks : (decide (pages.length ≤ 32) && decide pages.Nodup) = true := by simp [hnodup, Nat.le_of_lt hlen]
  refine State.settles (k := ⟨0x3005, false, false⟩) hruns rfl (by decide) (fun _ => if_neg (by omega))
    ((State.within_pos hchecks).trans ((State.barIf_neg hstill).trans hrun)) hfab.kept.regs (by decide) hfab.computeSame fun u hacc => ?_
  have hkept {i : Nat} (hi : i < 32) : u.reg .prismRetire (32 * k + i) = t.reg .prismRetire (32 * k + i) :=
    (hacc.kept .prismRetire (by decide) _ (show 32 * k.val + i < 1024 by have := k.isLt; omega)).trans (State.reg_congr (State.regs_fwUpd _ _) _ _)
  have hentry {i : Nat} (hi : i < pages.length) : ∀ b < 32, Reg.prismRetire.info.rw.testBit b = true →
      (u.reg .prismRetire (32 * k + i)).testBit b = (2 ^ 31 + (pages.getD i 0).toNat).testBit b := fun b hb hrw => by
    rw [hkept (by omega)]
    exact hpages.written _ (mem_pageEntries.2 ⟨i, hi, rfl⟩) b hb hrw
  refine ⟨fun i hi => ?_, fun i hi => ?_⟩
  · rcases Nat.lt_or_ge i pages.length with hin | hout
    · rw [decide_eq_true hin]
      exact (hentry hin 31 (by decide) rfl).trans (bitOf_flagged (by have := (pages.getD i 0).isLt; omega))
    · have hnot : 32 * k.val + i ∉ (pageEntries k pages).map (·.1) := fun hm => by
        rw [pageEntries_fst] at hm
        obtain ⟨j, hj, hji⟩ := List.mem_map.1 hm
        have := List.mem_range.1 hj
        omega
      have hclear := hempty.written _ (List.mem_map.2 ⟨i, List.mem_range.2 hi, rfl⟩) 31 (by decide) rfl
      rw [decide_eq_false (by omega), State.bit, hkept hi, hpages.apart .prismRetire List.mem_cons_self _
        (show 32 * k.val + i < 1024 by have := k.isLt; omega) hnot]
      exact hclear.trans (Nat.zero_testBit 31)
  · exact (State.fld_of_written (hentry hi) (by decide) (by decide)).trans (bitsOf_flagged (by decide) (pages.getD i 0).isLt)

/-! ### The obligation -/

/-- Settles O54: every command passes the checks of its writes, one by one in their order, and what it leaves is kept by its answer. -/
theorem tcsStewardAndKeeperCommands : Obligations.TcsStewardAndKeeperCommands := by
  unfold Obligations.TcsStewardAndKeeperCommands
  intro s h hon
  refine ⟨?_, ?_, ?_, ?_, ?_, ?_, ?_, ?_⟩
  · exact fun _ hruns hid hports => State.moduleIdSet_ownId hon hruns hid hports
  · exact fun _ en _ half spare hruns hrole hports => State.portSet_ports hon en half spare hruns hrole hports
  · exact fun _ _ hruns hlen hfit => State.routeSet_routes hon hruns hlen hfit
  · exact fun _ _ hruns hlen hstill hlogical hnodup => State.remapSet_remaps hon hruns hlen hstill hlogical hnodup
  · exact fun _ _ hruns hg hlen hidle => State.mcastSet_members hon hruns hg hlen hidle
  · exact fun _ hruns hslot hidle hpart hrunning => State.snapTake_arms hruns hslot hidle hpart hrunning
  · exact fun _ hruns hslot hidle hstill hgood => State.snapRestore_begins hruns hslot hidle hstill hgood
  · exact fun _ _ hruns hlen hnodup hstill hup => State.retireSet_pages hruns hlen hnodup hstill hup

end Sys2Proof.Machine
end

section
/-! ## V ops in standard form (O20, O21, O22) -/

namespace Sys2Proof.Machine

/-! ### The op issues (R131, R135, Table 5-1) -/

/-- The destination of a V op: the mask register of a VCMP is named by two bits. -/
def VKind.dest (k : VKind) (o : VOp) : Nat :=
  match k with
  | .cmp _ => o.dst.toNat % 4
  | _ => o.dst.toNat

/-- A V op in standard form on a free engine occupies it and sets out with its sources. -/
theorem State.vEff_sets_out {s : State} {i : Issue} {t : Nat} (h : s.opens i .v t = true) (hb : (s.station i.stn).vBusy ≤ t) (o : VOp) (k : VKind) :
    let x := (s.station i.stn).opened i .v t
    let u := s.issue i .v (vEff i o k)
    s.WordFrame u i [] ∧ u.station i.stn = { x with
      vBusy := t + k.occ
      vq := x.vq ++ [s.vFlight i t k (k.dest o) 0 o.sa.toNat o.sb.toNat (o.x.toNat % 32) o.sta.toNat o.stb.toNat o.msk.toNat
        (o.x.toNat % 16) false] } := by
  intro x u
  obtain ⟨v, hv, hst, hw⟩ := s.issue_opens i .v t (vEff i o k) h
  have hfree : (v.station i.stn).vBusy ≤ (s.placeOf i t).tick := by
    rw [hst, Station.read_opened Station.vBusy _ _ _ _ (fun _ _ _ => rfl), State.placeOf_tick]
    exact hb
  have hu : u = v.modStation i.stn (fun x => { x with
      vBusy := t + k.occ
      vq := x.vq ++ [s.vFlight i t k (k.dest o) 0 o.sa.toNat o.sb.toNat (o.x.toNat % 32) o.sta.toNat o.stb.toNat o.msk.toNat
        (o.x.toNat % 16) false] }) := by
    refine hv.trans ((v.vIssue_free _ _ hfree).trans ?_)
    rw [State.placeOf_tick, hw.vFlight hst]
    rfl
  rw [hu, State.station_modStation_self, hst]
  exact ⟨hw.trans (.modStation v i _ _), rfl⟩

/-! ### What an op in standard form reads in a lane (R131, R136, R138) -/

section
variable (f : VFlight) (xs : Nat → Station)

/-- Lane `k` of the first, second and third source of a V op and of its mask register, from the station that pass `k / 256` found. -/
def VFlight.inA (k : Nat) : Word := ((xs (k / 256)).tile f.sa).el (strideAt f.sta k)
def VFlight.inB (k : Nat) : Word := ((xs (k / 256)).tile f.sb).el (strideAt f.stb k)
def VFlight.inC (k : Nat) : Word := ((xs (k / 256)).tile f.sc).el k
def VFlight.inM (k : Nat) : Bool := (xs (k / 256)).mask f.msk k

variable {f} {n k : Nat} (hk : k < 256 * min n 4)
include hk

theorem VFlight.readTill_inA : (f.readTill xs n).a.getD k 0 = f.inA xs k := by
  have hread := getD_quadsRead xs f.sa f.sta 0 hk
  rwa [Nat.zero_add] at hread

theorem VFlight.readTill_inC : (f.readTill xs n).c.getD k 0 = f.inC xs k := by
  have hread := getD_quadsRead xs f.sc 0 0 hk
  rwa [Nat.zero_add] at hread

theorem VFlight.readTill_inM : (f.readTill xs n).lm k = f.inM xs k := by
  have hread : (f.readTill xs n).lm k = (xs (k / 256)).mask f.msk (k % 1024) := getD_masksRead xs f.msk (by split <;> omega)
  rwa [Nat.mod_eq_of_lt (by omega)] at hread

theorem VFlight.readTill_inB (hcol : f.column = false) : (f.readTill xs n).b.getD k 0 = f.inB xs k := by
  have hb : (f.readTill xs n).b = quadsRead xs f.sb f.stb 0 (min n 4) := if_neg (by simp [hcol])
  have hread := getD_quadsRead xs f.sb f.stb 0 hk
  rwa [Nat.zero_add, ← hb] at hread

end

/-! ### Quad by quad -/

/-- The ops that compute each lane on its own, from the elements read for it. -/
def VKind.elementwise : VKind → Bool
  | .add _ | .mul | .fma _ | .max _ | .exp _ | .rsq _ => true
  | _ => false

/-- The result of such an op on the elements of a lane (Table 5-5). -/
def VKind.result (k : VKind) (a b c : Nat) : Res :=
  match k with
  | .add sub => addRes sub a b
  | .mul => mul32 a b
  | .fma neg => fmaRes neg a b c
  | .max mn => (maxBits mn a b, Flg.none)
  | .exp b2 => expRes b2 a
  | .rsq rcp => rsqRes rcp a
  | _ => (0, Flg.none)

section
variable {f : VFlight} (hk : f.kind.elementwise = true)
include hk

theorem VFlight.elem_elementwise (k : Nat) : f.elem k = f.kind.result (f.la k) (f.lb k) (f.lc k) := by
  unfold VFlight.elem
  revert hk
  cases f.kind <;> simp [VKind.elementwise, VKind.result]

theorem VFlight.parts_elementwise (r : Nat) : f.parts r = f.quadWrites r := by
  unfold VFlight.parts
  revert hk
  cases f.kind <;> simp [VKind.elementwise]

theorem VFlight.byQuad_elementwise : f.byQuad = true := by
  unfold VFlight.byQuad
  revert hk
  cases f.kind <;> simp [VKind.elementwise]

/-- No element-wise op writes a quad before the tick of its last pass. -/
theorem VFlight.writeAt_elementwise : 3 ≤ f.writeAt := by
  unfold VFlight.writeAt
  revert hk
  cases f.kind <;> cases f.p1 <;> simp [VKind.elementwise]

end

/-- The lanes of quad `r`. -/
def quadLanes (r : Nat) : List Nat := (List.range 256).map (256 * r + ·)

theorem lt_of_mem_quadLanes {r n k : Nat} (hr : r < n) (hk : k ∈ quadLanes r) : k < 256 * n := by
  obtain ⟨q, hq, rfl⟩ := List.mem_map.1 hk
  have := List.mem_range.1 hq
  omega

theorem div_of_mem_quadLanes {r k : Nat} (hk : k ∈ quadLanes r) : k / 256 = r := by
  obtain ⟨q, hq, rfl⟩ := List.mem_map.1 hk
  have := List.mem_range.1 hq
  omega

/-- No op that writes on one tick writes before the tick of an eighth pass. -/
theorem VFlight.writeAt_once {f : VFlight} (hq : f.byQuad = false) : 8 ≤ f.writeAt + 1 := by
  unfold VFlight.byQuad at hq
  unfold VFlight.writeAt
  revert hq
  cases f.kind <;> cases f.p1 <;> cases f.cvt.ax <;> simp

section
variable {f : VFlight} (xs : Nat → Station)

/-- An element-wise op writes the lanes of a quad that its mask selects. -/
theorem VFlight.readTill_quadWrites (hk : f.kind.elementwise = true) {n r : Nat} (hr : r < min n 4) :
    let ks := (quadLanes r).filter (fun k => (xs r).mask f.msk k)
    let g := fun (k : Nat) => f.kind.result (f.inA xs k).toNat (f.inB xs k).toNat (f.inC xs k).toNat
    (f.readTill xs n).quadWrites r =
      [.els f.dst (ks.map (fun k => (k, BitVec.ofNat 32 (g k).1))), .flags f.src.strm (orFlags (ks.map g)).code] := by
  intro ks g
  have hsel : f.kind ≠ .sel := fun h => absurd (h ▸ hk) (by decide)
  have hnarrow : f.kind ≠ .narrow := fun h => absurd (h ▸ hk) (by decide)
  have hcol : f.column = false := by rw [VFlight.column, decide_eq_false hnarrow, Bool.false_and]
  have hlanes : (quadLanes r).filter (f.readTill xs n).writesLane = ks := List.filter_congr fun k hq => by
    have hlane : (f.readTill xs n).writesLane k = (false || (f.readTill xs n).lm k) :=
      congrArg (· || _) (decide_eq_false hsel)
    rw [hlane, Bool.false_or, VFlight.readTill_inM xs (lt_of_mem_quadLanes hr hq), VFlight.inM, div_of_mem_quadLanes hq]
  have helem : ∀ k ∈ ks, (f.readTill xs n).elem k = g k := fun k hks => by
    have hlt := lt_of_mem_quadLanes hr (List.mem_of_mem_filter hks)
    rw [VFlight.elem_elementwise (f := f.readTill xs n) hk, VFlight.la, VFlight.lb, VFlight.lc, VFlight.readTill_inA xs hlt,
      VFlight.readTill_inB xs hlt hcol, VFlight.readTill_inC xs hlt]
    rfl
  have hwrites : (f.readTill xs n).quadWrites r =
      [.els f.dst (ks.map (fun k => (k, BitVec.ofNat 32 ((f.readTill xs n).elem k).1))),
        .flags f.src.strm (orFlags (ks.map (f.readTill xs n).elem)).code] := by
    rw [← hlanes]
    rfl
  rw [hwrites, List.map_congr_left helem, List.map_congr_left (fun k hk => by rw [helem k hk])]

variable (ha : f.a = []) (hb : f.b = []) (hc : f.c = []) (hm : f.m = [])
include ha hb hc hm

/-- A V op that writes quad by quad writes each quad from what it has read by then. -/
theorem VFlight.captured_quad (hk : f.kind ≠ .widen) (hq : f.byQuad = true) {r : Nat} (hr : r < 4) :
    ((f.captured xs (f.writeAt + r + 1)).writes (f.t + (f.writeAt + r))).map (·.wr) = (f.readTill xs (f.writeAt + r + 1)).parts r := by
  rw [VFlight.captured_read xs hk ha hb hc hm]
  exact (f.readTill xs _).writes_quad hq hr

/-- A V op that writes on one tick writes from all that it has read. -/
theorem VFlight.captured_once (hq : f.byQuad = false) :
    ((f.captured xs (f.writeAt + 1)).writes (f.t + f.writeAt)).map (·.wr) = (f.readTill xs 8).parts 0 := by
  have hwiden : f.kind ≠ .widen := fun h => by simp [VFlight.byQuad, h] at hq
  exact VFlight.captured_writes xs ha hb hc hm hwiden hq (VFlight.writeAt_once hq)

theorem VFlight.elementwise_writes (hk : f.kind.elementwise = true) {r : Nat} (hr : r < 4) :
    let ks := (quadLanes r).filter (fun k => (xs r).mask f.msk k)
    let g := fun (k : Nat) => f.kind.result (f.inA xs k).toNat (f.inB xs k).toNat (f.inC xs k).toNat
    ((f.captured xs (f.writeAt + r + 1)).writes (f.t + (f.writeAt + r))).map (·.wr) =
      [.els f.dst (ks.map (fun k => (k, BitVec.ofNat 32 (g k).1))), .flags f.src.strm (orFlags (ks.map g)).code] := by
  intro ks g
  have hwiden : f.kind ≠ .widen := fun h => absurd (h ▸ hk) (by decide)
  have hlate := VFlight.writeAt_elementwise hk
  refine (VFlight.captured_quad xs ha hb hc hm hwiden (VFlight.byQuad_elementwise hk) hr).trans ?_
  rw [VFlight.parts_elementwise (f := f.readTill xs _) hk]
  exact VFlight.readTill_quadWrites xs hk (by omega)

end

/-- Settles O20: each op as it sets out, and each quad of its writes, from what its passes have read. -/
theorem elementwiseOpsWriteSelectedLanes : Obligations.ElementwiseOpsWriteSelectedLanes := by
  unfold Obligations.ElementwiseOpsWriteSelectedLanes
  refine ⟨?_, ?_⟩
  · intro s i o t h hb x does
    exact ⟨⟨_, rfl, State.vEff_sets_out h hb o _⟩, ⟨_, rfl, State.vEff_sets_out h hb o _⟩, ⟨_, rfl, State.vEff_sets_out h hb o _⟩,
      ⟨_, rfl, State.vEff_sets_out h hb o _⟩, ⟨_, rfl, State.vEff_sets_out h hb o _⟩, ⟨_, rfl, State.vEff_sets_out h hb o _⟩⟩
  · intro f xs r hr ha hb hc hm opA opB opC ks gives w
    have hslow : 2 * w = if f.p1 then 8 else 6 := by
      show 2 * (if f.p1 then 4 else 3) = _
      split <;> rfl
    have hwrites (hk : f.kind.elementwise = true) :
        gives f.writeAt (fun k => f.kind.result (opA k) (opB k) (opC k)) := VFlight.elementwise_writes xs ha hb hc hm hk hr
    refine ⟨fun sub hk => ?_, fun hk => ?_, fun neg hk => ?_, fun mn hk => ?_, fun b2 hk => ?_, fun rcp hk => ?_⟩
    all_goals
      rw [hk, VFlight.writeAt, hk] at hwrites
    · exact hwrites rfl
    · exact hwrites rfl
    · exact hwrites rfl
    · exact hwrites rfl
    · rw [hslow]
      exact hwrites rfl
    · rw [hslow]
      exact hwrites rfl

end Sys2Proof.Machine
end

section
/-! ## VCMP, VSEL, VCMPR and VEXPD (O21) -/

namespace Sys2Proof.Machine

/-! ### Quad by quad (R140) -/

section
variable {f : VFlight} (xs : Nat → Station) (ha : f.a = []) (hb : f.b = []) (hc : f.c = []) (hm : f.m = [])
include ha hb hc hm

/-- A quad of a VCMP: the predicate on the elements of each lane, 0 where masked. -/
theorem VFlight.cmp_writes {pred : Nat} (hk : f.kind = .cmp pred) {r : Nat} (hr : r < 4) :
    ((f.captured xs (f.writeAt + r + 1)).writes (f.t + (f.writeAt + r))).map (·.wr) = [.mask f.dst ((List.range 256).map (fun q =>
      (256 * r + q, f.inM xs (256 * r + q) && predOf pred (f.inA xs (256 * r + q)).toNat (f.inB xs (256 * r + q)).toNat)))] := by
  have hlate : 2 ≤ f.writeAt := by
    simp only [VFlight.writeAt, hk]
    split <;> omega
  have hcol : f.column = false := by simp [VFlight.column, hk]
  have hparts : (f.readTill xs (f.writeAt + r + 1)).parts r = (f.readTill xs (f.writeAt + r + 1)).cmpWrites pred r := by
    have hkind : (f.readTill xs (f.writeAt + r + 1)).kind = .cmp pred := hk
    simp only [VFlight.parts, hkind]
  have hbits : ∀ q ∈ List.range 256, (256 * r + q, (f.readTill xs (f.writeAt + r + 1)).lm (256 * r + q) &&
      predOf pred ((f.readTill xs (f.writeAt + r + 1)).la (256 * r + q)) ((f.readTill xs (f.writeAt + r + 1)).lb (256 * r + q))) =
      (256 * r + q, f.inM xs (256 * r + q) && predOf pred (f.inA xs (256 * r + q)).toNat (f.inB xs (256 * r + q)).toNat) := fun q hq => by
    have hq256 : q < 256 := List.mem_range.1 hq
    have hlane : 256 * r + q < 256 * min (f.writeAt + r + 1) 4 := by omega
    rw [VFlight.la, VFlight.lb, VFlight.readTill_inM xs hlane, VFlight.readTill_inA xs hlane, VFlight.readTill_inB xs hlane hcol]
  rw [VFlight.captured_quad xs ha hb hc hm (by simp [hk]) (by simp [VFlight.byQuad, hk]) hr, hparts, VFlight.cmpWrites,
    List.map_congr_left hbits]
  rfl

/-- A quad of a VSEL: every lane, from the source that the mask selects. -/
theorem VFlight.sel_writes (hk : f.kind = .sel) {r : Nat} (hr : r < 4) :
    ((f.captured xs (f.writeAt + r + 1)).writes (f.t + (f.writeAt + r))).map (·.wr) = [.els f.dst ((List.range 256).map (fun q =>
      (256 * r + q, if f.inM xs (256 * r + q) then f.inA xs (256 * r + q) else f.inB xs (256 * r + q)))), .flags f.src.strm 0] := by
  have hlate : 3 ≤ f.writeAt := by
    simp only [VFlight.writeAt, hk]
    split <;> omega
  have hcol : f.column = false := by simp [VFlight.column, hk]
  have hkind : (f.readTill xs (f.writeAt + r + 1)).kind = .sel := hk
  have hparts : (f.readTill xs (f.writeAt + r + 1)).parts r = (f.readTill xs (f.writeAt + r + 1)).quadWrites r := by
    simp only [VFlight.parts, hkind]
  have hall : (quadLanes r).filter (f.readTill xs (f.writeAt + r + 1)).writesLane = quadLanes r :=
    List.filter_eq_self.2 fun k _ => by simp [VFlight.writesLane, hkind]
  have helem : ∀ k ∈ quadLanes r, (f.readTill xs (f.writeAt + r + 1)).elem k =
      ((if f.inM xs k then f.inA xs k else f.inB xs k).toNat, Flg.none) := fun k hq => by
    have hlane : k < 256 * min (f.writeAt + r + 1) 4 := lt_of_mem_quadLanes (by omega) hq
    simp only [VFlight.elem, hkind, VFlight.la, VFlight.lb, VFlight.readTill_inM xs hlane, VFlight.readTill_inA xs hlane,
      VFlight.readTill_inB xs hlane hcol, apply_ite BitVec.toNat]
  have hwrites : (f.readTill xs (f.writeAt + r + 1)).quadWrites r =
      [.els f.dst ((quadLanes r).map (fun k => (k, BitVec.ofNat 32 ((f.readTill xs (f.writeAt + r + 1)).elem k).1))),
        .flags f.src.strm (orFlags ((quadLanes r).map (f.readTill xs (f.writeAt + r + 1)).elem)).code] := by
    conv_rhs => rw [← hall]
    rfl
  rw [VFlight.captured_quad xs ha hb hc hm (by simp [hk]) (by simp [VFlight.byQuad, hk]) hr, hparts, hwrites,
    List.map_congr_left helem, orFlags_none, List.map_congr_left (fun k hk => by rw [helem k hk, BitVec.ofNat_toNat, BitVec.setWidth_eq]),
    quadLanes, List.map_map]
  rfl

end

/-! ### Packing and unpacking (R144, R145) -/

/-- The numbers below `n` that `p` selects, in order: a selected number stands where as many selected ones are below it. -/
theorem getElem?_filter_range {p : Nat → Bool} {n i k : Nat} :
    ((List.range n).filter p)[i]? = some k ↔ k < n ∧ p k = true ∧ i = ((List.range k).filter p).length := by
  induction n with
  | zero => simp
  | succ n ih =>
    have hsplit : (List.range (n + 1)).filter p = (List.range n).filter p ++ if p n then [n] else [] := by
      rw [List.range_succ, List.filter_append]
      cases hp : p n <;> simp [hp]
    rw [hsplit, List.getElem?_append]
    split
    · next hlt =>
      refine ih.trans ⟨fun ⟨hk, hrest⟩ => ⟨Nat.lt_succ_of_lt hk, hrest⟩, fun ⟨hk, hp, hi⟩ => ⟨?_, hp, hi⟩⟩
      refine Nat.lt_of_le_of_ne (Nat.le_of_lt_succ hk) fun hkn => ?_
      rw [hi, hkn] at hlt
      exact Nat.lt_irrefl _ hlt
    · next hge =>
      have hlast : k < n + 1 ∧ p k = true ∧ i = ((List.range k).filter p).length ↔
          k = n ∧ p n = true ∧ i = ((List.range n).filter p).length := by
        refine ⟨fun ⟨hk, hp, hi⟩ => ?_, fun ⟨hk, hrest⟩ => by subst hk; exact ⟨Nat.lt_succ_self _, hrest⟩⟩
        rcases Nat.lt_or_eq_of_le (Nat.le_of_lt_succ hk) with hlt | rfl
        · obtain ⟨hin, -⟩ := List.getElem?_eq_some_iff.1 (ih.2 ⟨hlt, hp, hi⟩)
          exact absurd hin hge
        · exact ⟨rfl, hp, hi⟩
      rw [hlast]
      cases hp : p n with
      | false => simp
      | true =>
        rw [if_pos rfl, List.getElem?_singleton]
        split
        · next hzero => simp [eq_comm (a := n), Nat.le_antisymm (Nat.le_of_sub_eq_zero hzero) (Nat.le_of_not_lt hge)]
        · next hpos => simp; omega

/-- Positions paired with the entries of a list. -/
theorem mem_zip_range {α : Type} {l : List α} {n i : Nat} {v : α} : (i, v) ∈ (List.range n).zip l ↔ i < n ∧ l[i]? = some v := by
  rw [List.mem_iff_getElem?]
  simp only [List.getElem?_zip_eq_some, List.getElem?_eq_some_iff (l := List.range n), List.length_range, List.getElem_range]
  exact ⟨fun ⟨j, ⟨hj, hji⟩, hv⟩ => hji ▸ ⟨hj, hv⟩, fun ⟨hi, hv⟩ => ⟨i, ⟨hi, rfl⟩, hv⟩⟩

section
variable (f : VFlight)

theorem VFlight.length_selected_le : f.selected.length ≤ 1024 := (List.length_filter_le ..).trans_eq List.length_range

/-- The pairs that a VCMPR or VEXPD goes through: each selected position with its number. -/
theorem VFlight.mem_zip_selected {i k : Nat} : (i, k) ∈ (List.range 1024).zip f.selected ↔ f.selected[i]? = some k := by
  rw [mem_zip_range, and_iff_right_iff_imp]
  intro hk
  exact Nat.lt_of_lt_of_le (List.getElem?_eq_some_iff.1 hk).1 f.length_selected_le

/-- A VCMPR writes the elements from its position on, each with the selected element of its number. -/
theorem VFlight.mem_compressed (k : Nat) (v : Word) : (k, v) ∈ f.compressed ↔
    f.pos ≤ k ∧ k < f.pos + f.selected.length ∧ k < 1024 ∧ v = f.a.getD (f.selected.getD (k - f.pos) 0) 0 := by
  simp only [VFlight.compressed, List.mem_filterMap, Prod.exists, f.mem_zip_selected]
  constructor
  · rintro ⟨i, p, hp, hwrite⟩
    split at hwrite
    · next hin =>
      obtain ⟨rfl, rfl⟩ := Prod.mk.inj (Option.some.inj hwrite)
      obtain ⟨hi, hget⟩ := List.getElem?_eq_some_iff.1 hp
      refine ⟨Nat.le_add_right _ _, Nat.add_lt_add_left hi _, hin, ?_⟩
      rw [Nat.add_sub_cancel_left, List.getD_eq_getElem _ _ hi, hget]
    · cases hwrite
  · rintro ⟨hle, hlt, hin, rfl⟩
    have hi : k - f.pos < f.selected.length := by omega
    refine ⟨k - f.pos, f.selected[k - f.pos], List.getElem?_eq_getElem hi, ?_⟩
    rw [Nat.add_sub_cancel' hle, if_pos hin, List.getD_eq_getElem _ _ hi]

/-- A VEXPD writes the selected positions, each with the element of its number from the position on, +0 past the tile's end. -/
theorem VFlight.mem_expanded (k : Nat) (v : Word) : (k, v) ∈ f.expanded ↔
    k < 1024 ∧ f.lm k = true ∧ v = if f.pos + ((List.range k).filter f.lm).length < 1024
      then f.a.getD (f.pos + ((List.range k).filter f.lm).length) 0 else 0 := by
  simp only [VFlight.expanded, List.mem_map, Prod.exists, f.mem_zip_selected, Prod.mk.injEq]
  simp only [VFlight.selected, getElem?_filter_range]
  exact ⟨fun ⟨_, _, ⟨hk, hp, hi⟩, hkk, hv⟩ => hkk ▸ ⟨hk, hp, hi ▸ hv.symm⟩,
    fun ⟨hk, hp, hv⟩ => ⟨_, k, ⟨hk, hp, rfl⟩, rfl, hv.symm⟩⟩

end

section
variable {f : VFlight} (xs : Nat → Station)

theorem VFlight.readTill_selected : (f.readTill xs 8).selected = (List.range 1024).filter (f.inM xs) :=
  List.filter_congr fun _ hk => VFlight.readTill_inM xs (List.mem_range.1 hk)

/-- The element that a VCMPR packs at `k`. -/
theorem VFlight.readTill_compressed (k : Nat) (v : Word) : (k, v) ∈ (f.readTill xs 8).compressed ↔
    f.pos ≤ k ∧ k < f.pos + ((List.range 1024).filter (f.inM xs)).length ∧ k < 1024 ∧
      v = f.inA xs (((List.range 1024).filter (f.inM xs)).getD (k - f.pos) 0) := by
  have hpos : (f.readTill xs 8).pos = f.pos := rfl
  rw [VFlight.mem_compressed, VFlight.readTill_selected, hpos]
  refine and_congr_right fun hle => and_congr_right fun hlt => and_congr_right fun _ => ?_
  have hsel : ((List.range 1024).filter (f.inM xs)).getD (k - f.pos) 0 < 1024 := by
    have hi : k - f.pos < ((List.range 1024).filter (f.inM xs)).length := by omega
    rw [List.getD_eq_getElem _ _ hi]
    exact List.mem_range.1 (List.mem_of_mem_filter (List.getElem_mem hi))
  rw [VFlight.readTill_inA xs hsel]

/-- The element that a VEXPD writes at `k`. -/
theorem VFlight.readTill_expanded (k : Nat) (v : Word) : (k, v) ∈ (f.readTill xs 8).expanded ↔
    k < 1024 ∧ f.inM xs k = true ∧ v = if f.pos + ((List.range k).filter (f.inM xs)).length < 1024
      then f.inA xs (f.pos + ((List.range k).filter (f.inM xs)).length) else 0 := by
  have hpos : (f.readTill xs 8).pos = f.pos := rfl
  rw [VFlight.mem_expanded, hpos]
  refine and_congr_right fun hk => ?_
  have hbelow : (List.range k).filter (f.readTill xs 8).lm = (List.range k).filter (f.inM xs) :=
    List.filter_congr fun j hj => VFlight.readTill_inM xs (show j < 1024 from (List.mem_range.1 hj).trans hk)
  rw [VFlight.readTill_inM xs hk, hbelow]
  refine and_congr_right fun _ => ?_
  split
  · next hin => rw [VFlight.readTill_inA xs hin]
  · rfl

/-- What a VCMPR or VEXPD writes beside its elements. -/
theorem VFlight.readTill_packWrites (els : List (Nat × Word)) :
    let n := ((List.range 1024).filter (f.inM xs)).length
    (f.readTill xs 8).packWrites els = [.els f.dst els, .sreg f.src.strm f.so (BitVec.ofNat 32 (min (f.pos + n) 1024)),
      .flags f.src.strm (if 0 < n ∧ 1024 < f.pos + n then 16 else 0)] := by
  intro n
  have hcode : ∀ p : Prop, [Decidable p] → Flg.code { Flg.none with cpx := decide p } = if p then 16 else 0 := fun p _ => by
    by_cases hp : p <;> simp [hp, Flg.code, Flg.none, b2n]
  rw [VFlight.packWrites, VFlight.readTill_selected, hcode]
  rfl

end

/-! ### What the writes leave (R128, R140) -/

theorem getLsbD_maskBit (v : BitVec 1024) (b : Bool) {j k : Nat} (hk : k < 1024) :
    (maskBit v j b).getLsbD k = if j = k then b else v.getLsbD k := by
  have hone : (BitVec.ofNat 1024 (2 ^ j)).getLsbD k = decide (j = k) := by
    rw [BitVec.getLsbD_ofNat, Nat.testBit_two_pow, decide_eq_true hk, Bool.true_and]
  cases b with
  | true =>
    have hset : (maskBit v j true).getLsbD k = (v.getLsbD k || decide (j = k)) := (BitVec.getLsbD_or ..).trans (congrArg _ hone)
    rw [hset]
    by_cases h : j = k <;> simp [h]
  | false =>
    have hclear : (maskBit v j false).getLsbD k = (v.getLsbD k && !decide (j = k)) := by
      refine (BitVec.getLsbD_and ..).trans (congrArg _ ?_)
      rw [BitVec.getLsbD_not, hone, decide_eq_true hk, Bool.true_and]
    rw [hclear]
    by_cases h : j = k <;> simp [h]

/-- The bits of a quad, written one after another. -/
theorem getLsbD_foldl_maskBit (g : Nat → Bool) (r : Nat) (v : BitVec 1024) (n : Nat) {k : Nat} (hk : k < 1024) :
    (((List.range n).map (fun q => (256 * r + q, g q))).foldl (fun v p => maskBit v p.1 p.2) v).getLsbD k =
      if 256 * r ≤ k ∧ k < 256 * r + n then g (k - 256 * r) else v.getLsbD k := by
  induction n with
  | zero => rw [if_neg (by omega)]; rfl
  | succ n ih =>
    rw [List.range_succ, List.map_append, List.foldl_append]
    refine (getLsbD_maskBit _ _ hk).trans ?_
    rw [ih]
    show (if 256 * r + n = k then g n else _) = _
    rcases Nat.lt_trichotomy k (256 * r + n) with hlt | rfl | hgt
    · rw [if_neg (by omega)]
      exact if_congr (by omega) rfl rfl
    · rw [if_pos rfl, if_pos (by omega), Nat.add_sub_cancel_left]
    · rw [if_neg (by omega), if_neg (by omega), if_neg (by omega)]

/-- A write of a quad of a mask register, which a write to VM0 is not. -/
theorem Station.mask_setMask_quad (x : Station) {n : Nat} (hn : n ≠ 0) (r : Nat) (g : Nat → Bool) {k : Nat} (hk : k < 1024) :
    (x.setMask n ((List.range 256).map (fun q => (256 * r + q, g q)))).mask n k = if k / 256 = r then g (k % 256) else x.mask n k := by
  simp only [Station.mask, Station.setMask, if_neg hn, Tbl.get_put_self, getLsbD_foldl_maskBit g r _ 256 hk]
  by_cases h : k / 256 = r
  · have hcol : k - 256 * r = k % 256 := by omega
    rw [if_pos h, if_pos (by omega), hcol]
  · rw [if_neg h, if_neg (by omega)]

/-- Elements that a write does not name stand. -/
theorem Tile.el_setEls_ne {k : Nat} (vs : List (Nat × Word)) (h : ∀ p ∈ vs, p.1 ≠ k) (t : Tile) : (t.setEls vs).el k = t.el k := by
  rcases Nat.lt_or_ge k t.length with hk | hk
  · exact Tile.el_setEls_apart vs (fun ⟨p, hp, hpk⟩ => h p hp hpk) t hk
  · rw [Tile.el, Tile.el, List.getD_eq_default _ _ hk, List.getD_eq_default _ _ (by rwa [Tile.length_setEls])]

/-- Elements that land in a tile register leave its other elements, and the other registers, alone. -/
theorem State.land_els_frame (s : State) (n : Stn) (r k : Nat) (vs : List (Nat × Word)) :
    let y := (s.land n (.els r vs)).station n
    ((∀ p ∈ vs, p.1 ≠ k) → (y.tile r).el k = ((s.station n).tile r).el k) ∧ (r ≠ k → y.tile k = (s.station n).tile k) := by
  intro y
  have hy : y = (s.station n).setTile r (((s.station n).tile r).setEls vs) := s.station_land_els n r vs
  rw [hy, Station.tile_setTile, Station.tile_setTile, if_pos rfl]
  exact ⟨fun h => Tile.el_setEls_ne vs h _, fun h => if_neg h⟩

/-- Settles O21: each op as it sets out, its writes from what its passes have read, and what those writes leave. -/
theorem compareSelectCompressExpand : Obligations.CompareSelectCompressExpand := by
  unfold Obligations.CompareSelectCompressExpand
  refine ⟨?_, ?_, ?_, State.land_els_frame⟩
  · intro s i o t h hb x does
    exact ⟨⟨_, rfl, State.vEff_sets_out h hb o _⟩, ⟨_, rfl, State.vEff_sets_out h hb o _⟩, ⟨_, rfl, State.vEff_sets_out h hb o _⟩,
      ⟨_, rfl, State.vEff_sets_out h hb o _⟩, rfl⟩
  · intro f xs r hr ha hb hc hm a b m seen
    refine ⟨fun pred hk => ?_, fun hk => ?_, ?_⟩
    · have hwrites := VFlight.cmp_writes xs ha hb hc hm hk hr
      rw [VFlight.writeAt, hk] at hwrites
      exact hwrites
    · have hwrites := VFlight.sel_writes xs ha hb hc hm hk hr
      rw [VFlight.writeAt, hk] at hwrites
      exact hwrites
    · intro w sel n packs
      refine ⟨fun hk => ?_, fun hk => ?_⟩
      · have hkind : (f.readTill xs 8).kind = .compress := hk
        have hwrites := VFlight.captured_once xs ha hb hc hm (by simp [VFlight.byQuad, hk])
        rw [VFlight.writeAt, hk] at hwrites
        simp only [VFlight.parts, hkind, VFlight.readTill_packWrites] at hwrites
        exact ⟨_, hwrites, VFlight.readTill_compressed xs⟩
      · have hkind : (f.readTill xs 8).kind = .expand := hk
        have hwrites := VFlight.captured_once xs ha hb hc hm (by simp [VFlight.byQuad, hk])
        rw [VFlight.writeAt, hk] at hwrites
        simp only [VFlight.parts, hkind, VFlight.readTill_packWrites] at hwrites
        exact ⟨_, hwrites, VFlight.readTill_expanded xs⟩
  · intro x n r k g hk _ y
    refine ⟨(x.setMask_beside n _).tiles, fun hn => ?_, fun hn => x.mask_setMask_quad hn r g hk⟩
    subst hn
    exact ⟨rfl, rfl⟩

end Sys2Proof.Machine
end

section
/-! ## VRED.ROW, VRED.COL and VNRM2 (O22) -/

namespace Sys2Proof.Machine

/-! ### What a reduction writes (R141 to R143) -/

section
variable (f : VFlight) (xs : Nat → Station)

/-- What lane `k` contributes to a reduction: its element, or the identity where masked. -/
def VFlight.redIn (rop k : Nat) : Res := (if f.inM xs k then (f.inA xs k).toNat else redIdent rop, Flg.none)

/-- The element that a VNRM2 squares: of `SA`, or the sum of a pair in W48 (R143). -/
def VFlight.normIn (pair : Bool) (k : Nat) : FV :=
  if pair then v48 (w48.encode (FV.add (v32 (f.inA xs k)) (v32 (f.inB xs k)))) else v32 (f.inA xs k)

/-- The square of lane `k` in W48, +0 where masked. -/
def VFlight.sqIn (pair : Bool) (k : Nat) : Res :=
  if f.inM xs k then w48.arith ((v32 (f.inA xs k)).isNan || (pair && (v32 (f.inB xs k)).isNan)) (FV.mul (f.normIn xs pair k) (f.normIn xs pair k))
  else (0, Flg.none)

variable {f} {k : Nat}

theorem VFlight.readTill_redLane (hk : k < 1024) (rop : Nat) : (f.readTill xs 8).redLane rop k = f.redIn xs rop k := by
  have hlane : k < 256 * min 8 4 := hk
  rw [VFlight.redLane, VFlight.la, VFlight.readTill_inM xs hlane, VFlight.readTill_inA xs hlane]
  rfl

theorem VFlight.readTill_redRow (rop : Nat) {i : Nat} (hi : i < 16) :
    (f.readTill xs 8).redRow rop i = treeOf (redNode rop) 6 ((List.range 64).map (fun j => f.redIn xs rop (64 * i + j))) :=
  congrArg (treeOf (redNode rop) 6) (List.map_congr_left fun j hj => VFlight.readTill_redLane xs (by have := List.mem_range.1 hj; omega) rop)

theorem VFlight.readTill_redCol (rop : Nat) {j : Nat} (hj : j < 64) :
    (f.readTill xs 8).redCol rop j = treeOf (redNode rop) 4 ((List.range 16).map (fun i => f.redIn xs rop (64 * i + j))) :=
  congrArg (treeOf (redNode rop) 4) (List.map_congr_left fun i hi => VFlight.readTill_redLane xs (by have := List.mem_range.1 hi; omega) rop)

theorem VFlight.readTill_sqLane (hcol : f.column = false) (hk : k < 1024) (pair : Bool) : (f.readTill xs 8).sqLane pair k = f.sqIn xs pair k := by
  have hlane : k < 256 * min 8 4 := hk
  rw [VFlight.sqLane, VFlight.readTill_inM xs hlane, VFlight.readTill_inA xs hlane, VFlight.readTill_inB xs hlane hcol]
  cases pair <;> rfl

theorem VFlight.readTill_sqRow (hcol : f.column = false) (pair : Bool) {i : Nat} (hi : i < 16) :
    (f.readTill xs 8).sqRow pair i = treeOf addW48Res 6 ((List.range 64).map (fun j => f.sqIn xs pair (64 * i + j))) :=
  congrArg (treeOf addW48Res 6) (List.map_congr_left fun j hj => VFlight.readTill_sqLane xs hcol (by have := List.mem_range.1 hj; omega) pair)

variable (ha : f.a = []) (hb : f.b = []) (hc : f.c = []) (hm : f.m = [])
include ha hb hc hm

/-- Four rows of a VRED.ROW, into column 0. -/
theorem VFlight.redRow_writes {rop : Nat} (hk : f.kind = .redRow rop) {r : Nat} (hr : r < 4) :
    let row := fun i => treeOf (redNode rop) 6 ((List.range 64).map (fun j => f.redIn xs rop (64 * i + j)))
    ((f.captured xs (f.writeAt + r + 1)).writes (f.t + (f.writeAt + r))).map (·.wr) =
      [.els f.dst ((List.range 4).map (fun i => (64 * (4 * r + i), BitVec.ofNat 32 (row (4 * r + i)).1))),
        .flags f.src.strm (orFlags ((List.range 4).map (fun i => row (4 * r + i)))).code] := by
  intro row
  have hlate : 7 ≤ f.writeAt := by
    simp only [VFlight.writeAt, hk]
    split <;> omega
  have hparts : (f.readTill xs 8).parts r = (f.readTill xs 8).redRowWrites rop r := by
    have hkind : (f.readTill xs 8).kind = .redRow rop := hk
    simp only [VFlight.parts, hkind]
  have hrows : (List.range 4).map (fun i => (f.readTill xs 8).redRow rop (4 * r + i)) = (List.range 4).map (fun i => row (4 * r + i)) :=
    List.map_congr_left fun i hi => VFlight.readTill_redRow xs rop (by have := List.mem_range.1 hi; omega)
  have hels : ∀ i ∈ List.range 4, (64 * (4 * r + i), BitVec.ofNat 32
      (((List.range 4).map (fun i => row (4 * r + i))).getD i (0, Flg.none)).1) = (64 * (4 * r + i), BitVec.ofNat 32 (row (4 * r + i)).1) :=
    fun i hi => by rw [getD_map_range _ _ (List.mem_range.1 hi)]
  rw [VFlight.captured_quad xs ha hb hc hm (by simp [hk]) (by simp [VFlight.byQuad, hk]) hr, f.readTill_all xs (by omega), hparts,
    VFlight.redRowWrites, hrows]
  rw [List.map_congr_left hels]
  rfl

/-- The columns of a VRED.COL, into row 0. -/
theorem VFlight.redCol_writes {rop : Nat} (hk : f.kind = .redCol rop) :
    let col := fun j => treeOf (redNode rop) 4 ((List.range 16).map (fun i => f.redIn xs rop (64 * i + j)))
    ((f.captured xs (f.writeAt + 1)).writes (f.t + f.writeAt)).map (·.wr) =
      [.els f.dst ((List.range 64).map (fun j => (j, BitVec.ofNat 32 (col j).1))), .flags f.src.strm (orFlags ((List.range 64).map col)).code] := by
  intro col
  have hparts : (f.readTill xs 8).parts 0 = (f.readTill xs 8).redColWrites rop := by
    have hkind : (f.readTill xs 8).kind = .redCol rop := hk
    simp only [VFlight.parts, hkind]
  have hcols : (List.range 64).map ((f.readTill xs 8).redCol rop) = (List.range 64).map col :=
    List.map_congr_left fun j hj => VFlight.readTill_redCol xs rop (List.mem_range.1 hj)
  rw [VFlight.captured_once xs ha hb hc hm (by simp [VFlight.byQuad, hk]), hparts, VFlight.redColWrites, hcols]
  simp only [rowEls_map, Nat.mul_zero, Nat.zero_add]
  rfl

/-- The row sums of a VNRM2, on their way into NACC. -/
theorem VFlight.nrm2_writes {pair clr : Bool} (hk : f.kind = .nrm2 pair clr) :
    let rs := (List.range 16).map (fun i => treeOf addW48Res 6 ((List.range 64).map (fun j => f.sqIn xs pair (64 * i + j))))
    ((f.captured xs (f.writeAt + 1)).writes (f.t + f.writeAt)).map (·.wr) =
      [.naccAdd f.src.strm clr (rs.map (·.1)), .flags f.src.strm (orFlags rs).code] := by
  intro rs
  have hparts : (f.readTill xs 8).parts 0 = (f.readTill xs 8).nrm2Writes pair clr := by
    have hkind : (f.readTill xs 8).kind = .nrm2 pair clr := hk
    simp only [VFlight.parts, hkind]
  have hrows : (List.range 16).map ((f.readTill xs 8).sqRow pair) = rs :=
    List.map_congr_left fun i hi => VFlight.readTill_sqRow xs (by simp [VFlight.column, hk]) pair (List.mem_range.1 hi)
  rw [VFlight.captured_once xs ha hb hc hm (by simp [VFlight.byQuad, hk]), hparts, VFlight.nrm2Writes, hrows]
  rfl

end

/-! ### What lands in NACC (R143, R152) -/

theorem Flg.code_lt (c : Flg) : c.code < 32 := by
  obtain ⟨inv, dz, ovf, unf, cpx⟩ := c
  revert inv dz ovf unf cpx
  decide

/-- Sticky flags are added to those of the stream. -/
theorem State.reg_setFlags (s : State) (n : Nat) (m : Strm) (c : Flg) :
    (s.setFlags n m c.code).reg .vecFlags n = s.reg .vecFlags n ||| c.code * 2 ^ flagBase m := by
  have hbase : flagBase m ≤ 16 := by cases m <;> decide
  have hcode : c.code * 2 ^ flagBase m < 2 ^ 32 := by
    calc c.code * 2 ^ flagBase m ≤ 31 * 2 ^ 16 :=
          Nat.mul_le_mul (Nat.le_of_lt_succ c.code_lt) (Nat.pow_le_pow_right (by decide) hbase)
      _ < 2 ^ 32 := by decide
  have hreg : s.reg .vecFlags n < 2 ^ 32 := BitVec.isLt _
  rw [State.setFlags, State.reg_setReg, Nat.mod_eq_of_lt (Nat.or_lt_two_pow hreg hcode)]

/-- Row sums that land in NACC: the sum, its flags, and nothing else of the tiles and scalar registers. -/
theorem State.land_naccAdd (s : State) (n : Stn) (m : Strm) (clr : Bool) (rows : List Nat) :
    let r := naccSum clr (s.stream n m).nacc.toNat rows
    let u := s.land n (.naccAdd m clr rows)
    (u.stream n m).nacc = BitVec.ofNat 48 r.1 ∧ u.reg .vecFlags n = s.reg .vecFlags n ||| r.2.code * 2 ^ flagBase m ∧
      (u.station n).tiles = (s.station n).tiles ∧ (u.stream n m).s = (s.stream n m).s := by
  intro r u
  have hstn : u.station n = (s.station n).modStream m (fun y => { y with nacc := BitVec.ofNat 48 r.1 }) :=
    s.station_modStation_self n (fun x => x.modStream m _)
  have hstream : u.stream n m = { s.stream n m with nacc := BitVec.ofNat 48 r.1 } := by
    rw [State.stream, hstn, Station.modStream, Station.stream_setStream]
    rfl
  rw [hstream, hstn, Station.tiles_modStream]
  exact ⟨rfl, State.reg_setFlags _ _ _ _, rfl, rfl⟩

/-- Settles O22: each op as it sets out, its writes from what its passes have read, and what those writes leave. -/
theorem reductionsAndNorms : Obligations.ReductionsAndNorms := by
  unfold Obligations.ReductionsAndNorms
  refine ⟨?_, ?_, State.land_naccAdd, State.land_els_frame⟩
  · intro s i o t h hb x does
    exact ⟨⟨_, rfl, State.vEff_sets_out h hb o _⟩, ⟨_, rfl, State.vEff_sets_out h hb o _⟩, ⟨_, rfl, State.vEff_sets_out h hb o _⟩⟩
  · intro f xs ha hb hc hm a b m seen lane row col
    refine ⟨fun rop r hk hr => ?_, fun rop hk => ?_, fun pair clr hk => ?_⟩
    · have hwrites := VFlight.redRow_writes xs ha hb hc hm hk hr
      rw [VFlight.writeAt, hk] at hwrites
      exact hwrites
    · have hwrites := VFlight.redCol_writes xs ha hb hc hm hk
      rw [VFlight.writeAt, hk] at hwrites
      exact hwrites
    · have hwrites := VFlight.nrm2_writes xs ha hb hc hm hk
      rw [VFlight.writeAt, hk] at hwrites
      exact hwrites

end Sys2Proof.Machine
end

section
/-! ## Words that do not issue (O6, O7) -/

namespace Sys2Proof.Machine

/-! ### The op of a slot comes after its word (R158, R160) -/

/-- The command of a slot issues its word and then its op. What ECC found is not the word's: an XPUT meets an error of its source on the
landing port (R257). An op that meets the passing word waits for the feed point in front of its position (R106). -/
theorem exec_of_slot {c : Instr} {i : Issue} {sl : Slot} (h : slotOf c = some (i, sl)) :
    (∃ e eff, ∀ s, exec c s = .next (s.issue { i with ecc := e } sl eff)) ∨ (sl = .g ∧ ∃ eff, ∀ s, exec c s = .next (s.issueRing i eff)) := by
  cases c <;> cases h
  case gtap => exact .inr ⟨rfl, _, fun _ => rfl⟩
  case gej => exact .inr ⟨rfl, _, fun _ => rfl⟩
  case gpass => exact .inr ⟨rfl, _, fun _ => rfl⟩
  all_goals exact .inl ⟨_, _, fun _ => rfl⟩

/-! ### Stations that are not live (R164, R209, R221) -/

/-- A station that does not run, stands still, waits for its schedule or has a boundary to pass first issues nothing. -/
theorem State.issueTick_none {s : State} {n : Nat} (h : (s.running n = false ∨ s.halted (regionOf n) = true ∨ s.tickOf n = none) ∨
    ∃ t, s.tickOf n = some t ∧ (s.station n).boundaryDue t = true) : s.issueTick n = none := by
  unfold State.issueTick State.liveTick
  rcases h with (hrun | hhalt | htick) | ⟨t, htick, hdue⟩
  · simp [hrun]
  · simp [hhalt]
  · simp [htick]
  · by_cases hlive : (s.running n && !s.halted (regionOf n)) = true
    · simp only [if_pos hlive, htick, if_pos hdue]
    · simp only [if_neg hlive]

section
variable {s : State} {n : Nat} (h : s.issueTick n = none)
include h

theorem State.brkTick_none (hbrk : (s.station n).run ≠ .brk) : s.brkTick n = none := by
  unfold State.brkTick
  rw [h]
  split
  · next hsome => cases hsome
  · split
    · exact if_neg (fun hand => hbrk hand.1)
    · rfl

theorem State.romRun_dead (m : Strm) (id : Nat) (waits : RomSt → List Nat) (eff : RomSt → State → State) : s.romRun n m id waits eff = s := by
  rw [State.romRun, h]

theorem State.waitResume_dead (m : Strm) : s.waitResume n m = s := by
  rw [State.waitResume, h]

end

section
variable {s : State} {i : Issue} (h : s.issueTick i.stn = none)
include h

theorem exec_slot_dead {c : Instr} {sl : Slot} (hc : slotOf c = some (i, sl)) : exec c s = .next s := by
  rcases exec_of_slot hc with ⟨e, eff, hexec⟩ | ⟨-, eff, hexec⟩
  · rw [hexec, State.issue_dead s { i with ecc := e } sl eff h]
  · rw [hexec, State.issueRing, s.issue_dead i .g eff h, ite_self]

theorem execWaitWord_dead : exec (.waitWord i) s = .next s := by
  rw [exec, execWaitWord, h]

theorem execBreakHit_dead (hbrk : (s.station i.stn).run ≠ .brk) (ahead : Nat) :
    exec (.breakHit i ahead) s = .next s := by
  rw [exec, execBreakHit, State.brkTick_none h hbrk]

end

/-- Settles O6: none of these commands finds a tick on which the station may issue. -/
theorem stationThatIsNotLiveIssuesNothing : Obligations.StationThatIsNotLiveIssuesNothing := by
  unfold Obligations.StationThatIsNotLiveIssuesNothing
  intro s i dead h
  have hnone : s.issueTick i.stn = none := State.issueTick_none h
  refine ⟨fun c sl hc => exec_slot_dead hnone hc, execWaitWord_dead hnone, congrArg Host.Outcome.next (State.waitResume_dead hnone i.strm),
    fun hbrk ahead => execBreakHit_dead hnone hbrk ahead, fun w id c hc => ?_⟩
  obtain ⟨waits, eff, hexec⟩ := exec_romCmd hc s
  rw [hexec, State.romRun_dead hnone]

/-! ### Words that fail their checks (R158, R161, R179, R228) -/

/-- A failing word's stream: it may go on from the next tick, and stands where it stood. -/
def StreamSt.failed (y : StreamSt) (h : BitVec 16) (t : Nat) : StreamSt :=
  { y with next := t + 1, word := some ⟨t, h, false, [], y.pc, y.inRtn⟩ }

/-- Codes, causes and slots fit their fields. -/
theorem State.wordFails_lt {s : State} {i : Issue} {t code cause slot : Nat} (h : s.wordFails i t = some (code, cause, slot)) :
    code < 16 ∧ cause < 16 ∧ slot < 8 := by
  have hslot : ∀ sl : Slot, sl.idx < 8 := fun sl => by cases sl <;> decide
  unfold State.wordFails at h
  split at h
  · cases h
    decide
  · split at h
    · cases h
      decide
    · split at h
      · cases h
        exact ⟨by decide, by decide, hslot _⟩
      · split at h
        · split at h
          · cases h
          · cases h
            decide
        · cases h

theorem seqWord_lt {code cause slot : Nat} (h : code < 16 ∧ cause < 16 ∧ slot < 8) (p : OpPlace) : seqWord code cause slot p < 2 ^ 32 := by
  have hstrm : p.strm.code < 4 := by cases p.strm <;> decide
  have hbank : b2n p.bank < 2 := by cases p.bank <;> decide
  have hrtn : b2n p.rtn < 2 := by cases p.rtn <;> decide
  obtain ⟨hcode, hcause, hslot⟩ := h
  unfold seqWord
  omega

/-- While VALID stands, a fault is not captured. -/
theorem State.reg_seqFault_held (s : State) {n : Stn} (h : s.bit .stnSeqFault n 31 = true) (code cause slot : Nat) (p : OpPlace) :
    (s.seqFault n code cause slot p).reg .stnSeqFault n = s.reg .stnSeqFault n := by
  obtain ⟨-, hkept⟩ := State.fault_at (s := s) (c := s) (n := n) (rs := []) rfl (.of_regs rfl) (by simp) p code
  rw [State.seqFault, State.captureSeq, if_pos h]
  exact hkept .stnSeqFault (by decide) n n.isLt

/-- From `s` to `u`, the word of a command has been suppressed on tick `t`: its stream stands, its station stops, and the first fault of the
station is captured. -/
structure State.WordSuppressed (s u : State) (i : Issue) (t code cause slot : Nat) : Prop where
  station : u.station i.stn = ((s.station i.stn).modStream i.strm (·.failed i.hdr t)).stopsBy (t + 1)
  others : ∀ j, j ≠ i.stn.val → u.station j = s.station j
  first : s.bit .stnSeqFault i.stn 31 = false →
    u.reg .stnSeqFault i.stn = seqWord code cause slot ((s.stream i.stn i.strm).place i.strm t) % 2 ^ 32
  later : s.bit .stnSeqFault i.stn 31 = true → u.reg .stnSeqFault i.stn = s.reg .stnSeqFault i.stn

theorem State.suppress_spec {s : State} {i : Issue} {t : Nat} (ht : s.tickOf i.stn = some t) (code cause slot : Nat) :
    s.WordSuppressed (s.suppress i t code cause slot) i t code cause slot := by
  let p := (s.stream i.stn i.strm).place i.strm t
  let v := (s.modStream i.stn i.strm (·.failed i.hdr t)).traceWord i.stn i.hdr p true
  have hv : v = { s.modStream i.stn i.strm (·.failed i.hdr t) with dies := v.dies } := State.traceWord_eq _ _ _ _ _
  have hregs : v.regs = s.regs := by rw [hv]; rfl
  have htick : v.tickOf i.stn = some p.tick := by
    rw [← show s.tickOf i.stn = some p.tick from ht]
    refine State.tickOf_congr (.of_regs (rs := []) hregs) (by simp) ?_ ?_ ?_ i.stn <;> rw [hv] <;> rfl
  have hstn (j : Nat) : v.station j = if i.stn.val = j then (s.station i.stn).modStream i.strm (·.failed i.hdr t) else s.station j := by
    rw [hv]
    exact s.station_modStream i.stn j i.strm _
  have hreg : v.reg .stnSeqFault i.stn = s.reg .stnSeqFault i.stn := State.reg_congr hregs _ _
  have hbit : v.bit .stnSeqFault i.stn 31 = s.bit .stnSeqFault i.stn 31 := congrArg (bitOf · 31) hreg
  obtain ⟨hstops, -, hfirst⟩ := v.seqFault_stops htick code cause slot
  refine ⟨?_, fun j hj => ?_, fun hvalid => hfirst (hbit.trans hvalid), fun hvalid => ?_⟩
  · exact hstops.station.trans (congrArg (Station.stopsBy · (t + 1)) ((hstn i.stn).trans (if_pos rfl)))
  · exact (hstops.others j hj).trans ((hstn j).trans (if_neg (Ne.symm hj)))
  · exact (v.reg_seqFault_held (hbit.trans hvalid) code cause slot p).trans hreg

theorem State.WordSuppressed.slotOpen {s u : State} {i : Issue} {t code cause slot : Nat} (h : s.WordSuppressed u i t code cause slot) (sl : Slot) :
    u.slotOpen i sl t = none := by
  have hword : (u.stream i.stn i.strm).word = some ⟨t, i.hdr, false, [], (s.stream i.stn i.strm).pc, (s.stream i.stn i.strm).inRtn⟩ := by
    rw [State.stream, h.station]
    cases i.strm <;> rfl
  simp [State.slotOpen, hword]

/-- The word of a slot's command fails its checks: the slot's op does not act. -/
theorem State.issue_fails {s : State} {i : Issue} {sl : Slot} {t code cause slot : Nat} (ht : s.issueTick i.stn = some t)
    (hsl : sl ∈ hdrSlots i.hdr) (hopens : s.wordOpens i t = true) (hfails : s.wordFails i t = some (code, cause, slot))
    (eff : OpPlace → State → State) : s.issue i sl eff = s.suppress i t code cause slot := by
  have hopen : s.openWord i t = s.suppress i t code cause slot := by
    rw [State.openWord, if_pos hopens, State.newWord, hfails]
  have hclosed : (s.suppress i t code cause slot).slotOpen i sl t = none :=
    (State.suppress_spec (State.tickOf_of_issueTick ht) code cause slot).slotOpen sl
  simp only [State.issue, ht, if_pos hsl, hopen, hclosed]

/-- Settles O7: the slot's command suppresses its word, whatever its op. -/
theorem failingWordIsSuppressed : Obligations.FailingWordIsSuppressed := by
  unfold Obligations.FailingWordIsSuppressed
  intro s c i sl t code cause slot hc ht hsl hring hsame hready hbrk hfails
  have hopens : s.wordOpens i t = true := by
    rcases hbrk with h | h <;> simp [State.wordOpens, hsame, hready, h]
  obtain ⟨hstn, hothers, hfirst, hlater⟩ := State.suppress_spec (State.tickOf_of_issueTick ht) code cause slot
  have hexec : exec c s = .next (s.suppress i t code cause slot) := by
    rcases exec_of_slot hc with ⟨e, eff, hexec⟩ | ⟨rfl, eff, hexec⟩
    · rw [hexec]
      exact congrArg Host.Outcome.next (State.issue_fails (i := { i with ecc := e }) ht hsl hopens hfails eff)
    · rw [hexec, State.issueRing_free (hring rfl), State.issue_fails ht hsl hopens hfails]
  refine ⟨_, hexec, hstn.trans ?_, hothers, fun hvalid => (hfirst hvalid).trans ?_, hlater⟩
  · cases i.strm <;> rfl
  · exact Nat.mod_eq_of_lt (seqWord_lt (State.wordFails_lt hfails) _)

end Sys2Proof.Machine
end

section
/-! ## CALL (O9) -/

namespace Sys2Proof.Machine

/-! ### An op that changes its own stream (R163, R168, R170) -/

/-- An op of a slot that acts, where it changes nothing but its stream. -/
theorem State.issue_modStream {s : State} {i : Issue} {sl : Slot} {t : Nat} (h : s.opens i sl t = true) {eff : OpPlace → State → State}
    {f : StreamSt → StreamSt} (he : ∀ v : State, s.WordFrame v i [] → eff (s.placeOf i t) v = v.modStream i.stn i.strm f) :
    s.WordFrame (s.issue i sl eff) i [] ∧ (s.issue i sl eff).station i.stn = ((s.station i.stn).opened i sl t).modStream i.strm f := by
  obtain ⟨v, hv, hst, hw⟩ := s.issue_opens i sl t eff h
  rw [hv, he v hw]
  refine ⟨hw.trans (.modStation v i [] _), ?_⟩
  rw [State.station_modStream, if_pos rfl, hst]

/-! ### The routine is entered (R170 to R172) -/

/-- The routine tables read as before a word issued. -/
theorem State.WordFrame.rtn {s v : State} {i : Issue} (hw : s.WordFrame v i []) (d id : Nat) : v.rtn d id = s.rtn d id := by
  have hram : (v.die d).rram = (s.die d).rram := by
    rw [← hw.dies d]
  rw [State.rtn, hram, State.rtn]

theorem execCall_enters {s : State} {i : Issue} {t : Nat} (h : s.opens i .c t = true) (id : BitVec 10) :
    ∃ u, exec (.call i id) s = .next u ∧ s.WordFrame u i [] ∧ u.station i.stn =
      ((s.station i.stn).opened i .c t).modStream i.strm (·.enter id.toNat (s.rtn (dieOf i.stn) id.toNat) t) := by
  obtain ⟨hframe, hstn⟩ := State.issue_modStream h
    (eff := fun p v => v.modStream i.stn i.strm (·.enter id.toNat (v.rtn (dieOf i.stn) id.toNat) p.tick))
    (f := (·.enter id.toNat (s.rtn (dieOf i.stn) id.toNat) t))
    (fun v hw => by simp only [hw.rtn, State.placeOf_tick])
  exact ⟨_, rfl, hframe, hstn⟩

/-! ### The routine is not there (R178, R240) -/

/-- An entry does not cover a profile where it is not valid or names another. -/
theorem Rtn.covers_eq_false (r : Rtn) (id prof : Nat) : r.covers (decide (id < 256)) prof = false ↔
    r.valid = false ∨ (if id < 256 then r.profile.testBit (prof - 1) = false else r.profile ≠ prof) := by
  rw [Rtn.covers, Bool.and_eq_false_iff]
  by_cases hrom : id < 256 <;> simp [hrom]

/-- A word with a CALL that passes its other checks fails by its routine alone. -/
theorem State.wordFails_call {s : State} {i : Issue} {id t : Nat} (hcall : i.callId = some id) (henc : i.encOk = true)
    (hschk : hdrSchk i.hdr = 0 ∨ hdrSchk i.hdr = i.strm.code) (hown : s.unowned i.stn i.strm i.hdr t = none) :
    s.wordFails i t = if s.callOk (dieOf i.stn) id then none else some (9, 10, 5) := by
  have hstream : ¬ (hdrSchk i.hdr ≠ 0 ∧ hdrSchk i.hdr ≠ i.strm.code) := by omega
  simp only [State.wordFails, if_neg hstream, henc, hown, hcall, Bool.not_true, Bool.false_eq_true, if_false]

/-- Settles O9: the op of a word that issues, and the check of one that does not. -/
theorem callEntersOrFaults : Obligations.CallEntersOrFaults := by
  unfold Obligations.CallEntersOrFaults
  refine ⟨fun s i id t h => execCall_enters h id, fun s i id t hcall henc hschk hown => ?_⟩
  rw [State.wordFails_call hcall henc hschk hown, ← Rtn.covers_eq_false, ← State.callOk]
  cases s.callOk (dieOf i.stn) id <;> simp

end Sys2Proof.Machine
end

section
/-! ## A WAIT word that its read loses (O8) -/

namespace Sys2Proof.Machine

/-- A WAIT word whose read from the instruction memory meets an uncorrectable error stops its station and does not issue (R256). -/
theorem execWaitWord_bad {s : State} {i : Issue} {t : Nat} {mem : BitVec 3} {addr : BitVec 16} (ht : s.issueTick i.stn = some t)
    (hslots : hdrSlots i.hdr = []) (hopens : s.wordOpens i t = true) (hecc : i.ecc = .bad mem addr) :
    exec (.waitWord i) s = .next (s.memFault i.stn mem.toNat addr.toNat) := by
  simp only [exec, execWaitWord, ht, hslots, hopens, hecc, List.isEmpty_nil, Bool.and_self, if_true, State.withEcc]

/-- A WAIT word of 256 ticks whose read meets such an error. -/
def lostWait : Issue := ⟨0, .F, 0x00FF, [], .bad 0 0⟩

/-- Station 0 runs, on its schedule tick 0. -/
def firstTick : State := { State.reset with stations := [(0, { Station.reset with run := .running })] }

theorem lostWait_meets : firstTick.issueTick lostWait.stn = some 0 ∧ hdrSlots lostWait.hdr = [] ∧
    (firstTick.stream lostWait.stn lostWait.strm).sameWord lostWait.hdr 0 = false ∧ firstTick.ready lostWait.stn lostWait.strm 0 = true ∧
    firstTick.brkHits lostWait.stn lostWait.strm lostWait.hdr = false ∧ firstTick.wordFails lostWait 0 = none ∧
    firstTick.wordOpens lostWait 0 = true := by decide

/-- The stream has not moved. -/
theorem lostWait_next : ((firstTick.memFault 0 0 0).stream 0 .F).next = 0 := by decide +kernel

/-- Refutes O8: its clause on WAIT words says nothing of ECC, and a WAIT word lost to an uncorrectable error does not occupy its stream. -/
theorem not_sequencingOpsAndWaitWords : ¬ Obligations.SequencingOpsAndWaitWords := by
  unfold Obligations.SequencingOpsAndWaitWords
  rintro ⟨-, hwaits⟩
  obtain ⟨ht, hslots, hsame, hready, hbrk, hpass, hopens⟩ := lostWait_meets
  obtain ⟨u, hu, -, hnext, -⟩ := hwaits firstTick lostWait 0 ht hslots hsame hready hbrk hpass
  rw [execWaitWord_bad ht hslots hopens rfl] at hu
  have hstands : (u.stream 0 .F).next = 0 := Host.Outcome.next.inj hu ▸ lostWait_next
  have hoccupied : (u.stream 0 .F).next = 256 := hnext
  omega

end Sys2Proof.Machine
end

section
/-! ## Waits and breaks (O11) -/

namespace Sys2Proof.Machine

/-! ### The end of a wait (R163) -/

theorem WaitSt.ends_of_seen {w : WaitSt} {u v : Nat} (hseen : w.seen = some v) (hv : v < u) (hat : w.at_ + 1 ≤ u)
    (hframe : (u - (w.at_ + 1)) % 64 = 0) : w.ends u = true := by
  simp [WaitSt.ends, hseen, hv, hat, hframe]

theorem State.waitResume_ends {s : State} {n u : Nat} {m : Strm} {w : WaitSt} (hu : s.issueTick n = some u)
    (hw : (s.stream n m).wait = some w) (he : w.ends u = true) :
    s.waitResume n m = s.modStream n m (fun y => { y with wait := none, next := u }) := by
  simp only [State.waitResume, hu, hw, he, if_true]

/-! ### A break stops its station or asks for a freeze (R180, R181, R225) -/

/-- A break is found at the word that a stream is to issue `ahead` ticks from tick `t`. -/
def State.brkFound (s : State) (i : Issue) (ahead t : Nat) : Bool :=
  if ahead = 0 then s.brkHits i.stn i.strm i.hdr && s.wordDue i.stn i.strm i.hdr t else s.brkAhead i.stn i.strm i.hdr ahead t

theorem State.brkFound_iff (s : State) (i : Issue) (ahead t : Nat) : s.brkFound i ahead t = true ↔
    if ahead = 0 then s.brkHits i.stn i.strm i.hdr = true ∧ s.wordDue i.stn i.strm i.hdr t = true
    else s.brkAhead i.stn i.strm i.hdr ahead t = true := by
  unfold State.brkFound
  split
  · exact Bool.and_eq_true_iff
  · exact Iff.rfl

theorem lt_count_brkReg (n : Stn) (m : Strm) : n.val < (brkReg m).info.count := by
  cases m <;> exact n.isLt

theorem brkReg_inj {m k : Strm} : brkReg m = brkReg k → m = k := by
  cases m <;> cases k <;> decide

theorem State.reg_setHit (s : State) (n : Nat) (m : Strm) : (s.setHit n m).reg (brkReg m) n = s.reg (brkReg m) n ||| 2 ^ 31 := by
  have hreg : s.reg (brkReg m) n < 2 ^ 32 := BitVec.isLt _
  rw [State.setHit, State.reg_setReg, Nat.mod_eq_of_lt (Nat.or_lt_two_pow hreg (by decide))]

theorem brkDies_nodup (scope d : Nat) : (brkDies scope d).Nodup := by
  unfold brkDies
  split
  · decide
  · exact List.nodup_singleton d

theorem State.timedOn_frame (s : State) (l : List Nat) (bit tgt : Nat) : (s.timedOn l bit tgt).stations = s.stations ∧
    (s.timedOn l bit tgt).regs = s.regs :=
  ⟨foldl_keeps State.stations (f := fun t x => t.modDie x _) (fun _ _ => rfl) l s,
    foldl_keeps State.regs (f := fun t x => t.modDie x _) (fun _ _ => rfl) l s⟩

/-- A request for a timed freeze changes the dies of a list, and no more of them than their timed requests. -/
theorem State.die_timedOn (s : State) {l : List Nat} (hl : l.Nodup) (bit tgt d : Nat) : (s.timedOn l bit tgt).die d =
    if d ∈ l then { s.die d with timed := (s.die d).timed ++ [(bit, tgt)] } else s.die d := by
  unfold State.timedOn
  induction l generalizing s with
  | nil => simp
  | cons a l ih =>
    obtain ⟨ha, hl⟩ := List.nodup_cons.1 hl
    rw [List.foldl_cons, ih _ hl, State.die_modDie]
    by_cases had : a = d
    · subst had
      simp [ha]
    · simp [had, Ne.symm had]

section
variable {s : State} {i : Issue} {ahead t : Nat} (ht : s.brkTick i.stn = some t) (hskip : (s.stream i.stn i.strm).skip = none)
  (hfound : s.brkFound i ahead t = true)
include ht hskip hfound

theorem execBreakHit_found : exec (.breakHit i ahead) s = .next (
    if s.brkScope i.stn i.strm = 0 then
      (if ahead = 0 then ((s.modStream i.stn i.strm (fun z => { z with skip := some t })).stopStation i.stn .brk).setHit i.stn i.strm else s)
    else if ahead ≤ brkHorizon (s.brkScope i.stn i.strm) then
      (s.modStream i.stn i.strm (fun z => { z with skip := some (t + ahead) })).timedOn (brkDies (s.brkScope i.stn i.strm) (dieOf i.stn)) 9
        (s.tickLen (regionOf i.stn) * (s.ref (regionOf i.stn) + ahead))
    else s) := by
  unfold State.brkFound at hfound
  simp only [exec, execBreakHit, ht, State.breakAt, hfound, hskip, Option.isSome_none, Bool.not_true, Bool.or_self, Bool.false_eq_true, if_false]

/-- In station scope. -/
theorem execBreakHit_stops (hscope : s.brkScope i.stn i.strm = 0) (hnow : ahead = 0) : ∃ u, exec (.breakHit i ahead) s = .next u ∧
    (u.station i.stn).run = .brk ∧ (u.stream i.stn i.strm).skip = some t ∧ (u.stream i.stn i.strm).pc = (s.stream i.stn i.strm).pc ∧
    u.reg (brkReg i.strm) i.stn = s.reg (brkReg i.strm) i.stn ||| 2 ^ 31 := by
  let v := (s.modStream i.stn i.strm (fun z => { z with skip := some t })).stopStation i.stn .brk
  have hexec := execBreakHit_found ht hskip hfound
  rw [if_pos hscope, if_pos hnow] at hexec
  have hstn : (v.setHit i.stn i.strm).station i.stn = ((s.station i.stn).modStream i.strm (fun z => { z with skip := some t })).stop .brk := by
    refine (State.station_modStation_self _ i.stn (Station.stop · .brk)).trans (congrArg (Station.stop · .brk) ?_)
    exact (s.station_modStream i.stn i.stn i.strm _).trans (if_pos rfl)
  refine ⟨_, hexec, ?_, ?_, ?_, State.reg_setHit v i.stn i.strm⟩
  · rw [hstn]
    rfl
  · rw [State.stream, hstn]
    cases i.strm <;> rfl
  · rw [State.stream, State.stream, hstn]
    cases i.strm <;> rfl

/-- In wider scopes. -/
theorem execBreakHit_asks (hscope : s.brkScope i.stn i.strm ≠ 0) (hnear : ahead ≤ brkHorizon (s.brkScope i.stn i.strm)) :
    ∃ u, exec (.breakHit i ahead) s = .next u ∧
      u.station i.stn = (s.station i.stn).modStream i.strm (fun y => { y with skip := some (t + ahead) }) ∧ u.regs = s.regs ∧
      ∀ d, u.die d = if d ∈ brkDies (s.brkScope i.stn i.strm) (dieOf i.stn)
        then { s.die d with timed := (s.die d).timed ++ [(9, s.tickLen (regionOf i.stn) * (s.ref (regionOf i.stn) + ahead))] } else s.die d := by
  have hexec := execBreakHit_found ht hskip hfound
  rw [if_neg hscope, if_pos hnear] at hexec
  obtain ⟨hstns, hregs⟩ := State.timedOn_frame (s.modStream i.stn i.strm (fun z => { z with skip := some (t + ahead) }))
    (brkDies (s.brkScope i.stn i.strm) (dieOf i.stn)) 9 (s.tickLen (regionOf i.stn) * (s.ref (regionOf i.stn) + ahead))
  refine ⟨_, hexec, ?_, hregs, fun d => State.die_timedOn _ (brkDies_nodup _ _) 9 _ d⟩
  rw [State.station_congr hstns]
  exact (s.station_modStream i.stn i.stn i.strm _).trans (if_pos rfl)

end

/-! ### HIT with a freeze (R180, R181) -/

/-- A break of one stream whose word falls on the tick of a freeze has hit there. -/
def State.hitBreak (s : State) (n : Nat) (m : Strm) : State :=
  s.onlyIf ((s.tickOf n).isSome && decide ((s.stream n m).skip = s.tickOf n)) (·.setHit n m)

theorem State.hitBreaks_eq {s : State} {n : Nat} (h : (s.station n).run ≠ .brk) :
    s.hitBreaks n = [Strm.F, .B, .U].foldl (fun t m => t.hitBreak n m) s := if_neg h

theorem State.hitBreak_frame (s : State) (n : Stn) (m : Strm) : (s.hitBreak n m).stations = s.stations ∧
    s.RegsKept (s.hitBreak n m) [brkReg m] ∧ (s.hitBreak n m).tickOf n = s.tickOf n := by
  unfold State.hitBreak State.onlyIf
  split
  · have hkept : s.RegsKept (s.setHit n m) [brkReg m] := s.setReg_regsKept (by simp) (lt_count_brkReg n m) _
    exact ⟨rfl, hkept, State.tickOf_congr hkept (by cases m <;> decide) rfl rfl rfl n⟩
  · exact ⟨rfl, .of_regs rfl, rfl⟩

theorem State.foldl_hitBreak (n : Stn) {m : Strm} {t : Nat} (l : List Strm) : ∀ s : State, l.Nodup → s.tickOf n = some t →
    (s.stream n m).skip = some t → (l.foldl (fun u k => u.hitBreak n k) s).stations = s.stations ∧
    (l.foldl (fun u k => u.hitBreak n k) s).reg (brkReg m) n = if m ∈ l then s.reg (brkReg m) n ||| 2 ^ 31 else s.reg (brkReg m) n := by
  induction l with
  | nil => exact fun s _ _ _ => ⟨rfl, rfl⟩
  | cons a l ih =>
    intro s hl htick hskip
    obtain ⟨ha, hl⟩ := List.nodup_cons.1 hl
    obtain ⟨hstns, hkept, hsame⟩ := s.hitBreak_frame n a
    have hstream : (s.hitBreak n a).stream n m = s.stream n m := congrArg (Station.stream · m) (State.station_congr hstns n)
    obtain ⟨hrest, hreg⟩ := ih (s.hitBreak n a) hl (hsame.trans htick) (hstream ▸ hskip)
    refine ⟨hrest.trans hstns, hreg.trans ?_⟩
    by_cases ham : a = m
    · subst ham
      have hhit : s.hitBreak n a = s.setHit n a := if_pos (by simp [htick, hskip])
      rw [if_neg ha, if_pos List.mem_cons_self, hhit, State.reg_setHit]
    · have hother : (s.hitBreak n a).reg (brkReg m) n = s.reg (brkReg m) n :=
        hkept _ (by simpa using fun h => ham (brkReg_inj h).symm) n (lt_count_brkReg n m)
      simp only [hother, List.mem_cons, Ne.symm ham, false_or]

/-- Settles O11: the end of a wait, a break by its scope, and the freeze that a break has asked for. -/
theorem waitsResumeAndBreaksStop : Obligations.WaitsResumeAndBreaksStop := by
  unfold Obligations.WaitsResumeAndBreaksStop
  refine ⟨fun s n m u w hu hw hseen hat hframe => ?_, fun s i ahead t ht hskip hfound => ?_, fun s n m t htick hrun hskip => ?_⟩
  · obtain ⟨v, hsome, hv⟩ := hseen
    have hresume := State.waitResume_ends hu hw (WaitSt.ends_of_seen hsome hv hat hframe)
    refine ⟨_, congrArg Host.Outcome.next hresume, s.modStation_stationOnly n _, ?_⟩
    exact (s.station_modStream n n m _).trans (if_pos rfl)
  · rw [← State.brkFound_iff] at hfound
    exact ⟨execBreakHit_stops ht hskip hfound, execBreakHit_asks ht hskip hfound⟩
  · rw [State.hitBreaks_eq hrun]
    obtain ⟨hstns, hreg⟩ := State.foldl_hitBreak n [.F, .B, .U] s (by decide) htick hskip
    exact ⟨hreg.trans (if_pos (by cases m <;> decide)), hstns⟩

end Sys2Proof.Machine
end

section
/-! SUPPORT. What a fault leaves of the dies (R183, R220, R228, R229). -/

namespace Sys2Proof.Machine

/-- From `s` to `u`, no die differs but in its requests, the freeze that they ask for, fault flits and trace records. -/
def State.DiesFaulted (s u : State) : Prop := ∀ d, u.die d = { s.die d with
  reqs := (u.die d).reqs, target := (u.die d).target, joined := (u.die d).joined, flits := (u.die d).flits,
  traceIn := (u.die d).traceIn, trace := (u.die d).trace }

namespace State.DiesFaulted

variable {s t u : State}

theorem of_dies (h : u.dies = s.dies) : s.DiesFaulted u := fun d => by rw [State.die_congr h d]

theorem trans (h : s.DiesFaulted t) (g : t.DiesFaulted u) : s.DiesFaulted u := fun d => (g d).trans (by rw [h d])

theorem foldl {α : Type} {f : State → α → State} (h : ∀ (s : State) a, s.DiesFaulted (f s a)) (l : List α) (s : State) :
    s.DiesFaulted (l.foldl f s) := by
  induction l generalizing s with
  | nil => exact of_dies rfl
  | cons a l ih => exact (h s a).trans (ih _)

theorem modDie (s : State) (d : Nat) (f : DieSt → DieSt) (hf : ∀ x, f x = { x with
    reqs := (f x).reqs, target := (f x).target, joined := (f x).joined, flits := (f x).flits, traceIn := (f x).traceIn, trace := (f x).trace }) :
    s.DiesFaulted (s.modDie d f) := by
  intro e
  rw [State.die_modDie]
  split
  · next h =>
    subst h
    exact hf _
  · rfl

theorem joinFreeze (s : State) (d c bit : Nat) : s.DiesFaulted (s.joinFreeze d c bit) := by
  unfold State.joinFreeze
  dsimp only
  split
  · exact of_dies (by simp)
  · exact modDie s d (fun x => { x with
      joined := x.joined ||| 2 ^ bit
      target := if x.target.isNone && (x.frozen || x.timed.isEmpty) then some c else x.target }) (fun _ => rfl)

theorem shutReq (s : State) (d bit src : Nat) : s.DiesFaulted (s.shutReq d bit src) := by
  unfold State.shutReq
  split
  · exact of_dies rfl
  · exact (modDie s d (fun x => { x with reqs := x.reqs ++ [⟨bit, src⟩] }) (fun _ => rfl)).trans (foldl (fun t x => joinFreeze t x _ bit) _ _)

theorem sendFault (s : State) (d code : Nat) (unit : Bool) (n : Nat) : s.DiesFaulted (s.sendFault d code unit n) := by
  unfold State.sendFault
  exact (foldl (fun t x => modDie t x _ (fun _ => rfl)) _ s).trans (shutReq _ d 12 0)

/-- A fault that STN_SEQ_FAULT captures. -/
theorem seqFault (s : State) (n code cause slot : Nat) (p : OpPlace) : s.DiesFaulted (s.seqFault n code cause slot p) := by
  have hcap : s.DiesFaulted (s.captureSeq n code cause slot p) := of_dies (by
    rw [show s.captureSeq n code cause slot p = _ from s.captureSeq_capturedTo n code cause slot p])
  refine hcap.trans (.trans (t := (s.captureSeq n code cause slot p).traceFault n p) (modDie _ _ _ (fun _ => rfl)) ?_)
  exact trans (t := State.stopOn _ n _) (of_dies rfl) (sendFault _ _ _ _ _)

end State.DiesFaulted

end Sys2Proof.Machine
end

section
/-! ## Epoch boundaries of a station (O38) -/

namespace Sys2Proof.Machine

/-! ### Held writes apply (R10, R214) -/

/-- A held write that applies changes registers alone. -/
theorem State.applyOff_frame (s : State) (o : Nat) (v : Word) : (s.applyOff o v).stations = s.stations ∧ (s.applyOff o v).dies = s.dies := by
  unfold State.applyOff State.applyRwe
  split
  · split
    · rw [State.spareTo_eq, State.stampSlots]
      exact ⟨foldl_keeps State.stations (f := fun t k => t.setFld _ _ _ _ _) (fun _ _ => rfl) _ _,
        foldl_keeps State.dies (f := fun t k => t.setFld _ _ _ _ _) (fun _ _ => rfl) _ _⟩
    · exact ⟨rfl, rfl⟩
  · exact ⟨rfl, rfl⟩

theorem State.applyStation_frame (s : State) (n : Nat) : (s.applyStation n).stations = (s.modStation n (fun x => { x with rwe := [] })).stations ∧
    (s.applyStation n).dies = s.dies :=
  ⟨foldl_keeps State.stations (f := fun t (p : Nat × Word) => t.applyOff p.1 p.2) (fun t p => (t.applyOff_frame p.1 p.2).1) _ _,
    foldl_keeps State.dies (f := fun t (p : Nat × Word) => t.applyOff p.1 p.2) (fun t p => (t.applyOff_frame p.1 p.2).2) _ _⟩

/-! ### What a boundary does at one station -/

/-- From `s` to `u`, station `n` has become `x` but for the tick of its stop; no other station differs, and no die but where a fault changes
it. -/
structure State.Becomes (s u : State) (n : Nat) (x : Station) : Prop where
  station : ∃ v, u.station n = { x with stopAt := v }
  others : ∀ j, j ≠ n → u.station j = s.station j
  dies : s.DiesFaulted u

theorem State.Becomes.modStation {s u : State} {n : Nat} {x : Station} (h : s.Becomes u n x) {f : Station → Station}
    (hf : ∀ v, ∃ w, f { x with stopAt := v } = { f x with stopAt := w }) : s.Becomes (u.modStation n f) n (f x) := by
  obtain ⟨v, hv⟩ := h.station
  obtain ⟨w, hw⟩ := hf v
  refine ⟨⟨w, ?_⟩, fun j hj => ?_, h.dies⟩
  · rw [State.station_modStation_self, hv, hw]
  · rw [State.station_modStation, if_neg (Ne.symm hj), h.others j hj]

theorem State.Becomes.refl (s : State) (n : Nat) : s.Becomes s n (s.station n) := ⟨⟨_, rfl⟩, fun _ _ => rfl, .of_dies rfl⟩

theorem State.Becomes.applyStation {s u : State} {n : Nat} {x : Station} (h : s.Becomes u n x) :
    s.Becomes (u.applyStation n) n { x with rwe := [] } := by
  obtain ⟨hstns, hdies⟩ := u.applyStation_frame n
  have hdrop := h.modStation (f := fun x => { x with rwe := [] }) (fun v => ⟨v, rfl⟩)
  refine ⟨?_, fun j hj => ?_, h.dies.trans (.of_dies hdies)⟩
  · rw [State.station_congr hstns]
    exact hdrop.station
  · rw [State.station_congr hstns]
    exact hdrop.others j hj

/-! ### Armed swaps (R173, R175) -/

/-- A stream at a boundary of tick `t`: an armed swap takes effect where the other bank is ready, and is disarmed. -/
def StreamSt.atBoundary (y : StreamSt) (ready : Bool) (t : Nat) : StreamSt :=
  match y.swap with
  | none => y
  | some e => if ready then y.swapTo e t else { y with swap := none }

/-- A station whose stream `m` has met a boundary. -/
def Station.swapped (x : Station) (t : Nat) (m : Strm) : Station := x.modStream m (·.atBoundary (x.otherReady m) t)

theorem Station.swapped_none {x : Station} {m : Strm} (h : (x.stream m).swap = none) (t : Nat) : x.swapped t m = x := by
  rw [Station.swapped, Station.modStream, StreamSt.atBoundary, h]
  cases m <;> rfl

theorem Station.swapped_some {x : Station} {m : Strm} {e : Nat} (h : (x.stream m).swap = some e) (t : Nat) :
    x.swapped t m = x.modStream m (fun y => if x.otherReady m then y.swapTo e t else { y with swap := none }) := by
  rw [Station.swapped, Station.modStream, StreamSt.atBoundary, h]
  rfl

theorem State.swapStream_becomes {s u : State} {n : Stn} {x : Station} (h : s.Becomes u n x) (t : Nat) (m : Strm) :
    s.Becomes (u.swapStream n t m) n (x.swapped t m) := by
  obtain ⟨v, hv⟩ := h.station
  have hready : (u.station n).otherReady m = x.otherReady m := by
    rw [hv]
    cases m <;> rfl
  have hstream : u.stream n m = x.stream m := by
    rw [State.stream, hv]
    cases m <;> rfl
  unfold State.swapStream
  dsimp only
  rw [hready, hstream]
  cases hswap : (x.stream m).swap with
  | none =>
    rw [Station.swapped_none hswap]
    exact h
  | some e =>
    rw [Station.swapped_some hswap]
    cases x.otherReady m with
    | true => exact h.modStation (f := (·.modStream m (·.swapTo e t))) (fun w => ⟨w, by cases m <;> rfl⟩)
    | false =>
      have hoff := h.modStation (f := (·.modStream m ({ · with swap := none }))) (fun w => ⟨w, by cases m <;> rfl⟩)
      let p : OpPlace := ⟨t, (x.stream m).pc, (x.stream m).bank, (x.stream m).inRtn, m⟩
      obtain ⟨hat, -⟩ := State.seqFault_at (u.modStream n m ({ · with swap := none })) n 8 9 6 p
      obtain ⟨w, hw⟩ := hoff.station
      have hstop := hat.station
      rw [show (u.modStream n m ({ · with swap := none })).station n = _ from hw] at hstop
      exact ⟨⟨_, hstop⟩, fun j hj => (hat.others j hj).trans (hoff.others j hj),
        hoff.dies.trans (.seqFault _ _ _ _ _ _)⟩

/-- A station whose streams have met a boundary. -/
def Station.allSwapped (x : Station) (t : Nat) : Station := ((x.swapped t .F).swapped t .B).swapped t .U

/-! ### Live records are posted (R87, R214) -/

/-- A station whose live records have been posted. -/
def Station.posted (x : Station) : Station := { x with lensF := LensRec.empty, lensB := LensRec.empty, lensU := LensRec.empty }

/-- The posts of the live records of a station. -/
def Station.livePosts (x : Station) : List LensPost := [Strm.F, .B, .U].map (fun m => ⟨(x.stream m).ltag, m, x.lensOf m⟩)

theorem State.lensPost_spec (s : State) (n : Nat) (m : Strm) : let u := s.lensPost n m
    u.station n = (s.station n).setLens m LensRec.empty ∧ (∀ j, j ≠ n → u.station j = s.station j) ∧
      (u.die (dieOf n)).posts = (s.die (dieOf n)).posts ++ [⟨(s.stream n m).ltag, m, (s.station n).lensOf m⟩] := by
  refine ⟨s.station_modStation_self n (·.setLens m LensRec.empty), fun j hj => ?_, ?_⟩
  · exact (s.station_modStation n j (·.setLens m LensRec.empty)).trans (if_neg (Ne.symm hj))
  · exact congrArg DieSt.posts (State.die_modDie_self _ (dieOf n) _)

theorem State.postLive_spec (s : State) (n : Nat) : let u := s.postLive n
    u.station n = (s.station n).posted ∧ (∀ j, j ≠ n → u.station j = s.station j) ∧
      (u.die (dieOf n)).posts = (s.die (dieOf n)).posts ++ (s.station n).livePosts := by
  obtain ⟨hf, hfo, hfp⟩ := s.lensPost_spec n .F
  obtain ⟨hb, hbo, hbp⟩ := (s.lensPost n .F).lensPost_spec n .B
  obtain ⟨hu, huo, hup⟩ := ((s.lensPost n .F).lensPost n .B).lensPost_spec n .U
  rw [State.stream, hf] at hbp
  rw [hf] at hb
  rw [State.stream, hb] at hup
  rw [hb] at hu
  refine ⟨hu, fun j hj => (huo j hj).trans ((hbo j hj).trans (hfo j hj)), ?_⟩
  refine hup.trans ?_
  rw [hbp, hfp, List.append_assoc, List.append_assoc]
  rfl

theorem StreamSt.ltag_atBoundary (y : StreamSt) (ready : Bool) (t : Nat) : (y.atBoundary ready t).ltag = y.ltag := by
  unfold StreamSt.atBoundary
  split
  · rfl
  · split <;> rfl

theorem Station.livePosts_allSwapped (x : Station) (t : Nat) : (x.allSwapped t).livePosts = x.livePosts := by
  have hltag (m : Strm) : ((x.allSwapped t).stream m).ltag = (x.stream m).ltag := by
    cases m <;> exact StreamSt.ltag_atBoundary _ _ _
  have hlens (m : Strm) : (x.allSwapped t).lensOf m = x.lensOf m := by cases m <;> rfl
  simp only [Station.livePosts, hltag, hlens]

/-! ### The boundary of a station (R173, R214) -/

/-- A station that leaves its oldest boundary behind. -/
def Station.passes (x : Station) : Station := { x with
  bounds := x.bounds.drop 1, passed := x.passed + 1, rwe := [],
  ownSet := if x.ownPend then !x.ownSet else x.ownSet, ownPend := false }

/-- The part when station `n` has left its oldest boundary behind: its held writes and its map have applied. -/
def State.passedAt (s : State) (n : Nat) : State :=
  ((s.modStation n (fun x => { x with bounds := x.bounds.drop 1, passed := x.passed + 1 })).applyStation n).modStation n
    (fun x => { x with ownSet := if x.ownPend then !x.ownSet else x.ownSet, ownPend := false })

theorem State.passedAt_becomes (s : State) (n : Nat) : s.Becomes (s.passedAt n) n (s.station n).passes :=
  (((State.Becomes.refl s n).modStation (f := fun x => { x with bounds := x.bounds.drop 1, passed := x.passed + 1 })
    (fun v => ⟨v, rfl⟩)).applyStation).modStation
    (f := fun x => { x with ownSet := if x.ownPend then !x.ownSet else x.ownSet, ownPend := false }) (fun v => ⟨v, rfl⟩)

/-- A station whose streams have seen a boundary. -/
def Station.seesBoundary (x : Station) (t : Nat) : Station :=
  { x with f := x.f.seeBoundary t, b := x.b.seeBoundary t, u := x.u.seeBoundary t }

/-- The armed swaps of a station take effect or are refused. -/
def State.swapsAll (s : State) (n t : Nat) : State := [Strm.F, .B, .U].foldl (fun u m => u.swapStream n t m) s

theorem State.swapsAll_becomes {s u : State} {n : Stn} {x : Station} (h : s.Becomes u n x) (t : Nat) :
    s.Becomes (u.swapsAll n t) n (x.allSwapped t) := by
  simp only [State.swapsAll, List.foldl_cons, List.foldl_nil]
  exact State.swapStream_becomes (State.swapStream_becomes (State.swapStream_becomes h t .F) t .B) t .U

/-- The order of R214: held writes and the map, the swaps, the posts, the waits. -/
theorem State.stnBoundary_eq (s : State) (n : Nat) (b : Boundary) :
    s.stnBoundary n b = (((s.passedAt n).swapsAll n b.tick).postLive n).modStation n (·.seesBoundary b.tick) := by
  unfold State.stnBoundary State.passedAt State.swapsAll Station.seesBoundary
  rfl

/-- Seeing a boundary moves no stream. -/
theorem StreamSt.seeBoundary_eq (y : StreamSt) (t : Nat) : y.seeBoundary t = { y with wait := (y.seeBoundary t).wait } := by
  unfold StreamSt.seeBoundary
  split
  · split <;> rfl
  · rfl

/-- The station after its boundary, but for the tick of its stop. -/
def Station.afterBoundary (x : Station) (t : Nat) : Station := ((x.passes.allSwapped t).posted).seesBoundary t

theorem State.stnBoundary_spec (s : State) (n : Stn) (b : Boundary) : let u := s.stnBoundary n b
    (∃ v, u.station n = { (s.station n).afterBoundary b.tick with stopAt := v }) ∧ (∀ j, j ≠ n.val → u.station j = s.station j) ∧
      (u.die (dieOf n)).posts = (s.die (dieOf n)).posts ++ (s.station n).livePosts := by
  have hswaps := State.swapsAll_becomes (s.passedAt_becomes n) b.tick
  intro u
  generalize hw : (s.passedAt n).swapsAll n b.tick = w at hswaps
  have hu : u = (w.postLive n).modStation n (·.seesBoundary b.tick) := by rw [← hw]; exact s.stnBoundary_eq n b
  obtain ⟨⟨v, hv⟩, hbeside, hdies⟩ := hswaps
  obtain ⟨hstn, hothers, hposts⟩ := w.postLive_spec n
  have hlive : (w.station n).livePosts = (s.station n).livePosts := by
    rw [hv]
    exact Station.livePosts_allSwapped (s.station n).passes b.tick
  have hold : (w.die (dieOf n)).posts = (s.die (dieOf n)).posts := by rw [hdies]
  rw [hu]
  refine ⟨⟨v, ?_⟩, fun j hj => ?_, ?_⟩
  · rw [State.station_modStation_self, hstn, hv]
    rfl
  · rw [State.station_modStation, if_neg (Ne.symm hj), hothers j hj, hbeside j hj]
  · have hkeep : ((w.postLive n).modStation n (·.seesBoundary b.tick)).dies = (w.postLive n).dies := rfl
    rw [← hlive, ← hold, State.die_congr hkeep]
    exact hposts

/-! ### EPOCH_BOUNDARY (R212, R214) -/

/-- A station that reaches a boundary ahead of another of its die passes it alone. -/
theorem State.epochBoundary_passes {s : State} {n t : Nat} {b : Boundary} {bs : List Boundary} (ht : s.liveTick n = some t)
    (hb : (s.station n).bounds = b :: bs) (hdue : b.tick ≤ t)
    (hfirst : s.participates n = false ∨ ∃ j ∈ s.party (dieOf n), j ≠ n ∧ (s.station j).passed ≤ (s.station n).passed) :
    s.epochBoundary n = s.stnBoundary n b := by
  have hlast : (s.participates n && (s.party (dieOf n)).all (fun j => decide (j = n) || decide ((s.station n).passed + 1 ≤ (s.station j).passed))) =
      false := by
    rcases hfirst with hout | ⟨j, hj, hne, hle⟩
    · rw [hout, Bool.false_and]
    · refine Bool.and_eq_false_iff.2 (.inr (List.all_eq_false.2 ⟨j, hj, ?_⟩))
      simp only [Bool.or_eq_true, decide_eq_true_eq]
      omega
  simp only [State.epochBoundary, ht, hb, if_neg (Nat.not_lt.2 hdue), hlast, Bool.not_false, if_true]

theorem StreamSt.atBoundary_ready {y : StreamSt} {e : Nat} (h : y.swap = some e) (t : Nat) : (y.atBoundary true t).seeBoundary t = y.swapTo e t := by
  rw [StreamSt.atBoundary, h]
  rfl

theorem StreamSt.atBoundary_refused {y : StreamSt} {e : Nat} (h : y.swap = some e) (t : Nat) : let z := (y.atBoundary false t).seeBoundary t
    z.swap = none ∧ z.bank = y.bank ∧ z.pc = y.pc := by
  intro z
  have hz : z = ({ y with swap := none } : StreamSt).seeBoundary t := by
    unfold z StreamSt.atBoundary
    rw [h]
    rfl
  rw [hz, StreamSt.seeBoundary_eq]
  exact ⟨rfl, rfl, rfl⟩

/-- A stream of a station after its boundary. -/
theorem Station.stream_afterBoundary (x : Station) (t : Nat) (v : Option Nat) (m : Strm) :
    ({ x.afterBoundary t with stopAt := v } : Station).stream m = ((x.stream m).atBoundary (x.otherReady m) t).seeBoundary t := by
  cases m <;> rfl

/-! ### EPOCH_UNIT_DECISION (R213) -/

/-- A boundary whose flits break R213. -/
theorem State.epochDecide_bad {s : State} {d : Nat} {f : EpochFlit} {fs : List EpochFlit} (he : (s.die d).epochs = f :: fs)
    (hdue : s.epochDue d ((f :: fs).filter (fun e => e.tick = f.tick)) f = true)
    (hbad : s.epochBad d ((f :: fs).filter (fun e => e.tick = f.tick)) f = true) :
    s.epochDecide d = ((s.modDie d (fun y => { y with epochs := y.epochs.filter (fun e => e.tick ≠ f.tick) })).setFld .shtEpoch d 31 31 1).sendFault
      d 14 true 0 := by
  simp only [State.epochDecide, he, hdue, hbad, Bool.not_true, Bool.false_eq_true, if_false, if_true]

/-- The mismatch bit is set and the fault shutter requested. -/
theorem State.mismatch_spec (s : State) (d : Die) : let u := (s.setFld .shtEpoch d 31 31 1).sendFault d 14 true 0
    (u.die d).epochs = (s.die d).epochs ∧ u.bit .shtEpoch d 31 = true ∧ (u.die d).reqs.contains ⟨12, 0⟩ = true := by
  intro u
  obtain ⟨-, hkept⟩ := (s.setFld .shtEpoch d 31 31 1).sendFault_frame d.isLt 14 true 0
  refine ⟨?_, ?_, State.sendFault_holds _ d 14 true 0⟩
  · rw [State.DiesFaulted.sendFault (s.setFld .shtEpoch d 31 31 1) d 14 true 0 d, State.die_congr (t := s) (by simp)]
  · exact (hkept.bit (by decide) d.isLt 31).trans (s.bit_setFld .shtEpoch d 1 (by decide) (by decide))

theorem State.epochDecide_mismatch {s : State} {d : Die} {f : EpochFlit} {fs : List EpochFlit} (he : (s.die d).epochs = f :: fs)
    (hdue : s.epochDue d ((f :: fs).filter (fun e => e.tick = f.tick)) f = true)
    (hbad : s.epochBad d ((f :: fs).filter (fun e => e.tick = f.tick)) f = true) : ∃ u, exec (.epochUnitDecision d) s = .next u ∧
      (u.die d).epochs = (f :: fs).filter (fun e => e.tick ≠ f.tick) ∧ u.bit .shtEpoch d 31 = true ∧ (u.die d).reqs.contains ⟨12, 0⟩ = true := by
  obtain ⟨hsame, hset, hheld⟩ := (s.modDie d (fun y => { y with epochs := y.epochs.filter (fun e => e.tick ≠ f.tick) })).mismatch_spec d
  refine ⟨_, congrArg Host.Outcome.next (State.epochDecide_bad he hdue hbad), hsame.trans ?_, hset, hheld⟩
  rw [State.die_modDie_self, he]

/-- A boundary that is sound, outside a closing step. -/
theorem State.epochDecide_good {s : State} {d : Nat} {f : EpochFlit} {fs : List EpochFlit} (he : (s.die d).epochs = f :: fs)
    (hdue : s.epochDue d ((f :: fs).filter (fun e => e.tick = f.tick)) f = true)
    (hgood : s.epochBad d ((f :: fs).filter (fun e => e.tick = f.tick)) f = false) (hopen : s.fw.closing = false) :
    s.epochDecide d = s.modDie d (fun y => { y with epochs := y.epochs.filter (fun e => e.tick ≠ f.tick) }) := by
  have hstep : (s.modDie d (fun y => { y with epochs := y.epochs.filter (fun e => e.tick ≠ f.tick) })).fw.closing = false := hopen
  simp only [State.epochDecide, he, hdue, hgood, hstep, Bool.not_true, Bool.false_eq_true, if_false, Bool.false_and]

/-- Settles O38: what a station's boundary brings about, and the two outcomes of the epoch unit. -/
theorem epochBoundariesAndDecisions : Obligations.EpochBoundariesAndDecisions := by
  unfold Obligations.EpochBoundariesAndDecisions
  refine ⟨fun s n t b bs ht hb hdue hfirst => ?_, ?_⟩
  · obtain ⟨⟨v, hv⟩, hothers, hposts⟩ := s.stnBoundary_spec n b
    have hpass := State.epochBoundary_passes ht hb hdue hfirst
    have hstream (m : Strm) : (s.stnBoundary n b).stream n m = ((s.stream n m).atBoundary ((s.station n).otherReady m) b.tick).seeBoundary b.tick := by
      rw [State.stream, hv, Station.stream_afterBoundary]
      rfl
    refine ⟨_, congrArg Host.Outcome.next hpass, ?_, ?_, ?_, ?_, fun m e hswap hready => ?_, fun m e hswap hready => ?_, fun m => ?_, hposts, hothers⟩
    · rw [hv]
      exact congrArg (List.drop 1) hb
    · rw [hv]
      rfl
    · rw [hv]
      rfl
    · rw [hv]
      rfl
    · rw [hstream, hready, StreamSt.atBoundary_ready hswap]
    · rw [hstream, hready]
      exact StreamSt.atBoundary_refused hswap b.tick
    · rw [hv]
      cases m <;> rfl
  · intro s d f fs he g left hdue
    refine ⟨fun hbad => ?_, fun hgood hopen => ⟨_, congrArg Host.Outcome.next (State.epochDecide_good he hdue hgood hopen), ?_⟩⟩
    · exact State.epochDecide_mismatch he hdue hbad
    · rw [State.modDie, State.modDie, he]

end Sys2Proof.Machine
end
